-- ==== Sys2Proof/Word.lean ====
section
/-! DEFINITION. The word types of the CD-4600. -/
namespace Sys2Proof

/-- A doubleword: x registers, virtual addresses, CSRs (R78, R85). -/
abbrev W64 := BitVec 64

/-- A byte of memory; also an E8M0 scale code. -/
abbrev Byte := BitVec 8

/-- A 32-bit instruction word (R88). -/
abbrev InstrWord := BitVec 32

/-- The number of an x register, x0 to x31 (R78). -/
abbrev XReg := BitVec 5

/-- The number of a v register, v0 to v31; a group is named by its lowest register (R79). -/
abbrev VReg := BitVec 5

/-- The number of a mask register, m0 to m7; m0 is "unmasked" (R80). -/
abbrev MReg := BitVec 3

/-- The number of a stream register, s0 to s7 (R78). -/
abbrev SReg := BitVec 3

/-- The ordering class of a memory access (R122). -/
abbrev Cls := BitVec 4

/-- The number of a CSR (R81). -/
abbrev CsrNum := BitVec 11

end Sys2Proof
end

