-- ==== Sys2Proof/Config.lean ====
section
/-! DEFINITION. The free values of the model (log 3, log 10): constants without a body. Nothing can evaluate
them, so whatever is proved holds for every value of them. -/
namespace Sys2Proof

/-- The value before its last rounding (sign, magnitude, exponent of two) that the microprogram of a `vfn`
function delivers for operands that R71 and R168 do not decide: function number, tag code, VTYPE.CPX and the
codes of the two operands (R72, R77). The second part of a `sin.cos` has function number 16. (log 3) -/
opaque Config.composite : Nat → Nat → Bool → Nat → Nat → Bool × Nat × Int

/-- Nanoseconds of TIME that pass at a step, by the step's number (R353; log 10). -/
opaque Config.elapsedNs : Nat → Nat

/-- Clock edges of a cluster that pass at a step, by the step's number and the cluster (R85; log 10). -/
opaque Config.elapsedCycles : Nat → Nat → Nat

/-- Increments of an event counter at a step, for events that are timing of an implementation and that the
model does not hold: step number, holder (core, cluster + 256, device 320) and event code (R272, R392; log 11). -/
opaque Config.timingEvents : Nat → Nat → Nat → Nat

/-- The bytes that a failed weight load leaves (R223), by the step's number, weight set and cell (log 3). -/
opaque Config.failedWeight : Nat → Nat → Nat → Byte

/-- The fields of a sampled profile record that count timing (R394): step number and field (log 11). -/
opaque Config.sampleTiming : Nat → Nat → Nat

/-- What a trace record says of timing (R396): step number and byte (log 11). -/
opaque Config.traceByte : Nat → Nat → Byte

/-- Does a byte at or above the reported offset of a failed copy move (R214)? Step number and offset (log 3). -/
opaque Config.copyMovedAbove : Nat → Nat → Bool

/-- For a copy whose distinct virtual ranges share physical bytes, does a shared destination byte keep its old
value (R213)? Step number and offset (log 3). -/
opaque Config.copyKeepsShared : Nat → Nat → Bool

end Sys2Proof
end

