-- ==== Sys2Proof/Operand.lean ====
section
/-! DEFINITION. The operand forms of instructions and the data that events carry. -/
namespace Sys2Proof

/-- The second operand of a V3 word, by OPF (R88, R150). `vv`, `wide` and `narrow` name a v register,
`vx` an x register, `vi` a signed immediate, `vs` a stream. -/
inductive VSrc where
  | vv (b : VReg) | vx (b : XReg) | vi (imm : BitVec 5) | vs (s : SReg) | wide (b : VReg) | narrow (b : VReg)
  deriving DecidableEq, Repr

/-- The operand of `vop.mv` (R163, R205): a register group, or a stream. Which way the entries of a stream move
is decided by its direction. -/
inductive MvSrc where
  | reg (a : VReg) | strm (s : SReg)
  deriving DecidableEq, Repr

/-- The operand of `vop.splat` (R163). -/
inductive SplatSrc where
  | vx (b : XReg) | vi (imm : BitVec 5)
  deriving DecidableEq, Repr

/-- The three forms of `vop.cvt` (R164). -/
inductive CvtForm where
  | same | wide | narrow
  deriving DecidableEq, Repr

/-- The destination of `vop.fclass` (R165): ten class bits in each element of a register, or a mask bit for the
classes selected in x(B). -/
inductive ClassDst where
  | vec (d : VReg) | mask (d : MReg) (b : XReg)
  deriving DecidableEq, Repr

/-- What a response packet of the fabric carries (R340, R347): the bytes read, or a status, where
`status n` stands for the status −n. -/
inductive NgReply where
  | data (bytes : List Byte) | status (n : Nat)
  deriving DecidableEq, Repr

/-- What a write request of the fabric writes at its address (R340, R344): bytes from there on, or the bytes that an MX segment
changes, each with its place counted from the address (modulo the address space), its value and the bits of it that are written
(R50, R196). -/
inductive NgWritten where
  | run (bytes : List Byte) | segment (bytes : List (Nat × Byte × Byte))
  deriving DecidableEq, Repr

/-- The functions that set a bit of READY, and the clusters that set a bit of READYCL (R399). -/
inductive ReadyFn where
  | power | flash | clock | mem | gen | ngurid | launch | trace | cluster (c : Nat)
  deriving DecidableEq, Repr

/-- The configuration flash, as far as the spec gives it a visible effect: the device identifier (R339),
the capacity CL of a Worez link in GB (R267), RESV and THR (R359), the retired lane groups of each core as
the signed image gives them, and the retirement log of core, group and TIME (R382), the managing hosts
(R302), the routing table from identifier to ports (R339), the time master (R353), and what boot applies and software
cannot see: the bank of each core that the spare bank stands in for (R261), and the trims of the lanes (R384). -/
structure Flash where
  deviceId : Nat
  cl : Nat
  resv : Nat
  thr : Nat
  laneMap : List (Nat × Byte)
  retireLog : List (Nat × Nat × Nat)
  hosts : List Nat
  routes : List (Nat × List Nat)
  timeMaster : Nat
  repair : List (Nat × Nat)
  trims : List Nat
  deriving DecidableEq, Repr

end Sys2Proof
end

