-- ==== Sys2Proof/Syntax.lean ====
section
/-! DEFINITION. The instructions and events of the CD-4600, one constructor for each row of
spec/opcode_table.json. -/
namespace Sys2Proof

/-- The operations and events (the words first, then the events that the default order of log 2 names, then the
others). Rows with a word are decoded from it (R88 to R98); rows without one are
the events of spec/95_what_each_step_holds.md. -/
inductive Instr where
  /-- R117: Writes x(D) := x(A) + x(B) modulo 2^64. -/
  | sopAdd (d : XReg) (a : XReg) (b : XReg)
  /-- R117: Writes x(D) := x(A) - x(B) modulo 2^64. -/
  | sopSub (d : XReg) (a : XReg) (b : XReg)
  /-- R117: Writes the bitwise and of x(A) and x(B). -/
  | sopAnd (d : XReg) (a : XReg) (b : XReg)
  /-- R117: Writes the bitwise or of x(A) and x(B). -/
  | sopOr (d : XReg) (a : XReg) (b : XReg)
  /-- R117: Writes the bitwise xor of x(A) and x(B). -/
  | sopXor (d : XReg) (a : XReg) (b : XReg)
  /-- R117: Shifts x(A) left by x(B)[5:0]. -/
  | sopSll (d : XReg) (a : XReg) (b : XReg)
  /-- R117: Shifts x(A) right logically by x(B)[5:0]. -/
  | sopSrl (d : XReg) (a : XReg) (b : XReg)
  /-- R117: Shifts x(A) right arithmetically by x(B)[5:0]. -/
  | sopSra (d : XReg) (a : XReg) (b : XReg)
  /-- R117: Writes 1 if x(A) < x(B) signed, else 0. -/
  | sopSlt (d : XReg) (a : XReg) (b : XReg)
  /-- R117: Writes 1 if x(A) < x(B) unsigned, else 0. -/
  | sopSltu (d : XReg) (a : XReg) (b : XReg)
  /-- R117: Writes the signed minimum of x(A) and x(B). -/
  | sopMin (d : XReg) (a : XReg) (b : XReg)
  /-- R117: Writes the signed maximum of x(A) and x(B). -/
  | sopMax (d : XReg) (a : XReg) (b : XReg)
  /-- R117: Writes the unsigned minimum of x(A) and x(B). -/
  | sopMinu (d : XReg) (a : XReg) (b : XReg)
  /-- R117: Writes the unsigned maximum of x(A) and x(B). -/
  | sopMaxu (d : XReg) (a : XReg) (b : XReg)
  /-- R117: Writes the low 64 bits of x(A) × x(B). -/
  | sopMul (d : XReg) (a : XReg) (b : XReg)
  /-- R117: Writes the high half of the signed 128-bit product. -/
  | sopMulh (d : XReg) (a : XReg) (b : XReg)
  /-- R117: Writes the high half of the unsigned 128-bit product. -/
  | sopMulhu (d : XReg) (a : XReg) (b : XReg)
  /-- R117: Signed division truncated towards zero, with fixed results for zero divisor and overflow. -/
  | sopDiv (d : XReg) (a : XReg) (b : XReg)
  /-- R117: Unsigned division, all ones for a zero divisor. -/
  | sopDivu (d : XReg) (a : XReg) (b : XReg)
  /-- R117: Signed remainder with the sign of the dividend. -/
  | sopRem (d : XReg) (a : XReg) (b : XReg)
  /-- R117: Unsigned remainder. -/
  | sopRemu (d : XReg) (a : XReg) (b : XReg)
  /-- R117: Counts leading zero bits of x(A). -/
  | sopClz (d : XReg) (a : XReg)
  /-- R117: Counts trailing zero bits of x(A). -/
  | sopCtz (d : XReg) (a : XReg)
  /-- R117: Counts set bits of x(A). -/
  | sopPopc (d : XReg) (a : XReg)
  /-- R117: Reverses the bit order of x(A). -/
  | sopBrev (d : XReg) (a : XReg)
  /-- R117: Sign-extends the low byte of x(A). -/
  | sopSextB (d : XReg) (a : XReg)
  /-- R117: Sign-extends the low halfword of x(A). -/
  | sopSextH (d : XReg) (a : XReg)
  /-- R117: Sign-extends the low word of x(A). -/
  | sopSextW (d : XReg) (a : XReg)
  /-- R117: Zero-extends the low byte of x(A). -/
  | sopZextB (d : XReg) (a : XReg)
  /-- R117: Zero-extends the low halfword of x(A). -/
  | sopZextH (d : XReg) (a : XReg)
  /-- R117: Zero-extends the low word of x(A). -/
  | sopZextW (d : XReg) (a : XReg)
  /-- R117: Writes x(A) mod 383, the scratchpad bank of a word index. -/
  | sopMod383 (d : XReg) (a : XReg)
  /-- R117: Writes x(A) div 383, the scratchpad row of a word index. -/
  | sopDiv383 (d : XReg) (a : XReg)
  /-- R118: Adds the sign-extended I14 to x(A). -/
  | sopiAddi (d : XReg) (a : XReg) (imm : BitVec 14)
  /-- R118: Ands x(A) with the sign-extended I14. -/
  | sopiAndi (d : XReg) (a : XReg) (imm : BitVec 14)
  /-- R118: Ors x(A) with the sign-extended I14. -/
  | sopiOri (d : XReg) (a : XReg) (imm : BitVec 14)
  /-- R118: Xors x(A) with the sign-extended I14. -/
  | sopiXori (d : XReg) (a : XReg) (imm : BitVec 14)
  /-- R118: Writes 1 if x(A) is less than the immediate, signed. -/
  | sopiSlti (d : XReg) (a : XReg) (imm : BitVec 14)
  /-- R118: Writes 1 if x(A) is less than the immediate, unsigned. -/
  | sopiSltiu (d : XReg) (a : XReg) (imm : BitVec 14)
  /-- R118: Shifts x(A) left by an immediate amount. -/
  | sopiShiSll (d : XReg) (a : XReg) (sh : BitVec 6)
  /-- R118: Shifts x(A) right logically by an immediate amount. -/
  | sopiShiSrl (d : XReg) (a : XReg) (sh : BitVec 6)
  /-- R118: Shifts x(A) right arithmetically by an immediate amount. -/
  | sopiShiSra (d : XReg) (a : XReg) (sh : BitVec 6)
  /-- R118: Multiplies x(A) by the sign-extended immediate. -/
  | sopiMuli (d : XReg) (a : XReg) (imm : BitVec 14)
  /-- R119: Sets x(D) to the sign-extended I22 × 2^14. -/
  | lui (d : XReg) (imm : BitVec 22)
  /-- R119: Sets x(D) to PC plus the sign-extended I22 × 2^14. -/
  | auipc (d : XReg) (imm : BitVec 22)
  /-- R120: Loads a byte, sign-extended, after the address checks of R121. -/
  | ldB (d : XReg) (a : XReg) (cls : Cls) (off : BitVec 10)
  /-- R120: Loads a halfword, sign-extended. -/
  | ldH (d : XReg) (a : XReg) (cls : Cls) (off : BitVec 10)
  /-- R120: Loads a word, sign-extended. -/
  | ldW (d : XReg) (a : XReg) (cls : Cls) (off : BitVec 10)
  /-- R120: Loads a doubleword. -/
  | ldD (d : XReg) (a : XReg) (cls : Cls) (off : BitVec 10)
  /-- R120: Loads a byte, zero-extended. -/
  | ldBu (d : XReg) (a : XReg) (cls : Cls) (off : BitVec 10)
  /-- R120: Loads a halfword, zero-extended. -/
  | ldHu (d : XReg) (a : XReg) (cls : Cls) (off : BitVec 10)
  /-- R120: Loads a word, zero-extended. -/
  | ldWu (d : XReg) (a : XReg) (cls : Cls) (off : BitVec 10)
  /-- R120: Stores the low byte of x(S). -/
  | stB (d : XReg) (a : XReg) (cls : Cls) (off : BitVec 10)
  /-- R120: Stores the low halfword of x(S). -/
  | stH (d : XReg) (a : XReg) (cls : Cls) (off : BitVec 10)
  /-- R120: Stores the low word of x(S). -/
  | stW (d : XReg) (a : XReg) (cls : Cls) (off : BitVec 10)
  /-- R120: Stores the doubleword x(S). -/
  | stD (d : XReg) (a : XReg) (cls : Cls) (off : BitVec 10)
  /-- R124: Atomically swaps a doubleword and returns the old value. -/
  | amoSwap (d : XReg) (a : XReg) (b : XReg) (cls : Cls) (sc : BitVec 2)
  /-- R124: Atomically adds to a doubleword and returns the old value. -/
  | amoAdd (d : XReg) (a : XReg) (b : XReg) (cls : Cls) (sc : BitVec 2)
  /-- R124: Atomically ands into a doubleword. -/
  | amoAnd (d : XReg) (a : XReg) (b : XReg) (cls : Cls) (sc : BitVec 2)
  /-- R124: Atomically ors into a doubleword. -/
  | amoOr (d : XReg) (a : XReg) (b : XReg) (cls : Cls) (sc : BitVec 2)
  /-- R124: Atomically xors into a doubleword. -/
  | amoXor (d : XReg) (a : XReg) (b : XReg) (cls : Cls) (sc : BitVec 2)
  /-- R124: Atomically keeps the signed minimum of a doubleword. -/
  | amoMin (d : XReg) (a : XReg) (b : XReg) (cls : Cls) (sc : BitVec 2)
  /-- R124: Atomically keeps the signed maximum of a doubleword. -/
  | amoMax (d : XReg) (a : XReg) (b : XReg) (cls : Cls) (sc : BitVec 2)
  /-- R124: Atomically keeps the unsigned minimum of a doubleword. -/
  | amoMinu (d : XReg) (a : XReg) (b : XReg) (cls : Cls) (sc : BitVec 2)
  /-- R124: Atomically keeps the unsigned maximum of a doubleword. -/
  | amoMaxu (d : XReg) (a : XReg) (b : XReg) (cls : Cls) (sc : BitVec 2)
  /-- R124: Atomically compares a doubleword with x(D) and swaps in x(B) when equal. -/
  | amoCas (d : XReg) (a : XReg) (b : XReg) (cls : Cls) (sc : BitVec 2)
  /-- R124: Atomically swaps a 32-bit word. -/
  | amoSwapW (d : XReg) (a : XReg) (b : XReg) (cls : Cls) (sc : BitVec 2)
  /-- R124: Atomically adds to a 32-bit word. -/
  | amoAddW (d : XReg) (a : XReg) (b : XReg) (cls : Cls) (sc : BitVec 2)
  /-- R124: Atomically ands into a 32-bit word. -/
  | amoAndW (d : XReg) (a : XReg) (b : XReg) (cls : Cls) (sc : BitVec 2)
  /-- R124: Atomically ors into a 32-bit word. -/
  | amoOrW (d : XReg) (a : XReg) (b : XReg) (cls : Cls) (sc : BitVec 2)
  /-- R124: Atomically xors into a 32-bit word. -/
  | amoXorW (d : XReg) (a : XReg) (b : XReg) (cls : Cls) (sc : BitVec 2)
  /-- R124: Atomically keeps the signed minimum of a 32-bit word. -/
  | amoMinW (d : XReg) (a : XReg) (b : XReg) (cls : Cls) (sc : BitVec 2)
  /-- R124: Atomically keeps the signed maximum of a 32-bit word. -/
  | amoMaxW (d : XReg) (a : XReg) (b : XReg) (cls : Cls) (sc : BitVec 2)
  /-- R124: Atomically keeps the unsigned minimum of a 32-bit word. -/
  | amoMinuW (d : XReg) (a : XReg) (b : XReg) (cls : Cls) (sc : BitVec 2)
  /-- R124: Atomically keeps the unsigned maximum of a 32-bit word. -/
  | amoMaxuW (d : XReg) (a : XReg) (b : XReg) (cls : Cls) (sc : BitVec 2)
  /-- R124: Atomically compares and swaps a 32-bit word. -/
  | amoCasW (d : XReg) (a : XReg) (b : XReg) (cls : Cls) (sc : BitVec 2)
  /-- R127: Branches when x(A) equals x(B). -/
  | brEq (a : XReg) (b : XReg) (off : BitVec 14)
  /-- R127: Branches when x(A) differs from x(B). -/
  | brNe (a : XReg) (b : XReg) (off : BitVec 14)
  /-- R127: Branches when x(A) < x(B) signed. -/
  | brLt (a : XReg) (b : XReg) (off : BitVec 14)
  /-- R127: Branches when x(A) >= x(B) signed. -/
  | brGe (a : XReg) (b : XReg) (off : BitVec 14)
  /-- R127: Branches when x(A) < x(B) unsigned. -/
  | brLtu (a : XReg) (b : XReg) (off : BitVec 14)
  /-- R127: Branches when x(A) >= x(B) unsigned. -/
  | brGeu (a : XReg) (b : XReg) (off : BitVec 14)
  /-- R128: Jumps by a word offset and writes the link PC + 4. -/
  | jal (d : XReg) (off : BitVec 22)
  /-- R128: Jumps to x(A) plus a word offset and writes the link PC + 4. -/
  | jalr (d : XReg) (a : XReg) (off : BitVec 14)
  /-- R130: Reads a CSR into x(D) and writes x(A) into it, after the checks of R81 and R82. -/
  | sysCsrRw (d : XReg) (a : XReg) (n : BitVec 11)
  /-- R130: Reads a CSR and sets the bits of x(A) in it when A is not 0. -/
  | sysCsrRs (d : XReg) (a : XReg) (n : BitVec 11)
  /-- R130: Reads a CSR and clears the bits of x(A) in it when A is not 0. -/
  | sysCsrRc (d : XReg) (a : XReg) (n : BitVec 11)
  /-- R131: Orders earlier before later accesses of the classes in the mask, for observers on the device. -/
  | sysFenceC (mask : BitVec 16)
  /-- R132: Waits until every earlier access has performed at the given scope. -/
  | sysFenceS (sc : BitVec 2)
  /-- R137: Raises TRAPI with TVAL holding the 16-bit code. -/
  | sysTrap (code : BitVec 16)
  /-- R136: Returns from a trap, restoring mode and the shadow and resuming the vector side or jumping to EPC. -/
  | sysEret
  /-- R139: Arms the monitor on a line and waits for an event, a pre-emption, a TIME boundary or an error. -/
  | sysWfe (a : XReg)
  /-- R140: Ends the issuing agent's kernel once its vector work, engine threads and accesses have finished. -/
  | sysHalt
  /-- R141: Offers the agent's place to a waiting launch, or idles the scalar front for 32 cycles. -/
  | sysYield
  /-- R142: Writes TIME to x(D). -/
  | sysTime (d : XReg)
  /-- R142: Writes CYCLE to x(D). -/
  | sysCycle (d : XReg)
  /-- R360: Fences, reads a drain descriptor, freezes the live generation into a slot and starts the next. -/
  | sysSnap (d : XReg) (a : XReg)
  /-- R142: Writes CURGEN.GEN to x(D). -/
  | sysGen (d : XReg)
  /-- R143: Submits a 64-byte launch record to the queue of its priority and returns a status. -/
  | sysLaunch (d : XReg) (a : XReg)
  /-- R145: Invalidates translations by page and ASPACE.ID in every TLB of the device. -/
  | sysTlbFlush (a : XReg) (b : XReg)
  /-- R146: Drains in-flight accesses and writes a new ASPACE, returning the old one. -/
  | sysAspace (d : XReg) (a : XReg)
  /-- R152: At the strip boundary takes the lanes LANEPART grants, keeps the named registers and sets vl. -/
  | vcfgSetl (d : XReg) (a : XReg) (b : XReg)
  /-- R154: Installs a new VTYPE, recomputes VLMAX and clamps VL. -/
  | vcfgSettype (d : XReg) (a : XReg)
  /-- R155: Sets the type tag of every member of a register group. -/
  | vcfgTag (d : VReg) (code : BitVec 5)
  /-- R156: Writes the VLMAX that a given VTYPE would give under the current grant. -/
  | vcfgGetmax (d : XReg) (a : XReg)
  /-- R157: Sets LANEREQ.WANT and returns the old value. -/
  | vcfgLanereq (d : XReg) (a : XReg)
  /-- R160: Element-wise addition narrowed into the promoted tag. -/
  | vopAdd (d : VReg) (a : VReg) (src : VSrc) (m : MReg)
  /-- R160: Element-wise subtraction. -/
  | vopSub (d : VReg) (a : VReg) (src : VSrc) (m : MReg)
  /-- R160: Element-wise reversed subtraction. -/
  | vopRsub (d : VReg) (a : VReg) (src : VSrc) (m : MReg)
  /-- R160: Element-wise minimum. -/
  | vopMin (d : VReg) (a : VReg) (src : VSrc) (m : MReg)
  /-- R160: Element-wise maximum. -/
  | vopMax (d : VReg) (a : VReg) (src : VSrc) (m : MReg)
  /-- R160: Element-wise bitwise and. -/
  | vopAnd (d : VReg) (a : VReg) (src : VSrc) (m : MReg)
  /-- R160: Element-wise bitwise or. -/
  | vopOr (d : VReg) (a : VReg) (src : VSrc) (m : MReg)
  /-- R160: Element-wise bitwise xor. -/
  | vopXor (d : VReg) (a : VReg) (src : VSrc) (m : MReg)
  /-- R160: Element-wise left shift. -/
  | vopSll (d : VReg) (a : VReg) (src : VSrc) (m : MReg)
  /-- R160: Element-wise logical right shift. -/
  | vopSrl (d : VReg) (a : VReg) (src : VSrc) (m : MReg)
  /-- R160: Element-wise arithmetic right shift. -/
  | vopSra (d : VReg) (a : VReg) (src : VSrc) (m : MReg)
  /-- R160: Element-wise negation. -/
  | vopNeg (d : VReg) (a : VReg) (m : MReg)
  /-- R160: Element-wise absolute value. -/
  | vopAbs (d : VReg) (a : VReg) (m : MReg)
  /-- R160: Element-wise multiplication. -/
  | vopMul (d : VReg) (a : VReg) (src : VSrc) (m : MReg)
  /-- R160: Element-wise high half of the integer product. -/
  | vopMulh (d : VReg) (a : VReg) (src : VSrc) (m : MReg)
  /-- R160: Element-wise d + a × b rounded once. -/
  | vopMacc (d : VReg) (a : VReg) (src : VSrc) (m : MReg)
  /-- R160: Element-wise d - a × b rounded once. -/
  | vopNmsac (d : VReg) (a : VReg) (src : VSrc) (m : MReg)
  /-- R160: Element-wise average. -/
  | vopAvg (d : VReg) (a : VReg) (src : VSrc) (m : MReg)
  /-- R160: Element-wise rounding right shift, optionally narrowing. -/
  | vopShrRnd (d : VReg) (a : VReg) (src : VSrc) (m : MReg)
  /-- R162: Writes mask bits where the elements are equal. -/
  | vopCmpEq (d : MReg) (a : VReg) (src : VSrc) (m : MReg)
  /-- R162: Writes mask bits where the elements differ. -/
  | vopCmpNe (d : MReg) (a : VReg) (src : VSrc) (m : MReg)
  /-- R162: Writes mask bits where a < b. -/
  | vopCmpLt (d : MReg) (a : VReg) (src : VSrc) (m : MReg)
  /-- R162: Writes mask bits where a <= b. -/
  | vopCmpLe (d : MReg) (a : VReg) (src : VSrc) (m : MReg)
  /-- R163: Copies A's elements where the named mask is set. -/
  | vopMerge (d : VReg) (a : VReg) (b : MReg) (m : MReg)
  /-- R163: Copies a register group or stream entries, or appends to an output stream. -/
  | vopMv (d : VReg) (src : MvSrc) (m : MReg)
  /-- R163: Writes a scalar or immediate into every active element. -/
  | vopSplat (d : VReg) (src : SplatSrc) (m : MReg)
  /-- R164: Converts A's elements into the destination's tag, applying MX scales. -/
  | vopCvt (form : CvtForm) (d : VReg) (a : VReg) (m : MReg)
  /-- R164: Converts with saturation of integer and fixed destinations. -/
  | vopCvtSat (form : CvtForm) (d : VReg) (a : VReg) (m : MReg)
  /-- R165: Classifies float elements into ten class bits or a mask. -/
  | vopFclass (dst : ClassDst) (a : VReg) (m : MReg)
  /-- R166: Circular rotation of the pair by the angle in z. -/
  | vrotCirRot (d : VReg) (a : VReg) (start : BitVec 5) (n : BitVec 5) (g : Bool) (m : MReg)
  /-- R166: Circular vectoring: magnitude of the pair and its angle added to z. -/
  | vrotCirVec (d : VReg) (a : VReg) (start : BitVec 5) (n : BitVec 5) (g : Bool) (m : MReg)
  /-- R166: Hyperbolic rotation of the pair by z. -/
  | vrotHypRot (d : VReg) (a : VReg) (start : BitVec 5) (n : BitVec 5) (g : Bool) (m : MReg)
  /-- R166: Hyperbolic vectoring of the pair. -/
  | vrotHypVec (d : VReg) (a : VReg) (start : BitVec 5) (n : BitVec 5) (g : Bool) (m : MReg)
  /-- R166: Linear rotation: y + x·z, exact on int32. -/
  | vrotLinRot (d : VReg) (a : VReg) (start : BitVec 5) (n : BitVec 5) (g : Bool) (m : MReg)
  /-- R166: Linear vectoring: z + y/x. -/
  | vrotLinVec (d : VReg) (a : VReg) (start : BitVec 5) (n : BitVec 5) (g : Bool) (m : MReg)
  /-- R167: Writes cosine and sine of the angle operand as a pair. -/
  | vfnSinCos (d : VReg) (a : VReg) (m : MReg)
  /-- R167: Element-wise exponential. -/
  | vfnExp (d : VReg) (a : VReg) (m : MReg)
  /-- R167: Element-wise power of two. -/
  | vfnExp2 (d : VReg) (a : VReg) (m : MReg)
  /-- R167: Element-wise natural logarithm. -/
  | vfnLn (d : VReg) (a : VReg) (m : MReg)
  /-- R167: Element-wise base-2 logarithm. -/
  | vfnLog2 (d : VReg) (a : VReg) (m : MReg)
  /-- R167: Element-wise square root. -/
  | vfnSqrt (d : VReg) (a : VReg) (m : MReg)
  /-- R167: Element-wise reciprocal square root. -/
  | vfnRsqrt (d : VReg) (a : VReg) (m : MReg)
  /-- R167: Element-wise reciprocal. -/
  | vfnRecip (d : VReg) (a : VReg) (m : MReg)
  /-- R167: Element-wise division. -/
  | vfnDiv (d : VReg) (a : VReg) (src : VSrc) (m : MReg)
  /-- R167: Element-wise two-argument arctangent in turns. -/
  | vfnAtan2 (d : VReg) (a : VReg) (src : VSrc) (m : MReg)
  /-- R167: Element-wise hypotenuse. -/
  | vfnHypot (d : VReg) (a : VReg) (src : VSrc) (m : MReg)
  /-- R167: Element-wise hyperbolic tangent. -/
  | vfnTanh (d : VReg) (a : VReg) (m : MReg)
  /-- R167: Element-wise logistic sigmoid. -/
  | vfnSigm (d : VReg) (a : VReg) (m : MReg)
  /-- R167: Element-wise GELU. -/
  | vfnGelu (d : VReg) (a : VReg) (m : MReg)
  /-- R169: Element-wise exp(A - B) with the softmax rules for infinities. -/
  | vfnSoftx (d : VReg) (a : VReg) (src : VSrc) (m : MReg)
  /-- R170: Runs user microprogram slot FN - 32 on each active element. -/
  | vfnUfn (slot : BitVec 4) (d : VReg) (a : VReg) (src : VSrc) (m : MReg)
  /-- R173: Sums the active elements with the initial value by the pairwise tree. -/
  | vredRedsum (d : VReg) (a : VReg) (src : VSrc) (m : MReg)
  /-- R173: Sums the active elements in index order. -/
  | vredRedsumOrd (d : VReg) (a : VReg) (src : VSrc) (m : MReg)
  /-- R172: Widening sum of the active elements. -/
  | vredRedsumW (d : VReg) (a : VReg) (b : VReg) (m : MReg)
  /-- R172: Maximum of the initial value and the active elements. -/
  | vredRedmax (d : VReg) (a : VReg) (src : VSrc) (m : MReg)
  /-- R172: Minimum of the initial value and the active elements. -/
  | vredRedmin (d : VReg) (a : VReg) (src : VSrc) (m : MReg)
  /-- R172: Bitwise and reduction. -/
  | vredRedand (d : VReg) (a : VReg) (src : VSrc) (m : MReg)
  /-- R172: Bitwise or reduction. -/
  | vredRedor (d : VReg) (a : VReg) (src : VSrc) (m : MReg)
  /-- R174: Inclusive prefix sum over the active elements. -/
  | vredScanAdd (d : VReg) (a : VReg) (src : VSrc) (m : MReg)
  /-- R174: Inclusive prefix maximum over the active elements. -/
  | vredScanMax (d : VReg) (a : VReg) (src : VSrc) (m : MReg)
  /-- R175: Ands two mask registers bit by bit. -/
  | vredMaskAnd (d : MReg) (a : MReg) (b : MReg) (m : MReg)
  /-- R175: Ors two mask registers bit by bit. -/
  | vredMaskOr (d : MReg) (a : MReg) (b : MReg) (m : MReg)
  /-- R175: Xors two mask registers bit by bit. -/
  | vredMaskXor (d : MReg) (a : MReg) (b : MReg) (m : MReg)
  /-- R175: Ands a mask with the complement of another. -/
  | vredMaskAndn (d : MReg) (a : MReg) (b : MReg) (m : MReg)
  /-- R176: Writes the index of the first active set mask bit, or -1. -/
  | vredMaskFirst (d : XReg) (a : MReg) (m : MReg)
  /-- R176: Writes the number of active set mask bits. -/
  | vredMaskCount (d : XReg) (a : MReg) (m : MReg)
  /-- R176: Rewrites a mask to select the active bits before the first set bit. -/
  | vredMaskCutoff (a : MReg) (m : MReg)
  /-- R176: Rewrites a mask to select the active bits up to and including the first set bit. -/
  | vredMaskThru (a : MReg) (m : MReg)
  /-- R177: Writes each active element's index as an unsigned integer. -/
  | vredIota (d : VReg) (m : MReg)
  /-- R198: Slides elements up by an offset. -/
  | vpermSlideup (d : VReg) (a : VReg) (src : VSrc) (m : MReg)
  /-- R198: Slides elements down by an offset. -/
  | vpermSlidedown (d : VReg) (a : VReg) (src : VSrc) (m : MReg)
  /-- R198: Slides up by one, inserting a scalar at element 0. -/
  | vpermSlide1up (d : VReg) (a : VReg) (b : XReg) (m : MReg)
  /-- R198: Slides down by one, inserting a scalar at element vl - 1. -/
  | vpermSlide1down (d : VReg) (a : VReg) (b : XReg) (m : MReg)
  /-- R199: Gathers elements of A by index. -/
  | vpermGather (d : VReg) (a : VReg) (src : VSrc) (m : MReg)
  /-- R198: Packs the elements selected by a mask to the front. -/
  | vpermCompress (d : VReg) (a : VReg) (b : MReg)
  /-- R198: Spreads consecutive elements to the positions a mask selects. -/
  | vpermExpand (d : VReg) (a : VReg) (b : MReg)
  /-- R200: Transposes the first vl elements viewed as rows of a given length. -/
  | vpermReshape (d : VReg) (a : VReg) (b : XReg)
  /-- R198: Moves element x(B) of A into element 0 of D. -/
  | vpermExtract (d : VReg) (a : VReg) (b : XReg) (m : MReg)
  /-- R198: Writes element 0 of A into element x(B) of D. -/
  | vpermInsert (d : VReg) (a : VReg) (b : XReg) (m : MReg)
  /-- R184: Unit-stride vector load, element by element with precise faults. -/
  | vldUnit (d : VReg) (a : XReg) (cls : Cls) (h : BitVec 2) (m : MReg)
  /-- R180: Strided vector load. -/
  | vldStr (d : VReg) (a : XReg) (b : XReg) (cls : Cls) (h : BitVec 2) (m : MReg)
  /-- R181: Two-dimensional vector load. -/
  | vld2d (d : VReg) (a : XReg) (b : XReg) (cls : Cls) (h : BitVec 2) (m : MReg)
  /-- R182: Indexed vector load (gather). -/
  | vldIdx (d : VReg) (a : XReg) (b : VReg) (cls : Cls) (h : BitVec 2) (m : MReg)
  /-- R186: Fault-first unit-stride load that trims VL at a later fault. -/
  | vldFf (d : VReg) (a : XReg) (cls : Cls) (h : BitVec 2) (m : MReg)
  /-- R195: Vector load along the walk of a shape record, setting the tag. -/
  | vldShape (d : VReg) (a : XReg) (b : VReg) (cls : Cls) (h : BitVec 2) (m : MReg)
  /-- R184: Unit-stride vector store. -/
  | vstUnit (d : VReg) (a : XReg) (cls : Cls) (h : BitVec 2) (m : MReg)
  /-- R180: Strided vector store. -/
  | vstStr (d : VReg) (a : XReg) (b : XReg) (cls : Cls) (h : BitVec 2) (m : MReg)
  /-- R181: Two-dimensional vector store. -/
  | vst2d (d : VReg) (a : XReg) (b : XReg) (cls : Cls) (h : BitVec 2) (m : MReg)
  /-- R182: Indexed vector store (scatter). -/
  | vstIdx (d : VReg) (a : XReg) (b : VReg) (cls : Cls) (h : BitVec 2) (m : MReg)
  /-- R196: Stores a group as packed MX segments, each written indivisibly. -/
  | vstMx (d : VReg) (a : XReg) (cls : Cls) (h : BitVec 2) (m : MReg)
  /-- R195: Vector store along the walk of a shape record. -/
  | vstShape (d : VReg) (a : XReg) (b : VReg) (cls : Cls) (h : BitVec 2) (m : MReg)
  /-- R203: Binds an input stream from a shape record and forks its transfer thread. -/
  | strmBind (d : SReg) (a : VReg)
  /-- R203: Binds an output stream from a shape record and forks its transfer thread. -/
  | strmBindOut (d : SReg) (a : VReg)
  /-- R207: Unbinds a stream, discarding input or writing out buffered output. -/
  | strmFree (d : SReg)
  /-- R206: Writes a stream's bound, direction, fault and index state to x(D). -/
  | strmStatus (d : XReg) (a : SReg)
  /-- R207: Advances a stream's consumed index by x(A). -/
  | strmSkip (d : SReg) (a : XReg)
  /-- R210: Loads bytes from memory into the scale registers. -/
  | sclLd (a : XReg) (b : XReg)
  /-- R210: Stores scale registers to memory. -/
  | sclSt (a : XReg) (b : XReg)
  /-- R211: Copies scale registers into a vector group as uint8. -/
  | sclTov (d : VReg)
  /-- R211: Copies vector elements into the scale registers. -/
  | sclFromv (a : VReg)
  /-- R213: Forks an engine thread that copies bytes and reports through a token. -/
  | copyCopy (d : XReg) (a : XReg) (b : XReg) (cls : Cls)
  /-- R213: Forks an engine thread that copies a two-dimensional block. -/
  | copyCopy2d (d : XReg) (a : XReg) (b : XReg) (cls : Cls)
  /-- R213: Forks an engine thread that fills bytes with a pattern. -/
  | copyFill (d : XReg) (a : XReg) (b : XReg) (cls : Cls)
  /-- R222: Forks an engine thread that loads one part of a weight set. -/
  | matWld (d : XReg) (a : XReg) (ws : BitVec 4)
  /-- R228: Enters a matrix multiply-accumulate into the drone's array queue. -/
  | matMma (fd : BitVec 2) (ac : BitVec 1) (ws : BitVec 4) (sp : BitVec 2) (last : Bool) (first : Bool)
  /-- R232: Sets the anchor that the next opening MMA of a tile latches. -/
  | matAnchor (ac : BitVec 1) (a : XReg)
  /-- R235: Reads BELSTAT after earlier MMAs complete, optionally clearing FULL. -/
  | matBel (d : XReg) (clr : Bool)
  /-- R227: Writes the presence state of a slot and the tile quarters to x(D). -/
  | matSlot (d : XReg) (fd : BitVec 2)
  /-- R225: Writes part of one A row into a feed slot once it is empty. -/
  | matFeed (fd : BitVec 2) (a : VReg) (b : XReg)
  /-- R226: Closes a feed slot with its type and scales and sets it full. -/
  | matFeedEnd (fd : BitVec 2) (code : BitVec 5)
  /-- R237: Converts part of one row of the core's tile quarter into a vector once it is ready. -/
  | matDrain (d : VReg) (a : XReg) (ac : BitVec 1)
  /-- R238: Zeroes the core's quarter, frees its bellows entries and sets it empty. -/
  | matDrainEnd (ac : BitVec 1)
  /-- R348: Sends a launch record to a queue of another device of the domain. -/
  | fabEnq (d : XReg) (a : XReg) (b : XReg) (cls : Cls)
  /-- R349: Forks an atomic add of an anchored value into a 16-byte slot. -/
  | fabAdd96 (d : XReg) (a : XReg) (b : XReg) (cls : Cls)
  /-- R350: Forks a write of a 64-bit notify word to a domain address. -/
  | fabNotify (a : XReg) (b : XReg) (cls : Cls)
  /-- R248: A completed vector instruction commits in order, freeing its physical entries and history entry. -/
  | vectorCommit (k : Nat)
  /-- R285: A read performs at its point of performance, takes the UECC test on the data as it then stands, returns its generation and releases the pending register. -/
  | memReadPerform (ag : Nat) (i : Nat)
  /-- R362: A write performs at its point of performance with its generation, copy-on-write or as a late write. -/
  | memWritePerform (ag : Nat) (i : Nat)
  /-- R139: A waiting sys.wfe returns on the monitor event, a pre-emption request, a TIME boundary or an error report. -/
  | wfeWake (ag : Nat)
  /-- R140: A halting kernel counts as halted once its vector work, engine threads and accesses have finished. -/
  | kernelHaltComplete (ag : Nat)
  /-- R248: Vector issue takes the oldest VIQ entry of a context when fewer than 16 are in flight, physical entries are free and its own waits are met, making the R98 word tests there. -/
  | vectorIssue (k : Nat)
  /-- R203: An input stream's transfer thread fetches entries ahead of consumption, holding any fault. -/
  | streamFetch (k : Nat) (j : SReg)
  /-- R205: An output stream's transfer thread writes buffered entries, holding any fault. -/
  | streamWriteback (k : Nat) (j : SReg)
  /-- R229: An MMA finishes its passes, empties its slots and with LAST sets the quarters ready. -/
  | mmaComplete (c : Nat)
  /-- R234: A stalled MMA continues when an entry frees, or traps BELFULL when the condition fails. -/
  | bellowsStallResume (c : Nat)
  /-- R255: An engine thread starts accessing once every overlapping entry has left the range checker. -/
  | engineThreadStart (t : Nat)
  /-- R223: A weight load ends, leaving the set valid or invalid, and writes its token. -/
  | wldComplete (t : Nat)
  /-- R349: The add96 thread updates the slot indivisibly at its home and returns the status. -/
  | add96Perform (t : Nat)
  /-- R214: A copy or fill thread ends and writes its completion value into the token register. -/
  | copyComplete (t : Nat)
  /-- R317: Every agent of a victim stops and its save area is written, then the record returns to its queue. -/
  | launchStop (seq : Nat)
  /-- R310: When every agent has halted the device adds CWINC to the completion word. -/
  | launchEnd (seq : Nat)
  /-- R307: The head record is placed when units for all of it are idle, starting its agents. -/
  | launchPlace
  /-- R363: Generation G is sealed when the sweep is done and all its writes have performed, and fulling starts. -/
  | seal (slot : Nat)
  /-- R365: Fulling finishes or fails, STATE gets DONE and the notify word is sent. -/
  | fullingEnd (slot : Nat)
  /-- R367: The hold word is read after fulling or when its line is written, releasing the slot at 0. -/
  | holdWordRead (slot : Nat)
  /-- R305: The device reads an after-dependency word at acceptance or when its line is written. -/
  | launchEligibilityRead (seq : Nat)
  /-- R317: When every save write has performed, the victim's units become idle and its record is requeued. -/
  | saveAreaWritten (seq : Nat)
  /-- R324: A resumed record is placed, its areas read and restored, and all agents resume together. -/
  | launchRestart (seq : Nat)
  /-- R141: After 32 idle cycles of sys.yield the scalar front issues again. -/
  | yieldIdleEnd (ag : Nat)
  /-- R249: The vector half of vcfg.setl waits for leaving and entering lane groups, moves kept registers and switches GRANT. -/
  | setlGrantSwitch (k : Nat)
  /-- R366: A write stalled for want of a reserve batt proceeds when a batt is freed. -/
  | cowStallResume (ag : Nat) (i : Nat)
  /-- R329: A page walk finishes, filling the TLBs or reporting its fault to every waiting access. -/
  | pageWalkComplete (ag : Nat) (va : W64)
  /-- R228: An MMA at the head of the array queue starts once its slots, weight set and tile are ready. -/
  | mmaStart (c : Nat)
  /-- R305: The after-dependency word is reread at least once every 2^20 ns. -/
  | aftdepPollTimer (seq : Nat)
  /-- R312: The device chooses pre-emptible victims so that the head can be placed. -/
  | preemptByPriority
  /-- R313: The lane arbiter recomputes targets and writes LANEPART after a placement, halt, pre-emption, LANEREQ write or parking change. -/
  | laneArbiterRecompute (g : Nat)
  /-- R367: The hold word is reread at least once every 2^20 ns. -/
  | holdPollTimer (slot : Nat)
  /-- R388: A droop at or above DROOPTH stretches six cycles and opens a 64-cycle half-rate window. -/
  | droopAlarm (c : Nat) (mv : Nat)
  /-- R388: After six stretched cycles the cluster returns to normal period inside the half-rate window. -/
  | stretchEnd (c : Nat)
  /-- R388: After 64 cycles full vector issue rate resumes. -/
  | halfRateWindowEnd (c : Nat)
  /-- R385: Every 100 µs the power controller parks or unparks one lane group per core. -/
  | powerControlTick (mw : Nat) (mdeg : Nat)
  /-- R387: Every 10 µs each armed subscription's sensor is sampled and crossings are notified. -/
  | sensorSample (sensor : Nat) (value : Nat)
  /-- R387: At the end of a subscription's 1 ms window a deferred crossing is written if the state changed. -/
  | notifyWindowEnd (k : Nat)
  /-- R382: A lane group whose error count reaches its limit is retired and logged. -/
  | laneRetire (g : Nat) (j : Nat)
  /-- R381: The memory controllers read every main-memory line at least once a day. -/
  | patrolScrub (line : Nat)
  /-- R381: An idle array scrubs one weight-set cell row, at least one per 1,024 cycles. -/
  | weightScrub (c : Nat) (ws : Nat) (row : Nat)
  /-- R395: After POST records following the trigger the trace stops with DONE set. -/
  | tracePostEnd
  /-- R353: At least every 2^20 ns the device exchanges timing packets and adjusts its TIME rate. -/
  | timeSyncTimer
  /-- R353: A timing packet from the time master is received and used for synchronisation. -/
  | timingPacket (master : W64) (rtt : W64)
  /-- R344: A read request packet arrives and is performed once at the owning device. -/
  | ngReadRequest (src : Nat) (rseq : Nat) (run : Nat × Nat) (more : List (Nat × Nat))
  /-- R344: A write packet arrives and performs under the destination's live generation. -/
  | ngWrite (src : Nat) (rseq : Nat) (addr : Nat) (what : NgWritten)
  /-- R344: An amo packet arrives and performs atomically at the home. -/
  | ngAmo (src : Nat) (rseq : Nat) (addr : Nat) (aop : BitVec 5) (op : W64) (expect : W64)
  /-- R349: An add96 packet arrives and updates the slot indivisibly. -/
  | ngAdd96 (src : Nat) (rseq : Nat) (addr : Nat) (v : BitVec 128)
  /-- R350: A notify packet arrives and writes its word, or is dropped and counted. -/
  | ngNotify (src : Nat) (rseq : Nat) (addr : Nat) (v : W64)
  /-- R348: An enqueue packet arrives and its record is checked and queued with a status. -/
  | ngEnqueue (src : Nat) (rseq : Nat) (host : Bool) (queue : Nat) (bytes : List Byte)
  /-- R342: A response packet arrives and completes the waiting access or status. -/
  | ngResponse (rseq : Nat) (reply : NgReply)
  /-- R341: An acknowledgement frees replay-buffer flits. -/
  | ngAck (port : Nat) (upTo : Nat)
  /-- R341: A CRC error makes the sender replay stored flits from the sequence number. -/
  | ngCrcReplay (port : Nat) (fromSeq : Nat)
  /-- R341: After 32 replays of one flit the port is taken down and its packets resent elsewhere. -/
  | ngPortDown (port : Nat)
  /-- R342: With no port left to the destination, requests in flight end with errors or are dropped. -/
  | ngRouteLost (dev : Nat)
  /-- R27: Power-good starts a boot that resets state and applies the configuration flash. -/
  | powerGoodBoot
  /-- R399: A function finishes bring-up and sets its READY or READYCL bit. -/
  | bringupFunctionReady (fn : ReadyFn)
  /-- R85: A CSR write of VTYPE acts as vcfg.settype. -/
  | vtypeCsrWrite (v : W64)
  /-- R86: A CSR write of ASPACE acts as sys.aspace, drain included. -/
  | aspaceCsrWrite (v : W64)
  /-- R87: A write of LANEPART reassigns lane groups, with retired and reserved codes checked. -/
  | lanepartWrite (v : W64)
  /-- R313: A write of LANEREQ changes WANT and prompts the lane arbiter. -/
  | lanereqCsrWrite (v : W64)
  /-- R87: Writing one to BELSTAT.FULL clears it. -/
  | belstatFullClear (v : W64)
  /-- R76: A read or write of UFNDATA moves a micro-op and increments UFNADDR.INDEX. -/
  | ufndataAccess (wr : Option W64)
  /-- R76: Setting a VALID bit checks for an end; clearing waits for running instructions of the slot. -/
  | ufnvalidWrite (v : W64)
  /-- R386: An ENABLE bit rising reads and latches the subscription record and arms it. -/
  | notifybaseWrite (v : W64)
  /-- R392: A write of a counter selector checks the event code and resumes a frozen counter. -/
  | evsWrite (n : BitVec 11) (v : W64)
  /-- R391: A write of BPRUN resumes frozen contexts or the drone. -/
  | bprun (v : W64)
  /-- R397: Writing FIRE fires the SOFT trigger source. -/
  | trgctlFire (v : W64)
  /-- R394: Setting SMPCTL.EN clears COUNT and FULL and starts sampling. -/
  | smpctlWrite (v : W64)
  /-- R395: Setting RUN clears DONE, NEXT and WRAP and starts recording. -/
  | trcctlWrite (v : W64)
  /-- R391: A supervisor read of TRCDATA returns a trace word and advances TRCADDR. -/
  | trcdataRead
  /-- R82: A write of a CSR with no behaviour of its own, after the access checks. -/
  | csrWriteGeneric (n : BitVec 11) (v : W64)
  /-- R401: Sideband command 0x01 returns READY and READYCL. -/
  | smbReadReady
  /-- R401: Sideband command 0x02 reads or sets the power limit. -/
  | smbPowerLimit (setTo : Option Nat)
  /-- R401: Sideband command 0x03 returns a sensor's reading. -/
  | smbSensorRead (code : Nat)
  /-- R401: Sideband command 0x04 holds the device in reset or releases it. -/
  | smbReset (value : Nat)
  /-- R401: Sideband command 0x05 fires the SOFT trigger. -/
  | smbFireSoft
  /-- R401: Sideband command 0x07 writes a signed configuration flash image while in reset. -/
  | smbFlashImage (image : Flash) (signed : Bool)
  /-- R402: The JTAG BYPASS instruction. -/
  | jtagBypass
  /-- R402: The JTAG IDCODE instruction returns 0x1C46_0AB5. -/
  | jtagIdcode
  /-- R402: The JTAG SAMPLE/PRELOAD instruction. -/
  | jtagSamplePreload
  /-- R402: The JTAG EXTEST instruction, only while held in reset. -/
  | jtagExtest
  /-- R353: A route to a destination or to the time master returns, and the device resumes TIME correction and use of that route. -/
  | ngRouteReturn (dev : Nat)
  deriving DecidableEq, Repr

end Sys2Proof
end

