-- ==== Sys2Proof/WellFormed.lean ====
section
/-! DEFINITION. The static checks of an instruction: what the word alone must satisfy beyond its field widths
(R58, R64, R80, R89, R93 to R98, R158, R167, R171, R198, R212, R222, R228, R349). -/
namespace Sys2Proof

/-- The OPF code of a second operand (R88). -/
def VSrc.opf : VSrc → BitVec 3
  | .vv _ => 0 | .vx _ => 1 | .vi _ => 2 | .vs _ => 3 | .wide _ => 4 | .narrow _ => 5

/-- Is the form one of the OPF values in a bit mask (R93)? -/
def VSrc.accepted (mask : Nat) (s : VSrc) : Bool := mask.testBit s.opf.toNat

/-- A negative immediate is refused by every permute that takes vi (R198). -/
def VSrc.immOk : VSrc → Bool
  | .vi imm => !imm.getLsbD 4
  | _ => true

/-- The slots of a `mat.mma` (R228): SP 3 is reserved; 4 of 8 needs an even slot and 2 of 8 slot 0. -/
def mmaSlotsOk (fd sp : BitVec 2) : Bool :=
  match sp.toNat with
  | 0 => true
  | 1 => !fd.getLsbD 0
  | 2 => fd = 0
  | _ => false

/-- `copy.copy2d`: A and B name even pairs, and D is neither 0 nor a member of a pair (R95, R212). -/
def pairsOk (d a b : XReg) : Bool :=
  !a.getLsbD 0 && !b.getLsbD 0 && d ≠ 0 && d ≠ a && d ≠ a + 1 && d ≠ b && d ≠ b + 1

/-- Is an instruction one that a word can encode? Events carry no word and are well formed. -/
def WellFormed : Instr → Bool
  | .vopAdd _ _ s _ => s.accepted 31
  | .vopSub _ _ s _ => s.accepted 31
  | .vopRsub _ _ s _ => s.accepted 15
  | .vopMin _ _ s _ => s.accepted 15
  | .vopMax _ _ s _ => s.accepted 15
  | .vopAnd _ _ s _ => s.accepted 15
  | .vopOr _ _ s _ => s.accepted 15
  | .vopXor _ _ s _ => s.accepted 15
  | .vopSll _ _ s _ => s.accepted 15
  | .vopSrl _ _ s _ => s.accepted 47
  | .vopSra _ _ s _ => s.accepted 47
  | .vopMul _ _ s _ => s.accepted 31
  | .vopMulh _ _ s _ => s.accepted 11
  | .vopMacc _ _ s _ => s.accepted 27
  | .vopNmsac _ _ s _ => s.accepted 27
  | .vopAvg _ _ s _ => s.accepted 11
  | .vopShrRnd _ _ s _ => s.accepted 47
  | .vopCmpEq d _ s _ => s.accepted 15 && d ≠ 0
  | .vopCmpNe d _ s _ => s.accepted 15 && d ≠ 0
  | .vopCmpLt d _ s _ => s.accepted 15 && d ≠ 0
  | .vopCmpLe d _ s _ => s.accepted 15 && d ≠ 0
  | .vopCvtSat f _ _ _ => f ≠ .wide
  | .vopFclass (.mask d _) _ _ => d ≠ 0
  | .vopFclass (.vec _) _ _ => true
  | .vrotCirRot _ _ s n g _ => decide (s.toNat + n.toNat + 1 ≤ 32) && (!g || s = 0)
  | .vrotCirVec _ _ s n g _ => decide (s.toNat + n.toNat + 1 ≤ 32) && (!g || s = 0)
  | .vrotHypRot _ _ s n g _ => decide (s.toNat + n.toNat + 1 ≤ 32) && (!g || s = 0)
  | .vrotHypVec _ _ s n g _ => decide (s.toNat + n.toNat + 1 ≤ 32) && (!g || s = 0)
  | .vrotLinRot _ _ s n g _ => decide (s.toNat + n.toNat + 1 ≤ 32) && !g
  | .vrotLinVec _ _ s n g _ => decide (s.toNat + n.toNat + 1 ≤ 32) && !g
  | .vfnDiv _ _ s _ => s.accepted 11
  | .vfnAtan2 _ _ s _ => s.accepted 11
  | .vfnHypot _ _ s _ => s.accepted 11
  | .vfnSoftx _ _ s _ => s.accepted 11
  | .vfnUfn _ _ _ s _ => s.accepted 11
  | .vredRedsum _ _ s _ => s.accepted 3
  | .vredRedsumOrd _ _ s _ => s.accepted 3
  | .vredRedmax _ _ s _ => s.accepted 3
  | .vredRedmin _ _ s _ => s.accepted 3
  | .vredRedand _ _ s _ => s.accepted 3
  | .vredRedor _ _ s _ => s.accepted 3
  | .vredScanAdd _ _ s _ => s.accepted 3
  | .vredScanMax _ _ s _ => s.accepted 3
  | .vredMaskAnd d _ _ _ => d ≠ 0
  | .vredMaskOr d _ _ _ => d ≠ 0
  | .vredMaskXor d _ _ _ => d ≠ 0
  | .vredMaskAndn d _ _ _ => d ≠ 0
  | .vredMaskCutoff a _ => a ≠ 0
  | .vredMaskThru a _ => a ≠ 0
  | .vpermSlideup _ _ s _ => s.accepted 6 && s.immOk
  | .vpermSlidedown _ _ s _ => s.accepted 6 && s.immOk
  | .vpermGather _ _ s _ => s.accepted 7 && s.immOk
  | .vldUnit _ _ _ h _ => h ≠ 3
  | .vldFf _ _ _ h _ => h ≠ 3
  | .vldStr _ _ _ _ h _ => h ≠ 3
  | .vld2d _ _ b _ h _ => h ≠ 3 && !b.getLsbD 0
  | .vldIdx _ _ _ _ h _ => h ≠ 3
  | .vldShape _ _ _ _ h _ => h ≠ 3
  | .vstUnit _ _ _ h _ => h ≠ 3
  | .vstMx _ _ _ h _ => h ≠ 3
  | .vstStr _ _ _ _ h _ => h ≠ 3
  | .vst2d _ _ b _ h _ => h ≠ 3 && !b.getLsbD 0
  | .vstIdx _ _ _ _ h _ => h ≠ 3
  | .vstShape _ _ _ _ h _ => h ≠ 3
  | .copyCopy d a b _ => d ≠ 0 && d ≠ a && d ≠ b
  | .copyFill d a b _ => d ≠ 0 && d ≠ a && d ≠ b
  | .copyCopy2d d a b _ => pairsOk d a b
  | .matWld d a _ => d ≠ 0 && d ≠ a
  | .matMma fd _ _ sp _ _ => mmaSlotsOk fd sp
  | .fabAdd96 d a b _ => !b.getLsbD 0 && d ≠ a && d ≠ b && d ≠ b + 1
  | .sysFenceC mask => mask ≠ 0
  | .sopAdd _ _ _ => true
  | .sopSub _ _ _ => true
  | .sopAnd _ _ _ => true
  | .sopOr _ _ _ => true
  | .sopXor _ _ _ => true
  | .sopSll _ _ _ => true
  | .sopSrl _ _ _ => true
  | .sopSra _ _ _ => true
  | .sopSlt _ _ _ => true
  | .sopSltu _ _ _ => true
  | .sopMin _ _ _ => true
  | .sopMax _ _ _ => true
  | .sopMinu _ _ _ => true
  | .sopMaxu _ _ _ => true
  | .sopMul _ _ _ => true
  | .sopMulh _ _ _ => true
  | .sopMulhu _ _ _ => true
  | .sopDiv _ _ _ => true
  | .sopDivu _ _ _ => true
  | .sopRem _ _ _ => true
  | .sopRemu _ _ _ => true
  | .sopClz _ _ => true
  | .sopCtz _ _ => true
  | .sopPopc _ _ => true
  | .sopBrev _ _ => true
  | .sopSextB _ _ => true
  | .sopSextH _ _ => true
  | .sopSextW _ _ => true
  | .sopZextB _ _ => true
  | .sopZextH _ _ => true
  | .sopZextW _ _ => true
  | .sopMod383 _ _ => true
  | .sopDiv383 _ _ => true
  | .sopiAddi _ _ _ => true
  | .sopiAndi _ _ _ => true
  | .sopiOri _ _ _ => true
  | .sopiXori _ _ _ => true
  | .sopiSlti _ _ _ => true
  | .sopiSltiu _ _ _ => true
  | .sopiShiSll _ _ _ => true
  | .sopiShiSrl _ _ _ => true
  | .sopiShiSra _ _ _ => true
  | .sopiMuli _ _ _ => true
  | .lui _ _ => true
  | .auipc _ _ => true
  | .ldB _ _ _ _ => true
  | .ldH _ _ _ _ => true
  | .ldW _ _ _ _ => true
  | .ldD _ _ _ _ => true
  | .ldBu _ _ _ _ => true
  | .ldHu _ _ _ _ => true
  | .ldWu _ _ _ _ => true
  | .stB _ _ _ _ => true
  | .stH _ _ _ _ => true
  | .stW _ _ _ _ => true
  | .stD _ _ _ _ => true
  | .amoSwap _ _ _ _ _ => true
  | .amoAdd _ _ _ _ _ => true
  | .amoAnd _ _ _ _ _ => true
  | .amoOr _ _ _ _ _ => true
  | .amoXor _ _ _ _ _ => true
  | .amoMin _ _ _ _ _ => true
  | .amoMax _ _ _ _ _ => true
  | .amoMinu _ _ _ _ _ => true
  | .amoMaxu _ _ _ _ _ => true
  | .amoCas _ _ _ _ _ => true
  | .amoSwapW _ _ _ _ _ => true
  | .amoAddW _ _ _ _ _ => true
  | .amoAndW _ _ _ _ _ => true
  | .amoOrW _ _ _ _ _ => true
  | .amoXorW _ _ _ _ _ => true
  | .amoMinW _ _ _ _ _ => true
  | .amoMaxW _ _ _ _ _ => true
  | .amoMinuW _ _ _ _ _ => true
  | .amoMaxuW _ _ _ _ _ => true
  | .amoCasW _ _ _ _ _ => true
  | .brEq _ _ _ => true
  | .brNe _ _ _ => true
  | .brLt _ _ _ => true
  | .brGe _ _ _ => true
  | .brLtu _ _ _ => true
  | .brGeu _ _ _ => true
  | .jal _ _ => true
  | .jalr _ _ _ => true
  | .sysCsrRw _ _ _ => true
  | .sysCsrRs _ _ _ => true
  | .sysCsrRc _ _ _ => true
  | .sysFenceS _ => true
  | .sysTrap _ => true
  | .sysEret => true
  | .sysWfe _ => true
  | .sysHalt => true
  | .sysYield => true
  | .sysTime _ => true
  | .sysCycle _ => true
  | .sysSnap _ _ => true
  | .sysGen _ => true
  | .sysLaunch _ _ => true
  | .sysTlbFlush _ _ => true
  | .sysAspace _ _ => true
  | .vcfgSetl _ _ _ => true
  | .vcfgSettype _ _ => true
  | .vcfgTag _ _ => true
  | .vcfgGetmax _ _ => true
  | .vcfgLanereq _ _ => true
  | .vopNeg _ _ _ => true
  | .vopAbs _ _ _ => true
  | .vopMerge _ _ _ _ => true
  | .vopMv _ _ _ => true
  | .vopSplat _ _ _ => true
  | .vopCvt _ _ _ _ => true
  | .vfnSinCos _ _ _ => true
  | .vfnExp _ _ _ => true
  | .vfnExp2 _ _ _ => true
  | .vfnLn _ _ _ => true
  | .vfnLog2 _ _ _ => true
  | .vfnSqrt _ _ _ => true
  | .vfnRsqrt _ _ _ => true
  | .vfnRecip _ _ _ => true
  | .vfnTanh _ _ _ => true
  | .vfnSigm _ _ _ => true
  | .vfnGelu _ _ _ => true
  | .vredRedsumW _ _ _ _ => true
  | .vredMaskFirst _ _ _ => true
  | .vredMaskCount _ _ _ => true
  | .vredIota _ _ => true
  | .vpermSlide1up _ _ _ _ => true
  | .vpermSlide1down _ _ _ _ => true
  | .vpermCompress _ _ _ => true
  | .vpermExpand _ _ _ => true
  | .vpermReshape _ _ _ => true
  | .vpermExtract _ _ _ _ => true
  | .vpermInsert _ _ _ _ => true
  | .strmBind _ _ => true
  | .strmBindOut _ _ => true
  | .strmFree _ => true
  | .strmStatus _ _ => true
  | .strmSkip _ _ => true
  | .sclLd _ _ => true
  | .sclSt _ _ => true
  | .sclTov _ => true
  | .sclFromv _ => true
  | .matAnchor _ _ => true
  | .matBel _ _ => true
  | .matSlot _ _ => true
  | .matFeed _ _ _ => true
  | .matFeedEnd _ _ => true
  | .matDrain _ _ _ => true
  | .matDrainEnd _ => true
  | .fabEnq _ _ _ _ => true
  | .fabNotify _ _ _ => true
  | .vectorCommit _ => true
  | .setlGrantSwitch _ => true
  | .kernelHaltComplete _ => true
  | .wfeWake _ => true
  | .yieldIdleEnd _ => true
  | .memWritePerform _ _ => true
  | .cowStallResume _ _ => true
  | .pageWalkComplete _ _ => true
  | .engineThreadStart _ => true
  | .copyComplete _ => true
  | .wldComplete _ => true
  | .add96Perform _ => true
  | .streamFetch _ _ => true
  | .streamWriteback _ _ => true
  | .mmaStart _ => true
  | .mmaComplete _ => true
  | .bellowsStallResume _ => true
  | .launchEligibilityRead _ => true
  | .aftdepPollTimer _ => true
  | .launchPlace => true
  | .preemptByPriority => true
  | .launchStop _ => true
  | .saveAreaWritten _ => true
  | .launchRestart _ => true
  | .launchEnd _ => true
  | .laneArbiterRecompute _ => true
  | .seal _ => true
  | .fullingEnd _ => true
  | .holdWordRead _ => true
  | .holdPollTimer _ => true
  | .droopAlarm _ _ => true
  | .stretchEnd _ => true
  | .halfRateWindowEnd _ => true
  | .powerControlTick _ _ => true
  | .sensorSample _ _ => true
  | .notifyWindowEnd _ => true
  | .laneRetire _ _ => true
  | .patrolScrub _ => true
  | .weightScrub _ _ _ => true
  | .tracePostEnd => true
  | .timeSyncTimer => true
  | .timingPacket _ _ => true
  | .ngReadRequest _ _ _ _ => true
  | .ngWrite _ _ _ _ => true
  | .ngAmo _ _ _ _ _ _ => true
  | .ngAdd96 _ _ _ _ => true
  | .ngNotify _ _ _ _ => true
  | .ngEnqueue _ _ _ _ _ => true
  | .ngResponse _ _ => true
  | .ngAck _ _ => true
  | .ngCrcReplay _ _ => true
  | .ngPortDown _ => true
  | .ngRouteLost _ => true
  | .powerGoodBoot => true
  | .bringupFunctionReady _ => true
  | .vtypeCsrWrite _ => true
  | .aspaceCsrWrite _ => true
  | .lanepartWrite _ => true
  | .lanereqCsrWrite _ => true
  | .belstatFullClear _ => true
  | .ufndataAccess _ => true
  | .ufnvalidWrite _ => true
  | .notifybaseWrite _ => true
  | .evsWrite _ _ => true
  | .bprun _ => true
  | .trgctlFire _ => true
  | .smpctlWrite _ => true
  | .trcctlWrite _ => true
  | .trcdataRead => true
  | .csrWriteGeneric _ _ => true
  | .smbReadReady => true
  | .smbPowerLimit _ => true
  | .smbSensorRead _ => true
  | .smbReset _ => true
  | .smbFireSoft => true
  | .smbFlashImage _ _ => true
  | .jtagBypass => true
  | .jtagIdcode => true
  | .jtagSamplePreload => true
  | .jtagExtest => true
  | .vectorIssue _ => true
  | .memReadPerform _ _ => true
  | .ngRouteReturn _ => true

end Sys2Proof
end

