-- ==== Sys2Proof/Decode.lean ====
section
/-! DEFINITION. The decoder: every 32-bit word gives an instruction or the trap of R98 orders 1 and 2 that its
bits alone decide (R88 to R98). After it, the encoder, from the same tables. -/
namespace Sys2Proof

/-- Why a word is no instruction, as far as its bits decide it: order 1 or order 2 of R98. -/
inductive Reject where
  | illop | illfld
  deriving DecidableEq, Repr

/-- A test of order 2: the instruction, or ILLFLD when it fails. -/
def need (c : Bool) (i : Instr) : Except Reject Instr := if c then .ok i else .error .illfld

/-- The second operand of a V3 word whose function accepts the OPF values in `mask` (R93, R98 order 1); a stream
operand uses only the low three bits of B (R80). -/
def decodeSrc (mask : Nat) (opf : BitVec 3) (b : BitVec 5) (k : VSrc → Except Reject Instr) : Except Reject Instr :=
  if mask.testBit opf.toNat then
    match opf.toNat with
    | 0 => k (.vv b)
    | 1 => k (.vx b)
    | 2 => k (.vi b)
    | 3 => if b.extractLsb' 3 2 = 0 then k (.vs (b.extractLsb' 0 3)) else .error .illfld
    | 4 => k (.wide b)
    | 5 => k (.narrow b)
    | _ => .error .illop
  else .error .illop

/-- The low three bits of a 5-bit field that names a mask or stream register (R80). -/
def low3 (r : BitVec 5) : BitVec 3 := r.extractLsb' 0 3

/-- The two high bits of such a field are zero (R80). -/
def high0 (r : BitVec 5) : Bool := r.extractLsb' 3 2 = 0

/-- MAJ 1, format S3 (R90). -/
def decodeSop (w : InstrWord) : Except Reject Instr :=
  let d := w.extractLsb' 22 5
  let a := w.extractLsb' 17 5
  let b := w.extractLsb' 12 5
  let fn := (w.extractLsb' 6 6).toNat
  let z := w.extractLsb' 0 6 = 0
  match fn with
  | 0 => need z (.sopAdd d a b)
  | 1 => need z (.sopSub d a b)
  | 2 => need z (.sopAnd d a b)
  | 3 => need z (.sopOr d a b)
  | 4 => need z (.sopXor d a b)
  | 5 => need z (.sopSll d a b)
  | 6 => need z (.sopSrl d a b)
  | 7 => need z (.sopSra d a b)
  | 8 => need z (.sopSlt d a b)
  | 9 => need z (.sopSltu d a b)
  | 10 => need z (.sopMin d a b)
  | 11 => need z (.sopMax d a b)
  | 12 => need z (.sopMinu d a b)
  | 13 => need z (.sopMaxu d a b)
  | 14 => need z (.sopMul d a b)
  | 15 => need z (.sopMulh d a b)
  | 16 => need z (.sopMulhu d a b)
  | 17 => need z (.sopDiv d a b)
  | 18 => need z (.sopDivu d a b)
  | 19 => need z (.sopRem d a b)
  | 20 => need z (.sopRemu d a b)
  | 21 => need (z && b = 0) (.sopClz d a)
  | 22 => need (z && b = 0) (.sopCtz d a)
  | 23 => need (z && b = 0) (.sopPopc d a)
  | 24 => need (z && b = 0) (.sopBrev d a)
  | 25 => need (z && b = 0) (.sopSextB d a)
  | 26 => need (z && b = 0) (.sopSextH d a)
  | 27 => need (z && b = 0) (.sopSextW d a)
  | 28 => need (z && b = 0) (.sopZextB d a)
  | 29 => need (z && b = 0) (.sopZextH d a)
  | 30 => need (z && b = 0) (.sopZextW d a)
  | 31 => need (z && b = 0) (.sopMod383 d a)
  | 32 => need (z && b = 0) (.sopDiv383 d a)
  | _ => .error .illop

/-- MAJ 2, format SI (R90); the selector of `shi` is I14[13:12]. -/
def decodeSopi (w : InstrWord) : Except Reject Instr :=
  let d := w.extractLsb' 22 5
  let a := w.extractLsb' 17 5
  let imm := w.extractLsb' 0 14
  match (w.extractLsb' 14 3).toNat with
  | 0 => .ok (.sopiAddi d a imm)
  | 1 => .ok (.sopiAndi d a imm)
  | 2 => .ok (.sopiOri d a imm)
  | 3 => .ok (.sopiXori d a imm)
  | 4 => .ok (.sopiSlti d a imm)
  | 5 => .ok (.sopiSltiu d a imm)
  | 6 =>
    let z := w.extractLsb' 6 6 = 0
    let sh := w.extractLsb' 0 6
    match (w.extractLsb' 12 2).toNat with
    | 0 => need z (.sopiShiSll d a sh)
    | 1 => need z (.sopiShiSrl d a sh)
    | 2 => need z (.sopiShiSra d a sh)
    | _ => .error .illop
  | _ => .ok (.sopiMuli d a imm)

/-- MAJ 5, format M (R90). -/
def decodeLd (w : InstrWord) : Except Reject Instr :=
  let d := w.extractLsb' 22 5
  let a := w.extractLsb' 17 5
  let c := w.extractLsb' 13 4
  let off := w.extractLsb' 0 10
  match (w.extractLsb' 10 3).toNat with
  | 0 => .ok (.ldB d a c off)
  | 1 => .ok (.ldH d a c off)
  | 2 => .ok (.ldW d a c off)
  | 3 => .ok (.ldD d a c off)
  | 4 => .ok (.ldBu d a c off)
  | 5 => .ok (.ldHu d a c off)
  | 6 => .ok (.ldWu d a c off)
  | _ => .error .illop

/-- MAJ 6, format M (R90). -/
def decodeSt (w : InstrWord) : Except Reject Instr :=
  let d := w.extractLsb' 22 5
  let a := w.extractLsb' 17 5
  let c := w.extractLsb' 13 4
  let off := w.extractLsb' 0 10
  match (w.extractLsb' 10 3).toNat with
  | 0 => .ok (.stB d a c off)
  | 1 => .ok (.stH d a c off)
  | 2 => .ok (.stW d a c off)
  | 3 => .ok (.stD d a c off)
  | _ => .error .illop

/-- MAJ 7, format AMO; SCOPE 4 to 7 are reserved (R90). -/
def decodeAmo (w : InstrWord) : Except Reject Instr :=
  let d := w.extractLsb' 22 5
  let a := w.extractLsb' 17 5
  let b := w.extractLsb' 12 5
  let c := w.extractLsb' 8 4
  let sc := w.extractLsb' 0 2
  let ok := w.extractLsb' 2 1 = 0
  match (w.extractLsb' 3 5).toNat with
  | 0 => need ok (.amoSwap d a b c sc)
  | 1 => need ok (.amoAdd d a b c sc)
  | 2 => need ok (.amoAnd d a b c sc)
  | 3 => need ok (.amoOr d a b c sc)
  | 4 => need ok (.amoXor d a b c sc)
  | 5 => need ok (.amoMin d a b c sc)
  | 6 => need ok (.amoMax d a b c sc)
  | 7 => need ok (.amoMinu d a b c sc)
  | 8 => need ok (.amoMaxu d a b c sc)
  | 9 => need ok (.amoCas d a b c sc)
  | 16 => need ok (.amoSwapW d a b c sc)
  | 17 => need ok (.amoAddW d a b c sc)
  | 18 => need ok (.amoAndW d a b c sc)
  | 19 => need ok (.amoOrW d a b c sc)
  | 20 => need ok (.amoXorW d a b c sc)
  | 21 => need ok (.amoMinW d a b c sc)
  | 22 => need ok (.amoMaxW d a b c sc)
  | 23 => need ok (.amoMinuW d a b c sc)
  | 24 => need ok (.amoMaxuW d a b c sc)
  | 25 => need ok (.amoCasW d a b c sc)
  | _ => .error .illop

/-- MAJ 8, format BR (R90). -/
def decodeBr (w : InstrWord) : Except Reject Instr :=
  let a := w.extractLsb' 22 5
  let b := w.extractLsb' 17 5
  let off := w.extractLsb' 0 14
  match (w.extractLsb' 14 3).toNat with
  | 0 => .ok (.brEq a b off)
  | 1 => .ok (.brNe a b off)
  | 2 => .ok (.brLt a b off)
  | 3 => .ok (.brGe a b off)
  | 4 => .ok (.brLtu a b off)
  | 5 => .ok (.brGeu a b off)
  | _ => .error .illop

/-- MAJ 11, format SYS with the K16 forms of R88 (R91). -/
def decodeSys (w : InstrWord) : Except Reject Instr :=
  let d := w.extractLsb' 22 5
  let k := w.extractLsb' 0 16
  let a := w.extractLsb' 11 5
  let b := w.extractLsb' 6 5
  let n := w.extractLsb' 0 11
  let d0 := d = 0
  let k0 := k = 0
  let formA := n = 0
  match (w.extractLsb' 16 6).toNat with
  | 0 => .ok (.sysCsrRw d a n)
  | 1 => .ok (.sysCsrRs d a n)
  | 2 => .ok (.sysCsrRc d a n)
  | 3 => need (d0 && k ≠ 0) (.sysFenceC k)
  | 4 => need (d0 && w.extractLsb' 2 14 = 0) (.sysFenceS (w.extractLsb' 0 2))
  | 5 => need d0 (.sysTrap k)
  | 6 => need (d0 && k0) .sysEret
  | 7 => need (d0 && formA) (.sysWfe a)
  | 8 => need (d0 && k0) .sysHalt
  | 9 => need (d0 && k0) .sysYield
  | 10 => need k0 (.sysTime d)
  | 11 => need k0 (.sysCycle d)
  | 12 => need formA (.sysSnap d a)
  | 13 => need k0 (.sysGen d)
  | 14 => need formA (.sysLaunch d a)
  | 15 => need (d0 && w.extractLsb' 0 6 = 0) (.sysTlbFlush a b)
  | 16 => need formA (.sysAspace d a)
  | _ => .error .illop

/-- MAJ 12, format S3 with the roles of R92. -/
def decodeVcfg (w : InstrWord) : Except Reject Instr :=
  let d := w.extractLsb' 22 5
  let a := w.extractLsb' 17 5
  let b := w.extractLsb' 12 5
  let fn := (w.extractLsb' 6 6).toNat
  let z := w.extractLsb' 0 6 = 0
  match fn with
  | 0 => need z (.vcfgSetl d a b)
  | 1 => need (z && b = 0) (.vcfgSettype d a)
  | 2 => need (z && a = 0) (.vcfgTag d b)
  | 3 => need (z && b = 0) (.vcfgGetmax d a)
  | 4 => need (z && b = 0) (.vcfgLanereq d a)
  | _ => .error .illop

/-- MAJ 13, format V3 with the forms of R158. -/
def decodeVop (w : InstrWord) : Except Reject Instr :=
  let d := w.extractLsb' 22 5
  let a := w.extractLsb' 17 5
  let b := w.extractLsb' 12 5
  let fn := (w.extractLsb' 6 6).toNat
  let o := w.extractLsb' 3 3
  let m := w.extractLsb' 0 3
  match fn with
  | 0 => decodeSrc 31 o b fun s => .ok (.vopAdd d a s m)
  | 1 => decodeSrc 31 o b fun s => .ok (.vopSub d a s m)
  | 2 => decodeSrc 15 o b fun s => .ok (.vopRsub d a s m)
  | 3 => decodeSrc 15 o b fun s => .ok (.vopMin d a s m)
  | 4 => decodeSrc 15 o b fun s => .ok (.vopMax d a s m)
  | 5 => decodeSrc 15 o b fun s => .ok (.vopAnd d a s m)
  | 6 => decodeSrc 15 o b fun s => .ok (.vopOr d a s m)
  | 7 => decodeSrc 15 o b fun s => .ok (.vopXor d a s m)
  | 8 => decodeSrc 15 o b fun s => .ok (.vopSll d a s m)
  | 9 => decodeSrc 47 o b fun s => .ok (.vopSrl d a s m)
  | 10 => decodeSrc 47 o b fun s => .ok (.vopSra d a s m)
  | 13 => decodeSrc 31 o b fun s => .ok (.vopMul d a s m)
  | 14 => decodeSrc 11 o b fun s => .ok (.vopMulh d a s m)
  | 15 => decodeSrc 27 o b fun s => .ok (.vopMacc d a s m)
  | 16 => decodeSrc 27 o b fun s => .ok (.vopNmsac d a s m)
  | 17 => decodeSrc 11 o b fun s => .ok (.vopAvg d a s m)
  | 18 => decodeSrc 47 o b fun s => .ok (.vopShrRnd d a s m)
  | 19 => decodeSrc 15 o b fun s => need (high0 d && d ≠ 0) (.vopCmpEq (low3 d) a s m)
  | 20 => decodeSrc 15 o b fun s => need (high0 d && d ≠ 0) (.vopCmpNe (low3 d) a s m)
  | 21 => decodeSrc 15 o b fun s => need (high0 d && d ≠ 0) (.vopCmpLt (low3 d) a s m)
  | 22 => decodeSrc 15 o b fun s => need (high0 d && d ≠ 0) (.vopCmpLe (low3 d) a s m)
  | 11 => if o = 0 then need (b = 0) (.vopNeg d a m) else .error .illop
  | 12 => if o = 0 then need (b = 0) (.vopAbs d a m) else .error .illop
  | 23 => if o = 0 then need (high0 b) (.vopMerge d a (low3 b) m) else .error .illop
  | 24 =>
    if o = 0 then need (b = 0) (.vopMv d (.reg a) m)
    else if o = 3 then need (a = 0 && high0 b) (.vopMv d (.strm (low3 b)) m) else .error .illop
  | 25 =>
    if o = 1 then need (a = 0) (.vopSplat d (.vx b) m)
    else if o = 2 then need (a = 0) (.vopSplat d (.vi b) m) else .error .illop
  | 26 =>
    if o = 0 then need (b = 0) (.vopCvt .same d a m)
    else if o = 4 then need (b = 0) (.vopCvt .wide d a m)
    else if o = 5 then need (b = 0) (.vopCvt .narrow d a m) else .error .illop
  | 27 =>
    if o = 0 then need (b = 0) (.vopCvtSat .same d a m)
    else if o = 5 then need (b = 0) (.vopCvtSat .narrow d a m) else .error .illop
  | 28 =>
    if o = 0 then need (b = 0) (.vopFclass (.vec d) a m)
    else if o = 1 then need (high0 d && d ≠ 0) (.vopFclass (.mask (low3 d) b) a m) else .error .illop
  | _ => .error .illop

/-- MAJ 14, format VR (R96). -/
def decodeVrot (w : InstrWord) : Except Reject Instr :=
  let d := w.extractLsb' 22 5
  let a := w.extractLsb' 17 5
  let s := w.extractLsb' 12 5
  let n := w.extractLsb' 7 5
  let g := w.getLsbD 3
  let m := w.extractLsb' 0 3
  -- S + n > 32, and G outside S = 0 or in linear mode (R58, R64)
  let fits := decide (s.toNat + n.toNat + 1 ≤ 32)
  let ok := fits && (!g || s = 0)
  let okLin := fits && !g
  match (w.extractLsb' 5 2).toNat, w.getLsbD 4 with
  | 0, false => need ok (.vrotCirRot d a s n g m)
  | 0, true => need ok (.vrotCirVec d a s n g m)
  | 1, false => need ok (.vrotHypRot d a s n g m)
  | 1, true => need ok (.vrotHypVec d a s n g m)
  | 2, false => need okLin (.vrotLinRot d a s n g m)
  | 2, true => need okLin (.vrotLinVec d a s n g m)
  | _, _ => .error .illop

/-- MAJ 15, format V3 (R90, R167, R170). -/
def decodeVfn (w : InstrWord) : Except Reject Instr :=
  let d := w.extractLsb' 22 5
  let a := w.extractLsb' 17 5
  let b := w.extractLsb' 12 5
  let fn := (w.extractLsb' 6 6).toNat
  let o := w.extractLsb' 3 3
  let m := w.extractLsb' 0 3
  if 32 ≤ fn then (if fn ≤ 47 then decodeSrc 11 o b fun s => .ok (.vfnUfn (w.extractLsb' 6 4) d a s m) else .error .illop)
  else
  match fn with
  | 0 => if o = 0 then need (b = 0) (.vfnSinCos d a m) else .error .illop
  | 1 => if o = 0 then need (b = 0) (.vfnExp d a m) else .error .illop
  | 2 => if o = 0 then need (b = 0) (.vfnExp2 d a m) else .error .illop
  | 3 => if o = 0 then need (b = 0) (.vfnLn d a m) else .error .illop
  | 4 => if o = 0 then need (b = 0) (.vfnLog2 d a m) else .error .illop
  | 5 => if o = 0 then need (b = 0) (.vfnSqrt d a m) else .error .illop
  | 6 => if o = 0 then need (b = 0) (.vfnRsqrt d a m) else .error .illop
  | 7 => if o = 0 then need (b = 0) (.vfnRecip d a m) else .error .illop
  | 11 => if o = 0 then need (b = 0) (.vfnTanh d a m) else .error .illop
  | 12 => if o = 0 then need (b = 0) (.vfnSigm d a m) else .error .illop
  | 13 => if o = 0 then need (b = 0) (.vfnGelu d a m) else .error .illop
  | 8 => decodeSrc 11 o b fun s => .ok (.vfnDiv d a s m)
  | 9 => decodeSrc 11 o b fun s => .ok (.vfnAtan2 d a s m)
  | 10 => decodeSrc 11 o b fun s => .ok (.vfnHypot d a s m)
  | 14 => decodeSrc 11 o b fun s => .ok (.vfnSoftx d a s m)
  | _ => .error .illop

/-- MAJ 16, format V3 (R90, R171, R175 to R177). -/
def decodeVred (w : InstrWord) : Except Reject Instr :=
  let d := w.extractLsb' 22 5
  let a := w.extractLsb' 17 5
  let b := w.extractLsb' 12 5
  let fn := (w.extractLsb' 6 6).toNat
  let o := w.extractLsb' 3 3
  let m := w.extractLsb' 0 3
  match fn with
  | 0 => decodeSrc 3 o b fun s => .ok (.vredRedsum d a s m)
  | 1 => decodeSrc 3 o b fun s => .ok (.vredRedsumOrd d a s m)
  | 3 => decodeSrc 3 o b fun s => .ok (.vredRedmax d a s m)
  | 4 => decodeSrc 3 o b fun s => .ok (.vredRedmin d a s m)
  | 5 => decodeSrc 3 o b fun s => .ok (.vredRedand d a s m)
  | 6 => decodeSrc 3 o b fun s => .ok (.vredRedor d a s m)
  | 7 => decodeSrc 3 o b fun s => .ok (.vredScanAdd d a s m)
  | 8 => decodeSrc 3 o b fun s => .ok (.vredScanMax d a s m)
  | 2 => if o = 4 then .ok (.vredRedsumW d a b m) else .error .illop
  | 9 => if o = 0 then need (high0 d && d ≠ 0 && high0 a && high0 b) (.vredMaskAnd (low3 d) (low3 a) (low3 b) m) else .error .illop
  | 10 => if o = 0 then need (high0 d && d ≠ 0 && high0 a && high0 b) (.vredMaskOr (low3 d) (low3 a) (low3 b) m) else .error .illop
  | 11 => if o = 0 then need (high0 d && d ≠ 0 && high0 a && high0 b) (.vredMaskXor (low3 d) (low3 a) (low3 b) m) else .error .illop
  | 12 => if o = 0 then need (high0 d && d ≠ 0 && high0 a && high0 b) (.vredMaskAndn (low3 d) (low3 a) (low3 b) m) else .error .illop
  | 13 => if o = 0 then need (high0 a && b = 0) (.vredMaskFirst d (low3 a) m) else .error .illop
  | 14 => if o = 0 then need (high0 a && b = 0) (.vredMaskCount d (low3 a) m) else .error .illop
  | 15 => if o = 0 then need (d = 0 && b = 0 && high0 a && a ≠ 0) (.vredMaskCutoff (low3 a) m) else .error .illop
  | 16 => if o = 0 then need (d = 0 && b = 0 && high0 a && a ≠ 0) (.vredMaskThru (low3 a) m) else .error .illop
  | 17 => if o = 0 then need (a = 0 && b = 0) (.vredIota d m) else .error .illop
  | _ => .error .illop

/-- MAJ 17, format V3 with the forms of R198. -/
def decodeVperm (w : InstrWord) : Except Reject Instr :=
  let d := w.extractLsb' 22 5
  let a := w.extractLsb' 17 5
  let b := w.extractLsb' 12 5
  let fn := (w.extractLsb' 6 6).toNat
  let o := w.extractLsb' 3 3
  let m := w.extractLsb' 0 3
  let m0 := m = 0
  match fn with
  | 0 => decodeSrc 6 o b fun s => need s.immOk (.vpermSlideup d a s m)
  | 1 => decodeSrc 6 o b fun s => need s.immOk (.vpermSlidedown d a s m)
  | 2 => if o = 1 then .ok (.vpermSlide1up d a b m) else .error .illop
  | 3 => if o = 1 then .ok (.vpermSlide1down d a b m) else .error .illop
  | 4 => decodeSrc 7 o b fun s => need s.immOk (.vpermGather d a s m)
  | 5 => if o = 0 then need (high0 b && m0) (.vpermCompress d a (low3 b)) else .error .illop
  | 6 => if o = 0 then need (high0 b && m0) (.vpermExpand d a (low3 b)) else .error .illop
  | 7 => if o = 1 then need m0 (.vpermReshape d a b) else .error .illop
  | 8 => if o = 1 then .ok (.vpermExtract d a b m) else .error .illop
  | 9 => if o = 1 then .ok (.vpermInsert d a b m) else .error .illop
  | _ => .error .illop

/-- MAJ 18, format VM (R94). -/
def decodeVld (w : InstrWord) : Except Reject Instr :=
  let d := w.extractLsb' 22 5
  let a := w.extractLsb' 17 5
  let b := w.extractLsb' 12 5
  let c := w.extractLsb' 8 4
  let h := w.extractLsb' 3 2
  let m := w.extractLsb' 0 3
  let hok := h ≠ 3
  match (w.extractLsb' 5 3).toNat with
  | 0 => need (hok && b = 0) (.vldUnit d a c h m)
  | 1 => need hok (.vldStr d a b c h m)
  | 2 => need (hok && !b.getLsbD 0) (.vld2d d a b c h m)
  | 3 => need hok (.vldIdx d a b c h m)
  | 4 => need (hok && b = 0) (.vldFf d a c h m)
  | 5 => need hok (.vldShape d a b c h m)
  | _ => .error .illop

/-- MAJ 19, format VM (R94). -/
def decodeVst (w : InstrWord) : Except Reject Instr :=
  let d := w.extractLsb' 22 5
  let a := w.extractLsb' 17 5
  let b := w.extractLsb' 12 5
  let c := w.extractLsb' 8 4
  let h := w.extractLsb' 3 2
  let m := w.extractLsb' 0 3
  let hok := h ≠ 3
  match (w.extractLsb' 5 3).toNat with
  | 0 => need (hok && b = 0) (.vstUnit d a c h m)
  | 1 => need hok (.vstStr d a b c h m)
  | 2 => need (hok && !b.getLsbD 0) (.vst2d d a b c h m)
  | 3 => need hok (.vstIdx d a b c h m)
  | 4 => need (hok && b = 0) (.vstMx d a c h m)
  | 5 => need hok (.vstShape d a b c h m)
  | _ => .error .illop

/-- MAJ 20, format S3 (R92, R202). -/
def decodeStrm (w : InstrWord) : Except Reject Instr :=
  let d := w.extractLsb' 22 5
  let a := w.extractLsb' 17 5
  let b := w.extractLsb' 12 5
  let fn := (w.extractLsb' 6 6).toNat
  let z := w.extractLsb' 0 6 = 0
  match fn with
  | 0 => need (z && high0 d && b = 0) (.strmBind (low3 d) a)
  | 1 => need (z && high0 d && b = 0) (.strmBindOut (low3 d) a)
  | 2 => need (z && high0 d && a = 0 && b = 0) (.strmFree (low3 d))
  | 3 => need (z && high0 a && b = 0) (.strmStatus d (low3 a))
  | 4 => need (z && high0 d && b = 0) (.strmSkip (low3 d) a)
  | _ => .error .illop

/-- MAJ 21, format S3 (R92). -/
def decodeScl (w : InstrWord) : Except Reject Instr :=
  let d := w.extractLsb' 22 5
  let a := w.extractLsb' 17 5
  let b := w.extractLsb' 12 5
  let fn := (w.extractLsb' 6 6).toNat
  let z := w.extractLsb' 0 6 = 0
  match fn with
  | 0 => need (z && d = 0) (.sclLd a b)
  | 1 => need (z && d = 0) (.sclSt a b)
  | 2 => need (z && a = 0 && b = 0) (.sclTov d)
  | 3 => need (z && d = 0 && b = 0) (.sclFromv a)
  | _ => .error .illop

/-- MAJ 22, format AMO; SCOPE must be 0, and D is neither 0 nor an operand (R95, R212). -/
def decodeCopy (w : InstrWord) : Except Reject Instr :=
  let d := w.extractLsb' 22 5
  let a := w.extractLsb' 17 5
  let b := w.extractLsb' 12 5
  let c := w.extractLsb' 8 4
  let sc := w.extractLsb' 0 3 = 0
  let free := d ≠ 0 && d ≠ a && d ≠ b
  match (w.extractLsb' 3 5).toNat with
  | 0 => need (sc && free) (.copyCopy d a b c)
  | 1 => need (sc && pairsOk d a b) (.copyCopy2d d a b c)
  | 2 => need (sc && free) (.copyFill d a b c)
  | _ => .error .illop

/-- MAJ 23, format MT (R97). -/
def decodeMat (w : InstrWord) : Except Reject Instr :=
  let d := w.extractLsb' 22 5
  let a := w.extractLsb' 17 5
  let b := w.extractLsb' 12 5
  let fn := (w.extractLsb' 6 6).toNat
  let f := w.extractLsb' 0 6
  let ws := w.extractLsb' 12 4
  let b16 := !w.getLsbD 16
  let fdD := w.extractLsb' 23 2
  let acD := w.extractLsb' 22 1
  let fdF := w.extractLsb' 0 2
  let acF := w.extractLsb' 0 1
  let d25 := w.extractLsb' 25 2 = 0
  let f1 := w.extractLsb' 1 5 = 0
  match fn with
  | 0 => need (b16 && f = 0 && d ≠ 0 && d ≠ a) (.matWld d a ws)
  | 1 =>
    let sp := w.extractLsb' 2 2
    need (d25 && a = 0 && b16 && w.extractLsb' 4 2 = 0 && mmaSlotsOk fdD sp)
      (.matMma fdD acD ws sp (w.getLsbD 1) (w.getLsbD 0))
  | 2 => need (w.extractLsb' 23 4 = 0 && b = 0 && f = 0) (.matAnchor acD a)
  | 3 => need (a = 0 && b = 0 && f1) (.matBel d (w.getLsbD 0))
  | 4 => need (a = 0 && b = 0 && w.extractLsb' 2 4 = 0) (.matSlot d fdF)
  | 5 => need (d25 && acD = 0 && f = 0) (.matFeed fdD a b)
  | 6 => need (d25 && acD = 0 && a = 0 && f = 0) (.matFeedEnd fdD b)
  | 7 => need (b = 0 && f1) (.matDrain d a acF)
  | 8 => need (d = 0 && a = 0 && b = 0 && f1) (.matDrainEnd acF)
  | _ => .error .illop

/-- MAJ 24, format AMO; SCOPE must be 0 (R95, R346, R349). -/
def decodeFab (w : InstrWord) : Except Reject Instr :=
  let d := w.extractLsb' 22 5
  let a := w.extractLsb' 17 5
  let b := w.extractLsb' 12 5
  let c := w.extractLsb' 8 4
  let sc := w.extractLsb' 0 3 = 0
  match (w.extractLsb' 3 5).toNat with
  | 0 => need sc (.fabEnq d a b c)
  | 1 => need (sc && !b.getLsbD 0 && d ≠ a && d ≠ b && d ≠ b + 1) (.fabAdd96 d a b c)
  | 2 => need (sc && d = 0) (.fabNotify a b c)
  | _ => .error .illop

/-- The instruction of a word, or the trap of R98 orders 1 and 2 that its bits alone decide. MAJ 0 and 25 to 31 are
reserved (R90, R99). -/
def decodeWord (w : InstrWord) : Except Reject Instr :=
  match (w.extractLsb' 27 5).toNat with
  | 1 => decodeSop w
  | 2 => decodeSopi w
  | 3 => .ok (.lui (w.extractLsb' 22 5) (w.extractLsb' 0 22))
  | 4 => .ok (.auipc (w.extractLsb' 22 5) (w.extractLsb' 0 22))
  | 5 => decodeLd w
  | 6 => decodeSt w
  | 7 => decodeAmo w
  | 8 => decodeBr w
  | 9 => .ok (.jal (w.extractLsb' 22 5) (w.extractLsb' 0 22))
  | 10 => if w.extractLsb' 14 3 = 0 then .ok (.jalr (w.extractLsb' 22 5) (w.extractLsb' 17 5) (w.extractLsb' 0 14)) else .error .illop
  | 11 => decodeSys w
  | 12 => decodeVcfg w
  | 13 => decodeVop w
  | 14 => decodeVrot w
  | 15 => decodeVfn w
  | 16 => decodeVred w
  | 17 => decodeVperm w
  | 18 => decodeVld w
  | 19 => decodeVst w
  | 20 => decodeStrm w
  | 21 => decodeScl w
  | 22 => decodeCopy w
  | 23 => decodeMat w
  | 24 => decodeFab w
  | _ => .error .illop

/-- The word of four bytes in memory order (R88). -/
def wordOfBytes (b0 b1 b2 b3 : Byte) : InstrWord := b3 ++ b2 ++ b1 ++ b0

/-- The instruction in an instruction word of the opcode table, whose bits are numbered as the hardware stores
them: bit 0 is the least significant bit of the byte at the lowest address. Bits above nbits are 0. -/
def decodeTableWord (nbits w : Nat) : Option Instr :=
  let v := w % 2 ^ nbits
  let byte (k : Nat) : Byte := BitVec.ofNat 8 (v / 2 ^ (8 * k))
  match decodeWord (wordOfBytes (byte 0) (byte 1) (byte 2) (byte 3)) with
  | .ok i => some i
  | .error _ => none

/-! ## The encoder -/

/-- Format S3, MT and V3: MAJ, D, A, B, FN and the low six bits (R88). -/
def encS3 (maj d a b : BitVec 5) (fn z : BitVec 6) : InstrWord := maj ++ d ++ a ++ b ++ fn ++ z
/-- Format V3: OPF and M stand in the low six bits (R88). -/
def encV3 (maj d a b : BitVec 5) (fn : BitVec 6) (opf m : BitVec 3) : InstrWord := maj ++ d ++ a ++ b ++ fn ++ opf ++ m
/-- Format SI (R88). -/
def encSI (maj d a : BitVec 5) (f3 : BitVec 3) (imm : BitVec 14) : InstrWord := maj ++ d ++ a ++ f3 ++ imm
/-- Formats U and J (R88). -/
def encU (maj d : BitVec 5) (imm : BitVec 22) : InstrWord := maj ++ d ++ imm
/-- Format M (R88). -/
def encM (maj d a : BitVec 5) (c : BitVec 4) (sz : BitVec 3) (off : BitVec 10) : InstrWord := maj ++ d ++ a ++ c ++ sz ++ off
/-- Format AMO (R88); the two scopes bits stand below a zero bit. -/
def encAmo (maj d a b : BitVec 5) (c : BitVec 4) (op : BitVec 5) (sc : BitVec 2) : InstrWord :=
  maj ++ d ++ a ++ b ++ c ++ op ++ (0#1 : BitVec 1) ++ sc
/-- Format BR (R88). -/
def encBr (a b : BitVec 5) (cnd : BitVec 3) (off : BitVec 14) : InstrWord := (8#5 : BitVec 5) ++ a ++ b ++ cnd ++ off
/-- Format SYS (R88). -/
def encSys (d : BitVec 5) (fn : BitVec 6) (k : BitVec 16) : InstrWord := (11#5 : BitVec 5) ++ d ++ fn ++ k
/-- Format VR (R88). -/
def encVR (d a s n : BitVec 5) (mode : BitVec 2) (k g : Bool) (m : BitVec 3) : InstrWord :=
  (14#5 : BitVec 5) ++ d ++ a ++ s ++ n ++ mode ++ BitVec.ofBool k ++ BitVec.ofBool g ++ m
/-- Format VM (R88). -/
def encVM (maj d a b : BitVec 5) (c : BitVec 4) (mop : BitVec 3) (h : BitVec 2) (m : BitVec 3) : InstrWord :=
  maj ++ d ++ a ++ b ++ c ++ mop ++ h ++ m

/-- A 5-bit field that names a mask or stream register (R80). -/
def ext3 (r : BitVec 3) : BitVec 5 := (0#2 : BitVec 2) ++ r

/-- The B field of a second operand (R88). -/
def VSrc.field : VSrc → BitVec 5
  | .vv b | .vx b | .vi b | .wide b | .narrow b => b
  | .vs s => ext3 s

/-- A V3 word with a second operand. -/
def encSrc (maj d a : BitVec 5) (s : VSrc) (fn : BitVec 6) (m : BitVec 3) : InstrWord := encV3 maj d a s.field fn s.opf m

/-- The word of an instruction, written from R88 to R97 and the class chapters; events have none. On an instruction
that is not well formed the word is one that the decoder refuses or reads otherwise. -/
def encode : Instr → Option InstrWord
  | .sopAdd d a b => some (encS3 1 d a b 0 0)
  | .sopSub d a b => some (encS3 1 d a b 1 0)
  | .sopAnd d a b => some (encS3 1 d a b 2 0)
  | .sopOr d a b => some (encS3 1 d a b 3 0)
  | .sopXor d a b => some (encS3 1 d a b 4 0)
  | .sopSll d a b => some (encS3 1 d a b 5 0)
  | .sopSrl d a b => some (encS3 1 d a b 6 0)
  | .sopSra d a b => some (encS3 1 d a b 7 0)
  | .sopSlt d a b => some (encS3 1 d a b 8 0)
  | .sopSltu d a b => some (encS3 1 d a b 9 0)
  | .sopMin d a b => some (encS3 1 d a b 10 0)
  | .sopMax d a b => some (encS3 1 d a b 11 0)
  | .sopMinu d a b => some (encS3 1 d a b 12 0)
  | .sopMaxu d a b => some (encS3 1 d a b 13 0)
  | .sopMul d a b => some (encS3 1 d a b 14 0)
  | .sopMulh d a b => some (encS3 1 d a b 15 0)
  | .sopMulhu d a b => some (encS3 1 d a b 16 0)
  | .sopDiv d a b => some (encS3 1 d a b 17 0)
  | .sopDivu d a b => some (encS3 1 d a b 18 0)
  | .sopRem d a b => some (encS3 1 d a b 19 0)
  | .sopRemu d a b => some (encS3 1 d a b 20 0)
  | .sopClz d a => some (encS3 1 d a 0 21 0)
  | .sopCtz d a => some (encS3 1 d a 0 22 0)
  | .sopPopc d a => some (encS3 1 d a 0 23 0)
  | .sopBrev d a => some (encS3 1 d a 0 24 0)
  | .sopSextB d a => some (encS3 1 d a 0 25 0)
  | .sopSextH d a => some (encS3 1 d a 0 26 0)
  | .sopSextW d a => some (encS3 1 d a 0 27 0)
  | .sopZextB d a => some (encS3 1 d a 0 28 0)
  | .sopZextH d a => some (encS3 1 d a 0 29 0)
  | .sopZextW d a => some (encS3 1 d a 0 30 0)
  | .sopMod383 d a => some (encS3 1 d a 0 31 0)
  | .sopDiv383 d a => some (encS3 1 d a 0 32 0)
  | .sopiAddi d a imm => some (encSI 2 d a 0 imm)
  | .sopiAndi d a imm => some (encSI 2 d a 1 imm)
  | .sopiOri d a imm => some (encSI 2 d a 2 imm)
  | .sopiXori d a imm => some (encSI 2 d a 3 imm)
  | .sopiSlti d a imm => some (encSI 2 d a 4 imm)
  | .sopiSltiu d a imm => some (encSI 2 d a 5 imm)
  | .sopiShiSll d a sh => some (encSI 2 d a 6 ((0#2 : BitVec 2) ++ (0#6 : BitVec 6) ++ sh))
  | .sopiShiSrl d a sh => some (encSI 2 d a 6 ((1#2 : BitVec 2) ++ (0#6 : BitVec 6) ++ sh))
  | .sopiShiSra d a sh => some (encSI 2 d a 6 ((2#2 : BitVec 2) ++ (0#6 : BitVec 6) ++ sh))
  | .sopiMuli d a imm => some (encSI 2 d a 7 imm)
  | .lui d imm => some (encU 3 d imm)
  | .auipc d imm => some (encU 4 d imm)
  | .ldB d a c off => some (encM 5 d a c 0 off)
  | .ldH d a c off => some (encM 5 d a c 1 off)
  | .ldW d a c off => some (encM 5 d a c 2 off)
  | .ldD d a c off => some (encM 5 d a c 3 off)
  | .ldBu d a c off => some (encM 5 d a c 4 off)
  | .ldHu d a c off => some (encM 5 d a c 5 off)
  | .ldWu d a c off => some (encM 5 d a c 6 off)
  | .stB d a c off => some (encM 6 d a c 0 off)
  | .stH d a c off => some (encM 6 d a c 1 off)
  | .stW d a c off => some (encM 6 d a c 2 off)
  | .stD d a c off => some (encM 6 d a c 3 off)
  | .amoSwap d a b c sc => some (encAmo 7 d a b c 0 sc)
  | .amoAdd d a b c sc => some (encAmo 7 d a b c 1 sc)
  | .amoAnd d a b c sc => some (encAmo 7 d a b c 2 sc)
  | .amoOr d a b c sc => some (encAmo 7 d a b c 3 sc)
  | .amoXor d a b c sc => some (encAmo 7 d a b c 4 sc)
  | .amoMin d a b c sc => some (encAmo 7 d a b c 5 sc)
  | .amoMax d a b c sc => some (encAmo 7 d a b c 6 sc)
  | .amoMinu d a b c sc => some (encAmo 7 d a b c 7 sc)
  | .amoMaxu d a b c sc => some (encAmo 7 d a b c 8 sc)
  | .amoCas d a b c sc => some (encAmo 7 d a b c 9 sc)
  | .amoSwapW d a b c sc => some (encAmo 7 d a b c 16 sc)
  | .amoAddW d a b c sc => some (encAmo 7 d a b c 17 sc)
  | .amoAndW d a b c sc => some (encAmo 7 d a b c 18 sc)
  | .amoOrW d a b c sc => some (encAmo 7 d a b c 19 sc)
  | .amoXorW d a b c sc => some (encAmo 7 d a b c 20 sc)
  | .amoMinW d a b c sc => some (encAmo 7 d a b c 21 sc)
  | .amoMaxW d a b c sc => some (encAmo 7 d a b c 22 sc)
  | .amoMinuW d a b c sc => some (encAmo 7 d a b c 23 sc)
  | .amoMaxuW d a b c sc => some (encAmo 7 d a b c 24 sc)
  | .amoCasW d a b c sc => some (encAmo 7 d a b c 25 sc)
  | .brEq a b off => some (encBr a b 0 off)
  | .brNe a b off => some (encBr a b 1 off)
  | .brLt a b off => some (encBr a b 2 off)
  | .brGe a b off => some (encBr a b 3 off)
  | .brLtu a b off => some (encBr a b 4 off)
  | .brGeu a b off => some (encBr a b 5 off)
  | .jal d off => some (encU 9 d off)
  | .jalr d a off => some (encSI 10 d a 0 off)
  | .sysCsrRw d a n => some (encSys d 0 (a ++ n))
  | .sysCsrRs d a n => some (encSys d 1 (a ++ n))
  | .sysCsrRc d a n => some (encSys d 2 (a ++ n))
  | .sysFenceC mask => some (encSys 0 3 mask)
  | .sysFenceS sc => some (encSys 0 4 ((0#14 : BitVec 14) ++ sc))
  | .sysTrap code => some (encSys 0 5 code)
  | .sysEret => some (encSys 0 6 0)
  | .sysWfe a => some (encSys 0 7 (a ++ (0#11 : BitVec 11)))
  | .sysHalt => some (encSys 0 8 0)
  | .sysYield => some (encSys 0 9 0)
  | .sysTime d => some (encSys d 10 0)
  | .sysCycle d => some (encSys d 11 0)
  | .sysGen d => some (encSys d 13 0)
  | .sysSnap d a => some (encSys d 12 (a ++ (0#11 : BitVec 11)))
  | .sysLaunch d a => some (encSys d 14 (a ++ (0#11 : BitVec 11)))
  | .sysAspace d a => some (encSys d 16 (a ++ (0#11 : BitVec 11)))
  | .sysTlbFlush a b => some (encSys 0 15 (a ++ b ++ (0#6 : BitVec 6)))
  | .vcfgSetl d a b => some (encS3 12 d a b 0 0)
  | .vcfgSettype d a => some (encS3 12 d a 0 1 0)
  | .vcfgTag d code => some (encS3 12 d 0 code 2 0)
  | .vcfgGetmax d a => some (encS3 12 d a 0 3 0)
  | .vcfgLanereq d a => some (encS3 12 d a 0 4 0)
  | .vopAdd d a s m => some (encSrc 13 d a s 0 m)
  | .vopSub d a s m => some (encSrc 13 d a s 1 m)
  | .vopRsub d a s m => some (encSrc 13 d a s 2 m)
  | .vopMin d a s m => some (encSrc 13 d a s 3 m)
  | .vopMax d a s m => some (encSrc 13 d a s 4 m)
  | .vopAnd d a s m => some (encSrc 13 d a s 5 m)
  | .vopOr d a s m => some (encSrc 13 d a s 6 m)
  | .vopXor d a s m => some (encSrc 13 d a s 7 m)
  | .vopSll d a s m => some (encSrc 13 d a s 8 m)
  | .vopSrl d a s m => some (encSrc 13 d a s 9 m)
  | .vopSra d a s m => some (encSrc 13 d a s 10 m)
  | .vopMul d a s m => some (encSrc 13 d a s 13 m)
  | .vopMulh d a s m => some (encSrc 13 d a s 14 m)
  | .vopMacc d a s m => some (encSrc 13 d a s 15 m)
  | .vopNmsac d a s m => some (encSrc 13 d a s 16 m)
  | .vopAvg d a s m => some (encSrc 13 d a s 17 m)
  | .vopShrRnd d a s m => some (encSrc 13 d a s 18 m)
  | .vopCmpEq d a s m => some (encSrc 13 (ext3 d) a s 19 m)
  | .vopCmpNe d a s m => some (encSrc 13 (ext3 d) a s 20 m)
  | .vopCmpLt d a s m => some (encSrc 13 (ext3 d) a s 21 m)
  | .vopCmpLe d a s m => some (encSrc 13 (ext3 d) a s 22 m)
  | .vopNeg d a m => some (encV3 13 d a 0 11 0 m)
  | .vopAbs d a m => some (encV3 13 d a 0 12 0 m)
  | .vopMerge d a b m => some (encV3 13 d a (ext3 b) 23 0 m)
  | .vopMv d (.reg a) m => some (encV3 13 d a 0 24 0 m)
  | .vopMv d (.strm s) m => some (encV3 13 d 0 (ext3 s) 24 3 m)
  | .vopSplat d (.vx b) m => some (encV3 13 d 0 b 25 1 m)
  | .vopSplat d (.vi b) m => some (encV3 13 d 0 b 25 2 m)
  | .vopCvt .same d a m => some (encV3 13 d a 0 26 0 m)
  | .vopCvt .wide d a m => some (encV3 13 d a 0 26 4 m)
  | .vopCvt .narrow d a m => some (encV3 13 d a 0 26 5 m)
  | .vopCvtSat .same d a m => some (encV3 13 d a 0 27 0 m)
  | .vopCvtSat .wide d a m => some (encV3 13 d a 0 27 4 m)
  | .vopCvtSat .narrow d a m => some (encV3 13 d a 0 27 5 m)
  | .vopFclass (.vec d) a m => some (encV3 13 d a 0 28 0 m)
  | .vopFclass (.mask d b) a m => some (encV3 13 (ext3 d) a b 28 1 m)
  | .vrotCirRot d a s n g m => some (encVR d a s n 0 false g m)
  | .vrotCirVec d a s n g m => some (encVR d a s n 0 true g m)
  | .vrotHypRot d a s n g m => some (encVR d a s n 1 false g m)
  | .vrotHypVec d a s n g m => some (encVR d a s n 1 true g m)
  | .vrotLinRot d a s n g m => some (encVR d a s n 2 false g m)
  | .vrotLinVec d a s n g m => some (encVR d a s n 2 true g m)
  | .vfnSinCos d a m => some (encV3 15 d a 0 0 0 m)
  | .vfnExp d a m => some (encV3 15 d a 0 1 0 m)
  | .vfnExp2 d a m => some (encV3 15 d a 0 2 0 m)
  | .vfnLn d a m => some (encV3 15 d a 0 3 0 m)
  | .vfnLog2 d a m => some (encV3 15 d a 0 4 0 m)
  | .vfnSqrt d a m => some (encV3 15 d a 0 5 0 m)
  | .vfnRsqrt d a m => some (encV3 15 d a 0 6 0 m)
  | .vfnRecip d a m => some (encV3 15 d a 0 7 0 m)
  | .vfnTanh d a m => some (encV3 15 d a 0 11 0 m)
  | .vfnSigm d a m => some (encV3 15 d a 0 12 0 m)
  | .vfnGelu d a m => some (encV3 15 d a 0 13 0 m)
  | .vfnDiv d a s m => some (encSrc 15 d a s 8 m)
  | .vfnAtan2 d a s m => some (encSrc 15 d a s 9 m)
  | .vfnHypot d a s m => some (encSrc 15 d a s 10 m)
  | .vfnSoftx d a s m => some (encSrc 15 d a s 14 m)
  | .vfnUfn slot d a s m => some (encSrc 15 d a s ((2#2 : BitVec 2) ++ slot) m)
  | .vredRedsum d a s m => some (encSrc 16 d a s 0 m)
  | .vredRedsumOrd d a s m => some (encSrc 16 d a s 1 m)
  | .vredRedmax d a s m => some (encSrc 16 d a s 3 m)
  | .vredRedmin d a s m => some (encSrc 16 d a s 4 m)
  | .vredRedand d a s m => some (encSrc 16 d a s 5 m)
  | .vredRedor d a s m => some (encSrc 16 d a s 6 m)
  | .vredScanAdd d a s m => some (encSrc 16 d a s 7 m)
  | .vredScanMax d a s m => some (encSrc 16 d a s 8 m)
  | .vredRedsumW d a b m => some (encV3 16 d a b 2 4 m)
  | .vredMaskAnd d a b m => some (encV3 16 (ext3 d) (ext3 a) (ext3 b) 9 0 m)
  | .vredMaskOr d a b m => some (encV3 16 (ext3 d) (ext3 a) (ext3 b) 10 0 m)
  | .vredMaskXor d a b m => some (encV3 16 (ext3 d) (ext3 a) (ext3 b) 11 0 m)
  | .vredMaskAndn d a b m => some (encV3 16 (ext3 d) (ext3 a) (ext3 b) 12 0 m)
  | .vredMaskFirst d a m => some (encV3 16 d (ext3 a) 0 13 0 m)
  | .vredMaskCount d a m => some (encV3 16 d (ext3 a) 0 14 0 m)
  | .vredMaskCutoff a m => some (encV3 16 0 (ext3 a) 0 15 0 m)
  | .vredMaskThru a m => some (encV3 16 0 (ext3 a) 0 16 0 m)
  | .vredIota d m => some (encV3 16 d 0 0 17 0 m)
  | .vpermSlideup d a s m => some (encSrc 17 d a s 0 m)
  | .vpermSlidedown d a s m => some (encSrc 17 d a s 1 m)
  | .vpermGather d a s m => some (encSrc 17 d a s 4 m)
  | .vpermSlide1up d a b m => some (encV3 17 d a b 2 1 m)
  | .vpermSlide1down d a b m => some (encV3 17 d a b 3 1 m)
  | .vpermExtract d a b m => some (encV3 17 d a b 8 1 m)
  | .vpermInsert d a b m => some (encV3 17 d a b 9 1 m)
  | .vpermCompress d a b => some (encV3 17 d a (ext3 b) 5 0 0)
  | .vpermExpand d a b => some (encV3 17 d a (ext3 b) 6 0 0)
  | .vpermReshape d a b => some (encV3 17 d a b 7 1 0)
  | .vldUnit d a c h m => some (encVM 18 d a 0 c 0 h m)
  | .vldFf d a c h m => some (encVM 18 d a 0 c 4 h m)
  | .vldStr d a b c h m => some (encVM 18 d a b c 1 h m)
  | .vld2d d a b c h m => some (encVM 18 d a b c 2 h m)
  | .vldIdx d a b c h m => some (encVM 18 d a b c 3 h m)
  | .vldShape d a b c h m => some (encVM 18 d a b c 5 h m)
  | .vstUnit d a c h m => some (encVM 19 d a 0 c 0 h m)
  | .vstMx d a c h m => some (encVM 19 d a 0 c 4 h m)
  | .vstStr d a b c h m => some (encVM 19 d a b c 1 h m)
  | .vst2d d a b c h m => some (encVM 19 d a b c 2 h m)
  | .vstIdx d a b c h m => some (encVM 19 d a b c 3 h m)
  | .vstShape d a b c h m => some (encVM 19 d a b c 5 h m)
  | .strmBind d a => some (encS3 20 (ext3 d) a 0 0 0)
  | .strmBindOut d a => some (encS3 20 (ext3 d) a 0 1 0)
  | .strmFree d => some (encS3 20 (ext3 d) 0 0 2 0)
  | .strmStatus d a => some (encS3 20 d (ext3 a) 0 3 0)
  | .strmSkip d a => some (encS3 20 (ext3 d) a 0 4 0)
  | .sclLd a b => some (encS3 21 0 a b 0 0)
  | .sclSt a b => some (encS3 21 0 a b 1 0)
  | .sclTov d => some (encS3 21 d 0 0 2 0)
  | .sclFromv a => some (encS3 21 0 a 0 3 0)
  | .copyCopy d a b c => some (encAmo 22 d a b c 0 0)
  | .copyCopy2d d a b c => some (encAmo 22 d a b c 1 0)
  | .copyFill d a b c => some (encAmo 22 d a b c 2 0)
  | .matWld d a ws => some (encS3 23 d a ((0#1 : BitVec 1) ++ ws) 0 0)
  | .matMma fd ac ws sp last first => some (encS3 23 ((0#2 : BitVec 2) ++ fd ++ ac) 0 ((0#1 : BitVec 1) ++ ws) 1 ((0#2 : BitVec 2) ++ sp ++ BitVec.ofBool last ++ BitVec.ofBool first))
  | .matAnchor ac a => some (encS3 23 ((0#4 : BitVec 4) ++ ac) a 0 2 0)
  | .matBel d clr => some (encS3 23 d 0 0 3 ((0#5 : BitVec 5) ++ BitVec.ofBool clr))
  | .matSlot d fd => some (encS3 23 d 0 0 4 ((0#4 : BitVec 4) ++ fd))
  | .matFeed fd a b => some (encS3 23 ((0#2 : BitVec 2) ++ fd ++ (0#1 : BitVec 1)) a b 5 0)
  | .matFeedEnd fd code => some (encS3 23 ((0#2 : BitVec 2) ++ fd ++ (0#1 : BitVec 1)) 0 code 6 0)
  | .matDrain d a ac => some (encS3 23 d a 0 7 ((0#5 : BitVec 5) ++ ac))
  | .matDrainEnd ac => some (encS3 23 0 0 0 8 ((0#5 : BitVec 5) ++ ac))
  | .fabEnq d a b c => some (encAmo 24 d a b c 0 0)
  | .fabAdd96 d a b c => some (encAmo 24 d a b c 1 0)
  | .fabNotify a b c => some (encAmo 24 0 a b c 2 0)
  | .vectorCommit _ => none
  | .setlGrantSwitch _ => none
  | .kernelHaltComplete _ => none
  | .wfeWake _ => none
  | .yieldIdleEnd _ => none
  | .memWritePerform _ _ => none
  | .cowStallResume _ _ => none
  | .pageWalkComplete _ _ => none
  | .engineThreadStart _ => none
  | .copyComplete _ => none
  | .wldComplete _ => none
  | .add96Perform _ => none
  | .streamFetch _ _ => none
  | .streamWriteback _ _ => none
  | .mmaStart _ => none
  | .mmaComplete _ => none
  | .bellowsStallResume _ => none
  | .launchEligibilityRead _ => none
  | .aftdepPollTimer _ => none
  | .launchPlace => none
  | .preemptByPriority => none
  | .launchStop _ => none
  | .saveAreaWritten _ => none
  | .launchRestart _ => none
  | .launchEnd _ => none
  | .laneArbiterRecompute _ => none
  | .seal _ => none
  | .fullingEnd _ => none
  | .holdWordRead _ => none
  | .holdPollTimer _ => none
  | .droopAlarm _ _ => none
  | .stretchEnd _ => none
  | .halfRateWindowEnd _ => none
  | .powerControlTick _ _ => none
  | .sensorSample _ _ => none
  | .notifyWindowEnd _ => none
  | .laneRetire _ _ => none
  | .patrolScrub _ => none
  | .weightScrub _ _ _ => none
  | .tracePostEnd => none
  | .timeSyncTimer => none
  | .timingPacket _ _ => none
  | .ngReadRequest _ _ _ _ => none
  | .ngWrite _ _ _ _ => none
  | .ngAmo _ _ _ _ _ _ => none
  | .ngAdd96 _ _ _ _ => none
  | .ngNotify _ _ _ _ => none
  | .ngEnqueue _ _ _ _ _ => none
  | .ngResponse _ _ => none
  | .ngAck _ _ => none
  | .ngCrcReplay _ _ => none
  | .ngPortDown _ => none
  | .ngRouteLost _ => none
  | .powerGoodBoot => none
  | .bringupFunctionReady _ => none
  | .vtypeCsrWrite _ => none
  | .aspaceCsrWrite _ => none
  | .lanepartWrite _ => none
  | .lanereqCsrWrite _ => none
  | .belstatFullClear _ => none
  | .ufndataAccess _ => none
  | .ufnvalidWrite _ => none
  | .notifybaseWrite _ => none
  | .evsWrite _ _ => none
  | .bprun _ => none
  | .trgctlFire _ => none
  | .smpctlWrite _ => none
  | .trcctlWrite _ => none
  | .trcdataRead => none
  | .csrWriteGeneric _ _ => none
  | .smbReadReady => none
  | .smbPowerLimit _ => none
  | .smbSensorRead _ => none
  | .smbReset _ => none
  | .smbFireSoft => none
  | .smbFlashImage _ _ => none
  | .jtagBypass => none
  | .jtagIdcode => none
  | .jtagSamplePreload => none
  | .jtagExtest => none
  | .vectorIssue _ => none
  | .memReadPerform _ _ => none
  | .ngRouteReturn _ => none

end Sys2Proof
end

