-- ==== Sys2Proof/Machine/Vtype.lean ====
section
/-! DEFINITION. The fields of VTYPE (R85) and the type tags of vector elements (R28). -/
namespace Sys2Proof.Machine

/-- The type tags of R28. Codes 15, 22, 23 and 28 to 31 are reserved and name no tag. -/
inductive Tag where
  | int8 | uint8 | e4m3 | e5m2 | e3m2 | e2m3 | e2m1 | q6
  | int16 | uint16 | fp16 | bf16 | q15 | q14 | ang16
  | int32 | uint32 | fp32 | q31 | q30 | ang32
  | int64 | uint64 | q63 | ptr64
  deriving DecidableEq, Repr

/-- The classes of tags of R28. -/
inductive TagClass where
  | integer | fixed | float | smallFloat | angle | pointer
  deriving DecidableEq, Repr

/-- The tag that a 5-bit code names, or none for a reserved code (R28). -/
def Tag.ofCode (c : Nat) : Option Tag :=
  match c with
  | 0 => some .int8 | 1 => some .uint8 | 2 => some .e4m3 | 3 => some .e5m2 | 4 => some .e3m2
  | 5 => some .e2m3 | 6 => some .e2m1 | 7 => some .q6 | 8 => some .int16 | 9 => some .uint16
  | 10 => some .fp16 | 11 => some .bf16 | 12 => some .q15 | 13 => some .q14 | 14 => some .ang16
  | 16 => some .int32 | 17 => some .uint32 | 18 => some .fp32 | 19 => some .q31 | 20 => some .q30
  | 21 => some .ang32 | 24 => some .int64 | 25 => some .uint64 | 26 => some .q63 | 27 => some .ptr64
  | _ => none

/-- The 5-bit code of a tag (R28). -/
def Tag.code : Tag → Nat
  | .int8 => 0 | .uint8 => 1 | .e4m3 => 2 | .e5m2 => 3 | .e3m2 => 4 | .e2m3 => 5 | .e2m1 => 6 | .q6 => 7
  | .int16 => 8 | .uint16 => 9 | .fp16 => 10 | .bf16 => 11 | .q15 => 12 | .q14 => 13 | .ang16 => 14
  | .int32 => 16 | .uint32 => 17 | .fp32 => 18 | .q31 => 19 | .q30 => 20 | .ang32 => 21
  | .int64 => 24 | .uint64 => 25 | .q63 => 26 | .ptr64 => 27

/-- The width in bits of a tag (R28). -/
def Tag.width : Tag → Nat
  | .int8 | .uint8 | .e4m3 | .e5m2 | .e3m2 | .e2m3 | .e2m1 | .q6 => 8
  | .int16 | .uint16 | .fp16 | .bf16 | .q15 | .q14 | .ang16 => 16
  | .int32 | .uint32 | .fp32 | .q31 | .q30 | .ang32 => 32
  | .int64 | .uint64 | .q63 | .ptr64 => 64

/-- The class of a tag (R28). -/
def Tag.cls : Tag → TagClass
  | .int8 | .uint8 | .int16 | .uint16 | .int32 | .uint32 | .int64 | .uint64 => .integer
  | .q6 | .q15 | .q14 | .q31 | .q30 | .q63 => .fixed
  | .fp16 | .bf16 | .fp32 => .float
  | .e4m3 | .e5m2 | .e3m2 | .e2m3 | .e2m1 => .smallFloat
  | .ang16 | .ang32 => .angle
  | .ptr64 => .pointer

/-- Tags read as two's complement (R32). -/
def Tag.signed : Tag → Bool
  | .int8 | .int16 | .int32 | .int64 | .q6 | .q14 | .q15 | .q30 | .q31 | .q63 => true
  | _ => false

/-- The number of fraction bits of a fixed or angle tag; 0 for the integers and pointers (R32). -/
def Tag.frac : Tag → Nat
  | .q6 => 6 | .q14 => 14 | .q15 => 15 | .q30 => 30 | .q31 => 31 | .q63 => 63
  | .ang16 => 16 | .ang32 => 32
  | _ => 0

/-- The tags an MX block may carry (R48). -/
def Tag.isMx : Tag → Bool
  | .e5m2 | .e4m3 | .e3m2 | .e2m3 | .e2m1 | .q6 => true
  | _ => false

/-- The signed integer tag of a width (R30). -/
def Tag.intOf (w : Nat) : Tag := if w = 8 then .int8 else if w = 16 then .int16 else if w = 32 then .int32 else .int64

/-- The unsigned integer tag of a width (R165, R177). -/
def Tag.uintOf (w : Nat) : Tag := if w = 8 then .uint8 else if w = 16 then .uint16 else if w = 32 then .uint32 else .uint64

/-- VTYPE[23:0] (R85). -/
abbrev VType := BitVec 24

/-- VTYPE.SEW in bits. A reserved SEW is never installed (R85); its low two bits are read. -/
def VType.sew (v : VType) : Nat := 8 * 2 ^ ((v.extractLsb' 0 2).toNat)
/-- VTYPE.LMUL as a count of registers. A reserved LMUL is never installed (R85); its low two bits are read. -/
def VType.lmul (v : VType) : Nat := 2 ^ ((v.extractLsb' 3 2).toNat)
/-- VTYPE.TA (R85). -/
def VType.ta (v : VType) : Bool := v.getLsbD 6
/-- VTYPE.MA (R85). -/
def VType.ma (v : VType) : Bool := v.getLsbD 7
/-- VTYPE.RM (R39). -/
def VType.rm (v : VType) : Nat := (v.extractLsb' 8 3).toNat
/-- VTYPE.FZ bit 0: outputs are flushed (R43). -/
def VType.fzOut (v : VType) : Bool := v.getLsbD 11
/-- VTYPE.FZ bit 1: inputs are flushed (R43). -/
def VType.fzIn (v : VType) : Bool := v.getLsbD 12
/-- VTYPE.FXC (R44). -/
def VType.fxc (v : VType) : Nat := (v.extractLsb' 13 3).toNat
/-- VTYPE.BL (R85). -/
def VType.bl (v : VType) : Nat := (v.extractLsb' 16 3).toNat
/-- VTYPE.SAT (R33). -/
def VType.sat (v : VType) : Bool := v.getLsbD 19
/-- VTYPE.CPX (R77). -/
def VType.cpx (v : VType) : Bool := v.getLsbD 20
/-- VTYPE.XM (R45). -/
def VType.xm (v : VType) : Nat := (v.extractLsb' 21 3).toNat

/-- A value that a CSR write or `vcfg.settype` may install in VTYPE: no reserved SEW, LMUL or RM and no bit
of [63:24] set (R85, R154). For `vcfg.settype` and `vcfg.getmax` the whole of x(A) is tested. -/
def vtypeValid (v : W64) : Bool :=
  v.extractLsb' 24 40 = 0 && (v.extractLsb' 2 1 = 0) && (v.extractLsb' 5 1 = 0) && (v.extractLsb' 9 2 ≠ 3)

/-- VLMAX for a number of lanes (R85). -/
def vlmaxOf (lanes : Nat) (v : VType) : Nat := 64 * lanes * v.lmul / v.sew

end Sys2Proof.Machine
end

