-- ==== Sys2Proof/Machine/Flags.lean ====
section
/-! DEFINITION. The per-element flags (R44). -/
namespace Sys2Proof.Machine

/-- A set of flags: NV, DZ, OV, UF, NX, SA, NC at bits 0 to 6 (R44). -/
abbrev Flags := BitVec 7

/-- No flag. -/
def Flags.none : Flags := 0
/-- Invalid operation (R44). -/
def Flags.nv : Flags := 1
/-- Division by zero (R44). -/
def Flags.dz : Flags := 2
/-- Overflow (R40). -/
def Flags.ov : Flags := 4
/-- Underflow (R41). -/
def Flags.uf : Flags := 8
/-- Inexact (R44). -/
def Flags.nx : Flags := 16
/-- Saturation (R33). -/
def Flags.sa : Flags := 32
/-- A rotation input outside its convergence range (R62). -/
def Flags.nc : Flags := 64

/-- A flag raised when a condition holds. -/
def Flags.when (b : Bool) (f : Flags) : Flags := if b then f else 0

/-- Does one element's set F hold the flag that VTYPE.FXC routes (R44, R45)? -/
def Flags.routed (vt : VType) (f : Flags) : Bool := vt.xm != 0 && vt.fxc != 0 && f.getLsbD (vt.fxc - 1)

/-- Does a set hold a flag that FTRAP enables (R45)? -/
def Flags.traps (ftrap f : Flags) : Bool := (f &&& ftrap) != 0

end Sys2Proof.Machine
end

