-- ==== Sys2Proof/Machine/Number.lean ====
section
/-! DEFINITION. Exact values of elements, rounding and encoding (R32 to R43, R46, R47, R52 to R55, R403).
An element is a code, a natural number below 2 to its width; its exact value is a `Val`. -/
namespace Sys2Proof.Machine

/-- An exact value: a NaN (signalling or quiet), an infinity, a signed zero, or m × 2^e with m not 0. -/
inductive Val where
  | nan (sig : Bool) | inf (neg : Bool) | zero (neg : Bool) | fin (m : Int) (e : Int)
  deriving DecidableEq, Repr

/-- floor(v / 2^k) (R55). -/
def floorShift (v : Int) (k : Nat) : Int := v / (2 ^ k : Nat)

/-- The two's-complement reading of a code of width w (R55). -/
def sextN (w c : Nat) : Int := if c % 2 ^ w < 2 ^ (w - 1) then (c % 2 ^ w : Nat) else (c % 2 ^ w : Nat) - (2 ^ w : Nat)

/-- wrap(v, w) as a code: the residue of v modulo 2^w (R55). -/
def wrapN (w : Nat) (v : Int) : Nat := (v % (2 ^ w : Nat)).toNat

/-- wrap(v, w) for signed use (R55). -/
def wrapS (w : Nat) (v : Int) : Int := sextN w (wrapN w v)

/-- The value m × 2^e, with a zero m read as +0. -/
def Val.mk (m e : Int) : Val := if m = 0 then .zero false else .fin m e

/-- A binary float format of R35: widths of exponent and significand, bias, and its special codes. -/
structure FloatFmt where
  ebits : Nat
  mbits : Nat
  bias : Int
  ieee : Bool
  nanCode : Bool
  deriving DecidableEq, Repr

/-- The formats of R35. -/
def Tag.fmt : Tag → Option FloatFmt
  | .fp32 => some ⟨8, 23, 127, true, true⟩
  | .fp16 => some ⟨5, 10, 15, true, true⟩
  | .bf16 => some ⟨8, 7, 127, true, true⟩
  | .e5m2 => some ⟨5, 2, 15, true, true⟩
  | .e4m3 => some ⟨4, 3, 7, false, true⟩
  | .e3m2 => some ⟨3, 2, 3, false, false⟩
  | .e2m3 => some ⟨2, 3, 1, false, false⟩
  | .e2m1 => some ⟨2, 1, 1, false, false⟩
  | _ => none

/-- Bits of a code above the format, which reads ignore (R37), are dropped here. -/
def FloatFmt.decode (f : FloatFmt) (c : Nat) : Val :=
  let neg := (c / 2 ^ (f.ebits + f.mbits)) % 2 = 1
  let ex := (c / 2 ^ f.mbits) % 2 ^ f.ebits
  let m := c % 2 ^ f.mbits
  let sgn (k : Nat) : Int := if neg then -(k : Int) else k
  if f.ieee && ex = 2 ^ f.ebits - 1 then
    if m = 0 then .inf neg else .nan (m < 2 ^ (f.mbits - 1))
  else if !f.ieee && f.nanCode && ex = 2 ^ f.ebits - 1 && m = 2 ^ f.mbits - 1 then .nan false
  else if ex = 0 then
    if m = 0 then .zero neg else .fin (sgn m) (1 - f.bias - f.mbits)
  else .fin (sgn (2 ^ f.mbits + m)) (ex - f.bias - f.mbits)

/-- value(b, t) of R55. -/
def value (t : Tag) (c : Nat) : Val :=
  match t.fmt with
  | some f => f.decode c
  | none => Val.mk (if t.signed then sextN t.width c else (c % 2 ^ t.width : Nat)) (-(t.frac : Int))

/-- The float tags that FZ applies to (R43). -/
def Tag.flushes : Tag → Bool
  | .fp32 | .fp16 | .bf16 => true
  | _ => false

/-- Is a finite value subnormal in a format (R35)? -/
def FloatFmt.subnormal (f : FloatFmt) (c : Nat) : Bool :=
  (c / 2 ^ f.mbits) % 2 ^ f.ebits = 0 && c % 2 ^ f.mbits != 0

/-- An operand as read: its value, with a subnormal of fp32, fp16 or bf16 read as a zero of its sign when FZ
flushes inputs (R43). -/
def readVal (vt : VType) (t : Tag) (c : Nat) : Val :=
  match t.fmt with
  | some f =>
    if vt.fzIn && t.flushes && f.subnormal c then .zero ((c / 2 ^ (f.ebits + f.mbits)) % 2 = 1) else f.decode c
  | none => value t c

/-- NV for a signalling NaN operand (R36). -/
def Val.sigFlag : Val → Flags
  | .nan true => Flags.nv
  | _ => Flags.none

/-- Is the value a NaN? -/
def Val.isNan : Val → Bool
  | .nan _ => true
  | _ => false

/-- Is the value an infinity? -/
def Val.isInf : Val → Bool
  | .inf _ => true
  | _ => false

/-- Is the value a zero? -/
def Val.isZero : Val → Bool
  | .zero _ => true
  | _ => false

/-- The sign of a value; a NaN counts as positive (R36). -/
def Val.neg? : Val → Bool
  | .nan _ => false | .inf s => s | .zero s => s | .fin m _ => m < 0

/-- −v. -/
def Val.negate : Val → Val
  | .nan s => .nan s | .inf s => .inf !s | .zero s => .zero !s | .fin m e => .fin (-m) e

/-- |v|. -/
def Val.abs : Val → Val
  | .nan s => .nan s | .inf _ => .inf false | .zero _ => .zero false | .fin m e => .fin m.natAbs e

/-- v × 2^k. -/
def Val.scale (k : Int) : Val → Val
  | .fin m e => .fin m (e + k)
  | v => v

/-- Rounds m × 2^e to a multiple of 2^g under RM (R39): the integer multiple, and whether it was inexact.
The reserved codes of RM are never installed (R85) and read as RNE. -/
def roundTo (rm : Nat) (g m e : Int) : Int × Bool :=
  if g ≤ e then (m * (2 ^ (e - g).toNat : Nat), false)
  else
    let k := (g - e).toNat
    let lo := floorShift m k
    let r := m % (2 ^ k : Nat)
    if r = 0 then (lo, false)
    else
      let half : Int := (2 ^ (k - 1) : Nat)
      let up : Bool :=
        match rm with
        | 1 => decide (m < 0)
        | 2 => false
        | 3 => true
        | 4 => if r = half then decide (0 ≤ m) else decide (half < r)
        | 5 => decide (lo % 2 = 0)
        | _ => if r = half then decide (lo % 2 ≠ 0) else decide (half < r)
      (if up then lo + 1 else lo, true)

/-- floor(log2 |m × 2^e|) of a value that is not 0. -/
def topExp (m e : Int) : Int := (Nat.log2 m.natAbs : Int) + e

/-- The largest finite code of a format, without its sign (R35). -/
def FloatFmt.maxCode (f : FloatFmt) : Nat :=
  if f.ieee then (2 ^ f.ebits - 1) * 2 ^ f.mbits - 1
  else if f.nanCode then 2 ^ (f.ebits + f.mbits) - 2 else 2 ^ (f.ebits + f.mbits) - 1

/-- The code of an infinity, without its sign; only formats with `ieee` have one (R35). -/
def FloatFmt.infCode (f : FloatFmt) : Nat := (2 ^ f.ebits - 1) * 2 ^ f.mbits

/-- A code with its sign bit. -/
def FloatFmt.signed (f : FloatFmt) (neg : Bool) (c : Nat) : Nat := if neg then 2 ^ (f.ebits + f.mbits) + c else c

/-- The canonical NaN code of a format that has one (R35, R36). -/
def FloatFmt.canonNan (f : FloatFmt) : Nat :=
  if f.ieee then f.infCode + 2 ^ (f.mbits - 1) else 2 ^ (f.ebits + f.mbits) - 1

/-- overflow_result of R40. -/
def FloatFmt.overflow (f : FloatFmt) (rm : Nat) (neg : Bool) : Nat :=
  let big := f.signed neg f.maxCode
  let inf := f.signed neg f.infCode
  if !f.ieee then big
  else
    match rm with
    | 1 | 5 => big
    | 2 => if neg then inf else big
    | 3 => if neg then big else inf
    | _ => inf

/-- encode for a float tag (R55, R39 to R43), of a finite value m × 2^e that is not 0. The flush applies to
the tags for which `flush` is given. -/
def FloatFmt.encodeFin (f : FloatFmt) (rm : Nat) (flush : Bool) (m e : Int) : Nat × Flags :=
  let neg : Bool := decide (m < 0)
  let emin := 1 - f.bias
  let gFree := topExp m e - f.mbits
  let free := roundTo rm gFree m e
  let tiny : Bool := decide (topExp free.1 gFree < emin)
  if flush && tiny then (f.signed neg 0, Flags.uf ||| Flags.nx)
  else
    let g := max gFree (emin - f.mbits)
    let u := roundTo rm g m e
    -- the code of q × 2^g is (E − 1) × 2^mbits + q with E the biased exponent of the grid
    let code : Nat := ((g + f.mbits + f.bias - 1) * (2 ^ f.mbits : Nat) + u.1.natAbs).toNat
    if u.1 ≠ 0 && f.maxCode < code then (f.overflow rm neg, Flags.ov ||| Flags.nx)
    else (f.signed neg code, Flags.when u.2 Flags.nx ||| Flags.when (tiny && u.2) Flags.uf)

/-- encode for a float tag (R55). A NaN in a format without one is written +0 with NV; an infinity in a format
without one is written as the largest finite value with OV (R40). -/
def FloatFmt.encode (f : FloatFmt) (rm : Nat) (flush : Bool) : Val → Nat × Flags
  | .nan _ => if f.nanCode then (f.canonNan, Flags.none) else (0, Flags.nv)
  | .inf s => if f.ieee then (f.signed s f.infCode, Flags.none) else (f.signed s f.maxCode, Flags.ov)
  | .zero s => (f.signed s 0, Flags.none)
  | .fin m e => f.encodeFin rm flush m e

/-- The least value of an integer, fixed or pointer tag, in units of its grid (R32). -/
def Tag.lo (t : Tag) : Int := if t.signed then -(2 ^ (t.width - 1) : Nat) else 0
/-- The greatest value of an integer, fixed or pointer tag, in units of its grid (R32). -/
def Tag.hi (t : Tag) : Int := if t.signed then (2 ^ (t.width - 1) : Nat) - 1 else (2 ^ t.width : Nat) - 1

/-- sat of R55: the nearest value in range, and SA when it differs. -/
def Tag.saturate (t : Tag) (v : Int) : Int × Flags :=
  if v < t.lo then (t.lo, Flags.sa) else if t.hi < v then (t.hi, Flags.sa) else (v, Flags.none)

/-- The narrowing of R33 of an integer count of the grid of a tag that is not a float. -/
def narrow (vt : VType) (t : Tag) (v : Int) : Nat × Flags :=
  match t.cls with
  | .integer => if vt.sat then ((wrapN t.width (t.saturate v).1), (t.saturate v).2) else (wrapN t.width v, Flags.none)
  | .fixed => (wrapN t.width (t.saturate v).1, (t.saturate v).2)
  | _ => (wrapN t.width v, Flags.none)

/-- R42: an exact value converted to an integer or fixed tag. -/
def encodeR42 (vt : VType) (t : Tag) : Val → Nat × Flags
  | .nan _ => (0, Flags.nv)
  | .inf s => (wrapN t.width (if s then t.lo else t.hi), Flags.nv)
  | .zero _ => (0, Flags.none)
  | .fin m e =>
    let u := roundTo vt.rm (-(t.frac : Int)) m e
    if u.1 < t.lo then (wrapN t.width t.lo, Flags.nv)
    else if t.hi < u.1 then (wrapN t.width t.hi, Flags.nv)
    else (wrapN t.width u.1, Flags.when u.2 Flags.nx)

/-- encode(v, t) of R55 under a VTYPE. A value that is not finite reaches an integer or fixed tag only in a
conversion, where R42 applies; an angle rounds to its grid and wraps (R33, R34). -/
def encode (vt : VType) (t : Tag) (v : Val) : Nat × Flags :=
  match t.fmt with
  | some f => f.encode vt.rm (vt.fzOut && t.flushes) v
  | none =>
    match v with
    | .fin m e =>
      let u := roundTo vt.rm (-(t.frac : Int)) m e
      let n := narrow vt t u.1
      (n.1, n.2 ||| Flags.when u.2 Flags.nx)
    | .zero _ => (0, Flags.none)
    | other => encodeR42 vt t other

/-- The canonical NaN of a float tag; 0 for a tag that holds none (R36, R42). -/
def canonicalNan (t : Tag) : Nat :=
  match t.fmt with
  | some f => if f.nanCode then f.canonNan else 0
  | none => 0

/-- The exact sum of two finite values that are not 0, as a mantissa and exponent. -/
def addFin (m1 e1 m2 e2 : Int) : Int × Int :=
  let e := min e1 e2
  (m1 * (2 ^ (e1 - e).toNat : Nat) + m2 * (2 ^ (e2 - e).toNat : Nat), e)

/-- The sum of two values, with the sign of a zero sum fixed by R403: −0 under RDN (RM 2), else +0, except
that two zeros of one sign keep it. ∞ − ∞ is a NaN that raises NV (R36). -/
def Val.add (rm : Nat) : Val → Val → Val × Flags
  | .nan _, _ => (.nan false, Flags.none)
  | _, .nan _ => (.nan false, Flags.none)
  | .inf a, .inf b => if a = b then (.inf a, Flags.none) else (.nan false, Flags.nv)
  | .inf a, _ => (.inf a, Flags.none)
  | _, .inf b => (.inf b, Flags.none)
  | .zero a, .zero b => (.zero (if a = b then a else decide (rm = 2)), Flags.none)
  | .zero _, .fin m e => (.fin m e, Flags.none)
  | .fin m e, .zero _ => (.fin m e, Flags.none)
  | .fin m1 e1, .fin m2 e2 =>
    let s := addFin m1 e1 m2 e2
    if s.1 = 0 then (.zero (decide (rm = 2)), Flags.none) else (.fin s.1 s.2, Flags.none)

/-- The product of two values; 0 × ∞ is a NaN that raises NV (R36). -/
def Val.mul : Val → Val → Val × Flags
  | .nan _, _ => (.nan false, Flags.none)
  | _, .nan _ => (.nan false, Flags.none)
  | .inf a, b => if b.isZero then (.nan false, Flags.nv) else (.inf (a != b.neg?), Flags.none)
  | a, .inf b => if a.isZero then (.nan false, Flags.nv) else (.inf (a.neg? != b), Flags.none)
  | .zero a, b => (.zero (a != b.neg?), Flags.none)
  | a, .zero b => (.zero (a.neg? != b), Flags.none)
  | .fin m1 e1, .fin m2 e2 => (.fin (m1 * m2) (e1 + e2), Flags.none)

/-- a < b on values neither of which is a NaN. Zeros of either sign are equal. -/
def Val.lt : Val → Val → Bool
  | .inf true, b => b != .inf true
  | .inf false, _ => false
  | _, .inf b => !b
  | .zero _, .zero _ => false
  | .zero _, .fin m _ => decide (0 < m)
  | .fin m _, .zero _ => decide (m < 0)
  | .fin m1 e1, .fin m2 e2 => decide ((addFin m1 e1 (-m2) e2).1 < 0)
  | _, _ => false

/-- a = b as values; no NaN equals anything. -/
def Val.eqv (a b : Val) : Bool := !a.isNan && !b.isNan && !a.lt b && !b.lt a

/-- The smaller or larger of two values by R161: −0 counts as less than +0, one NaN gives the other operand,
two give a NaN. -/
def Val.pick (wantMax : Bool) (a b : Val) : Val :=
  if a.isNan then (if b.isNan then .nan false else b)
  else if b.isNan then a
  else
    let aLess := a.lt b || (!b.lt a && a.neg? && !b.neg?)
    if aLess != wantMax then a else b

/-- The common tag of two tags of one width by the tables of R46, or none where they mark a pair.
The rows of ptr64 give ptr64 here; `vop.sub` and `vop.rsub` of two pointers give int64 (R46). -/
def promote (a b : Tag) : Option Tag :=
  if a = b then (if a.cls = .smallFloat then none else some a)
  else if a.width ≠ b.width then none
  else
    match a.cls, b.cls with
    | .integer, .integer => some (Tag.intOf a.width)
    | .integer, .smallFloat => none
    | .smallFloat, _ => none
    | _, .smallFloat => none
    | .integer, _ => some b
    | _, .integer => some a
    | .fixed, .fixed => if a.frac < b.frac then some a else some b
    | .fixed, .float => some b
    | .float, .fixed => some a
    | _, _ => none

/-- The tag that a widening produces (R47). -/
def Tag.widen : Tag → Option Tag
  | .int8 => some .int16 | .uint8 => some .uint16 | .q6 => some .q14
  | .int16 => some .int32 | .uint16 => some .uint32 | .q14 => some .q30 | .q15 => some .q30
  | .fp16 | .bf16 => some .fp32 | .ang16 => some .ang32
  | .int32 => some .int64 | .uint32 => some .uint64 | .q30 => some .q63 | .q31 => some .q63
  | _ => none

/-- The tag that a narrowing produces (R47); fp32 narrows to fp16 unless the instruction names bf16. -/
def Tag.narrowed : Tag → Option Tag
  | .int16 => some .int8 | .uint16 => some .uint8 | .q14 => some .q6 | .q15 => some .q6
  | .int32 => some .int16 | .uint32 => some .uint16 | .q30 => some .q14 | .q31 => some .q15
  | .fp32 => some .fp16 | .ang32 => some .ang16
  | .int64 => some .int32 | .uint64 => some .uint32 | .q63 => some .q31
  | _ => none

/-- An E8M0 scale as an exponent of two, or none for the NaN code (R48). -/
def scaleExp (e : Byte) : Option Int := if e = 255#8 then none else some ((e.toNat : Int) - 127)

/-- An anchored value (V, E) with its sticky bit X (R52). -/
structure Anchored where
  v : BitVec 96
  e : BitVec 10
  x : Bool
  deriving DecidableEq, Repr

/-- The 16-byte layout of R52. -/
def Anchored.bits (a : Anchored) : BitVec 128 :=
  (BitVec.ofBool a.x) ++ (0#21 : BitVec 21) ++ a.e ++ a.v

/-- The anchored value of a 16-byte slot (R52). -/
def Anchored.ofBits (b : BitVec 128) : Anchored := ⟨b.extractLsb' 0 96, b.extractLsb' 96 10, b.getLsbD 127⟩

/-- add96 of R53, for equal E. -/
def add96 (a b : Anchored) : Anchored := ⟨a.v + b.v, a.e, a.x || b.x⟩

/-- R54: the conversion of an anchored value into a narrower tag, with NX when X is set. -/
def Anchored.convert (vt : VType) (t : Tag) (a : Anchored) : Nat × Flags :=
  let n := Val.mk a.v.toInt a.e.toInt
  let r := match t.fmt with
    | some f => f.encode vt.rm (vt.fzOut && t.flushes) n
    | none => encodeR42 vt t n
  (r.1, r.2 ||| Flags.when a.x Flags.nx)

end Sys2Proof.Machine
end

