-- ==== Sys2Proof/Machine/Store.lean ====
section
/-! DEFINITION. Sparse stores with numbered keys, and the byte memory in its canonical form (R260, R266). -/
namespace Sys2Proof.Machine

/-- A sparse table: pairs of key and value, keys rising. A key that is not listed has a default value. -/
abbrev Store (α : Type) := List (Nat × α)

/-- The value at a key, or a default. -/
def Store.get {α : Type} (d : α) : Store α → Nat → α
  | [], _ => d
  | (k, v) :: r, a => if a = k then v else Store.get d r a

/-- Sets the value at a key, keeping the keys rising. -/
def Store.put {α : Type} : Store α → Nat → α → Store α
  | [], a, x => [(a, x)]
  | (k, v) :: r, a, x =>
    if a < k then (a, x) :: (k, v) :: r else if a = k then (k, x) :: r else (k, v) :: Store.put r a x

/-- Drops a key. -/
def Store.drop {α : Type} (s : Store α) (a : Nat) : Store α := s.filter fun p => p.1 ≠ a

/-- The memory: listed bytes with addresses strictly rising and no entry equal to what an unlisted address
reads as, which is 0 (log 1). -/
abbrev Memory := List Host.Cell

/-- What an address reads as that is not listed (log 1). -/
def unlisted : Byte := 0

/-- One byte of memory. -/
def Memory.read : Memory → Nat → Byte
  | [], _ => unlisted
  | (k, v) :: r, a => if a = k then v else Memory.read r a

/-- Writes one byte, keeping the canonical form: writing the unlisted value removes the entry. -/
def Memory.write : Memory → Nat → Byte → Memory
  | [], a, x => if x = unlisted then [] else [(a, x)]
  | (k, v) :: r, a, x =>
    if a < k then (if x = unlisted then (k, v) :: r else (a, x) :: (k, v) :: r)
    else if a = k then (if x = unlisted then r else (k, x) :: r)
    else (k, v) :: Memory.write r a x

/-- Addresses strictly rising above a bound and no entry equal to the unlisted value. -/
def Memory.wfFrom (lo : Nat) : Memory → Bool
  | [] => true
  | (k, v) :: r => decide (lo ≤ k) && decide (v ≠ unlisted) && Memory.wfFrom (k + 1) r

/-- The canonical form of a memory. -/
def Memory.wf (m : Memory) : Bool := Memory.wfFrom 0 m

/-- Drops the bytes from lo to hi − 1. -/
def Memory.clearRange (m : Memory) (lo hi : Nat) : Memory := m.filter fun p => decide (p.1 < lo) || decide (hi ≤ p.1)

end Sys2Proof.Machine
end

