-- ==== Sys2Proof/Machine/State.lean ====
section
/-! DEFINITION. The state of a CD-4600: everything R24 lists and the registers of R78 to R87, R391 and R392,
as plain data, and State.reset. Agents are numbered: context k (R16) is agent k, the drone of cluster c is
agent 1024 + c. -/
namespace Sys2Proof.Machine

/-- The reasons a step can stop with a fault. -/
inductive Fault where
  /-- Raised by step, when the schedule names as an event a row that is no event of its own (an instruction, or
  a CSR write, which happens inside `sys.csr`), and by a meaning, when the acting unit is one that the
  instruction never runs on (a schedule or an actor field that no run has). Safe: a run that reaches it proves
  nothing. (log 2) -/
  | notAnEvent
  deriving DecidableEq, Repr

/-- The reasons a step can be refused. -/
inductive Refusal where
  /-- Raised by an arm of exec whose instruction has no meaning in the model, named by its mnemonic. Safe. -/
  | notModelled (mnemonic : String)
  deriving DecidableEq, Repr

/-- What a front does (R139 to R141, R315). -/
inductive Run where
  | idle | running | waiting | yielding | halting | halted
  deriving DecidableEq, Repr

/-- A byte that a write of a segment changes: its address, its value, and the bits of it that are written (R50, R196). -/
structure Patch where
  pa : Nat
  v : Byte
  mask : Byte
  deriving DecidableEq, Repr

/-- A memory access of an agent that can wait to perform: a scalar one (R120, R124), or the bytes of an MX segment that are
written together (R196). -/
inductive AccessKind where
  | load (size : Nat) (sign : Bool) (d : XReg)
  | store (size : Nat) (v : W64)
  | amo (op : BitVec 5) (d : XReg) (v expect : W64)
  | segment (bytes : List Patch)
  deriving DecidableEq, Repr

/-- An access that has issued and not performed (R122, R123): its place in program order, the instruction's
address, the checked addresses, class and scope, the number of the request it waits for over the fabric, and whether it is an
element or a segment of a vector store that stalls (R366). -/
structure Access where
  kind : AccessKind
  po : Nat
  pc : W64
  va : W64
  pa : Nat
  cls : Cls
  scope : BitVec 2
  sent : Option Nat
  vector : Bool
  deriving DecidableEq, Repr

/-- A completion value that waits for the read of its register, with the generation of the thread that has ended (R214, R280). -/
structure Token where
  d : XReg
  v : W64
  gen : BitVec 2
  deriving DecidableEq, Repr

/-- The scalar side of a context or drone: x registers, the context CSRs of R86, the scoreboard (R215, R246),
the monitor (R138), the trap shadow (R134) and the accesses not yet performed. `entering` says that the next fetch is that of a
trap entry (R134), `freezing` that a freeze is still to come (R393), and `fatal` that the agent has taken a fatal trap
(R311). `tokens` are completion values not read yet (R214). -/
structure Front where
  x : Vector W64 32
  pend : BitVec 32
  bad : BitVec 32
  pc : W64
  status : BitVec 5
  cause : BitVec 29
  epc : W64
  tval : W64
  tvec : W64
  scratch : W64
  aspace : W64
  spc : W64
  vcp : W64
  instret : W64
  curgen : BitVec 2
  shVtype : VType
  shVl : BitVec 13
  monLine : Nat
  monEvent : Bool
  run : Run
  entering : Bool
  freezing : Bool
  frozen : Bool
  held : Bool
  tokens : List Token
  acc : List Access
  po : Nat
  launch : Option Nat
  member : Nat
  preempt : Bool
  stopped : Bool
  fatal : Bool
  deriving DecidableEq, Repr

/-- An entry of a stream's buffer: its position, its bits and the generation they were read with (R203, R280). -/
structure StreamEntry where
  n : Nat
  bits : Nat
  gen : BitVec 2
  deriving DecidableEq, Repr

/-- A fault that a stream holds with an entry (R208). -/
structure StreamFault where
  n : Nat
  code : Nat
  va : W64
  deriving DecidableEq, Repr

/-- A bound stream (R192, R203, R322). `word1` is bits [13:0] of record element 1; `idx` is the consumed index
or the appended count. `told` says that the held fault has been delivered, and that its handler has not returned yet (R208). -/
structure Stream where
  out : Bool
  base : W64
  stride : Vector W64 3
  ext : Vector (BitVec 21) 3
  start : Vector (BitVec 21) 3
  word1 : BitVec 14
  idx : W64
  aspace : W64
  sup : Bool
  gen : BitVec 2
  po : Nat
  seq : Nat
  buf : List StreamEntry
  fault : Option StreamFault
  told : Bool
  deriving DecidableEq, Repr

/-- What an instruction in flight has changed, for its unwinding (R253): the bits that differ in each v register and each
mask, the tags that its destinations had, the marks of R379 that it has lifted, and those of them that had been reported. -/
structure Undo where
  v : Store (BitVec 4096)
  m : Store (BitVec 4096)
  tag : Store Tag
  bad : List (Nat × Nat × Nat)
  told : List (Nat × Nat)
  deriving DecidableEq, Repr

/-- What the sampled profile gathers of a vector load or store since it was issued (R394): the kind of its target, the
active elements accessed, the 64-byte blocks and the pages that they lie in, the cycles and the held-back cycles of its
element groups, the TLB misses, the stride of its shape record, and TIME and the front's next pc at its last move. -/
structure Tally where
  target : Option Nat
  elems : Nat
  lines : List Nat
  pages : List Nat
  cyc : Nat
  conf : Nat
  micro : Nat
  cluster : Nat
  stride : Option W64
  time : W64
  spc : W64
  deriving DecidableEq, Repr

/-- An instruction in the VIQ or in flight (R247): what its head entry and operand entries hold, the grant that
a `vcfg.setl` sampled (R249), its place in program order and whether it has completed. `keep` is x(B) of a
`vcfg.setl`. `pix` is the element at which it goes on and `pix0` the one at which it was issued; `started` says that an
element group has been processed, and `resumed` that a stop divided the instruction (R394). `flags` are those that its
elements have raised so far, `fpx` the first element that raised one FTRAP traps on (R45), and `undo` and `tally` what
its moves have left (R253, R394). -/
structure Entry where
  word : InstrWord
  addr : W64
  vl : BitVec 13
  vtype : VType
  ops : List W64
  keep : BitVec 32
  gnew : BitVec 8
  started : Bool
  ffv : Bool
  pix : BitVec 13
  pix0 : BitVec 13
  po : Nat
  done : Bool
  resumed : Bool
  flags : Flags
  fpx : Option Nat
  undo : Undo
  tally : Tally
  deriving DecidableEq, Repr

/-- The vector side of a context: the register files of R78, the user-block CSRs of R85, the VIQ (R247) and
the instructions in flight (R248). A register holds 64 bits of each of the 64 lanes; lane position p of the
owned lanes, in ascending order, is at bits [64p + 63 : 64p]. `bad` holds the unreadable bytes of register entries (R379):
register, position and byte; `told` those of these entries whose error has been reported (R382). `fgrant` is the grant that the newest
`vcfg.setl` sampled at the front (R152). -/
structure Vec where
  v : Vector (BitVec 4096) 32
  tag : Vector Tag 32
  bad : List (Nat × Nat × Nat)
  told : List (Nat × Nat)
  m : Vector (BitVec 4096) 8
  e : Vector Byte 256
  s : Vector (Option Stream) 8
  vtype : VType
  vl : BitVec 13
  vlmax : BitVec 13
  vstart : BitVec 13
  grant : BitVec 8
  fgrant : BitVec 8
  lanereq : BitVec 4
  scalebase : Byte
  flags : Flags
  ftrap : Flags
  viq : List Entry
  infl : List Entry
  deriving DecidableEq, Repr

/-- A translation held by a TLB (R329): identifier, fragment size, virtual fragment number, physical base, the
memory type and the permissions X, W, R, U and D of its leaf. -/
structure TlbEntry where
  asid : BitVec 16
  big : Bool
  vfn : Nat
  base : Nat
  pbmt : BitVec 2
  perm : BitVec 5
  deriving DecidableEq, Repr

/-- A core: LANEPART and LANEMAP (R87), user functions (R76), event counters (R392), breakpoints (R393), the
sampled profile (R394), latched snapshots (R391), micro-TLB (R329), the launches its slice is fenced for (R311),
the context that issued last (R315), uncorrectable register errors of each lane group (R382), whether an event of R313 waits for the arbiter, held
arbiter targets (R324), and what has issued since the last clock edge: the front's context and word, and the word of each
context's vector issue (R396). -/
structure Core where
  lanepart : BitVec 24
  lanemap : BitVec 8
  ufn : Store (BitVec 32)
  ufnaddr : BitVec 10
  ufnvalid : BitVec 16
  evc : Vector W64 8
  evs : Vector (BitVec 10) 8
  evfrz : BitVec 8
  bpaddr : Vector W64 4
  bpctl : Vector (BitVec 12) 4
  smpctl : BitVec 32
  smpbase : W64
  smpcount : BitVec 32
  smpfull : Bool
  smpleft : Nat
  tspc : Vector W64 4
  tvcp : Vector W64 4
  tlanepart : BitVec 24
  utlb : List TlbEntry
  fence : List Nat
  lastIssue : BitVec 2
  regErrors : Vector Nat 8
  arb : Bool
  restart : Store Nat
  shown : Option (Nat × InstrWord)
  vshown : Store InstrWord
  deriving DecidableEq, Repr

/-- The states of a weight set (R218). -/
inductive WsState where
  | invalid | valid | loading
  deriving DecidableEq, Repr

/-- A weight set (R218, R221 to R223): cells at 4,096 × row + column, scales at 128 × K-block + column block,
indices at 4,096 × row + column. -/
structure WeightSet where
  state : WsState
  btag : BitVec 5
  sp : BitVec 2
  cells : Memory
  scales : Store Byte
  idx : Store (BitVec 3)
  deriving DecidableEq, Repr

/-- A feed slot (R218, R226): element e of row r at 256 × r + e. -/
structure Slot where
  full : Bool
  elems : Memory
  code : BitVec 5
  scales : Vector Byte 8
  gen : BitVec 2
  deriving DecidableEq, Repr

/-- A cell of a tile (R218): 28 bits, the inexact and invalid bits, and its total bellows count (R233). -/
structure TileCell where
  v : BitVec 28
  x : Bool
  inv : Bool
  c : Int
  deriving DecidableEq, Repr

/-- An accumulator tile (R218, R229): cell (row, n) at 4,096 × row + n. -/
structure Tile where
  opened : Bool
  cells : Store TileCell
  anchor : BitVec 9
  anc : BitVec 9
  f : Nat
  gen : BitVec 2
  ready : BitVec 4
  deriving DecidableEq, Repr

/-- An entry of the array queue (R218, R323): the word, its address, x(A) of a `mat.anchor`, and its place in
the drone's program order. -/
structure QEntry where
  word : InstrWord
  addr : W64
  op : W64
  po : Nat
  deriving DecidableEq, Repr

/-- An MMA that has started and is not complete (R229, R242): its queue entry, the cell that it goes on with (4,096 × row +
column), and its tile as it stood before, for a BELFULL (R234). -/
structure MmaRun where
  entry : QEntry
  pos : Nat
  held : Tile
  deriving DecidableEq, Repr

/-- A line that a cache slice holds (R269): its number, whether it is to be written back, and whether an access with `keep`
brought it in. -/
structure CacheLine where
  line : Nat
  dirty : Bool
  keep : Bool
  deriving DecidableEq, Repr

/-- An access of a step that the hierarchy has not accounted for yet (R268, R272, R329, R392): the agent, whether only the
cluster TLB serves it (a thread or an `idx` element), the address that is looked up in the TLBs with the ASPACE value, the
bytes accessed with their kind and hint, and the vector entry of the agent whose record counts the misses (R394). The
model's own. -/
structure Touch where
  agent : Nat
  far : Bool
  va : Option (W64 × W64)
  pa : Option (Nat × Nat)
  write : Bool
  hint : BitVec 2
  entry : Option Nat
  deriving DecidableEq, Repr

/-- A cluster: the array and its objects (R218), BELPOL, BELSTAT.FULL and DROOPTH (R87), the droop sequence
(R388), counters (R392), latched snapshots (R391), cluster TLB (R329), CYCLE (R85), its READYCL bit (R399), its cache
slice: the lines of each set, most recently used first (R269), and the word that the drone has issued since the last clock
edge (R396). -/
structure Cluster where
  ws : Store WeightSet
  fd : Vector Slot 4
  ac : Vector Tile 2
  belpol : Bool
  belfull : Bool
  queue : List QEntry
  mma : Option MmaRun
  stalled : Bool
  droopth : Byte
  stretch : Nat
  half : Nat
  kvc : Vector W64 8
  kvs : Vector (BitVec 10) 8
  kvfrz : BitVec 8
  tdpc : W64
  tbelstat : W64
  tpres : W64
  tlb : List TlbEntry
  cycle : W64
  ready : Bool
  cache : Store (List CacheLine)
  dshown : Option InstrWord
  deriving DecidableEq, Repr

/-- A launch record (R300). -/
structure LaunchRec where
  entry : W64
  dentry : W64
  arg : W64
  cbaddr : W64
  aftaddr : W64
  aftval : W64
  aspace : W64
  ctrl : W64
  deriving DecidableEq, Repr

/-- What a pre-empted launch keeps on the device beside its save areas (R312, R317, R324; log 23): by member, the
number of lane groups and the addresses of the saved entries; the entry addresses of each drone; the agents that
had halted; and whether a fatal fault had happened. -/
structure Saved where
  grants : List Nat
  addrs : List (List W64)
  halted : List Bool
  fatal : Bool
  deriving DecidableEq, Repr

/-- A record in a launch queue (R304, R305, R312): its sequence number, the TIME at which it became eligible, what a
pre-emption left, the line at which its after-dependency was last read, and whether a read of it is due. -/
structure Queued where
  seq : Nat
  record : LaunchRec
  eligible : Option W64
  saved : Option Saved
  line : Option Nat
  due : Bool
  deriving DecidableEq, Repr

/-- A placed launch (R307 to R317): its record, its contexts and clusters in placement order, whether a fatal fault has happened, a gang fault word that stalls (R366), whether it is being stopped, how many words of its save have been
written, what its stop has saved, what it restores, and the agent that halted last (R369). The drones of the clusters run when DENTRY is not 0. A launch that failed before
placement has no agents (R305). -/
structure Placed where
  seq : Nat
  record : LaunchRec
  eligible : W64
  members : List Nat
  clusters : List Nat
  fatal : Bool
  gang : Option W64
  stopping : Bool
  savePos : Nat
  saved : Option Saved
  restoring : Option Saved
  last : Option Nat
  deriving DecidableEq, Repr

/-- An occupied snapshot slot (R355, R361, R364): generation, drain descriptor, the translation it uses, the
STATE word's address and value, whether the slot is sealed, whether fulling has ended, the lines that it has gone through and
the error that stopped it, the line of its hold word and whether a read of it is due (R367), and the reserve batt that holds
each batt no longer shared (R362). -/
structure SnapSlot where
  gen : BitVec 2
  dest : W64
  base : W64
  len : W64
  notify : W64
  hold : W64
  ctrl : W64
  aspace : W64
  sup : Bool
  descVa : W64
  state : W64
  sealed : Bool
  fulled : Bool
  pos : Nat
  err : Option Nat
  line : Option Nat
  due : Bool
  batts : Store Nat
  deriving DecidableEq, Repr

/-- A STATE or notify word that stalls for a reserve batt (R364, R366): the descriptor that it belongs to, its address and the
translation it uses, its value, and whether it is the notify word. -/
structure Owed where
  desc : W64
  aspace : W64
  sup : Bool
  va : W64
  v : W64
  notify : Bool
  deriving DecidableEq, Repr

/-- Whose a write of the device is that stalls for a reserve batt and is no access of an agent: a copy or fill, the save of an
agent, the fulling of a slot, the sampled profile of a core, or a notify word of the device itself (R366). -/
inductive Writer where
  | thread (t : Nat) | save (seq a : Nat) | fulling (j : Nat) | sample (g : Nat) | device
  deriving DecidableEq, Repr

/-- A write that stalls for a reserve batt, and its bytes (R366). -/
structure Stuck where
  by_ : Writer
  pa : Nat
  bytes : List Byte
  deriving DecidableEq, Repr

/-- What an engine thread does (R213, R223, R349, R350). A `fab.add96` and a `fab.notify` have looked up their address. -/
inductive ThreadKind where
  | copy (d : XReg) (dst src : W64) (n : Nat)
  | copy2d (d : XReg) (dst src dstride sstride : W64) (h l : Nat)
  | fill (d : XReg) (dst : W64) (n : Nat) (pattern : W64)
  | wld (d : XReg) (src : W64) (ws : BitVec 4) (part : BitVec 2) (sp : BitVec 2) (btag : BitVec 5)
  | add96 (d : XReg) (va : W64) (pa : Nat) (v : BitVec 128)
  | notify (va : W64) (pa : Nat) (v : W64)
  deriving DecidableEq, Repr

/-- An engine thread (R203, R213, R255): issuer, place in its program order, class, address space, mode,
generation, and whether it has started. `sent` is the request it waits for over the fabric. A copy has gone through `pos` of
its bytes, and `err` is the code and the offset of the lowest byte that has failed (R214). -/
structure Thread where
  id : Nat
  agent : Nat
  po : Nat
  kind : ThreadKind
  cls : Cls
  aspace : W64
  sup : Bool
  gen : BitVec 2
  started : Bool
  sent : Option Nat
  pos : Nat
  err : Option (Nat × Nat)
  deriving DecidableEq, Repr

/-- What a packet carries (R340). `readSeg` asks for the runs of one MX segment, and `writeSeg` is a part of the bytes of one;
the parts of a segment carry one request number, and perform together when the last has arrived (R196, R284; log 62). -/
inductive NgOut where
  | read (addr size : Nat) | write (addr : Nat) (bytes : List Byte)
  | readSeg (runs : List (Nat × Nat)) | writeSeg (bytes : List Patch)
  | amo (addr : Nat) (op : BitVec 5) (v expect : W64)
  | add96 (addr : Nat) (v : BitVec 128) | notify (addr : Nat) (v : W64)
  | enqueue (queue : Nat) (bytes : List Byte) | response (reply : NgReply) | timing | timed (t : W64)
  deriving DecidableEq, Repr

/-- A packet that a port has sent and that is not acknowledged (R341): port, link sequence number of its first flit,
destination, request number and content, and how often each of its flits was replayed. -/
structure Packet where
  port : Nat
  seq : Nat
  dst : Nat
  rseq : Nat
  what : NgOut
  replays : List Nat
  deriving DecidableEq, Repr

/-- Who waits for another device: a front or vector side, an engine thread that reads, the writes of a thread (by offset), a
stream, a task of the device. -/
inductive Owner where
  | front (a : Nat) | vector (k : Nat) | thread (t : Nat) | written (t : Nat) | stream (k j : Nat) | device (n : Nat)
  deriving DecidableEq, Repr

/-- Who waits for the response to a request (R342): a scalar access, a thread, a `fab.enq`, a store of an agent (its place
in program order, its class, and the runs of bytes that it covers; R132, R282), an entry that a stream of a context has
written (R207), bytes that an owner reads, the runs of a segment that it reads (R284), or nobody. -/
inductive Waiter where
  | access (ag : Nat) | thread (t : Nat) | enq (ag : Nat) (d : XReg)
  | store (ag po : Nat) (cls : Cls) (runs : List (Nat × Nat)) | entry (k j : Nat)
  | bytes (o : Owner) (addr size : Nat) | segment (o : Owner) (runs : List (Nat × Nat)) | none
  deriving DecidableEq, Repr

/-- Bytes of another device that have arrived and that their owner has not used yet (R344). -/
structure Arrival where
  owner : Owner
  addr : Nat
  size : Nat
  reply : NgReply
  deriving DecidableEq, Repr

/-- A request in flight (R342). -/
structure Request where
  rseq : Nat
  dst : Nat
  waiter : Waiter
  deriving DecidableEq, Repr

/-- An armed sensor subscription (R386, R387). `last` is the state last written; `window` says that a word was
written less than a millisecond ago; `latest` is the reading of the crossing that waits for its end. -/
structure Subscription where
  addr : Nat
  sensor : Nat
  up : Bool
  down : Bool
  thresh : Nat
  hyst : Nat
  above : Bool
  last : Option Bool
  window : Bool
  latest : Nat
  deriving DecidableEq, Repr

/-- The unit whose instruction the current step runs (log 2). A front may defer the access it issues. The vector side of
context k moves the entry at position j of those in flight, up to element `hi` (R251). -/
inductive Actor where
  | front (a : Nat) (defer : Bool) | vector (k j hi : Nat) | array (c : Nat) | device
  deriving DecidableEq, Repr

/-- What moves next (log 2): the front of an agent, the entry at position j in flight of a context by n element groups (as
far as it may go for n = 0), the array of a cluster, the lane arbiter of a core, a front whose idle cycles end, thread t by n
bytes, the save of a launch by n words, the fulling of slot j by n lines (as far as they may go for n = 0), the sweep of an
agent, a request for TIME that arrives from another device, or an event. -/
inductive Choice where
  | front (a : Nat) (defer : Bool) | vector (k j n : Nat) | array (c : Nat) | arbiter (g : Nat) | idleEnd (a : Nat)
  | thread (t n : Nat) | save (seq n : Nat) | fulling (j n : Nat) | raise (j a : Nat) | timing (src rseq : Nat) | event (i : Instr)
  deriving DecidableEq, Repr

/-- The state of the device. Memory holds main memory at its physical address (SLOT 0), the scratchpad slices
and the reserve batts at keys of their own (see Ops). `chosen` is the head that waits for its units (R307). `fired` are the trigger sources of the current step, and
`trcflags` what has happened since the last clock edge: a trigger, a droop alarm, and that the trigger was armed (R396, R397); `trig` says that the current cycle has had a trigger, and that it was armed (R397).
`stuck` are the writes that stall for a reserve batt, oldest first (R366). `touches`, `fired`, `trcflags`, `trig`, `sched`, `actor` and `freeCtr` are the model's own. -/
structure State where
  fronts : Store Front
  vecs : Store Vec
  cores : Store Core
  clusters : Store Cluster
  mem : Memory
  bgen : Store (BitVec 2)
  marks : Store (BitVec 4)
  live : BitVec 2
  slots : Vector (Option SnapSlot) 3
  owed : List Owed
  stuck : List Stuck
  uncor : List Nat
  cor : List Nat
  arrUncor : List (Nat × W64)
  queues : Vector (List Queued) 8
  placed : List Placed
  launchSeq : Nat
  chosen : Option Nat
  age : BitVec 32
  notifybase : W64
  subs : Vector (Option Subscription) 8
  sensors : Store Nat
  powerLimit : Nat
  clearFor : Nat
  time : W64
  dvc : Vector W64 16
  dvs : Vector (BitVec 10) 16
  dvfrz : BitVec 16
  trcctl : W64
  trcnext : BitVec 16
  trcwrap : Bool
  trcaddr : BitVec 19
  trcsram : Store W64
  trcpost : Option Nat
  trgctl : BitVec 21
  trgtime : W64
  trgcount : W64
  ready : BitVec 8
  threads : List Thread
  threadSeq : Nat
  flash : Flash
  packets : List Packet
  portSeq : Store Nat
  portsDown : List Nat
  requests : List Request
  arrived : List Arrival
  rseq : Nat
  responses : Store (List (Nat × NgReply))
  routesLost : List Nat
  inReset : Bool
  sbReply : List Byte
  jtag : BitVec 32
  touches : List Touch
  fired : BitVec 5
  trcflags : BitVec 3
  trig : BitVec 2
  sched : List Choice
  actor : Actor
  freeCtr : Nat
  deriving DecidableEq, Repr

/-- A context front at reset: x registers 0, STATUS.IE set and the other CSRs 0 (R78, R86); the pc, ASPACE, the
shadow and the monitor are 0 by log 7. -/
def Front.reset : Front :=
  { x := Vector.replicate 32 0, pend := 0, bad := 0, pc := 0, status := 0b00100, cause := 0, epc := 0, tval := 0,
    tvec := 0, scratch := 0, aspace := 0, spc := 0, vcp := 0, instret := 0, curgen := 0, shVtype := 0, shVl := 0,
    monLine := 0, monEvent := false, run := .idle, entering := false, freezing := false, frozen := false, held := false,
    tokens := [], acc := [], po := 0,
    launch := none, member := 0, preempt := false, stopped := false, fatal := false }

/-- Nothing to unwind. -/
def Undo.empty : Undo := { v := [], m := [], tag := [], bad := [], told := [] }
/-- Nothing gathered. -/
def Tally.empty : Tally := { target := .none, elems := 0, lines := [], pages := [], cyc := 0, conf := 0, micro := 0, cluster := 0, stride := .none, time := 0, spc := 0 }

/-- A drone front at reset: STATUS.DRONE reads 1 (R86). -/
def Front.resetDrone : Front := { Front.reset with status := 0b10100 }

/-- A vector side at reset (R78, R85). -/
def Vec.reset : Vec :=
  { v := Vector.replicate 32 0, tag := Vector.replicate 32 .int32, bad := [],
    told := [], m := (Vector.replicate 8 0).set 0 (BitVec.allOnes 4096), e := Vector.replicate 256 0x7F,
    s := Vector.replicate 8 none, vtype := 0x050002, vl := 0, vlmax := 0, vstart := 0, grant := 0, fgrant := 0,
    lanereq := 8, scalebase := 0, flags := 0, ftrap := 0, viq := [], infl := [] }

/-- A core at boot (R76, R87, R391 to R393). -/
def Core.reset : Core :=
  { lanepart := 0x924924, lanemap := 0, ufn := [], ufnaddr := 0, ufnvalid := 0, evc := Vector.replicate 8 0,
    evs := Vector.replicate 8 0, evfrz := 0, bpaddr := Vector.replicate 4 0, bpctl := Vector.replicate 4 0,
    smpctl := 0, smpbase := 0, smpcount := 0, smpfull := false, smpleft := 0, tspc := Vector.replicate 4 0,
    tvcp := Vector.replicate 4 0, tlanepart := 0, utlb := [], fence := [], lastIssue := 3,
    regErrors := Vector.replicate 8 0, arb := false, restart := [], shown := none, vshown := [] }

/-- An invalid weight set (R218). -/
def WeightSet.reset : WeightSet := { state := .invalid, btag := 0, sp := 0, cells := [], scales := [], idx := [] }

/-- An empty feed slot (R218). -/
def Slot.reset : Slot := { full := false, elems := [], code := 0, scales := Vector.replicate 8 127, gen := 0 }

/-- A cell that holds 0. -/
def TileCell.zero : TileCell := { v := 0, x := false, inv := false, c := 0 }

/-- A closed tile with ANCHOR 254 (R218). -/
def Tile.reset : Tile := { opened := false, cells := [], anchor := 254, anc := 254, f := 0, gen := 0, ready := 0 }

/-- A cluster at boot (R87, R218). -/
def Cluster.reset : Cluster :=
  { ws := [], fd := Vector.replicate 4 Slot.reset, ac := Vector.replicate 2 Tile.reset, belpol := true,
    belfull := false, queue := [], mma := none, stalled := false, droopth := 40, stretch := 0, half := 0,
    kvc := Vector.replicate 8 0, kvs := Vector.replicate 8 0, kvfrz := 0, tdpc := 0, tbelstat := 0, tpres := 0,
    tlb := [], cycle := 0, ready := false, cache := [], dshown := none }

/-- The configuration flash that the model starts with (log 4). -/
def Flash.initial : Flash :=
  { deviceId := 2, cl := 64, resv := 1024, thr := 16, laneMap := [], retireLog := [], hosts := [], routes := [],
    timeMaster := 2, repair := [], trims := [] }

/-- The device right after reset (R27, R85 to R87, R355): no launch placed, every unit of every agent at its
reset value, memory with nothing listed. -/
def State.reset : State :=
  { fronts := [], vecs := [], cores := [], clusters := [], mem := [], bgen := [], marks := [], live := 0,
    slots := Vector.replicate 3 none, owed := [], stuck := [], uncor := [], cor := [], arrUncor := [], queues := Vector.replicate 8 [],
    placed := [], launchSeq := 0, chosen := none, age := 100000, notifybase := 0, subs := Vector.replicate 8 none,
    sensors := [], powerLimit := 1500, clearFor := 0, time := 0, dvc := Vector.replicate 16 0,
    dvs := Vector.replicate 16 0, dvfrz := 0, trcctl := 0, trcnext := 0, trcwrap := false, trcaddr := 0,
    trcsram := [], trcpost := none, trgctl := 0, trgtime := 0, trgcount := 0, ready := 0, threads := [],
    threadSeq := 0, flash := Flash.initial, packets := [], portSeq := [], portsDown := [], requests := [], arrived := [],
    rseq := 0, responses := [], routesLost := [], inReset := false, sbReply := [], jtag := 0, touches := [], fired := 0, trcflags := 0, trig := 0, sched := [],
    actor := .front 0 false, freeCtr := 0 }

end Sys2Proof.Machine
end

