-- ==== Sys2Proof/Machine/Ops.lean ====
section
/-! DEFINITION. The named operations over registers, memory, translation and traps that every meaning is
written with. -/
namespace Sys2Proof.Machine

/-- The outcome of a meaning. -/
abbrev Out := Host.Outcome State Fault Refusal

/-! ## Units -/

/-- The agent number of the drone of cluster c. -/
def droneOf (c : Nat) : Nat := 1024 + c
/-- Is an agent a drone? -/
def isDrone (a : Nat) : Bool := decide (1024 ≤ a)
/-- The cluster of an agent (R16). -/
def clusterOf (a : Nat) : Nat := if a < 1024 then a / 16 else a - 1024
/-- The core whose CSRs an agent reaches; for a drone core 0 of its cluster (R81). -/
def coreOf (a : Nat) : Nat := if a < 1024 then a / 4 else 4 * (a - 1024)
/-- The number of a context within its core (R16). -/
def ctxOf (a : Nat) : Nat := a % 4

/-- The front of an agent; one that nothing has touched stands at reset. -/
def State.front (s : State) (a : Nat) : Front := Store.get (if a < 1024 then Front.reset else Front.resetDrone) s.fronts a
/-- Replaces the front of an agent. -/
def State.setFront (s : State) (a : Nat) (f : Front) : State := { s with fronts := s.fronts.put a f }
/-- The vector side of a context. -/
def State.vec (s : State) (k : Nat) : Vec := Store.get Vec.reset s.vecs k
/-- Replaces the vector side of a context. -/
def State.setVec (s : State) (k : Nat) (v : Vec) : State := { s with vecs := s.vecs.put k v }
/-- A core by its global index. -/
def State.core (s : State) (g : Nat) : Core := Store.get Core.reset s.cores g
/-- Replaces a core. -/
def State.setCore (s : State) (g : Nat) (c : Core) : State := { s with cores := s.cores.put g c }
/-- A cluster. -/
def State.cluster (s : State) (c : Nat) : Cluster := Store.get Cluster.reset s.clusters c
/-- Replaces a cluster. -/
def State.setCluster (s : State) (c : Nat) (x : Cluster) : State := { s with clusters := s.clusters.put c x }

/-- The step's free-value counter advances by one; free values are applied to it (log 3). -/
def State.tickFree (s : State) : State := { s with freeCtr := s.freeCtr + 1 }

/-! ## x registers -/

/-- x(r); x0 reads 0 (R78). -/
def Front.xr (f : Front) (r : XReg) : W64 := if r = 0 then 0 else f.x.getD r.toNat 0

/-- Writes x(r) and lifts its unreadable mark (R379); a write of x0 is discarded (R78). -/
def Front.setX (f : Front) (r : XReg) (v : W64) : Front :=
  if r = 0 then f else { f with x := f.x.setIfInBounds r.toNat v, bad := f.bad &&& ~~~(1#32 <<< r.toNat) }

/-- Is x(r) pending on the scoreboard (R215, R246)? -/
def Front.isPend (f : Front) (r : XReg) : Bool := r ≠ 0 && f.pend.getLsbD r.toNat
/-- Marks x(r) pending; x0 never is. -/
def Front.setPend (f : Front) (r : XReg) : Front := if r = 0 then f else { f with pend := f.pend ||| (1#32 <<< r.toNat) }
/-- Delivers the value that x(r) was pending on (R123, R214). -/
def Front.deliver (f : Front) (r : XReg) (v : W64) : Front :=
  Front.setX { f with pend := f.pend &&& ~~~(1#32 <<< r.toNat) } r v

/-- Is x(r) marked unreadable (R379)? -/
def Front.isBad (f : Front) (r : XReg) : Bool := r ≠ 0 && f.bad.getLsbD r.toNat

/-- STATUS.SUP (R86). -/
def Front.sup (f : Front) : Bool := f.status.getLsbD 0
/-- STATUS.IE (R86). -/
def Front.ie (f : Front) : Bool := f.status.getLsbD 2

/-- Writes x(d) of an agent. -/
def State.writeX (s : State) (a : Nat) (d : XReg) (v : W64) : State := s.setFront a ((s.front a).setX d v)

/-- The front has issued its instruction: the pc moves and the place in program order advances (R122, R274). -/
def State.issue (s : State) (a : Nat) (npc : W64) : State :=
  s.setFront a { s.front a with pc := npc, po := (s.front a).po + 1 }

/-- The front has issued and completed its instruction: INSTRET counts it (R85). -/
def State.retire (s : State) (a : Nat) (npc : W64) : State :=
  s.setFront a { s.front a with pc := npc, po := (s.front a).po + 1, instret := (s.front a).instret + 1 }

/-! ## Event counters (R392) -/

/-- Adds n to the counters of a bank whose selector is enabled for a code and not frozen. -/
def bumpAll {n m : Nat} (sel : Vector (BitVec 10) n) (frz : BitVec m) (code k : Nat) (cnt : Vector W64 n) : Vector W64 n :=
  cnt.mapIdx fun i v =>
    let e := sel.getD i 0
    if e.getLsbD 8 && (e.extractLsb' 0 8).toNat = code && !frz.getLsbD i then v + BitVec.ofNat 64 k else v

/-- Does any selector of a bank count a code? -/
def counts {n : Nat} (sel : Vector (BitVec 10) n) (code : Nat) : Bool :=
  sel.toList.any fun e => e.getLsbD 8 && (e.extractLsb' 0 8).toNat = code

/-- k events of a core (R272, R392). -/
def State.countCore (s : State) (g code k : Nat) : State :=
  let c := s.core g
  if counts c.evs code then s.setCore g { c with evc := bumpAll c.evs c.evfrz code k c.evc } else s

/-- k events of a cluster (R392). -/
def State.countCluster (s : State) (c code k : Nat) : State :=
  let x := s.cluster c
  if counts x.kvs code then s.setCluster c { x with kvc := bumpAll x.kvs x.kvfrz code k x.kvc } else s

/-- k events of the device (R392). -/
def State.countDevice (s : State) (code k : Nat) : State :=
  if counts s.dvs code then { s with dvc := bumpAll s.dvs s.dvfrz code k s.dvc } else s

/-! ## Addresses

A physical address is a number: below 2^46 a local address (SLOT at [45:44], DATA below), from 2^46 a domain
address (R266), and from `spBase` a byte of a scratchpad slice. Memory keys are the same for scratchpad bytes,
DATA for the live main memory, and from `reserveBase` for reserve batts (R359). -/

/-- First number of the scratchpad bytes. -/
def spBase : Nat := 2 ^ 60
/-- First key of the reserve batts. -/
def reserveBase : Nat := 2 ^ 58

/-- Does a virtual address lie in the scratchpad window (R260)? -/
def inWindow (va : W64) : Bool := va.extractLsb' 29 35 = 0x7FFFF8000#35
/-- The scratchpad byte of a virtual address in the window. -/
def spOf (va : W64) : Nat := spBase + (va.extractLsb' 0 29).toNat
/-- Is the byte a usable one of its slice (R260)? -/
def spUsable (va : W64) : Bool := decide ((va.extractLsb' 0 21).toNat < 1568768)
/-- The core that owns a scratchpad byte (R260). -/
def spCore (pa : Nat) : Nat := (pa - spBase) / 2 ^ 21
/-- Is a physical address a scratchpad byte? -/
def isSp (pa : Nat) : Bool := decide (spBase ≤ pa)
/-- Is a physical address a domain address of another device? -/
def isDomain (pa : Nat) : Bool := decide (2 ^ 46 ≤ pa) && decide (pa < spBase)
/-- SLOT of a local address (R266). -/
def slotOf (pa : Nat) : Nat := if pa < 2 ^ 46 then pa / 2 ^ 44 else 0
/-- DATA of an address (R266). -/
def dataOf (pa : Nat) : Nat := pa % 2 ^ 44
/-- The device of a domain address (R266). -/
def deviceOf (pa : Nat) : Nat := pa / 2 ^ 45
/-- The 64-byte line of an address, for the monitor (R138). -/
def lineOf (pa : Nat) : Nat := pa / 64
/-- The batt of a DATA byte (R358). -/
def battOf (data : Nat) : Nat := data / 65536

/-- Canonical under Sv57 (R121). -/
def canonical (va : W64) : Bool := va.extractLsb' 57 7 = (if va.getLsbD 56 then 0x7F#7 else 0#7)

/-- First DATA byte out of reach of accesses: the reserve stands at the top of 48 × CL bytes (R267, R359). -/
def State.dataLimit (s : State) : Nat := 48 * s.flash.cl * 10 ^ 9 - s.flash.resv * 65536

/-- Has a device a route that is not lost (R339, R342)? -/
def State.routed (s : State) (dev : Nat) : Bool :=
  s.flash.routes.any (fun r => r.1 = dev && r.2.any fun p => !s.portsDown.contains p) && !s.routesLost.contains dev

/-! ## Generations (R355, R358, R362) -/

/-- age(g) (R355). -/
def State.ageOf (s : State) (g : BitVec 2) : Nat := (s.live - g).toNat
/-- Is g newer than h (R355)? -/
def State.newer (s : State) (g h : BitVec 2) : Bool := decide (s.ageOf g < s.ageOf h)
/-- The newer of two generations. -/
def State.newest (s : State) (g h : BitVec 2) : BitVec 2 := if s.newer h g then h else g
/-- The occupied slots. -/
def State.occupied (s : State) : List SnapSlot := s.slots.toList.filterMap id
/-- The oldest generation in flight: what a location never written since boot answers with (R280). -/
def State.oldestGen (s : State) : BitVec 2 := s.occupied.foldl (fun g k => if s.newer g k.gen then k.gen else g) s.live

/-- The reserve batts in use. -/
def State.usedBatts (s : State) : List Nat := (s.occupied.flatMap fun k => k.batts.map (·.2)).eraseDups
/-- FREE (R359). -/
def State.free (s : State) : Nat := s.flash.resv - s.usedBatts.length
/-- A reserve batt that is not in use. -/
def State.freshBatt (s : State) : Nat := ((List.range (s.usedBatts.length + 1)).find? fun r => !s.usedBatts.contains r).getD 0

/-- The physical batt that holds a slot's image of a batt: a reserve batt, or none for the live one (R362). -/
def SnapSlot.holder (k : SnapSlot) (b : Nat) : Option Nat := (k.batts.find? fun p => p.1 = b).map (·.2)

/-- The memory key of a DATA byte in a physical batt. -/
def keyIn (h : Option Nat) (data : Nat) : Nat :=
  match h with
  | none => data
  | some r => reserveBase + r * 65536 + data % 65536

/-- The memory key of a physical address; a slot address reads that slot's image (R368). -/
def State.keyOf (s : State) (pa : Nat) : Nat :=
  if slotOf pa = 0 then pa
  else
    match s.slots.getD (slotOf pa - 1) none with
    | some k => keyIn (k.holder (battOf (dataOf pa))) (dataOf pa)
    | none => dataOf pa

/-- One byte as a read finds it. -/
def State.readByte (s : State) (pa : Nat) : Byte := s.mem.read (s.keyOf pa)

/-- The generation that a read of one byte returns (R280). -/
def State.genByte (s : State) (pa : Nat) : BitVec 2 := Store.get s.oldestGen s.bgen (s.keyOf pa)

/-- n bytes, little-endian (R31, R120). -/
def State.readLE (s : State) (pa : Nat) : Nat → Nat
  | 0 => 0
  | n + 1 => (s.readByte pa).toNat + 256 * State.readLE s (pa + 1) n

/-- The newest generation of n bytes (R280). -/
def State.genRange (s : State) (pa n : Nat) : BitVec 2 :=
  (List.range n).foldl (fun g j => s.newest g (s.genByte (pa + j))) (s.genByte pa)

/-- Copies the listed bytes of one batt into another, values and generations; a line with an uncorrectable error stays one in
the copy (R377, R380). -/
def State.copyBatt (s : State) (src dst : Option Nat) (b : Nat) : State :=
  let lo := keyIn src (b * 65536)
  let out := keyIn dst (b * 65536)
  let bytes := s.mem.filter fun p => decide (lo ≤ p.1) && decide (p.1 < lo + 65536)
  let gens := s.bgen.filter fun p => decide (lo ≤ p.1) && decide (p.1 < lo + 65536)
  { s with
    mem := bytes.foldl (fun m p => m.write (p.1 - lo + out) p.2) (s.mem.clearRange out (out + 65536))
    bgen := gens.foldl (fun m p => m.put (p.1 - lo + out) p.2)
      (s.bgen.filter fun p => decide (p.1 < out) || decide (out + 65536 ≤ p.1))
    uncor := s.uncor.filter (fun u => decide (u < out) || decide (out + 65536 ≤ u)) ++
      (s.uncor.filter fun u => decide (lo ≤ u) && decide (u < lo + 65536)).map fun u => u - lo + out }

/-- Points the slots that a test selects at a reserve batt for their image of batt b. -/
def State.repoint (s : State) (sel : SnapSlot → Bool) (b r : Nat) : State :=
  { s with slots := s.slots.map fun o => o.map fun k => if sel k then { k with batts := k.batts.put b r } else k }

/-- Gives the slots that a test selects their own copy of batt b, held by h, in one reserve batt; none when the
reserve is empty and the write stalls (R362, R366). -/
def State.splitBatt (s : State) (sel : SnapSlot → Bool) (h : Option Nat) (b : Nat) : Option State :=
  if s.occupied.any sel then
    if s.free = 0 then none
    else
      let r := s.freshBatt
      some (((s.copyBatt h (some r) b).repoint sel b r).countDevice 0x40 1024 |>.countDevice 0x41 1024)
  else some s

/-- Writes one byte at a key with its generation. -/
def State.pokeByte (s : State) (key : Nat) (g : BitVec 2) (v : Byte) : State :=
  { s with mem := s.mem.write key v, bgen := s.bgen.put key g }

/-- Sets mark g of the line of a DATA byte (R358). -/
def State.setMark (s : State) (data : Nat) (g : BitVec 2) : State :=
  { s with marks := s.marks.put (data / 64) (Store.get 0 s.marks (data / 64) ||| (1#4 <<< g.toNat)) }

/-- Has a write of a generation newer than g performed on the line (R358, R362)? -/
def State.newerMark (s : State) (data : Nat) (g : BitVec 2) : Bool :=
  (List.range 4).any fun t => (Store.get 0 s.marks (data / 64)).getLsbD t && s.newer (BitVec.ofNat 2 t) g

/-- Does a write of generation g reach the live memory: it is live, or no newer write has reached the line (R362)? -/
def State.reachesLive (s : State) (g : BitVec 2) (data : Nat) : Bool := g = s.live || !s.newerMark data g

/-- Does a late write of generation g belong to a slot's image of a byte: the slot holds g or a newer generation, and no byte of
a newer write (R281, R362)? -/
def State.reachesSlot (s : State) (g : BitVec 2) (data : Nat) (k : SnapSlot) : Bool :=
  g ≠ s.live && !s.newer g k.gen && !s.newer (Store.get s.oldestGen s.bgen (keyIn (k.holder (battOf data)) data)) g

/-- The physical batts in which a write of generation g reaches a byte: the live one, and the reserve batts of the slots (R362). -/
def State.reach (s : State) (g : BitVec 2) (data : Nat) : List (Option Nat) :=
  ((if s.reachesLive g data then [none] else []) ++
    ((s.occupied.filter (s.reachesSlot g data)).map fun (k : SnapSlot) => k.holder (battOf data)).filter Option.isSome).eraseDups

/-- The copies that a write of generation g of a byte needs first (R362): a live write, of the batt for the slots that share it;
a late write that does not reach the live line, of the batt for the slots that it belongs to and that share it; and any late
write, of each batt that it reaches for the older slots that use it. None when the reserve is empty (R366). -/
def State.splitFor (s : State) (g : BitVec 2) (data : Nat) : Option State :=
  let b := battOf data
  if g = s.live then s.splitBatt (fun k => (k.holder b).isNone) none b
  else
    (s.splitBatt (fun k => !s.reachesLive g data && s.reachesSlot g data k && (k.holder b).isNone) none b).bind fun s =>
      (s.reach g data).foldl
        (fun (o : Option State) h => o.bind fun s => s.splitBatt (fun k => s.newer g k.gen && k.holder b == h) h b) (some s)

/-- A byte write of generation g performs at a DATA byte of main memory (R362): the copies that it needs, then the live line and
the images that it belongs to. None: it stalls for a reserve batt (R366). A slot takes a late write of a byte unless it holds a
newer write of that byte (R281, R368; log 18). -/
def State.storeMain (s : State) (g : BitVec 2) (data : Nat) (v : Byte) : Option State :=
  (s.splitFor g data).map fun s => ((s.reach g data).foldl (fun s h => s.pokeByte (keyIn h data) g v) s).setMark data g

/-- A byte write of generation g performs at a physical address of this device. -/
def State.storeByte (s : State) (g : BitVec 2) (pa : Nat) (v : Byte) : Option State :=
  if isSp pa then some (s.pokeByte pa g v) else s.storeMain g (dataOf pa) v

/-- A byte with the bits of a mask replaced. -/
def Patch.over (p : Patch) (old : Byte) : Byte := (p.v &&& p.mask) ||| (old &&& ~~~p.mask)

/-- The bits of a byte that a segment changes are written, in the live line and the images that the write belongs to (R196, R362). -/
def State.patchByte (s : State) (g : BitVec 2) (p : Patch) : Option State :=
  if isSp p.pa then some (s.pokeByte p.pa g (p.over (s.mem.read p.pa)))
  else
    let data := dataOf p.pa
    (s.splitFor g data).map fun s =>
      ((s.reach g data).foldl (fun s h => s.pokeByte (keyIn h data) g (p.over (s.mem.read (keyIn h data)))) s).setMark data g

/-- A write of several bytes; none when it stalls. -/
def State.storeBytes (s : State) (g : BitVec 2) (pa : Nat) : List Byte → Option State
  | [] => some s
  | v :: vs => (s.storeByte g pa v).bind fun s => s.storeBytes g (pa + 1) vs

/-- The low n bytes of a number, little-endian (R31). -/
def bytesLE : Nat → Nat → List Byte
  | 0, _ => []
  | n + 1, v => BitVec.ofNat 8 v :: bytesLE n (v / 256)

/-- The code units (R377) of an address: its line in main memory, its word in a slice. -/
def eccUnit (key : Nat) : Nat := if isSp key then key / 8 * 8 else key / 64 * 64
/-- The size of the code unit. -/
def eccSize (key : Nat) : Nat := if isSp key then 8 else 64

/-- Does a read of n bytes meet an uncorrectable error (R377, R380)? -/
def State.uecc (s : State) (pa n : Nat) : Bool :=
  (List.range n).any fun j => s.uncor.contains (eccUnit (s.keyOf (pa + j)))

/-- The images that hold a code unit: the physical batt and the first DATA byte of the line (R362, R377). -/
def State.imagesOf (s : State) (u : Nat) : List (Option Nat × Nat) :=
  if u < reserveBase then [(none, u)]
  else
    let r := (u - reserveBase) / 65536
    s.occupied.flatMap fun k => k.batts.filterMap fun p => if p.2 = r then some (some r, p.1 * 65536 + (u - reserveBase) % 65536) else none

/-- Has a write of generation g that covers given bytes written the whole of a code unit (R380)? A line of main memory is written
in the physical batts that the write has reached. -/
def State.rewritten (s : State) (g : BitVec 2) (covered : Nat → Bool) (u : Nat) : Bool :=
  if isSp u then (List.range 8).all fun j => covered (u + j)
  else (s.imagesOf u).any fun p => (List.range 64).all fun j => covered (p.2 + j) && (s.reach g (p.2 + j)).contains p.1

/-- A write of generation g, which may be made of several pieces, removes the errors of the code units that it has written whole
(R380; log 58). -/
def State.healWhole (s : State) (g : BitVec 2) (covered : Nat → Bool) : State :=
  if s.uncor.isEmpty && s.cor.isEmpty then s
  else
    { s with uncor := s.uncor.filter fun u => !s.rewritten g covered u, cor := s.cor.filter fun u => !s.rewritten g covered u }

/-- A write of n bytes removes the errors of the code units that it covers whole (R380). -/
def State.healRange (s : State) (g : BitVec 2) (pa n : Nat) : State := s.healWhole g fun a => decide (pa ≤ a) && decide (a < pa + n)

/-- The lines of n bytes. -/
def linesOf (pa n : Nat) : List Nat := if n = 0 then [] else (List.range ((pa + n - 1) / 64 + 1 - pa / 64)).map fun j => pa / 64 + j

/-- A write to a line sets the event bit of every other agent's monitor on it (R138). -/
def State.touchMonitors (s : State) (who : Option Nat) (line : Nat) : State :=
  if s.fronts.any fun p => decide (p.2.monLine = line) then
    { s with fronts := s.fronts.map fun p => if p.2.monLine = line && some p.1 ≠ who then (p.1, { p.2 with monEvent := true }) else p }
  else s

/-- A write to a line makes the device read the after-dependencies and hold words that lie in it again (R305, R367). -/
def State.markDue (s : State) (line : Nat) : State :=
  let s := if s.queues.toList.any fun l => l.any fun q => q.line = some line then
      { s with queues := s.queues.map fun l => l.map fun q => if q.line = some line then { q with due := true } else q }
    else s
  if s.slots.toList.any fun o => o.any fun k => k.line = some line then
    { s with slots := s.slots.map fun o => o.map fun k => if k.line = some line then { k with due := true } else k }
  else s

/-- What a write of n bytes does beside the bytes: errors, monitors and the words that the device reads, for each of its lines
(R138, R305, R367, R380). -/
def State.wrote (s : State) (who : Option Nat) (g : BitVec 2) (pa n : Nat) : State :=
  (linesOf pa n).foldl (fun (s : State) line => (s.touchMonitors who line).markDue line) (s.healRange g pa n)

/-- A whole write of an agent (or of a thread, `who` none): bytes, errors, monitors and the words that the device reads.
None when it stalls. -/
def State.write (s : State) (who : Option Nat) (g : BitVec 2) (pa : Nat) (bytes : List Byte) : Option State :=
  (s.storeBytes g pa bytes).map fun s => s.wrote who g pa bytes.length

/-- The bytes of a segment are written together by an agent (R196); none when the write stalls. -/
def State.writePatches (s : State) (who : Option Nat) (g : BitVec 2) (l : List Patch) : Option State :=
  (l.foldl (fun (o : Option State) p => o.bind fun s => s.patchByte g p) (some s)).map fun s =>
    ((l.map fun p => lineOf p.pa).eraseDups).foldl (fun (s : State) line => (s.touchMonitors who line).markDue line)
      (s.healWhole g fun a => l.any fun p => decide (p.pa = a) && decide (p.mask = 0xFF))

/-- Are the bytes of a write behind those of an older one of the same writer that stalls? -/
def State.behindStuck (s : State) (w : Writer) (pa n : Nat) : Bool :=
  s.stuck.any fun x => decide (x.by_ = w) && decide (x.pa < pa + n) && decide (pa < x.pa + x.bytes.length)

/-- A write of the device performs, or stalls for a reserve batt and is kept; it holds back no other write (R366). -/
def State.writeOr (s : State) (w : Writer) (g : BitVec 2) (pa : Nat) (bytes : List Byte) : State :=
  let wait : State := { s with stuck := s.stuck ++ [⟨w, pa, bytes⟩] }
  if s.behindStuck w pa bytes.length then wait else (s.write none g pa bytes).getD wait

/-- Has a writer a write that stalls? -/
def State.isStuck (s : State) (w : Writer) : Bool := s.stuck.any fun x => decide (x.by_ = w)

/-- An agent adopts a generation that is newer than its own (R280). -/
def State.adopt (s : State) (a : Nat) (g : BitVec 2) : State :=
  if s.newer g (s.front a).curgen then s.setFront a { s.front a with curgen := g } else s

/-! ## Translation (R328, R329) -/

/-- What an access is for. -/
inductive Acc where
  | fetch | load | store
  deriving DecidableEq, Repr

/-- The code of a failed translation (R121, R328). -/
def Acc.code : Acc → Nat
  | .fetch => 9 | .load => 7 | .store => 8

/-- A translation: where the fragment starts, its memory type, and its X, W, R, U, D bits. -/
structure Leaf where
  pa : Nat
  level : Nat
  pbmt : BitVec 2
  perm : BitVec 5
  deriving DecidableEq, Repr

/-- The X, W, R, U and D bits of a PTE. -/
def ptePerm (p : BitVec 64) : BitVec 5 := p.extractLsb' 3 1 ++ p.extractLsb' 2 1 ++ p.extractLsb' 1 1 ++ p.extractLsb' 4 1 ++ p.extractLsb' 7 1

/-- Does a leaf allow an access (R328)? -/
def permits (perm : BitVec 5) (sup : Bool) (k : Acc) : Bool :=
  let x := perm.getLsbD 4
  let w := perm.getLsbD 3
  let r := perm.getLsbD 2
  let u := perm.getLsbD 1
  let d := perm.getLsbD 0
  (sup || u) && (match k with | .fetch => x | .load => r | .store => r && w && d)

/-- The musts that hold for every PTE of R328: V set, N and [60:54] zero, PBMT not 3, and not W without R. -/
def pteOk (p : BitVec 64) : Bool :=
  p.getLsbD 0 && !p.getLsbD 63 && p.extractLsb' 54 7 = 0 && p.extractLsb' 61 2 ≠ 3 && (!p.getLsbD 2 || p.getLsbD 1)

/-- The page number of a PTE (R328). -/
def ptePpn (p : BitVec 64) : Nat := (p.extractLsb' 10 44).toNat

/-- One PTE of the walk at a level: a leaf, the physical address of the next table, or the code of the failure,
where 0 stands for a failed walk and 10 for an uncorrectable error (R328). A table beyond the memory of the device reads as 0
there, so that the walk fails (DESIGN CHOICE: R267 speaks of the resulting address only; log 65). -/
def State.pteAt (s : State) (table : Nat) (va : W64) (lvl : Nat) : Except Nat (Leaf ⊕ Nat) :=
  let pa := table + 8 * ((va.toNat / 2 ^ (12 + 9 * lvl)) % 512)
  let p : BitVec 64 := BitVec.ofNat 64 (s.readLE pa 8)
  if s.uecc pa 8 then .error 10
  else if !pteOk p then .error 0
  else if p.getLsbD 1 || p.getLsbD 3 then
    -- a leaf: A set, its page number aligned to its size
    if p.getLsbD 6 && ptePpn p % 2 ^ (9 * lvl) = 0 then
      .ok (.inl { pa := ptePpn p * 4096, level := lvl, pbmt := p.extractLsb' 61 2, perm := ptePerm p })
    else .error 0
  else
    let next := ptePpn p * 4096
    if next < 2 ^ 44 then .ok (.inr next)
    else if 2 ^ 46 ≤ next ∧ deviceOf next = s.flash.deviceId ∧ next / 2 ^ 44 % 4 = 0 then .ok (.inr (dataOf next))
    else .error 0

/-- The Sv57 walk from the table at a physical address, at level `lvl` and below (R328). -/
def State.walk (s : State) (table : Nat) (va : W64) : Nat → Except Nat Leaf
  | 0 =>
    match s.pteAt table va 0 with
    | .ok (.inl l) => .ok l
    | .ok (.inr _) => .error 0
    | .error c => .error c
  | n + 1 =>
    match s.pteAt table va (n + 1) with
    | .ok (.inl l) => .ok l
    | .ok (.inr next) => State.walk s next va n
    | .error c => .error c

/-- The physical page number of the root table and the identifier in an ASPACE value (R86). -/
def aspaceRoot (v : W64) : Nat := (v.extractLsb' 0 32).toNat
/-- ASPACE.ID (R86). -/
def aspaceId (v : W64) : BitVec 16 := v.extractLsb' 48 16

/-- The fragment size of a TLB entry in bits (R329). -/
def fragBits (big : Bool) : Nat := if big then 21 else 12

/-- Does an entry translate an address under an identifier (R329, R332)? -/
def TlbEntry.hits (t : TlbEntry) (id : BitVec 16) (va : W64) : Bool :=
  t.asid = id && t.vfn = (va.toNat % 2 ^ 57) / 2 ^ fragBits t.big

/-- The TLB entry that serves an agent's access: its core's micro-TLB for a context, then its cluster's TLB
(R329). Threads look up the cluster TLB only. -/
def State.tlbLookup (s : State) (a : Nat) (thread : Bool) (id : BitVec 16) (va : W64) : Option TlbEntry :=
  let micro := if thread || isDrone a then none else (s.core (coreOf a)).utlb.find? fun t => t.hits id va
  match micro with
  | some t => some t
  | none => (s.cluster (clusterOf a)).tlb.find? fun t => t.hits id va

/-- Translates an address outside the window: the physical address and whether the page is of type IO (R187).
An entry of a TLB is used where one is present; otherwise the tables are walked (R329, R330). -/
def State.translate (s : State) (a : Nat) (thread : Bool) (aspace : W64) (sup : Bool) (k : Acc) (va : W64) :
    Except Nat (Nat × Bool) :=
  match s.tlbLookup a thread (aspaceId aspace) va with
  | some t =>
    if permits t.perm sup k then .ok (t.base + va.toNat % 2 ^ fragBits t.big, t.pbmt = 2) else .error k.code
  | none =>
    match s.walk (aspaceRoot aspace * 4096) va 4 with
    | .error c => .error (if c = 0 then k.code else c)
    | .ok l => if permits l.perm sup k then .ok (l.pa + va.toNat % 2 ^ (12 + 9 * l.level), l.pbmt = 2) else .error k.code

/-- The checks on a physical address (R121 order 4): range and reserve, route, writes to a slot, reads of a free
slot. A domain address of this device is the local one with SLOT 0 (R339). An instruction fetch reads a slot as a load
does, and a fetch that fails here raises IFAULT (DESIGN CHOICE: R266 names no fetches; R128; log 63). -/
def State.checkPa (s : State) (k : Acc) (pa : Nat) : Except Nat Nat :=
  let dom : Bool := decide (2 ^ 46 ≤ pa)
  let own : Bool := dom && deviceOf pa = s.flash.deviceId
  if dom && (pa / 2 ^ 44) % 2 = 1 then .error 14
  else if dom && !own then (if s.routed (deviceOf pa) then .ok pa else .error 14)
  else
    let pa := if own then dataOf pa else pa
    if s.dataLimit ≤ dataOf pa then .error 14
    else if slotOf pa = 0 then .ok pa
    else if k = .store then .error 8
    else if (s.slots.getD (slotOf pa - 1) none).isNone then .error 7
    else .ok pa

/-- Is a scratchpad byte fenced for an agent (R311): its core's slice is fenced for the agent's launch, and the
agent is not on that core? -/
def State.fenced (s : State) (a : Nat) (pa : Nat) : Bool :=
  match (s.front a).launch with
  | some l => (s.core (spCore pa)).fence.contains l && (isDrone a || coreOf a ≠ spCore pa)
  | none => false

/-- The checks of R121, orders 1 to 3, on one access of `size` bytes: the physical address and whether the page is of
type IO, or the code of the first test that fails. `thread` is an engine thread of the agent. -/
def State.checkVa (s : State) (a : Nat) (thread : Bool) (aspace : W64) (sup : Bool) (k : Acc) (va : W64) (size : Nat) :
    Except Nat (Nat × Bool) :=
  if inWindow va then
    if !spUsable va then .error 14
    else if va.toNat % size ≠ 0 then .error 6
    else .ok (spOf va, false)
  else if !canonical va then .error 14
  else if va.toNat % size ≠ 0 then .error 6
  else s.translate a thread aspace sup k va

/-- The checks of R121, orders 1 to 4. A scratchpad address meets only the fence of order 4. -/
def State.check (s : State) (a : Nat) (thread : Bool) (aspace : W64) (sup : Bool) (k : Acc) (va : W64) (size : Nat) :
    Except Nat (Nat × Bool) :=
  match s.checkVa a thread aspace sup k va size with
  | .error c => .error c
  | .ok (pa, io) =>
    if isSp pa then (if s.fenced a pa then .error 11 else .ok (pa, io))
    else
      match s.checkPa k pa with
      | .error c => .error c
      | .ok pa => .ok (pa, io)

/-- The checks under an agent's own ASPACE and mode. -/
def State.checkOwn (s : State) (a : Nat) (k : Acc) (va : W64) (size : Nat) : Except Nat (Nat × Bool) :=
  s.check a false (s.front a).aspace (s.front a).sup k va size

/-! ## Vector entries -/

/-- VIQ entries an instruction takes: a head and one operand entry for each two captured values (R247). -/
def Entry.slots (e : Entry) : Nat := 1 + (e.ops.length + 1) / 2

/-- The vector instructions of a context that have not completed, oldest first. -/
def Vec.open_ (v : Vec) : List Entry := v.infl.filter (fun e => !e.done) ++ v.viq.filter (fun e => !e.done)

/-- The entries from VCP upward: the oldest instruction that has not completed, and every younger one (R247, R316). -/
def Vec.fromVcp (v : Vec) : List Entry := v.infl.dropWhile (·.done) ++ v.viq

/-- Undoes the changes of one instruction (R253): the bits that it changed, the tags its destinations had, and the marks
it lifted. -/
def Undo.apply (u : Undo) (v : Vec) : Vec :=
  { v with
    v := u.v.foldl (fun x p => x.setIfInBounds p.1 (x.getD p.1 0 ^^^ p.2)) v.v
    m := u.m.foldl (fun x p => x.setIfInBounds p.1 (x.getD p.1 0 ^^^ p.2)) v.m
    tag := u.tag.foldl (fun x p => x.setIfInBounds p.1 p.2) v.tag
    bad := (v.bad ++ u.bad).eraseDups
    told := (v.told ++ u.told).eraseDups }

/-- What one move has changed: the differing bits, the tags before it, the marks lifted. -/
def Undo.between (old new : Vec) : Undo :=
  let diff {n w : Nat} (a b : Vector (BitVec w) n) : Store (BitVec w) :=
    (List.range n).filterMap fun i => if a.getD i 0 = b.getD i 0 then none else some (i, a.getD i 0 ^^^ b.getD i 0)
  { v := diff old.v new.v, m := diff old.m new.m
    tag := (List.range 32).filterMap fun i =>
      if old.tag.getD i .int32 = new.tag.getD i .int32 then none else some (i, old.tag.getD i .int32)
    bad := old.bad.filter fun q => !new.bad.contains q
    told := old.told.filter fun q => !new.told.contains q }

/-- The changes of two moves of one instruction, which touch different elements; the first tags count. -/
def Undo.add (a b : Undo) : Undo :=
  let merge {w : Nat} (x y : Store (BitVec w)) : Store (BitVec w) := y.foldl (fun z p => z.put p.1 (Store.get 0 z p.1 ^^^ p.2)) x
  { v := merge a.v b.v, m := merge a.m b.m, tag := a.tag ++ b.tag.filter (fun p => !a.tag.any fun q => q.1 = p.1)
    bad := (a.bad ++ b.bad).eraseDups, told := (a.told ++ b.told).eraseDups }

/-- Does a `vcfg.setl` that changes the grant stand between VCP and SPC (R257)? -/
def Vec.grantChanges (v : Vec) : Bool := v.open_.any fun e => (match decodeWord e.word with
  | .ok (.vcfgSetl ..) => decide (e.gnew ≠ v.grant)
  | _ => false)

/-- Had an entry completed before a stop, so that it has issued again with nothing left to do (R257, R258)? -/
def Entry.over (e : Entry) : Bool := e.resumed && decide (e.vl.toNat ≤ e.pix0.toNat)

/-- An entry that has been unwound: it stands as it issued (R253, R326). -/
def Entry.unwound (e : Entry) : Entry :=
  { e with
    pix := e.pix0, started := e.over, done := e.over, flags := 0, fpx := none, undo := Undo.empty, tally := Tally.empty }

/-- The instructions in flight from a place in program order on are unwound, the youngest first, and stand in the VIQ as
they issued (R253). -/
def Vec.unwind (v : Vec) (po : Nat) : Vec :=
  let back := v.infl.filter fun e => decide (po ≤ e.po)
  let u := back.reverse.foldl (fun v e => e.undo.apply v) v
  { u with infl := v.infl.filter fun e => decide (e.po < po), viq := back.map Entry.unwound ++ v.viq }

/-- An entry as a stop leaves it: its index stays, its counts are lost (R257, R394). One that has completed behind an older one that
has not keeps its place, with vl as its index and nothing left to do. -/
def Entry.stopped (e : Entry) : Entry :=
  { e with
    pix := if e.done then e.vl else e.pix
    flags := 0, fpx := none, undo := Undo.empty, tally := Tally.empty, resumed := e.resumed || e.started }

/-- The instructions from VCP upward go back into the VIQ with their indices, and VSTART is that of the oldest
(R257, R258). The flags of their elements reach FLAGS (R45); where FTRAP traps on some of them, the instruction and the
younger ones are unwound, to trap when they run again (log 60). -/
def Vec.pullBack (v : Vec) : Vec :=
  let v := match v.infl.find? fun e => !e.done && (e.flags &&& v.ftrap) ≠ 0 with
    | some e => v.unwind e.po
    | none => v
  { v with
    flags := v.infl.foldl (fun f e => f ||| e.flags) v.flags
    viq := v.fromVcp.map Entry.stopped
    infl := (v.infl.takeWhile (·.done)).map fun e => { e with flags := 0 }
    vstart := match v.open_ with | e :: _ => e.pix | [] => v.vstart }

/-- LANEPART.G(j) (R87). -/
def laneHolder (lp : BitVec 24) (j : Nat) : Nat := (lp.extractLsb' (3 * j) 3).toNat

/-- LANEPART with G(j) replaced. -/
def setHolder (lp : BitVec 24) (j h : Nat) : BitVec 24 := (lp &&& ~~~(7#24 <<< (3 * j))) ||| (BitVec.ofNat 24 (h % 8) <<< (3 * j))

/-- A lane group retires (R382): LANEMAP, LANEPART and the sensor RETIRED take it, and the flash logs it while the log has
room. -/
def State.retireGroup (s : State) (g j : Nat) : State :=
  let c := s.core g
  if 8 ≤ j || c.lanemap.getLsbD j then s
  else
    let s := s.setCore g { c with lanemap := c.lanemap ||| (1#8 <<< j), lanepart := setHolder c.lanepart j 7, arb := true }
    { s with
      sensors := s.sensors.put 9 (Store.get 0 s.sensors 9 + 1)
      flash := if s.flash.retireLog.length < 256 then { s.flash with retireLog := s.flash.retireLog ++ [(g, j, s.time.toNat)] }
        else s.flash }

/-- An uncorrectable error of an entry of a vector register is reported (R379, R382): the first report of an entry counts
for its lane group, and the second such error of a group since boot retires the group. -/
def State.reportReg (s : State) (k lane : Nat) (q : Nat × Nat) : State :=
  let v := s.vec k
  if v.told.contains q then s
  else
    let c := s.core (coreOf k)
    let n := c.regErrors.getD (lane / 8) 0 + 1
    let s := s.setVec k { v with told := q :: v.told }
    let s := s.setCore (coreOf k) { c with regErrors := c.regErrors.setIfInBounds (lane / 8) n }
    if 2 ≤ n then s.retireGroup (coreOf k) (lane / 8) else s

/-- Older vector instructions that a wait of the front counts: none for a drone, and none while a vector trap
holds them (R135). -/
def State.vecBusy (s : State) (a : Nat) : Bool :=
  !isDrone a && !(s.front a).held && !(s.vec a).open_.isEmpty

/-! ## Traps -/

/-- What a trap reports (R86): code, whether the access was a write, element, lane and TVAL; and the entry of a vector
register that raised it, by register and owned lane position (R382). -/
structure Trap where
  code : Nat
  write : Bool := false
  elem : Nat := 0
  lane : Nat := 0
  tval : W64 := 0
  reg : Option (Nat × Nat) := none
  deriving DecidableEq, Repr

/-- CAUSE for a trap (R86). -/
def Trap.cause (t : Trap) (vec : Bool) : BitVec 29 :=
  BitVec.ofNat 13 t.elem ++ BitVec.ofNat 6 t.lane ++ BitVec.ofBool vec ++ BitVec.ofBool t.write ++ BitVec.ofNat 8 t.code

/-- STATUS after a trap: PSUP and PIE take SUP and IE, SUP is set and IE cleared (R134). -/
def trapStatus (st : BitVec 5) : BitVec 5 :=
  st.extractLsb' 4 1 ++ st.extractLsb' 2 1 ++ 0#1 ++ st.extractLsb' 0 1 ++ 1#1

/-- STATUS after `sys.eret` (R136). -/
def eretStatus (st : BitVec 5) : BitVec 5 :=
  st.extractLsb' 4 1 ++ st.extractLsb' 3 1 ++ st.extractLsb' 3 1 ++ st.extractLsb' 1 1 ++ st.extractLsb' 1 1

/-- The launch that an agent belongs to. -/
def State.launchOf (s : State) (a : Nat) : Option Placed :=
  match (s.front a).launch with
  | some q => s.placed.find? fun p => p.seq = q
  | none => none

/-- Replaces a placed launch. -/
def State.setPlaced (s : State) (p : Placed) : State := { s with placed := s.placed.map fun q => if q.seq = p.seq then p else q }

/-- The ready quarters, full slots and BELSTAT of a cluster as the trigger latches them (R391). -/
def Cluster.pres (c : Cluster) : W64 :=
  BitVec.zeroExtend 64 ((c.ac.getD 1 Tile.reset).ready ++ (c.ac.getD 0 Tile.reset).ready ++ 0#4 ++
    BitVec.ofBool (c.fd.getD 3 Slot.reset).full ++ BitVec.ofBool (c.fd.getD 2 Slot.reset).full ++
    BitVec.ofBool (c.fd.getD 1 Slot.reset).full ++ BitVec.ofBool (c.fd.getD 0 Slot.reset).full)

/-- Bellows entries that a total count takes (R233). -/
def belEntries (c : Int) : Nat := (c.natAbs + 32766) / 32767

/-- Bellows entries held for a tile (R233). -/
def Tile.bel (t : Tile) : Nat := t.cells.foldl (fun n p => n + belEntries p.2.c) 0

/-- BELSTAT (R87): FULL, AC1 and USED. -/
def Cluster.belstat (c : Cluster) : W64 :=
  let b1 := (c.ac.getD 1 Tile.reset).bel
  let used := (c.ac.getD 0 Tile.reset).bel + b1
  BitVec.zeroExtend 64 (BitVec.ofBool c.belfull ++ 0#2 ++ BitVec.ofNat 13 b1 ++ 0#3 ++ BitVec.ofNat 13 used)

/-- The address of the oldest vector instruction that has not completed, or of the oldest queue entry that has not
started on a drone; the next pc when there is none (R316). -/
def State.vcpOf (s : State) (a : Nat) : W64 :=
  if isDrone a then
    match (s.cluster (clusterOf a)).queue with
    | e :: _ => e.addr
    | [] => (s.front a).pc
  else
    match (s.vec a).open_ with
    | e :: _ => e.addr
    | [] => (s.front a).pc

/-- The counters of a bank that stop at an armed trigger (R392). -/
def frozenBy {n : Nat} (m : Nat) (sel : Vector (BitVec 10) n) (frz : BitVec m) : BitVec m :=
  (List.range n).foldl (fun b i => if (sel.getD i 0).getLsbD 9 then b ||| (1 <<< i) else b) frz

/-- Latches the snapshot registers of a core (R391, R397). -/
def State.latchCore (s : State) (g : Nat) : State :=
  let c := s.core g
  s.setCore g
    { c with
      tspc := Vector.ofFn fun k : Fin 4 => (s.front (4 * g + k.val)).pc
      tvcp := Vector.ofFn fun k : Fin 4 => s.vcpOf (4 * g + k.val)
      tlanepart := c.lanepart
      evfrz := frozenBy 8 c.evs c.evfrz }

/-- Latches the snapshot registers of a cluster (R391, R397). -/
def State.latchCluster (s : State) (n : Nat) : State :=
  let c := s.cluster n
  s.setCluster n
    { c with tdpc := (s.front (droneOf n)).pc, tbelstat := c.belstat, tpres := c.pres, kvfrz := frozenBy 8 c.kvs c.kvfrz }

/-- An armed trigger latches the snapshot registers of every block, and stops the counters with FREEZE (R397). -/
def State.latchAll (s : State) : State :=
  let s := (List.range 256).foldl State.latchCore s
  let s := (List.range 64).foldl State.latchCluster s
  { s with dvfrz := frozenBy 16 s.dvs s.dvfrz }

/-- A source of the common trigger fires (R397): 0 BKPT, 1 UECC, 2 DROOP, 3 FATAL, 4 SOFT. The firings of a step
make its trigger at its end. -/
def State.fire (s : State) (src : Nat) : State :=
  if s.trgctl.getLsbD src then { s with fired := s.fired ||| (1#5 <<< src) } else s

/-- The trigger of the sources that have fired (R397). Firings in one cycle are one trigger, so that one which finds a trigger in
the cycle only adds to WHY, where that trigger was armed. -/
def State.trigger (s : State) : State :=
  if s.fired = 0 then s
  else
    let why := s.fired
    if s.trig.getLsbD 0 then
      { s with fired := 0, trgctl := if s.trig.getLsbD 1 then s.trgctl ||| (why.setWidth 21 <<< 16) else s.trgctl }
    else
      let s := { s with trgcount := s.trgcount + 1, fired := 0, trcflags := s.trcflags ||| 1, trig := 1 }
      if s.trgctl.getLsbD 8 then
        let s := s.latchAll
        { s with
          trgtime := s.time
          trgctl := why ++ 0#7 ++ 0#1 ++ s.trgctl.extractLsb' 0 8
          trcflags := s.trcflags ||| 4, trig := 3
          trcpost := if s.trcctl.getLsbD 12 then some (s.trcctl.extractLsb' 32 16).toNat else none }
      else s

/-- The gang fault word (R311). -/
def gangWord (a : Nat) (cause : BitVec 29) (efetch unplaced : Bool) : W64 :=
  let agent : BitVec 10 := if unplaced then 0 else BitVec.ofNat 10 (if isDrone a then clusterOf a else a)
  1#1 ++ 0#18 ++ BitVec.ofBool efetch ++ BitVec.ofBool unplaced ++ BitVec.ofBool (isDrone a && !unplaced) ++ agent ++ 0#3 ++ cause

/-- The agent number under which the device itself translates: it belongs to no cluster, so that no TLB serves it and
no fence of R311 applies to it (log 24). -/
def deviceAgent : Nat := 1088

/-- Where a launch's completion block translates for an 8-byte store at an offset, in the launch's address space
and mode; none when the write is dropped (R310). -/
def State.cbTarget (s : State) (r : LaunchRec) (off : Nat) : Option Nat :=
  let va := r.cbaddr + BitVec.ofNat 64 off
  match s.check deviceAgent true r.aspace (r.ctrl.getLsbD 13) .store va 8 with
  | .ok (pa, _) => if s.uecc pa 8 then none else some pa
  | .error _ => none

/-- Flits of a payload of n bytes (R340). -/
def payloadFlits (n : Nat) : Nat := if n ≤ 32 then 1 else 1 + (n + 63) / 64

/-- Flits of a packet (R340). -/
def NgOut.flits : NgOut → Nat
  | .write _ bytes => payloadFlits bytes.length
  | .writeSeg bytes => payloadFlits bytes.length
  | .enqueue .. => 2
  | .response (.data bytes) => payloadFlits bytes.length
  | _ => 1

/-- A packet leaves by the first port of the routing table that is up (R339, R341), and by port 0 where the table leads to none, as
for a reply to a host without a route (DESIGN CHOICE: R339 names no port then; log 65). -/
def State.post (s : State) (dst rseq : Nat) (what : NgOut) : State :=
  let port := (((s.flash.routes.find? fun r => r.1 = dst).map fun r => r.2.find? fun p => !s.portsDown.contains p).join).getD 0
  let n := Store.get 0 s.portSeq port
  { s with packets := s.packets ++ [⟨port, n, dst, rseq, what, List.replicate what.flits 0⟩], portSeq := s.portSeq.put port (n + what.flits) }

/-- A request leaves for another device and waits for its response (R342). -/
def State.send (s : State) (dst : Nat) (what : NgOut) (w : Waiter) : State :=
  { (s.post dst s.rseq what) with
    requests := if w = .none then s.requests else s.requests ++ [⟨s.rseq, dst, w⟩]
    rseq := s.rseq + 1 }

/-- The parts of at most 256 bytes in which the bytes of a segment travel (R340). -/
def packetParts {α : Type} : Nat → List α → List (List α)
  | 0, _ => []
  | _ + 1, [] => []
  | n + 1, l => l.take 256 :: packetParts n (l.drop 256)

/-- The bytes of a segment leave for another device under one request number, in packets of at most five flits (R284, R340;
log 62). -/
def State.sendSegment (s : State) (dst : Nat) (bytes : List Patch) (w : Waiter) : State :=
  let t := (packetParts bytes.length bytes).foldl (fun (t : State) l => t.post dst s.rseq (.writeSeg l)) s
  { t with requests := t.requests ++ [⟨s.rseq, dst, w⟩], rseq := s.rseq + 1 }

/-- The bytes of another device that an owner has received (R344). -/
def State.arrivedFor (s : State) (o : Owner) (addr size : Nat) : Option NgReply :=
  (s.arrived.find? fun r => decide (r.owner = o) && decide (r.addr ≤ addr) && decide (addr + size ≤ r.addr + r.size)).map fun r =>
    match r.reply with
    | .data bs => .data ((bs.drop (addr - r.addr)).take size)
    | .status n => .status n

/-- Asks another device for bytes unless they are on their way (R344). -/
def State.askFor (s : State) (o : Owner) (addr size : Nat) : State :=
  if s.requests.any fun r => decide (r.waiter = .bytes o addr size) then s
  else s.send (deviceOf addr) (.read addr size) (.bytes o addr size)

/-- Asks another device for the runs of one segment, unless they are on their way (R284). -/
def State.askSegment (s : State) (o : Owner) (runs : List (Nat × Nat)) : State :=
  match runs with
  | [] => s
  | q :: _ =>
    if s.requests.any fun r => decide (r.waiter = .segment o runs) then s
    else s.send (deviceOf q.1) (.readSeg runs) (.segment o runs)

/-- Has an owner asked another device for bytes, so that they are on their way? -/
def State.asked (s : State) (o : Owner) (addr size : Nat) : Bool :=
  let within (q : Nat × Nat) : Bool := decide (q.1 ≤ addr) && decide (addr + size ≤ q.1 + q.2)
  s.requests.any fun r => match r.waiter with
    | .bytes p a n => decide (p = o) && within (a, n)
    | .segment p runs => decide (p = o) && runs.any within
    | _ => false

/-- Forgets what an owner has received. -/
def State.dropArrived (s : State) (o : Owner) : State := { s with arrived := s.arrived.filter fun r => decide (r.owner ≠ o) }

/-- Is a request a store of an agent, or an entry that one of its output streams has written? -/
def Request.storeOf (a : Nat) (q : Request) : Bool := match q.waiter with | .store b _ _ _ => b = a | _ => false

/-- Is a request an entry that an output stream of a context has written? -/
def Request.entryBy (k : Nat) (q : Request) : Bool := match q.waiter with | .entry b _ => b = k | _ => false

/-- Is a request one for bytes of an owner? -/
def Request.readBy (o : Owner) (q : Request) : Bool := match q.waiter with | .bytes p _ _ | .segment p _ => decide (p = o) | _ => false

/-- Forgets what an owner has received and what is on its way to it. -/
def State.forget (s : State) (o : Owner) : State :=
  { s.dropArrived o with requests := s.requests.map fun q => if q.readBy o then { q with waiter := .none } else q }

/-- The code of a read that another device answered with a status: the address is not backed there, or an
uncorrectable error or a lost route (R121, R342, R347). -/
def remoteCode (n : Nat) : Nat := if n = 6 then 14 else 10

/-- The number that little-endian bytes stand for (R31). -/
def ofBytesLE : List Byte → Nat
  | [] => 0
  | b :: bs => b.toNat + 256 * ofBytesLE bs

/-- Notes an access for the account. -/
def State.note (s : State) (t : Touch) : State := { s with touches := s.touches ++ [t] }

/-- Notes bytes that are accessed by physical address. -/
def State.noteBytes (s : State) (pa n : Nat) (write : Bool) : State := s.note ⟨deviceAgent, true, none, some (pa, n), write, 0, none⟩

/-- A write of the device performs, with its bytes noted, or stalls and is kept (R366). -/
def State.writeNoted (s : State) (w : Writer) (g : BitVec 2) (pa : Nat) (bytes : List Byte) : State :=
  let t := s.writeOr w g pa bytes
  if t.stuck.length = s.stuck.length then t.noteBytes pa bytes.length true else t

/-- The device writes the gang fault word of a launch by a compare-and-swap from 0 (R311); a failed write is dropped and
counted in CBLOST (R310). On another device the swap travels as a request, whose answer LAUNCH_END waits for. A write
that stalls for a reserve batt (R366) is kept for LAUNCH_END. -/
def State.writeGang (s : State) (p : Placed) (w : W64) : State :=
  match s.cbTarget p.record 8 with
  | none => (s.setPlaced { p with gang := none }).countDevice 0x4B 1
  | some pa =>
    if isDomain pa then
      (s.setPlaced { p with gang := none }).send (deviceOf pa) (.amo pa 9 w 0) (.bytes (.device p.seq) pa 8)
    else if s.readLE pa 8 ≠ 0 then (s.setPlaced { p with gang := none }).noteBytes pa 8 false
    else
      match s.write none s.live pa (bytesLE 8 w.toNat) with
      | some s => ((s.setPlaced { p with gang := none }).noteBytes pa 8 true).fire 3
      | none => s.setPlaced { p with gang := some w }

/-- Does an entry write an x register through the scoreboard (R176, R206, R227, R246)? -/
def pendingDest (w : InstrWord) : Option XReg :=
  match decodeWord w with
  | .ok (.vredMaskFirst d _ _) | .ok (.vredMaskCount d _ _) | .ok (.strmStatus d _) | .ok (.matSlot d _) | .ok (.matBel d _) => some d
  | _ => none

/-- Discards entries: each x register pending on one of them receives 0 (R136, R311). -/
def State.discard (s : State) (a : Nat) (ws : List InstrWord) : State :=
  s.setFront a (ws.foldl (fun f w => match pendingDest w with | some d => f.deliver d 0 | none => f) (s.front a))

/-- Streams at a fatal trap: input streams are freed; an output stream keeps the entries below a held fault (R311). -/
def fatalStream : Option Stream → Option Stream
  | none => none
  | some t =>
    if t.out then
      let keep := match t.fault with | some f => t.buf.filter fun e => decide (e.n < f.n) | none => t.buf
      if keep.isEmpty then none else some { t with buf := keep, fault := none, told := false }
    else none

/-- The bytes of other devices that a context's input streams have asked for are forgotten (R311, R317). -/
def State.forgetInputs (s : State) (k : Nat) : State :=
  (List.range 8).foldl (fun (s : State) j => match (s.vec k).s.getD j none with
    | some t => if t.out then s else s.forget (.stream k j)
    | none => s) s

/-- The halt of an agent that takes a fatal trap begins: its entries are discarded and its streams settled (R311). -/
def State.fatalHalt (s : State) (a : Nat) : State :=
  let dropped : List InstrWord :=
    if isDrone a then (s.cluster (clusterOf a)).queue.map (·.word) else ((s.vec a).viq.filter (!·.done)).map (·.word)
  let s := s.discard a dropped
  let s :=
    if isDrone a then s.setCluster (clusterOf a) { s.cluster (clusterOf a) with queue := [], stalled := false }
    else
      let s := s.forgetInputs a
      s.setVec a { s.vec a with viq := [], s := (s.vec a).s.map fatalStream }
  s.setFront a { s.front a with run := .halting, held := false, fatal := true }

/-- A fatal trap of an agent (R311 steps 1 to 3): the agent begins to halt, its slice is fenced, and the gang fault word is
written. The members that wait are released when they next move (R311 step 4). -/
def State.fatal (s : State) (a : Nat) (cause : BitVec 29) (efetch : Bool) : State :=
  let s := s.fatalHalt a
  match s.launchOf a with
  | none => s
  | some p =>
    let s := if isDrone a then s else s.setCore (coreOf a) { s.core (coreOf a) with fence := p.seq :: (s.core (coreOf a)).fence }
    if p.fatal then s else s.writeGang { p with fatal := true } (gangWord a cause efetch false)

/-- TVEC.BASE × 4 can be fetched in supervisor mode (R134). -/
def State.fetchable (s : State) (a : Nat) (va : W64) : Bool :=
  match s.check a false (s.front a).aspace true .fetch va 4 with
  | .ok (pa, _) => !s.uecc pa 4
  | .error _ => false

/-- Taking a trap (R134, R135), written once for scalar and vector traps. `vec` is CAUSE.VEC. A trap leaves SPC at the
first instruction that the front has not issued and VCP at the oldest vector instruction that has not completed (R316); a
vector trap holds it and the younger ones. While entries are held, SPC and VCP keep what the vector trap has recorded,
since `sys.eret` resumes at them and R136 does not list them among what a trap in the handler overwrites (log 61). -/
def State.takeTrap (s : State) (a : Nat) (vec : Bool) (epc : W64) (t : Trap) : State :=
  let f := s.front a
  let v := s.vec a
  let cause := t.cause vec
  let s := if t.code = 10 then s.fire 1 else s
  let s := s.setFront a
    { f with
      cause := cause, epc := epc, tval := t.tval, status := trapStatus f.status,
      shVtype := if isDrone a then f.shVtype else v.vtype, shVl := if isDrone a then f.shVl else v.vl,
      pc := f.tvec,
      run := .running,
      entering := true,
      held := f.held || vec,
      spc := if vec || !f.held then f.pc else f.spc
      vcp := if vec then epc else if f.held then f.vcp else s.vcpOf a }
  if f.tvec.extractLsb' 2 62 = 0 then s.fatal a cause false
  else if !s.fetchable a f.tvec then s.fatal a cause true
  else s

/-- A trap raised by a scalar instruction at the pc: it is taken only when every older vector instruction has
completed; until then the front waits (R135). -/
def State.scalarTrap (s : State) (a : Nat) (t : Trap) : Out :=
  if s.vecBusy a then .next s else .next (s.takeTrap a false (s.front a).pc t)

/-- A trap raised by a vector instruction, which is the oldest that has not completed (R135, R185, R254): it and the
younger ones are held in the VIQ, each with its index, and VSTART is the index it resumes from. -/
def State.vectorTrap (s : State) (k : Nat) (e : Entry) (resumeAt : Nat) (t : Trap) : State :=
  let v := s.vec k
  let at_ : BitVec 13 := BitVec.ofNat 13 resumeAt
  let e' := { e with pix := at_, started := e.started || e.pix ≠ at_ }
  let put (l : List Entry) : List Entry := l.map fun x => if x.po = e.po then e' else x
  let s := (s.setVec k { v with infl := put v.infl, viq := put v.viq }.pullBack).forget (.vector k)
  let s := match t.reg with
    | some q => s.reportReg k t.lane q
    | none => s
  s.takeTrap k true e.addr t

/-- An FPX trap (R45, R253): the instruction and every younger one are unwound, and stand as they issued. -/
def State.fpxTrap (s : State) (k : Nat) (e : Entry) (t : Trap) : State :=
  let v := (s.vec k).unwind e.po
  ((s.setVec k { v with vstart := e.pix0 }).forget (.vector k)).takeTrap k true e.addr t

/-- What an access of another unit than a scalar front finds: its bytes' address, bytes of another device, zeros out of
range, a fault, or a byte range to be asked for. -/
inductive Found where
  | at_ (pa : Nat) | given (pa : Nat) (bytes : List Byte) | zero | fault (code : Nat) | ask (pa : Nat)
  deriving DecidableEq, Repr

/-- The address of the bytes that an access touches. -/
def Found.pa? : Found → Option Nat
  | .at_ pa | .given pa _ | .ask pa => some pa
  | _ => none

/-- The checks of R121 on one access of `size` bytes, for an owner that waits for n bytes of another device. Bytes that
have arrived or are on their way need no route any more (R342). -/
def State.checkFor (s : State) (o : Owner) (a : Nat) (far : Bool) (aspace : W64) (sup : Bool) (k : Acc) (va : W64) (size n : Nat) :
    Except Nat (Nat × Bool) :=
  match s.checkVa a far aspace sup k va size with
  | .error c => .error c
  | .ok (pa, io) =>
    if isDomain pa && decide (deviceOf pa ≠ s.flash.deviceId) && ((s.arrivedFor o pa n).isSome || s.asked o pa n) then .ok (pa, io)
    else s.check a far aspace sup k va size

/-- What an access of n bytes, aligned to `size`, finds (R121, R187). -/
def State.findBytes (s : State) (o : Owner) (a : Nat) (far : Bool) (aspace : W64) (sup : Bool) (k : Acc) (va : W64) (size n : Nat) : Found :=
  match s.checkFor o a far aspace sup k va size n with
  | .error c => .fault c
  | .ok (pa, io) =>
    if io then .fault k.code
    else if k = .store then .at_ pa
    else if isDomain pa then
      match s.arrivedFor o pa n with
      | some (.data bs) => .given pa bs
      | some (.status c) => .fault (remoteCode c)
      | none => .ask pa
    else if s.uecc pa n then .fault 10
    else .at_ pa

/-! ## The shape of scalar meanings -/

/-- The completion values that a scalar instruction waits for reach their registers; where it reads one, the agent adopts
the generation of the thread, which is the join (R214, R215, R280). -/
def State.joinTokens (s : State) (a : Nat) (reads writes : List XReg) : State :=
  ((s.front a).tokens.filter fun t => (reads ++ writes).contains t.d).foldl (fun s t =>
    let s := if reads.contains t.d then s.adopt a t.gen else s
    let f := s.front a
    s.setFront a ({ f with tokens := f.tokens.filter fun u => u.d ≠ t.d }.deliver t.d t.v)) s

/-- Runs k with the agent whose front moves; an instruction reached by another unit is no event (log 2). -/
def onFront (s : State) (k : Nat → Bool → Out) : Out :=
  match s.actor with
  | .front a d => k a d
  | _ => .fault .notAnEvent

/-- The scoreboard and the marks of R379 before a scalar instruction: it waits for a pending register that it
reads or writes, and receives a completion value that is there; it traps UECC when it reads an unreadable one. -/
def scalarRead (s : State) (a : Nat) (reads writes : List XReg) (k : Front → Out) : Out :=
  let f := s.front a
  if (reads ++ writes).any f.isPend then .next (s.joinTokens a reads writes)
  else
    match reads.find? f.isBad with
    | some r => s.scalarTrap a { code := 10, elem := r.toNat }
    | none => k f

/-- A scalar instruction that computes x(D) from registers and advances (R117 to R119). -/
def aluOp (d : XReg) (reads : List XReg) (f : Front → W64) (s : State) : Out :=
  onFront s fun a _ => scalarRead s a reads [d] fun fr => .next ((s.writeX a d (f fr)).retire a (fr.pc + 4))

end Sys2Proof.Machine
end

