-- ==== Sys2Proof/Machine/Arbiter.lean ====
section
/-! DEFINITION. Fields of a launch record, and the lane arbiter of a core (R300, R313, R314). -/
namespace Sys2Proof.Machine

/-! ## CTRL (R300) -/

/-- CTRL.CWINC. -/
def LaunchRec.cwinc (r : LaunchRec) : W64 := (r.ctrl.extractLsb' 32 32).zeroExtend 64
/-- CTRL.PRE. -/
def LaunchRec.pre (r : LaunchRec) : Bool := r.ctrl.getLsbD 31
/-- CTRL.PRIO. -/
def LaunchRec.prio (r : LaunchRec) : Nat := (r.ctrl.extractLsb' 28 3).toNat
/-- Clusters of a launch: NCL + 1. -/
def LaunchRec.clusters (r : LaunchRec) : Nat := (r.ctrl.extractLsb' 22 6).toNat + 1
/-- Cores per cluster: NCO + 1. -/
def LaunchRec.cores (r : LaunchRec) : Nat := (r.ctrl.extractLsb' 20 2).toNat + 1
/-- Contexts per core: NCX + 1. -/
def LaunchRec.contexts (r : LaunchRec) : Nat := (r.ctrl.extractLsb' 18 2).toNat + 1
/-- CTRL.LANES. -/
def LaunchRec.lanes (r : LaunchRec) : Nat := (r.ctrl.extractLsb' 14 4).toNat
/-- CTRL.SUP. -/
def LaunchRec.sup (r : LaunchRec) : Bool := r.ctrl.getLsbD 13

/-! ## The lane arbiter -/

/-- An event of R313 happens on a core. -/
def State.promptArbiter (s : State) (g : Nat) : State := s.setCore g { s.core g with arb := true }

/-- Lane groups that LANEMAP does not retire. -/
def Core.unretired (c : Core) : Nat := ((List.range 8).filter fun j => !c.lanemap.getLsbD j).length

/-- The contexts placed on a core that have not halted, by their number within it. -/
def State.placedOn (s : State) (g : Nat) : List Nat :=
  (List.range 4).filter fun q => (s.front (4 * g + q)).launch.isSome && decide ((s.front (4 * g + q)).run ≠ .halted)

/-- What the arbiter knows of a context: its number, the LANES of its launch, its LANEREQ.WANT, the PRIO of its launch,
and a target held since a restart (R324). -/
structure Claim where
  q : Nat
  f : Nat
  w : Nat
  prio : Nat
  held : Option Nat
  deriving DecidableEq, Repr

/-- The claims of a core. -/
def State.claims (s : State) (g : Nat) : List Claim :=
  (s.placedOn g).map fun q =>
    let r := (s.launchOf (4 * g + q)).map (·.record)
    ⟨q, (r.map LaunchRec.lanes).getD 0, (s.vec (4 * g + q)).lanereq.toNat, (r.map LaunchRec.prio).getD 0,
      ((s.core g).restart.find? fun p => p.1 = q).map (·.2)⟩

/-- The claims in descending launch PRIO, then ascending context (R313). -/
def claimOrder (l : List Claim) : List Claim :=
  ((List.range 8).reverse).flatMap fun p => l.filter fun c => c.prio = p

/-- One round of R313: each context below its want takes one of the spare groups. -/
def targetRound (order : List Claim) (st : Store Nat × Nat) : Store Nat × Nat :=
  order.foldl (fun (st : Store Nat × Nat) c =>
    if 0 < st.2 ∧ c.held = none ∧ Store.get 0 st.1 c.q < c.w then (st.1.put c.q (Store.get 0 st.1 c.q + 1), st.2 - 1) else st) st

/-- The targets of R313 for `n` groups: by context number. -/
def arbiterTargets (l : List Claim) (n : Nat) : Store Nat :=
  let short := n < (l.map fun c => min c.f c.w).sum
  let first (c : Claim) : Nat := c.held.getD (min (if short && decide (1 ≤ c.w) then 1 else c.f) c.w)
  let t : Store Nat := l.foldl (fun (t : Store Nat) c => t.put c.q (first c)) []
  let order := claimOrder l
  ((List.range 8).foldl (fun st _ => targetRound order st) (t, n - (l.map first).sum)).1

/-- The groups that each context keeps: the lowest it holds, up to its target (R314). -/
def keptLanes (c : Core) (avail : List Nat) (t : Store Nat) : List (Nat × Nat) :=
  t.flatMap fun p => ((avail.filter fun j => laneHolder c.lanepart j = p.1).take p.2).map fun j => (j, p.1)

/-- Gives the other groups, lowest group to lowest context below its target first (R314). -/
def assignLanes (t : Store Nat) (kept : List (Nat × Nat)) (rest : List Nat) : List (Nat × Nat) :=
  (t.foldl (fun (st : List (Nat × Nat) × List Nat) p =>
    let need := p.2 - (kept.filter fun x => x.2 = p.1).length
    (st.1 ++ (st.2.take need).map (fun j => (j, p.1)), st.2.drop need)) (kept, rest)).1

/-- LANEPART as the arbiter writes it (R314): retired and parked groups stay so, the others are assigned or free. -/
def arbiterLanepart (c : Core) (l : List Claim) : BitVec 24 :=
  let avail := (List.range 8).filter fun j => !c.lanemap.getLsbD j && laneHolder c.lanepart j ≠ 5
  let t := arbiterTargets l avail.length
  let kept := keptLanes c avail t
  let given := assignLanes t kept (avail.filter fun j => !(kept.any fun x => x.1 = j))
  (List.range 8).foldl (fun lp j =>
    setHolder lp j
      (if c.lanemap.getLsbD j then 7
       else if laneHolder c.lanepart j = 5 then 5
       else ((given.find? fun x => x.1 = j).map (·.2)).getD 4)) 0

/-- The arbiter of a core recomputes the holders and writes LANEPART (R313, R314). -/
def State.arbitrate (s : State) (g : Nat) : State :=
  let c := s.core g
  s.setCore g { c with lanepart := arbiterLanepart c (s.claims g), arb := false }

/-- LANE_ARBITER_RECOMPUTE (R313): the arbiter answers an event of its core. -/
def execLaneArbiterRecompute (g : Nat) (s : State) : Out := .next (if (s.core g).arb then s.arbitrate g else s)

end Sys2Proof.Machine
end

