-- ==== Sys2Proof/Machine/Hier.lean ====
section
/-! DEFINITION. The memory hierarchy behind the accesses of a step: TLBs and walks (R328, R329), the scratchpad paths
(R260 to R272), the cache slices and the Worez links (R268, R269), and their event counters (R272, R384, R392). What an
access reads or writes does not depend on any of it. -/
namespace Sys2Proof.Machine

/-! ## Homes (R268) -/

/-- The home cluster of a DATA byte (R268). -/
def home (data : Nat) : Nat :=
  let bits (lo : Nat) : Nat := data / 2 ^ lo % 64
  bits 6 ^^^ bits 12 ^^^ bits 18 ^^^ bits 24 ^^^ bits 30 ^^^ bits 36 ^^^ (data / 2 ^ 42 % 4)

/-- The set of a DATA byte in its home slice: DATA[22:12] (R269). -/
def cacheSet (data : Nat) : Nat := data / 2 ^ 12 % 2048

/-- The link that carries a DATA byte (R267). -/
def link (data : Nat) : Nat := data / 256 % 48

/-- The hint `nt` (R189). -/
def hintNt : BitVec 2 := 1
/-- The hint `keep` (R189). -/
def hintKeep : BitVec 2 := 2

/-! ## The cache slices (R269) -/

/-- A 64-byte read of code unit u by the links (R272), with the errors of the line that main memory has corrected (R384). -/
def State.linkRead (s : State) (u : Nat) : State :=
  let s := s.countDevice 0x40 1
  if s.cor.contains u then s.countDevice 0x45 1 else s

/-- Is a line of a slice pinned there: dirty, with an uncorrectable error (R380)? -/
def State.pinned (s : State) (w : CacheLine) : Bool := w.dirty && s.uncor.contains (64 * w.line)

/-- The line that a set of 16 lines replaces: the least recently used of those that are not pinned, of those without `keep` where
there are any (R269, R380). -/
def State.victim (s : State) (ways : List CacheLine) : Option CacheLine :=
  let free := ways.filter fun w => !s.pinned w
  ((free.filter fun w => !w.keep).getLast?).orElse fun _ => free.getLast?

/-- A line leaves its slice; a dirty one is written back (R269, R272). -/
def State.writeBack (s : State) (c : Nat) : Option CacheLine → State
  | some w => if w.dirty then (s.countCluster c 0x22 1).countDevice 0x41 1 else s
  | none => s

/-- An access to a line of main memory at its home slice (R268, R269, R272): a hit; a miss that allocates, for which the
line is read unless the access writes the whole of it; or a miss of `nt`, served by the memory controller, as is one in a set
whose lines are all pinned (R380). -/
def State.touchLine (s : State) (line : Nat) (write full : Bool) (hint : BitVec 2) : State :=
  let c := home (64 * line)
  let q := s.cluster c
  let n := cacheSet (64 * line)
  let ways := Store.get [] q.cache n
  match ways.find? fun w => w.line = line with
  | some w =>
    (s.setCluster c { q with cache := q.cache.put n ({ w with dirty := w.dirty || write } :: ways.filter fun x => x.line ≠ line) }).countCluster c 0x20 1
  | none =>
    let s := s.countCluster c 0x21 1
    let gone := if ways.length < 16 then none else s.victim ways
    if hint = hintNt || (decide (16 ≤ ways.length) && gone.isNone) then (if write then s.countDevice 0x41 1 else s.linkRead (64 * line))
    else
      let kept := match gone with | some w => ways.filter fun x => x.line ≠ w.line | none => ways
      let q := s.cluster c
      let s := s.setCluster c { q with cache := q.cache.put n (⟨line, write, hint = hintKeep⟩ :: kept) }
      let s := s.writeBack c gone
      if write && full then s else s.linkRead (64 * line)

/-- Does an access cover the whole of a line? -/
def coversLine (pa n line : Nat) : Bool := decide (pa ≤ 64 * line) && decide (64 * line + 64 ≤ pa + n)

/-- An access to main memory: by the home slices, or by the memory controller for a slot and for a page of type IO (R268). A
read of a slot counts a link read whatever its home slice holds (DESIGN CHOICE: R268 lets it bypass the slices, R368 serves it from a
dirty line there; log 65). A read of a line with an uncorrectable error counts as such (R384). -/
def State.touchMain (s : State) (pa n : Nat) (write : Bool) (hint : BitVec 2) (direct : Bool) : State :=
  (linesOf (dataOf pa) n).foldl (fun (s : State) line =>
    let u := eccUnit (s.keyOf (slotOf pa * 2 ^ 44 + 64 * line))
    let s := if !write && s.uncor.contains u then s.countDevice 0x46 1 else s
    if direct || slotOf pa ≠ 0 then (if write then s.countDevice 0x41 1 else s.linkRead u)
    else s.touchLine line write (coversLine (dataOf pa) n line) hint) s

/-! ## Translation (R328, R329) -/

/-- The entry that a walk fills (R329): the 4 KiB or 2 MiB fragment that the access touched. -/
def Leaf.entry (l : Leaf) (id : BitVec 16) (va : W64) : TlbEntry :=
  let big : Bool := decide (1 ≤ l.level)
  let off := va.toNat % 2 ^ (12 + 9 * l.level)
  { asid := id, big := big, vfn := (va.toNat % 2 ^ 57) / 2 ^ fragBits big,
    base := l.pa + off / 2 ^ fragBits big * 2 ^ fragBits big, pbmt := l.pbmt, perm := l.perm }

/-- Do two entries translate one fragment under one identifier? -/
def TlbEntry.same (t u : TlbEntry) : Bool := u.asid = t.asid && u.big = t.big && u.vfn = t.vfn

/-- Puts an entry into the micro-TLB, 64 entries, most recently used first (R329). -/
def fillMicro (l : List TlbEntry) (t : TlbEntry) : List TlbEntry := (t :: l.filter fun u => !t.same u).take 64

/-- Puts an entry into the cluster TLB: four ways in a bank's set, found by the low ten bits of the fragment number for both
sizes, most recently used first (R329; log 21). -/
def fillCluster (l : List TlbEntry) (t : TlbEntry) : List TlbEntry :=
  let l := l.filter fun u => !t.same u
  let same := l.filter fun u => u.vfn % 1024 = t.vfn % 1024
  let drop := same.drop 3
  t :: l.filter fun u => !drop.contains u

/-- The micro-TLB of an agent takes an entry, unless only the cluster TLB serves the access. -/
def State.toMicro (s : State) (a : Nat) (far : Bool) (t : TlbEntry) : State :=
  if far || isDrone a then s else s.setCore (coreOf a) { s.core (coreOf a) with utlb := fillMicro (s.core (coreOf a)).utlb t }

/-- The cluster TLB of an agent takes an entry. -/
def State.toCluster (s : State) (a : Nat) (t : TlbEntry) : State :=
  s.setCluster (clusterOf a) { s.cluster (clusterOf a) with tlb := fillCluster (s.cluster (clusterOf a)).tlb t }

/-- The PTE addresses that a walk reads, from a level down to its leaf or its failure (R328, R329). -/
def State.walkReads (s : State) (table : Nat) (va : W64) : Nat → List Nat
  | 0 => [table + 8 * ((va.toNat / 2 ^ 12) % 512)]
  | n + 1 =>
    let pa := table + 8 * ((va.toNat / 2 ^ (12 + 9 * (n + 1))) % 512)
    match s.pteAt table va (n + 1) with
    | .ok (.inr next) => pa :: State.walkReads s next va n
    | _ => [pa]

/-- A walk for an agent's address (R328, R329): it reads its PTEs, and a valid leaf fills the TLBs; invalid entries are
never cached. -/
def State.walkFill (s : State) (a : Nat) (far : Bool) (aspace va : W64) : State :=
  let root := aspaceRoot aspace * 4096
  let l := s.walk root va 4
  let s := (s.walkReads root va 4).foldl (fun (s : State) pa => s.touchMain pa 8 false 0 false) s
  match l with
  | .error _ => s
  | .ok l =>
    let t := l.entry (aspaceId aspace) va
    (s.toCluster a t).toMicro a far t

/-- The entry of a record takes TLB misses (R394). -/
def State.tallyMisses (s : State) (a : Nat) (micro cluster : Nat) : Option Nat → State
  | none => s
  | some po =>
    let v := s.vec a
    s.setVec a { v with infl := v.infl.map fun e =>
      if e.po = po then { e with tally := { e.tally with micro := e.tally.micro + micro, cluster := e.tally.cluster + cluster } } else e }

/-- A look-up of an access in the TLBs, with their misses and the walk that follows (R329, R392). The device's own accesses
have no TLB (log 24). -/
def State.lookup (s : State) (t : Touch) (va aspace : W64) : State :=
  let a := t.agent
  let id := aspaceId aspace
  if inWindow va || !canonical va || a = deviceAgent then s
  else
    let near := !t.far && !isDrone a
    match if near then (s.core (coreOf a)).utlb.find? fun u => u.hits id va else none with
    | some u => s.toMicro a t.far u
    | none =>
      let s := if near then s.countCore (coreOf a) 5 1 else s
      match (s.cluster (clusterOf a)).tlb.find? fun u => u.hits id va with
      | some u => (((s.toCluster a u).toMicro a t.far u)).tallyMisses a (if near then 1 else 0) 0 t.entry
      | none =>
        let s := (s.countCluster (clusterOf a) 0x2A 1).countCluster (clusterOf a) 0x29 1
        (s.walkFill a t.far aspace va).tallyMisses a (if near then 1 else 0) 1 t.entry

/-- The memory type of a page for an agent's access (R328). -/
def State.pageType (s : State) (t : Touch) (va aspace : W64) : BitVec 2 :=
  match s.tlbLookup t.agent t.far (aspaceId aspace) va with
  | some u => u.pbmt
  | none => match s.walk (aspaceRoot aspace * 4096) va 4 with
    | .ok l => l.pbmt
    | .error _ => 0

/-! ## Accounting -/

/-- An access of a scratchpad byte counts at both ends when it comes from another core (R272). One of a drone, whatever its cluster,
or of the device itself counts as inbound (DESIGN CHOICE: R272 speaks of cores; log 65). -/
def State.touchSlice (s : State) (a pa n : Nat) (write : Bool) : State :=
  let g := spCore pa
  let s := if !write && (List.range ((n + 7) / 8)).any (fun j => s.cor.contains ((pa / 8 + j) * 8)) then s.countCore g 0x15 1 else s
  if isDrone a || a = deviceAgent then s.countCore g 0x12 1
  else if coreOf a = g then s
  else (s.countCore (coreOf a) 0x11 1).countCore g 0x12 1

/-- Accounts for one access. -/
def State.touch (s : State) (t : Touch) : State :=
  let kind : BitVec 2 := match t.va with
    | some (va, aspace) => if inWindow va then 0 else s.pageType t va aspace
    | none => 0
  let s := match t.va with
    | some (va, aspace) => s.lookup t va aspace
    | none => s
  match t.pa with
  | none => s
  | some (pa, n) =>
    if isSp pa then s.touchSlice t.agent pa n t.write
    else if isDomain pa then s
    else s.touchMain pa n t.write (if kind = 1 then hintNt else t.hint) (decide (kind = 2))

/-- Accounts for the accesses of a step, in their order. -/
def State.account (s : State) : State := s.touches.foldl State.touch { s with touches := [] }

/-- Notes a scalar access, or one of a front, of n bytes at an address that has been checked. -/
def State.noteFront (s : State) (a : Nat) (va : W64) (pa n : Nat) (write : Bool) : State :=
  s.note ⟨a, false, some (va, (s.front a).aspace), some (pa, n), write, 0, none⟩

/-- Notes the look-up of an access that fails. -/
def State.noteLookup (s : State) (a : Nat) (va : W64) : State := s.note ⟨a, false, some (va, (s.front a).aspace), none, false, 0, none⟩

/-- An access that fails with a code of R121, as the account sees it: its look-up, and the bytes whose read has met an
uncorrectable error (R329, R384). -/
def State.failing (s : State) (a : Nat) (far : Bool) (aspace va : W64) (n code : Nat) : Touch :=
  let bytes : Option (Nat × Nat) :=
    if code = 10 then
      match s.checkVa a far aspace true .load va 1 with
      | .ok (pa, _) => if isDomain pa then none else some (pa, n)
      | .error _ => none
    else none
  ⟨a, far, some (va, aspace), bytes, false, 0, none⟩

/-- Notes an access that fails. -/
def State.noteFault (s : State) (a : Nat) (far : Bool) (aspace va : W64) (n code : Nat) : State :=
  s.note (s.failing a far aspace va n code)

/-- Notes bytes that a thread, a stream or the device accesses. -/
def State.noteFar (s : State) (a : Nat) (aspace va : W64) (pa n : Nat) (write : Bool) : State :=
  s.note ⟨a, true, some (va, aspace), some (pa, n), write, 0, none⟩

end Sys2Proof.Machine
end

