-- ==== Sys2Proof/Machine/Fetch.lean ====
section
/-! DEFINITION. What surrounds an instruction: the fetch and the tests of R98 that its word decides, and what follows an
issue (counters, breakpoints). -/
namespace Sys2Proof.Machine

/-! ## Fetch -/

/-- Does a word belong to a context alone (R20)? -/
def contextWord (w : InstrWord) : Bool :=
  let maj := (w.extractLsb' 27 5).toNat
  let fn := (w.extractLsb' 6 6).toNat
  (decide (12 ≤ maj) && decide (maj ≤ 21)) || (maj = 23 && decide (4 ≤ fn) && decide (fn ≤ 8))

/-- Does a word belong to a drone alone (R20)? -/
def droneWord (w : InstrWord) : Bool := (w.extractLsb' 27 5).toNat = 23 && decide ((w.extractLsb' 6 6).toNat ≤ 3)

/-- Does a word enter the VIQ (R246)? `vcfg.setl` does, after its tests at the front. -/
def viqWord (w : InstrWord) : Bool :=
  let maj := (w.extractLsb' 27 5).toNat
  let fn := (w.extractLsb' 6 6).toNat
  (decide (13 ≤ maj) && decide (maj ≤ 21)) || (maj = 12 && (fn = 0 || fn = 2)) ||
    (maj = 23 && decide (4 ≤ fn) && decide (fn ≤ 8))

/-- Is a word of the function `vcfg.setl` (R90)? -/
def setlWord (w : InstrWord) : Bool := (w.extractLsb' 27 5).toNat = 12 && (w.extractLsb' 6 6).toNat = 0

/-- Does a word enter the array queue or load weights (R228, R241)? -/
def arrayWord (w : InstrWord) : Bool := droneWord w

/-- What fetching at an agent's pc gives: the word, a wait for another device, or the trap (R88, R121, R128). -/
inductive Fetched where
  | word (w : InstrWord) | ask (pa : Nat) | trap (code : Nat)
  deriving DecidableEq, Repr

/-- The code of a fetch that fails with a code of R121: IFAULT, but BADADDR at a non-canonical address, an uncorrectable
error, and PEERFAULT in a fenced slice (R128, R311, R328; log 57). -/
def fetchCode (pc : W64) (c : Nat) : Nat := if c = 10 || c = 11 || (c = 14 && !canonical pc) then c else 9

/-- The fetch of the next word (R88, R128, R328). Bytes that have been asked for need no route any more (R342). -/
def State.fetchWord (s : State) (a : Nat) : Fetched :=
  let f := s.front a
  match s.checkFor (.front a) a false f.aspace f.sup .fetch f.pc 4 4 with
  | .error c => .trap (fetchCode f.pc c)
  | .ok (pa, _) =>
    if isDomain pa then
      match s.arrivedFor (.front a) pa 4 with
      | some (.data bs) => .word (BitVec.ofNat 32 (ofBytesLE bs))
      | some (.status n) => .trap (fetchCode f.pc (remoteCode n))
      | none => .ask pa
    else if s.uecc pa 4 then .trap 10
    else .word (wordOfBytes (s.readByte pa) (s.readByte (pa + 1)) (s.readByte (pa + 2)) (s.readByte (pa + 3)))

/-- A trap that a word itself causes: TVAL holds the word (R86, R98). -/
def wordTrap (code : Nat) (w : InstrWord) : Trap := { code := code, tval := BitVec.zeroExtend 64 w }

/-- The code of a rejected word (R98). -/
def rejectCode : Reject → Nat
  | .illop => 1 | .illfld => 2

/-- Entries free in a VIQ: those from VCP upward, which its image holds, are taken (R247). -/
def Vec.room (v : Vec) : Nat := 32 - (v.fromVcp.map Entry.slots).sum

/-- Is a word a `vcfg.setl`? -/
def isSetl (w : InstrWord) : Bool := match decodeWord w with | .ok (.vcfgSetl ..) => true | _ => false
/-- Is a word a `vld.ff`? -/
def isFf (w : InstrWord) : Bool := match decodeWord w with | .ok (.vldFf ..) => true | _ => false

/-- Does the last `vld.ff` or `vcfg.setl` among entries that have not completed leave the VL of a younger one unsettled (R186,
R247)? -/
def ffvAfter (l : List Entry) : Bool :=
  ((l.filter fun e => isFf e.word || isSetl e.word).getLast?).any fun e => isFf e.word

/-- Puts an entry into the VIQ: it holds the word, VL and VTYPE at issue and the captured values, and starts at
VSTART when no older vector instruction is outstanding (R85, R247). -/
def State.enterViq (s : State) (k : Nat) (w : InstrWord) (ops : List W64) (keep : BitVec 32) (gnew : BitVec 8) : State :=
  let f := s.front k
  let v := s.vec k
  let e : Entry :=
    { word := w, addr := f.pc, vl := v.vl, vtype := v.vtype, ops := ops, keep := keep, gnew := gnew, started := false,
      ffv := !isSetl w && ffvAfter v.open_, pix := if v.open_.isEmpty then v.vstart else 0, pix0 := if v.open_.isEmpty then v.vstart else 0,
      po := f.po, done := false, resumed := false, flags := 0, fpx := none, undo := Undo.empty, tally := Tally.empty }
  s.setVec k { v with viq := v.viq ++ [e] }

/-! ## After an issue -/

/-- Do the fields of a comparator match (R393)? -/
def bpHit (addr : W64) (ctl : BitVec 12) (kind : Nat) (ctx : Option Nat) (pc : W64) : Bool :=
  ctl.getLsbD 0 && (ctl.extractLsb' 1 2).toNat = kind && addr.extractLsb' 2 62 = pc.extractLsb' 2 62 &&
    (match ctx with | some k => ctl.getLsbD (8 + k) | none => true)

/-- Have the memory writes of the elements that a context's instructions have processed performed, those sent to other devices
included (R257 step 4)? -/
def State.elementsDone (s : State) (k : Nat) : Bool :=
  !((s.front k).acc.any fun x => x.vector) &&
    !(s.requests.any fun q => match q.waiter with
      | .store a po _ _ => a = k && (s.vec k).infl.any fun e => e.po = po
      | _ => false)

/-- May an agent make a precise stop now: no started MMA, and no `vcfg.setl` that changes the grant (R241, R257)? -/
def State.canStop (s : State) (a : Nat) : Bool :=
  if isDrone a then (s.cluster (clusterOf a)).mma.isNone else !(s.vec a).grantChanges

/-- Is an agent at a precise stop: it can stop, and its elements have performed (R257)? -/
def State.atStop (s : State) (a : Nat) : Bool := s.canStop a && (isDrone a || s.elementsDone a)

/-- A freeze that can be taken: the agent makes a precise stop and latches its pair (R257, R393). -/
def State.tryFreeze (s : State) (a : Nat) : State :=
  let f := s.front a
  if !f.freezing || !s.atStop a then s
  else
    let vcp := s.vcpOf a
    let s := s.setFront a { f with freezing := false, frozen := true, spc := f.pc, vcp := vcp }
    if isDrone a then
      s.setCluster (clusterOf a) { s.cluster (clusterOf a) with tdpc := f.pc }
    else
      let g := s.core (coreOf a)
      (s.setVec a (s.vec a).pullBack).setCore (coreOf a)
        { g with tspc := g.tspc.setIfInBounds (ctxOf a) f.pc, tvcp := g.tvcp.setIfInBounds (ctxOf a) vcp }

/-- A freeze of an agent (R393): it issues no more, and stops as soon as it can. -/
def State.freeze (s : State) (a : Nat) : State := (s.setFront a { s.front a with freezing := true }).tryFreeze a

/-- The comparators that an issue or commit at an address of an agent meets (R393): kind 0 scalar issue, 1 vector
commit, 2 drone issue. Several matches make one trigger. -/
def State.breakpoints (s : State) (a kind : Nat) (pc : W64) : State :=
  let cores := if isDrone a then (List.range 4).map (fun q => 4 * clusterOf a + q) else [coreOf a]
  let ctx := if isDrone a then none else some (ctxOf a)
  let acts := cores.flatMap fun g => (List.range 4).filterMap fun n =>
    let c := s.core g
    if bpHit (c.bpaddr.getD n 0) (c.bpctl.getD n 0) kind ctx pc then some ((c.bpctl.getD n 0).extractLsb' 4 2).toNat else none
  let s := if acts.any (fun t => t = 0 || t = 2) then s.fire 0 else s
  if acts.any (fun t => t = 1 || t = 2) then s.freeze a else s

/-- After the front of an agent has issued the instruction at `pc`: SCISSUE, the issuing context, breakpoints
(R315, R392, R393). -/
def State.afterIssue (s : State) (a : Nat) (pc : W64) : State :=
  let s :=
    if isDrone a then s
    else (s.setCore (coreOf a) { s.core (coreOf a) with lastIssue := BitVec.ofNat 2 (ctxOf a) }).countCore (coreOf a) 1 1
  let s := s.setFront a { s.front a with entering := false }
  let s := if (s.arrived.any fun r => decide (r.owner = .front a)) then s.dropArrived (.front a) else s
  s.breakpoints a (if isDrone a then 2 else 0) pc

/-- The word that an agent's front has fetched is accounted for (R268, R329), and shown to the trace (R396). -/
def State.noteFetch (s : State) (before : State) (a : Nat) (issued : Bool) : State :=
  let pc := (before.front a).pc
  match before.checkOwn a .fetch pc 4 with
  | .error _ => s
  | .ok (pa, _) =>
    let s := s.note ⟨a, false, some (pc, (before.front a).aspace), some (pa, 4), false, 0, none⟩
    match issued, before.fetchWord a with
    | true, .word w =>
      if isDrone a then s.setCluster (clusterOf a) { s.cluster (clusterOf a) with dshown := some w }
      else s.setCore (coreOf a) { s.core (coreOf a) with shown := some (ctxOf a, w) }
    | _, _ => s

/-- Has a front issued (its place in program order has advanced)? -/
def State.hasIssued (s before : State) (a : Nat) : Bool := (s.front a).po ≠ (before.front a).po

/-- Has a front issued, or taken a trap? -/
def State.hasMoved (s before : State) (a : Nat) : Bool := s.hasIssued before a || (s.front a).pc ≠ (before.front a).pc

/-- What a step adds after a move of a front: nothing unless it has issued or taken a trap. -/
def State.finishIssue (s before : State) (a : Nat) : State :=
  let s' := if s.hasMoved before a then s.noteFetch before a (s.hasIssued before a) else s
  if s.hasIssued before a then s'.afterIssue a (before.front a).pc else s'

/-- What a step adds after a meaning of a front. -/
def finishFront (before : State) (a : Nat) : Out → Out
  | .next s => .next (s.finishIssue before a)
  | .fault r => .fault r
  | .refused r => .refused r

/-! ## Before a meaning -/

/-- What the front of an agent does first (log 2). -/
inductive Begin where
  | done (s : State) | run (i : Instr) (s : State)
  deriving Repr

/-- The tests on a fetched word that come before its meaning: order 1 and 2 of R98, and vector or array words in
the handler of a held trap (R135, R241). A word of a VIQ class that is no instruction enters the VIQ, since it is
tested there; only `vcfg.setl` is tested at the front (R98, R246). -/
def State.beginWord (s : State) (a : Nat) (w : InstrWord) : Begin :=
  let trap (code : Nat) : Begin :=
    if s.vecBusy a then .done s else .done ((s.takeTrap a false (s.front a).pc (wordTrap code w)).finishIssue s a)
  if (if isDrone a then contextWord w else droneWord w) then trap 1
  else if (s.front a).held && (viqWord w || arrayWord w) then trap 1
  else
    match decodeWord w with
    | .ok i => .run i s
    | .error r =>
      if !isDrone a && viqWord w && !setlWord w then
        if (s.vec a).room = 0 then .done s
        else .done (((s.enterViq a w [] 0 0).issue a ((s.front a).pc + 4)).finishIssue s a)
      else trap (rejectCode r)

/-- The front of an agent moves: it fetches and decodes, or waits, or takes a pre-emption request at its next
point with STATUS.IE set (R137, R246, R317). A fetch at TVEC that fails makes the trap being taken fatal (R134). -/
def State.beginFront (s : State) (a : Nat) : Begin :=
  let f := s.front a
  if f.run ≠ .running || f.freezing || f.frozen || f.stopped || (f.preempt && f.ie) then .done s
  else
    match s.fetchWord a with
    | .ask pa => .done (s.askFor (.front a) pa 4)
    | .trap c =>
      let t := (s.dropArrived (.front a)).noteFault a false f.aspace f.pc 4 c
      if f.entering then .done (t.fatal a f.cause true)
      else if s.vecBusy a then .done s
      else .done (t.takeTrap a false f.pc { code := c, tval := f.pc })
    | .word w => s.beginWord a w

end Sys2Proof.Machine
end

