-- ==== Sys2Proof/Machine/Groups.lean ====
section
/-! DEFINITION. What each vector instruction names: register groups, masks, streams, scale registers, memory (R79, R150,
R204, R247, R251, R256). -/
namespace Sys2Proof.Machine

/-! ## Groups -/

/-- What a v register field names: a group, a wide group, or the pair of a `vrot` or `sin.cos` (R79, R167). -/
inductive GroupKind where
  | one | wide | pair
  deriving DecidableEq, Repr

/-- Does a v register field hold a number that R79 allows? -/
def groupOk (vt : VType) (q : VReg × GroupKind) : Bool :=
  match q.2 with
  | .one => q.1.toNat % vt.lmul = 0
  | .wide => vt.lmul ≠ 8 && q.1.toNat % (2 * vt.lmul) = 0
  | .pair => q.1.toNat % (2 * vt.lmul) = 0

/-- The registers of a group: the first, and how many (R79). -/
def groupSpan (vt : VType) (q : VReg × GroupKind) : Nat × Nat := (q.1.toNat, match q.2 with | .one => vt.lmul | _ => 2 * vt.lmul)

/-- Do two spans of registers meet? -/
def spansMeet (a b : Nat × Nat) : Bool := decide (a.1 < b.1 + b.2) && decide (b.1 < a.1 + a.2)

/-- Is the second operand a narrow group beside a wide D (R150)? -/
def srcWide : VSrc → Bool
  | .wide _ => true
  | _ => false

/-- Is the second operand a narrow group beside a wide A (R150)? -/
def srcNarrow : VSrc → Bool
  | .narrow _ => true
  | _ => false

/-- The group that a second operand names. -/
def srcGroups : VSrc → List (VReg × GroupKind)
  | .vv b | .wide b | .narrow b => [(b, .one)]
  | _ => []

/-- The stream that a second operand names. -/
def srcStream : VSrc → Option SReg
  | .vs j => some j
  | _ => none

/-- The groups of a V3 instruction with a register destination (R150). -/
def groupsV3 (d a : VReg) (src : VSrc) : List (VReg × GroupKind) :=
  [(d, if srcWide src then .wide else .one), (a, if srcNarrow src then .wide else .one)] ++ srcGroups src

/-- The v register groups that an instruction names, for R79. A shape record is read from one register and is no group
(R192). -/
def issueGroups : Instr → List (VReg × GroupKind)
  | .vopAdd d a b _ | .vopSub d a b _ | .vopRsub d a b _ | .vopMin d a b _ | .vopMax d a b _ | .vopAnd d a b _
  | .vopOr d a b _ | .vopXor d a b _ | .vopSll d a b _ | .vopSrl d a b _ | .vopSra d a b _ | .vopMul d a b _
  | .vopMulh d a b _ | .vopMacc d a b _ | .vopNmsac d a b _ | .vopAvg d a b _ | .vopShrRnd d a b _
  | .vfnDiv d a b _ | .vfnAtan2 d a b _ | .vfnHypot d a b _ | .vfnSoftx d a b _ | .vfnUfn _ d a b _
  | .vredRedsum d a b _ | .vredRedsumOrd d a b _ | .vredRedmax d a b _ | .vredRedmin d a b _ | .vredRedand d a b _
  | .vredRedor d a b _ | .vredScanAdd d a b _ | .vredScanMax d a b _
  | .vpermSlideup d a b _ | .vpermSlidedown d a b _ | .vpermGather d a b _ => groupsV3 d a b
  | .vopCmpEq _ a b _ | .vopCmpNe _ a b _ | .vopCmpLt _ a b _ | .vopCmpLe _ a b _ => (a, .one) :: srcGroups b
  | .vopNeg d a _ | .vopAbs d a _ | .vopMerge d a _ _ | .vfnExp d a _ | .vfnExp2 d a _ | .vfnLn d a _ | .vfnLog2 d a _
  | .vfnSqrt d a _ | .vfnRsqrt d a _ | .vfnRecip d a _ | .vfnTanh d a _ | .vfnSigm d a _ | .vfnGelu d a _
  | .vpermSlide1up d a _ _ | .vpermSlide1down d a _ _ | .vpermCompress d a _ | .vpermExpand d a _ | .vpermReshape d a _
  | .vpermExtract d a _ _ | .vpermInsert d a _ _ => [(d, .one), (a, .one)]
  | .vopMv d (.reg a) _ => [(d, .one), (a, .one)]
  | .vopMv d (.strm _) _ | .vopSplat d _ _ | .vcfgTag d _ | .vredIota d _ | .sclTov d | .matDrain d _ _
  | .vldUnit d _ _ _ _ | .vldStr d _ _ _ _ _ | .vld2d d _ _ _ _ _ | .vldFf d _ _ _ _ | .vldShape d _ _ _ _ _
  | .vstUnit d _ _ _ _ | .vstStr d _ _ _ _ _ | .vst2d d _ _ _ _ _ | .vstMx d _ _ _ _ | .vstShape d _ _ _ _ _ => [(d, .one)]
  | .vldIdx d _ b _ _ _ | .vstIdx d _ b _ _ _ => [(d, .one), (b, .one)]
  | .vopCvt .same d a _ | .vopCvtSat .same d a _ => [(d, .one), (a, .one)]
  | .vopCvt .wide d a _ | .vopCvtSat .wide d a _ => [(d, .wide), (a, .one)]
  | .vopCvt .narrow d a _ | .vopCvtSat .narrow d a _ => [(d, .one), (a, .wide)]
  | .vopFclass (.vec d) a _ => [(d, .one), (a, .one)]
  | .vopFclass (.mask ..) a _ => [(a, .one)]
  | .vrotCirRot d a _ _ _ _ | .vrotCirVec d a _ _ _ _ | .vrotHypRot d a _ _ _ _ | .vrotHypVec d a _ _ _ _
  | .vrotLinRot d a _ _ _ _ | .vrotLinVec d a _ _ _ _ | .vfnSinCos d a _ => [(d, .pair), (a, .one)]
  | .vredRedsumW d a b _ => [(d, .wide), (a, .one), (b, .wide)]
  | .sclFromv a | .matFeed _ a _ => [(a, .one)]
  | _ => []

/-- The v register groups that an instruction writes, with their tags (R79, R149). -/
def destGroups (i : Instr) : List (VReg × GroupKind) :=
  match i with
  | .vopCmpEq .. | .vopCmpNe .. | .vopCmpLt .. | .vopCmpLe .. | .vopFclass (.mask ..) _ _ | .vstUnit .. | .vstStr .. | .vst2d ..
  | .vstMx .. | .vstShape .. | .vstIdx .. | .sclFromv _ | .matFeed .. => []
  | .vrotCirRot d a _ _ _ _ | .vrotCirVec d a _ _ _ _ | .vrotHypRot d a _ _ _ _ | .vrotHypVec d a _ _ _ _
  | .vrotLinRot d a _ _ _ _ | .vrotLinVec d a _ _ _ _ => [(d, .pair), (a, .one)]
  | _ => (issueGroups i).take 1

/-- The v register groups that an instruction reads. -/
def sourceGroups (i : Instr) : List (VReg × GroupKind) :=
  (issueGroups i).drop (destGroups i).length ++ (match i with
    | .vopMacc .. | .vopNmsac .. => destGroups i
    | _ => [])

/-- The record that an instruction reads from one register (R192, R195, R203). -/
def recordReg : Instr → Option VReg
  | .vldShape _ _ b _ _ _ | .vstShape _ _ b _ _ _ | .strmBind _ b | .strmBindOut _ b => some b
  | _ => none

/-- The registers that an instruction names: its groups and its record (R79, R192). -/
def namedSpans (vt : VType) (i : Instr) : List (Nat × Nat) :=
  (issueGroups i).map (groupSpan vt) ++ (recordReg i).toList.map fun r => (r.toNat, 1)

/-- The registers that an instruction writes. -/
def destSpans (vt : VType) (i : Instr) : List (Nat × Nat) := (destGroups i).map (groupSpan vt)

/-- The second operand of an instruction, for the stream tests of R204. -/
def issueSrc : Instr → Option VSrc
  | .vopAdd _ _ b _ | .vopSub _ _ b _ | .vopRsub _ _ b _ | .vopMin _ _ b _ | .vopMax _ _ b _ | .vopAnd _ _ b _
  | .vopOr _ _ b _ | .vopXor _ _ b _ | .vopSll _ _ b _ | .vopSrl _ _ b _ | .vopSra _ _ b _ | .vopMul _ _ b _
  | .vopMulh _ _ b _ | .vopMacc _ _ b _ | .vopNmsac _ _ b _ | .vopAvg _ _ b _ | .vopShrRnd _ _ b _
  | .vfnDiv _ _ b _ | .vfnAtan2 _ _ b _ | .vfnHypot _ _ b _ | .vfnSoftx _ _ b _ | .vfnUfn _ _ _ b _
  | .vopCmpEq _ _ b _ | .vopCmpNe _ _ b _ | .vopCmpLt _ _ b _ | .vopCmpLe _ _ b _ => some b
  | _ => none

/-- The mask that makes the elements of an instruction active (R148); m0 for none. -/
def instrMask : Instr → MReg
  | .vredMaskCutoff _ m | .vredMaskThru _ m | .vredIota _ m => m
  | .vopNeg _ _ m | .vopAbs _ _ m | .vopMv _ _ m | .vopSplat _ _ m | .vopFclass _ _ m | .vfnSinCos _ _ m
  | .vfnExp _ _ m | .vfnExp2 _ _ m | .vfnLn _ _ m | .vfnLog2 _ _ m | .vfnSqrt _ _ m | .vfnRsqrt _ _ m
  | .vfnRecip _ _ m | .vfnTanh _ _ m | .vfnSigm _ _ m | .vfnGelu _ _ m | .vredMaskFirst _ _ m | .vredMaskCount _ _ m => m
  | .vopAdd _ _ _ m | .vopSub _ _ _ m | .vopRsub _ _ _ m | .vopMin _ _ _ m | .vopMax _ _ _ m | .vopAnd _ _ _ m
  | .vopOr _ _ _ m | .vopXor _ _ _ m | .vopSll _ _ _ m | .vopSrl _ _ _ m | .vopSra _ _ _ m | .vopMul _ _ _ m
  | .vopMulh _ _ _ m | .vopMacc _ _ _ m | .vopNmsac _ _ _ m | .vopAvg _ _ _ m | .vopShrRnd _ _ _ m | .vopCmpEq _ _ _ m
  | .vopCmpNe _ _ _ m | .vopCmpLt _ _ _ m | .vopCmpLe _ _ _ m | .vopMerge _ _ _ m | .vopCvt _ _ _ m
  | .vopCvtSat _ _ _ m | .vfnDiv _ _ _ m | .vfnAtan2 _ _ _ m | .vfnHypot _ _ _ m | .vfnSoftx _ _ _ m
  | .vredRedsum _ _ _ m | .vredRedsumOrd _ _ _ m | .vredRedsumW _ _ _ m | .vredRedmax _ _ _ m | .vredRedmin _ _ _ m
  | .vredRedand _ _ _ m | .vredRedor _ _ _ m | .vredScanAdd _ _ _ m | .vredScanMax _ _ _ m | .vredMaskAnd _ _ _ m
  | .vredMaskOr _ _ _ m | .vredMaskXor _ _ _ m | .vredMaskAndn _ _ _ m | .vpermSlideup _ _ _ m
  | .vpermSlidedown _ _ _ m | .vpermSlide1up _ _ _ m | .vpermSlide1down _ _ _ m | .vpermGather _ _ _ m
  | .vpermExtract _ _ _ m | .vpermInsert _ _ _ m => m
  | .vfnUfn _ _ _ _ m | .vldUnit _ _ _ _ m | .vldFf _ _ _ _ m | .vstUnit _ _ _ _ m | .vstMx _ _ _ _ m => m
  | .vrotCirRot _ _ _ _ _ m | .vrotCirVec _ _ _ _ _ m | .vrotHypRot _ _ _ _ _ m | .vrotHypVec _ _ _ _ _ m
  | .vrotLinRot _ _ _ _ _ m | .vrotLinVec _ _ _ _ _ m | .vldStr _ _ _ _ _ m | .vld2d _ _ _ _ _ m | .vldIdx _ _ _ _ _ m
  | .vldShape _ _ _ _ _ m | .vstStr _ _ _ _ _ m | .vst2d _ _ _ _ _ m | .vstIdx _ _ _ _ _ m | .vstShape _ _ _ _ _ m => m
  | _ => 0

/-- The masks that an instruction reads beside the one of R148 (R163, R175, R176, R198). -/
def maskSources : Instr → List MReg
  | .vopMerge _ _ b _ | .vpermCompress _ _ b | .vpermExpand _ _ b => [b]
  | .vredMaskAnd _ a b _ | .vredMaskOr _ a b _ | .vredMaskXor _ a b _ | .vredMaskAndn _ a b _ => [a, b]
  | .vredMaskFirst _ a _ | .vredMaskCount _ a _ | .vredMaskCutoff a _ | .vredMaskThru a _ => [a]
  | _ => []

/-- Does an instruction raise flags that VTYPE can route to m(XM) (R45)? -/
def raisesFlags (w : InstrWord) : Bool := decide (13 ≤ (w.extractLsb' 27 5).toNat) && decide ((w.extractLsb' 27 5).toNat ≤ 16) || (w.extractLsb' 27 5).toNat = 23

/-- The masks that an instruction writes: its destination, and m(XM) where its flags may go there (R45, R162, R165, R175,
R176). -/
def maskDests (w : InstrWord) (vt : VType) (i : Instr) : List MReg :=
  (match i with
   | .vopCmpEq d _ _ _ | .vopCmpNe d _ _ _ | .vopCmpLt d _ _ _ | .vopCmpLe d _ _ _ | .vopFclass (.mask d _) _ _
   | .vredMaskAnd d _ _ _ | .vredMaskOr d _ _ _ | .vredMaskXor d _ _ _ | .vredMaskAndn d _ _ _ => [d]
   | .vredMaskCutoff a _ | .vredMaskThru a _ => [a]
   | _ => []) ++
  (if raisesFlags w && vt.xm ≠ 0 && vt.fxc ≠ 0 then [BitVec.ofNat 3 vt.xm] else [])

/-- The stream that an instruction names (R204 to R207). -/
def streamNamed (i : Instr) : Option SReg :=
  match i with
  | .vopMv _ (.strm j) _ | .strmBind j _ | .strmBindOut j _ | .strmFree j | .strmStatus _ j | .strmSkip j _ => some j
  | _ => (issueSrc i).bind srcStream

/-- Does an instruction read scale registers (R85, R164, R196, R210, R211, R226)? -/
def readsScales : Instr → Bool
  | .vopCvt .. | .vopCvtSat .. | .vstMx .. | .sclSt .. | .sclTov _ | .matFeedEnd .. => true
  | _ => false

/-- May an instruction write scale registers (R195, R210, R211)? -/
def writesScales : Instr → Bool
  | .vldShape .. | .sclLd .. | .sclFromv _ => true
  | _ => false

/-- Is an instruction one of the vector-side `mat` functions (R225 to R227, R237, R238)? -/
def matWord : Instr → Bool
  | .matFeed .. | .matFeedEnd .. | .matSlot .. | .matDrain .. | .matDrainEnd _ => true
  | _ => false

/-- Is an instruction of the class `vred` or `vperm` (R251)? -/
def wholeClass (w : InstrWord) : Bool := (w.extractLsb' 27 5).toNat = 16 || (w.extractLsb' 27 5).toNat = 17

/-- Does an instruction run in one move, so that it neither starts early nor lets a consumer start early? Those of R251
do, and those whose effect is no group of elements. -/
def oneMove (w : InstrWord) (i : Instr) : Bool :=
  wholeClass w ||
    (match i with
     | .vcfgSetl .. | .vcfgTag .. | .vldFf .. | .strmBind .. | .strmBindOut .. | .strmFree _ | .strmStatus .. | .strmSkip ..
     | .sclLd .. | .sclSt .. | .sclTov _ | .sclFromv _ | .matFeedEnd .. | .matSlot .. | .matDrainEnd _ => true
     | _ => false)

/-! ## The memory use of a vector instruction -/

/-- How a vector instruction uses memory, for the order of R122: not at all, in a class, or as the free of an
output stream, which orders every later access (R276). -/
inductive MemUse where
  | none | access (cls : Cls) | barrier
  deriving DecidableEq, Repr

/-- The memory use of an entry's word (R122, R210, R276). -/
def memUse (w : InstrWord) : MemUse :=
  match decodeWord w with
  | .ok (.vldUnit _ _ c _ _) | .ok (.vldStr _ _ _ c _ _) | .ok (.vld2d _ _ _ c _ _) | .ok (.vldIdx _ _ _ c _ _)
  | .ok (.vldFf _ _ c _ _) | .ok (.vldShape _ _ _ c _ _) => .access c
  | .ok (.vstUnit _ _ c _ _) | .ok (.vstStr _ _ _ c _ _) | .ok (.vst2d _ _ _ c _ _) | .ok (.vstIdx _ _ _ c _ _)
  | .ok (.vstMx _ _ c _ _) | .ok (.vstShape _ _ _ c _ _) => .access c
  | .ok (.sclLd ..) | .ok (.sclSt ..) => .access 15
  | .ok (.strmFree _) | .ok (.strmBind ..) | .ok (.strmBindOut ..) => .barrier
  | _ => .none

/-- Is an entry's word a presence event, which a fence counts as an access (R276)? -/
def presenceWord (w : InstrWord) : Bool :=
  match decodeWord w with
  | .ok (.matFeedEnd ..) | .ok (.matDrain ..) | .ok (.matDrainEnd _) => true
  | _ => false

end Sys2Proof.Machine
end

