-- ==== Sys2Proof/Machine/Operands.lean ====
section
/-! DEFINITION. Operands of vector instructions: elements and masks of registers, the second operand, streams,
the kinds of elements, flag routing, and the two halves of a vector instruction (R148 to R151, R204, R247). -/
namespace Sys2Proof.Machine

/-! ## Elements of registers -/

/-- Lanes of a grant. -/
def lanesOf (grant : BitVec 8) : Nat := 8 * ((List.range 8).filter fun j => grant.getLsbD j).length

/-- Lanes that a context owns (R152). -/
def Vec.lanes (v : Vec) : Nat := lanesOf v.grant

/-- The lane number at an owned position (R152). -/
def laneNumber (grant : BitVec 8) (p : Nat) : Nat :=
  8 * (((List.range 8).filter fun j => grant.getLsbD j).getD (p / 8) 0) + p % 8

/-- Elements of width w that one register holds on `lanes` lanes (R152). -/
def perReg (lanes w : Nat) : Nat := 64 * lanes / w

/-- Where element i of the group at `base` stands: register, owned lane position, bit within the register. -/
def place (lanes w : Nat) (base : VReg) (i : Nat) : Nat × Nat × Nat :=
  let n := perReg lanes w
  let j := i % n
  (base.toNat + i / n, j % lanes, 64 * (j % lanes) + w * (j / lanes))

/-- The code of element i, of width w, of the group at `base` (R152). -/
def Vec.elem (v : Vec) (lanes w : Nat) (base : VReg) (i : Nat) : Nat :=
  let p := place lanes w base i
  ((v.v.getD p.1 0).extractLsb' p.2.2 w).toNat

/-- A register image with w bits at a place replaced. -/
def putBits (x : BitVec 4096) (at_ w : Nat) (c : Nat) : BitVec 4096 :=
  (x &&& ~~~(BitVec.ofNat 4096 (2 ^ w - 1) <<< at_)) ||| (BitVec.ofNat 4096 (c % 2 ^ w) <<< at_)

/-- Is a mark of R379 one of element i of a group? A mark names a register, an owned lane position and one byte of the
64 bits that the lane holds of the register. -/
def inElem (lanes w : Nat) (base : VReg) (i : Nat) (q : Nat × Nat × Nat) : Bool :=
  let p := place lanes w base i
  q.1 = p.1 && q.2.1 = p.2.1 && (8 * q.2.2) / w = i % perReg lanes w / lanes

/-- The reported entries that still hold a mark: an error in an entry that has been rewritten is a new one (R379, R382). -/
def stillTold (told : List (Nat × Nat)) (bad : List (Nat × Nat × Nat)) : List (Nat × Nat) :=
  told.filter fun q => bad.any fun b => b.1 = q.1 && b.2.1 = q.2

/-- Writes element i of a group; the unreadable mark of the element goes (R379). -/
def Vec.setElem (v : Vec) (lanes w : Nat) (base : VReg) (i c : Nat) : Vec :=
  let p := place lanes w base i
  let bad := if v.bad.isEmpty then v.bad else v.bad.filter fun q => !inElem lanes w base i q
  { v with
    v := v.v.setIfInBounds p.1 (putBits (v.v.getD p.1 0) p.2.2 w c)
    bad := bad
    told := if v.told.isEmpty then v.told else stillTold v.told bad }

/-- Is element i of a group marked unreadable (R379)? -/
def Vec.elemBad (v : Vec) (lanes w : Nat) (base : VReg) (i : Nat) : Bool := v.bad.any (inElem lanes w base i)

/-- Bit i of m(n); m0 reads all ones (R80). -/
def Vec.maskBit (v : Vec) (n : MReg) (i : Nat) : Bool := n = 0 || (v.m.getD n.toNat 0).getLsbD i

/-- Writes bit i of m(n); m0 is never written (R80). -/
def Vec.setMaskBit (v : Vec) (n : MReg) (i : Nat) (b : Bool) : Vec :=
  if n = 0 then v else { v with m := v.m.setIfInBounds n.toNat (putBits (v.m.getD n.toNat 0) i 1 (if b then 1 else 0)) }

/-- The tag of the group at a register (R79). -/
def Vec.tagOf (v : Vec) (r : VReg) : Tag := v.tag.getD r.toNat .int32

/-- Sets the tags of n registers from a base (R79). -/
def Vec.setTags (v : Vec) (r : VReg) (n : Nat) (t : Tag) : Vec :=
  { v with tag := (List.range n).foldl (fun ts j => ts.setIfInBounds (r.toNat + j) t) v.tag }

/-- The scale code of element i (R85). -/
def Vec.scale (v : Vec) (vt : VType) (i : Nat) : Byte := v.e.getD ((i / 2 ^ vt.bl + v.scalebase.toNat) % 256) 0

/-! ## The frame of a running vector instruction -/

/-- What a running vector instruction works with: its entry, VTYPE, vl, first index, the end of this move (R251),
lanes, VLMAX, and the vector side as it stood before the move (R149). -/
structure VRun where
  e : Entry
  vt : VType
  vl : Nat
  start : Nat
  hi : Nat
  lanes : Nat
  vlmax : Nat
  v : Vec

/-- The frame of an entry that moves up to element `hi`; the classes that ignore VSTART start at 0 (R171, R197). -/
def VRun.of (v : Vec) (e : Entry) (whole : Bool) (hi : Nat) : VRun :=
  { e := e, vt := e.vtype, vl := e.vl.toNat, start := if whole then 0 else e.pix.toNat, hi := if whole then e.vl.toNat else min hi e.vl.toNat,
    lanes := v.lanes, vlmax := vlmaxOf v.lanes e.vtype, v := v }

/-- The element up to which the acting vector side moves an entry. -/
def State.moveEnd (s : State) (e : Entry) : Nat :=
  match s.actor with
  | .vector _ _ hi => hi
  | _ => e.vl.toNat

/-- The frame of the entry that a context moves. -/
def State.vrun (s : State) (k : Nat) (e : Entry) (whole : Bool) : VRun := VRun.of (s.vec k) e whole (s.moveEnd e)

/-- Does the move reach the end of the instruction? -/
def VRun.ends (r : VRun) : Bool := decide (r.vl ≤ r.hi)

/-- The elements of an element group: 64 bits in every owned lane (R178). -/
def VRun.groupLen (r : VRun) : Nat := perReg r.lanes r.vt.sew

/-- The last boundary of an element group at or below an index. -/
def VRun.boundary (r : VRun) (n : Nat) : Nat := n / r.groupLen * r.groupLen

/-- Is element i active under mask m (R148)? -/
def VRun.active (r : VRun) (m : MReg) (i : Nat) : Bool := decide (r.start ≤ i) && decide (i < r.vl) && r.v.maskBit m i

/-- The active indices below a bound, ascending. -/
def VRun.actives (r : VRun) (m : MReg) (hi : Nat) : List Nat := (List.range hi).filter (r.active m)

/-- Element i of a group as it stood before the instruction (R149). -/
def VRun.elem (r : VRun) (w : Nat) (base : VReg) (i : Nat) : Nat := r.v.elem r.lanes w base i

/-- A register group that an instruction writes: base, element width, the tag of the result (none: kept), and the
result of each active element (none: left unchanged). -/
structure VDst where
  base : VReg
  w : Nat
  tag : Option Tag
  res : Nat → Option Nat

/-- The bits of an element's code: a small float of less than 8 bits leaves the upper bits of its byte clear at every
write (R37). -/
def codeBits (t : Tag) (w : Nat) : Nat :=
  match t with
  | .e3m2 | .e2m3 => 6
  | .e2m1 => 4
  | _ => w

/-- Writes the elements below `hi` of a destination by their kinds, and the tail when the instruction completes
(R37, R148, R149). An instruction with VSTART below vl sets the tag even when it writes no element, and a `vld.shape` that
stops on a fault sets it at the stop (DESIGN CHOICE: R149 and R195 speak of the elements written; log 63). -/
def VRun.put (r : VRun) (m : MReg) (hi : Nat) (fin : Bool) (d : VDst) (v : Vec) : Vec :=
  let cap := 2 ^ codeBits (d.tag.getD (r.v.tagOf d.base)) d.w
  let ones := cap - 1
  let write (v : Vec) (i : Nat) : Vec :=
    if i < r.start then v
    else if r.vl ≤ i then (if fin && r.vt.ta then v.setElem r.lanes d.w d.base i ones else v)
    else if hi ≤ i then v
    else if r.v.maskBit m i then (match d.res i with | some c => v.setElem r.lanes d.w d.base i (c % cap) | none => v)
    else if r.vt.ma then v.setElem r.lanes d.w d.base i ones else v
  let v := (List.range r.vlmax).foldl write v
  match d.tag with
  | some t => v.setTags d.base (r.vt.lmul * d.w / r.vt.sew) t
  | none => v

/-- Writes a mask destination by the kinds of its bits (R148). -/
def VRun.putMask (r : VRun) (m : MReg) (hi : Nat) (fin : Bool) (d : MReg) (res : Nat → Bool) (v : Vec) : Vec :=
  let write (v : Vec) (i : Nat) : Vec :=
    if i < r.start then v
    else if r.vl ≤ i then (if fin && r.vt.ta then v.setMaskBit d i true else v)
    else if hi ≤ i then v
    else if r.v.maskBit m i then v.setMaskBit d i (res i)
    else if r.vt.ma then v.setMaskBit d i true else v
  (List.range r.vlmax).foldl write v

/-! ## Streams as operands -/

/-- TAG of a bound stream (R192). -/
def Stream.tag? (t : Stream) : Option Tag := Tag.ofCode (t.word1.extractLsb' 2 5).toNat
/-- CLS of a bound stream (R192). -/
def Stream.cls (t : Stream) : Cls := t.word1.extractLsb' 8 4
/-- BOUNDS of a bound stream (R192). -/
def Stream.bounds (t : Stream) : Bool := t.word1.getLsbD 12

/-- The stream of s(j). -/
def Vec.stream (v : Vec) (j : SReg) : Option Stream := v.s.getD j.toNat none
/-- Replaces the stream of s(j). -/
def Vec.setStream (v : Vec) (j : SReg) (t : Option Stream) : Vec := { v with s := v.s.setIfInBounds j.toNat t }

/-- The buffered entry at a position. -/
def Stream.entryAt (t : Stream) (n : Nat) : Option StreamEntry := t.buf.find? fun e => e.n = n

/-- The position that element i takes (R204). -/
def VRun.pos (r : VRun) (t : Stream) (i : Nat) : Nat := t.idx.toNat + (i - r.start)

/-- The first element of the move whose entry has not arrived (R204). -/
def VRun.missing (r : VRun) (t : Stream) : Option Nat :=
  (List.range r.hi).find? fun i => decide (r.start ≤ i) && (t.entryAt (r.pos t i)).isNone

/-- Consumes n entries (R204); a fault held at a later entry stays (R208). -/
def Stream.consume (t : Stream) (n : Nat) : Stream :=
  { t with
    idx := t.idx + BitVec.ofNat 64 n
    buf := t.buf.filter fun e => decide (t.idx.toNat + n ≤ e.n)
    fault := match t.fault with
      | some f => if f.n < t.idx.toNat + n then none else some f
      | none => none }

/-- Consumes the entries below a held fault and delivers the fault; the stream fetches again after `sys.eret` (R208). -/
def Stream.deliverFault (t : Stream) (n : Nat) : Stream := { t.consume n with told := true }

/-! ## The second operand (R150) -/

/-- A second operand: its tag, the code of element i, the register group it reads, and its stream. -/
structure Src where
  tag : Tag
  get : Nat → Nat
  regs : List (VReg × Nat)
  strm : Option SReg

/-- The second operand of a V3 instruction whose paired vector operand carries `ta` (R30, R150). -/
def VRun.src (r : VRun) (ta : Tag) : VSrc → Src
  | .vv b | .wide b | .narrow b => ⟨r.v.tagOf b, r.elem r.vt.sew b, [(b, r.vt.sew)], none⟩
  | .vx _ => ⟨ta, fun _ => (r.e.ops.getD 0 0).toNat % 2 ^ r.vt.sew, [], none⟩
  | .vi imm => ⟨Tag.intOf r.vt.sew, fun _ => wrapN r.vt.sew imm.toInt, [], none⟩
  | .vs j =>
    match r.v.stream j with
    | some t =>
      ⟨t.tag?.getD ta, fun i => ((t.entryAt (r.pos t i)).map (·.bits)).getD 0, [], some j⟩
    | none => ⟨ta, fun _ => 0, [], some j⟩

/-- The x register that a second operand captures (R247). -/
def srcRegs : VSrc → List XReg
  | .vx b => [b]
  | _ => []

/-! ## The front half -/

/-- The scalar front enters a vector instruction into the VIQ: it waits for pending registers and for room,
captures the values of `regs`, and makes `dest` pending (R246, R247). -/
def enterVector (i : Instr) (regs : List XReg) (dest : Option XReg) (s : State) (a : Nat) : Out :=
  scalarRead s a regs dest.toList fun f =>
    if (s.vec a).room < 1 + (regs.length + 1) / 2 then .next s
    else
      let s := s.enterViq a ((Sys2Proof.encode i).getD 0) (regs.map f.xr) 0 0
      let s := match dest with | some d => s.setFront a ((s.front a).setPend d) | none => s
      .next (s.issue a (f.pc + 4))

/-- The two halves of a vector instruction: at the front it enters the VIQ; on the vector side `run` is its effect
(R246, R248). -/
def vectorInstr (i : Instr) (regs : List XReg) (dest : Option XReg) (s : State) (run : Nat → Entry → Out) : Out :=
  match s.actor with
  | .front a _ => if isDrone a then .fault .notAnEvent else enterVector i regs dest s a
  | .vector k j _ =>
    match (s.vec k).infl[j]? with
    | some e => if e.done then .fault .notAnEvent else run k e
    | none => .fault .notAnEvent
  | _ => .fault .notAnEvent

/-! ## The vector half -/

/-- Replaces the entry in flight that has an entry's place in program order. -/
def Vec.setEntry (v : Vec) (e : Entry) : Vec := { v with infl := v.infl.map fun x => if x.po = e.po then e else x }

/-- The flags of the completed instructions that no FPX trap can unwind any more reach FLAGS (R45, R253). -/
def Vec.settle (v : Vec) : Vec :=
  let n := (v.infl.takeWhile (·.done)).length
  { v with
    flags := (v.infl.take n).foldl (fun f e => f ||| e.flags) v.flags
    infl := (v.infl.take n).map (fun e => { e with flags := 0 }) ++ v.infl.drop n }

/-- An entry has completed: VSTART := 0 (R85, R148). -/
def Vec.complete (v : Vec) (e : Entry) : Vec := { v.setEntry { e with done := true, started := true } with vstart := 0 }.settle

/-- An entry has been processed up to an element (R257). -/
def Vec.progress (v : Vec) (e : Entry) (hi : Nat) : Vec := v.setEntry { e with pix := BitVec.ofNat 13 hi, started := true }

/-- Is an entry the oldest of its context that has not completed? A trap of any other waits until it is (R135). -/
def Vec.oldest (v : Vec) (e : Entry) : Bool :=
  match v.open_ with
  | x :: _ => x.po = e.po
  | [] => false

/-- May the vector trap of an entry be taken: the entry is the oldest that has not completed, and every store element
below it has performed, here or on another device (R135, R185, R257)? -/
def State.mayTrap (s : State) (k : Nat) (e : Entry) : Bool := (s.vec k).oldest e && s.elementsDone k

/-- A vector instruction traps, after what `prep` still changes, or waits until it may. -/
def State.stopVec (s : State) (k : Nat) (e : Entry) (resumeAt : Nat) (t : Trap) (prep : State → State := id) : Out :=
  if s.mayTrap k e then .next ((prep s).vectorTrap k e resumeAt t) else .next s

/-- A stop part way: the element that could not be processed and the trap (R185), with the failing access of memory. -/
structure Stop where
  i : Nat
  trap : Trap
  look : Option Touch := none
  deriving DecidableEq, Repr

/-- The earlier of two stops. -/
def Stop.first (a b : Option Stop) : Option Stop :=
  match a, b with
  | some x, some y => if y.i < x.i then some y else some x
  | some x, none => some x
  | none, b => b

/-- The lowest active element whose read of a source group meets an unreadable entry (R377, R379). -/
def VRun.uecc (r : VRun) (m : MReg) (regs : List (VReg × Nat)) : Option Stop :=
  if r.v.bad.isEmpty then none
  else
    let bad (i : Nat) : Option (Nat × Nat) :=
      ((regs.filter fun q => r.v.elemBad r.lanes q.2 q.1 i).head?).map fun q =>
        let p := place r.lanes q.2 q.1 i
        (p.1, p.2.1)
    ((r.actives m r.hi).filterMap fun i => (bad i).map fun p =>
      (⟨i, { code := 10, elem := i, lane := laneNumber r.v.grant p.2, reg := some p }, none⟩ : Stop)).head?

/-- What reading a stream operand meets: entries for the move up to an element, a stall, or the held fault of an entry
(R204, R208). -/
inductive StreamRead where
  | upTo (hi : Nat) | stall | stop (x : Stop)
  deriving DecidableEq, Repr

/-- The trap of a stream fault at an element of a destination of width w (R185, R208). -/
def VRun.streamTrap (r : VRun) (w : Nat) (d : VReg) (i : Nat) (f : StreamFault) : Stop :=
  ⟨i, { code := f.code, elem := i, tval := f.va,
        lane := if f.code = 10 then laneNumber r.v.grant (place r.lanes w d i).2.1 else 0 }, none⟩

/-- The entries of a stream operand of a move that writes the group at d of width w: whole element groups, or the
elements below a held fault (R204, R208, R256). -/
def VRun.streamRead (r : VRun) (w : Nat) (d : VReg) : Option SReg → StreamRead
  | none => .upTo r.hi
  | some j =>
    match r.v.stream j with
    | none => .stall
    | some t =>
      match r.missing t with
      | none => .upTo r.hi
      | some i =>
        let stalled : StreamRead := if r.start < r.boundary i then .upTo (r.boundary i) else .stall
        match t.fault with
        | some f => if f.n = r.pos t i then .stop (r.streamTrap w d i f) else stalled
        | none => stalled

/-- The union of the flags of the active elements below a bound. -/
def VRun.allFlags (r : VRun) (m : MReg) (hi : Nat) (fl : Nat → Flags) : Flags :=
  (r.actives m hi).foldl (fun f i => f ||| fl i) 0

/-- Routes flags to FLAGS and to m(XM) (R45). While FTRAP traps on some flag, FLAGS takes them with the completion
(R253). -/
def VRun.route (r : VRun) (m : MReg) (hi : Nat) (fl : Nat → Flags) (v : Vec) : Vec :=
  let v := { v with flags := if v.ftrap = 0 then v.flags ||| r.allFlags m hi fl else v.flags }
  (r.actives m hi).foldl
    (fun v i => if Flags.routed r.vt (fl i) then v.setMaskBit (BitVec.ofNat 3 r.vt.xm) i true else v) v

/-- What a move of an element-wise instruction leaves when no trap ends it: the results and flags of the elements below
`hi`, and its stream advanced (R204). With FTRAP clear the flags reach FLAGS at once, and otherwise with the
completion (R45, R253). -/
def VRun.moved (r : VRun) (m : MReg) (hi : Nat) (fin : Bool) (strm : Option SReg) (delivered : Bool)
    (write : Nat → Bool → Vec → Vec) (fl : Nat → Flags) (v : Vec) : Vec :=
  let v := r.route m hi fl (write hi fin v)
  match strm with
  | some j => v.setStream j ((v.stream j).map fun (t : Stream) =>
      if delivered then t.deliverFault (hi - r.start) else t.consume (hi - r.start))
  | none => v

/-- Ends a move of an element-wise instruction: `write hi fin` writes the results of the elements below `hi`, and `prep` is
what else the move does (its memory accesses). An instruction whose flags FTRAP traps on leaves nothing of any of its moves
(R45, R151, R253); a stop keeps the elements below it and traps (R185, R254), once its store elements have performed; the
last move completes it, and any other records its index (R257). `delivered` says that the stop is the fault of the
stream. -/
def vecFinish (s : State) (k : Nat) (r : VRun) (m : MReg) (stop : Option Stop) (strm : Option SReg) (delivered : Bool)
    (write : Nat → Bool → Vec → Vec) (fl : Nat → Flags) (prep : State → State := id) : Out :=
  if r.vl ≤ r.start then .next (s.setVec k ((s.vec k).complete r.e))
  else
    let hi := (stop.map (·.i)).getD r.hi
    let fin := stop.isNone && r.ends
    let raised := r.e.flags ||| r.allFlags m hi fl
    let first := match r.e.fpx with
      | some i => some i
      | none => (r.actives m hi).find? fun i => Flags.traps r.v.ftrap (fl i)
    let gens : List (BitVec 2) := match (strm.bind r.v.stream : Option Stream) with
      | some t => (t.buf.filter fun e => decide (e.n < r.pos t hi)).map (·.gen)
      | none => []
    let t := gens.foldl (fun s g => s.adopt k g) (prep s)
    let e := { r.e with flags := raised, fpx := first }
    let v (e : Entry) : Vec := r.moved m hi fin strm delivered write fl ((t.vec k).setEntry e)
    let go := t.setVec k (v { e with pix := BitVec.ofNat 13 hi, started := true })
    if fin || stop.isSome then
      match first with
      | some i =>
        if s.mayTrap k r.e then
          .next (s.fpxTrap k r.e { code := 5, elem := i, tval := BitVec.zeroExtend 64 (raised &&& r.v.ftrap) })
        else .next s
      | none =>
        match stop with
        | some x =>
          if !s.mayTrap k r.e then .next s
          else if t.mayTrap k r.e then .next (((x.look.elim t t.note).setVec k (v e)).vectorTrap k e x.i x.trap)
          else .next go
        | none => .next (t.setVec k ((v e).complete e))
    else .next go

/-- The result of one element: the code written, or none to leave it, and its flags. -/
abbrev EltFn := Nat → Option Nat × Flags

/-- Runs an element-wise move with the entries that its stream has: it goes as far as whole element groups have arrived,
stalls, or stops at a held fault (R204, R208, R256). While FTRAP traps on some flag it consumes its entries in one move, so that
an FPX trap finds none of them consumed (R45, R253). -/
def withStream (s : State) (k : Nat) (r : VRun) (m : MReg) (d : VReg) (w : Nat) (regs : List (VReg × Nat)) (strm : Option SReg)
    (write : Nat → Bool → Vec → Vec) (fl : Nat → Flags) : Out :=
  if r.vl ≤ r.start then .next (s.setVec k ((s.vec k).complete r.e))
  else
    match r.streamRead w d strm with
    | .stall => .next s
    | .upTo hi =>
      if r.v.ftrap ≠ 0 && decide (hi < r.hi) then .next s
      else
        let r := { r with hi := hi }
        vecFinish s k r m (r.uecc m regs) strm false write fl
    | .stop x =>
      match r.uecc m regs with
      | some y => if y.i < x.i then vecFinish s k r m (some y) strm false write fl else vecFinish s k r m (some x) strm true write fl
      | none => vecFinish s k r m (some x) strm true write fl

/-- An element-wise instruction with one destination group: `regs` are the groups read, `strm` the stream, `f` the
result of each active element (R148 to R151). -/
def elementwise (s : State) (k : Nat) (r : VRun) (m : MReg) (d : VReg) (w : Nat) (t : Option Tag)
    (regs : List (VReg × Nat)) (strm : Option SReg) (f : EltFn) : Out :=
  withStream s k r m d w regs strm (fun hi fin => r.put m hi fin ⟨d, w, t, fun i => (f i).1⟩) fun i => (f i).2

/-- An element-wise instruction with a mask destination (R162, R165); a fault of its stream names the lane of the
element in the group at a (R185). -/
def elementwiseMask (s : State) (k : Nat) (r : VRun) (m : MReg) (d : MReg) (a : VReg)
    (regs : List (VReg × Nat)) (strm : Option SReg) (f : Nat → Bool × Flags) : Out :=
  withStream s k r m a r.vt.sew regs strm (fun hi fin => r.putMask m hi fin d fun i => (f i).1) fun i => (f i).2

end Sys2Proof.Machine
end

