-- ==== Sys2Proof/Machine/Order.lean ====
section
/-! DEFINITION. Which accesses of an agent order which (R122, R275, R276, R282), and the addresses that the elements of a
vector access still have to touch (R180 to R182, R192 to R196). -/
namespace Sys2Proof.Machine

/-! ## Scalar accesses -/

/-- The size of an access. -/
def AccessKind.size : AccessKind → Nat
  | .load n _ _ => n
  | .store n _ => n
  | .amo op _ _ _ => if op.getLsbD 4 then 4 else 8
  | .segment bytes => bytes.length

/-- The bytes that an access covers. -/
def Access.spots (x : Access) : List (Nat × Nat) :=
  match x.kind with
  | .segment bytes => bytes.map fun b => (b.pa, 1)
  | k => [(x.pa, k.size)]

/-- An `amo` of scope domain. -/
def Access.domainAmo (x : Access) : Bool :=
  match x.kind with
  | .amo .. => x.scope = 3
  | _ => false

/-- The same class, or class 15 on either side (R122). -/
def clsRelated (a b : Cls) : Bool := a = b || a = 15 || b = 15

/-- Do two byte ranges meet? -/
def overlap (a n b m : Nat) : Bool := decide (a < b + m) && decide (b < a + n)

/-- Do two lists of byte ranges meet? -/
def spotsMeet (l r : List (Nat × Nat)) : Bool := l.any fun u => r.any fun v => overlap u.1 u.2 v.1 v.2

/-- Must the older access of an agent perform before the younger one (R122, R275, R276)? -/
def Access.before (x y : Access) : Bool :=
  spotsMeet x.spots y.spots ||
    (clsRelated x.cls y.cls && ((!isDomain x.pa && !isDomain y.pa) || x.domainAmo || y.domainAmo))

/-- May one of some bytes belong to a STATE or notify word of a slot whose fulling has not ended, so that a read of it may yet
return DONE (R364, R374)? -/
def State.awaitsDone (s : State) (spots : List (Nat × Nat)) : Bool :=
  s.occupied.any fun k => !k.fulled && ([k.descVa + 48, k.notify].any fun va =>
    match s.check deviceAgent true k.aspace k.sup .store va 8 with
    | .ok (pa, _) => spots.any fun q => overlap q.1 q.2 pa 8
    | .error _ => false)

/-- Is an access a load? -/
def Access.isLoad (x : Access) : Bool := match x.kind with | .load .. => true | _ => false

/-- Does a store that an agent has sent to another device, and that is not acknowledged, hold back a younger access of n
bytes: one of the same bytes, or an `amo` of scope domain (R276, R282, R344)? -/
def Request.holds (q : Request) (a po : Nat) (cls : Cls) (domainAmo : Bool) (spots : List (Nat × Nat)) : Bool :=
  match q.waiter with
  | .store ag old c runs =>
    ag = a && decide (old < po) &&
      ((domainAmo && clsRelated c cls) || spotsMeet runs spots)
  | _ => false

/-! ## Shape records (R192 to R194) -/

/-- A valid shape record. `word1` is bits [13:0] of element 1. -/
structure Shape where
  base : W64
  word1 : BitVec 14
  ext : Vector (BitVec 21) 3
  stride : Vector W64 3
  start : Vector (BitVec 21) 3
  tag : Tag
  deriving DecidableEq, Repr

/-- RANK (R192). -/
def Shape.rank (t : Shape) : Nat := (t.word1.extractLsb' 0 2).toNat
/-- MXS (R192). -/
def Shape.mxs (t : Shape) : Bool := t.word1.getLsbD 13
/-- BOUNDS (R192). -/
def Shape.bounds (t : Shape) : Bool := t.word1.getLsbD 12

/-- What reads a record: a load, a store, or the bind of a stream in a direction. -/
inductive ShapeUse where
  | load | store | stream (out : Bool)
  deriving DecidableEq, Repr

/-- Element k of the record in a register (R192); an empty grant holds none, and reads as 0. -/
def Vec.recordWord (v : Vec) (reg : VReg) (k : Nat) : W64 := if v.lanes = 0 then 0 else BitVec.ofNat 64 (v.elem v.lanes 64 reg k)

/-- The size of an MX segment of a tag (R50). -/
def segSize (t : Tag) : Nat := 16 + 128 * codeBits t 8

/-- The used extent, start or stride of a dimension (R192). -/
def usedDim {α : Type} (rank k : Nat) (unused x : α) : α := if rank ≤ k then unused else x

/-- The record of eight words, or the code of the trap that reading it raises: ILLFLD for an invalid one, ILLTYPE for a
reserved TAG (R193, R195, R203). -/
def readShape (use : ShapeUse) (w : Nat → W64) : Except Nat Shape :=
  let e1 := w 1
  let rank := (e1.extractLsb' 0 2).toNat
  let ext (k : Nat) : BitVec 21 := usedDim rank k 1 ((w 2).extractLsb' (21 * k) 21)
  let start (k : Nat) : BitVec 21 := usedDim rank k 0 ((w 6).extractLsb' (21 * k) 21)
  let stride (k : Nat) : W64 := usedDim rank k 0 (w (3 + k))
  let tag := Tag.ofCode (e1.extractLsb' 2 5).toNat
  let mxs := e1.getLsbD 13
  let mxTag := match tag with | some t => t.isMx | none => false
  let mxBad := mxs && (use ≠ .load || rank ≠ 1 || !mxTag ||
    (match tag with | some t => decide ((stride 0).toInt < segSize t) || (stride 0).toNat % 16 ≠ 0 | none => true))
  let dirBad := match use with | .stream out => e1.getLsbD 7 ≠ out | _ => false
  let boxBad := (List.range 3).any fun k => ext k = 0 || decide (ext k ≤ start k)
  let dash := e1.extractLsb' 14 50 ≠ 0 || (w 2).getLsbD 63 || (w 6).getLsbD 63 || w 7 ≠ 0
  if rank = 0 || boxBad || dash || mxBad || dirBad then .error 2
  else
    match tag with
    | none => .error 3
    | some t =>
      .ok { base := w 0, word1 := e1.extractLsb' 0 14, ext := Vector.ofFn fun k => ext k.val,
            stride := Vector.ofFn fun k => stride k.val, start := Vector.ofFn fun k => start k.val, tag := t }

/-- The walk of R194 over a box: the position n, its coordinates folded into a byte offset; none out of range. -/
def walkPos (ext start : Vector (BitVec 21) 3) (bounds : Bool) (n : Nat) : Option Nat :=
  let e (k : Nat) : Nat := (ext.getD k 1).toNat
  let c (k : Nat) : Nat := (start.getD k 0).toNat
  let v := e 0 * e 1 * e 2
  let p := c 0 + e 0 * (c 1 + e 1 * c 2) + n
  if p < v then some p else if bounds then none else some (p % v)

/-- The address of a position of a walk (R194). -/
def walkAddr (base : W64) (ext : Vector (BitVec 21) 3) (stride : Vector W64 3) (x : W64) (p : Nat) : W64 :=
  let e (k : Nat) : Nat := (ext.getD k 1).toNat
  let c0 := p % e 0
  let c1 := p / e 0 % e 1
  let c2 := p / (e 0 * e 1)
  base + x + BitVec.ofNat 64 c0 * stride.getD 0 0 + BitVec.ofNat 64 c1 * stride.getD 1 0 + BitVec.ofNat 64 c2 * stride.getD 2 0

/-- The address of position n of a shape with x(A) added; none out of range (R194). -/
def Shape.addr (t : Shape) (x : W64) (n : Nat) : Option W64 :=
  (walkPos t.ext t.start t.bounds n).map (walkAddr t.base t.ext t.stride x)

/-- Does a register hold an unreadable element of a record (R379)? -/
def Vec.recordBad (v : Vec) (reg : VReg) : Option Nat := (List.range 8).find? fun k => v.elemBad v.lanes 64 reg k

/-- The 64-bit tags that a record register may carry (R192). -/
def recordTagOk (v : Vec) (reg : VReg) : Bool := (v.tagOf reg).cls ≠ .fixed && (v.tagOf reg).width = 64

/-! ## The elements of a vector access -/

/-- The address of element i of a unit-stride, strided or 2-D access with its captured operands (R180, R181). -/
def elemVa (i : Instr) (z : Nat) (ops : List W64) (n : Nat) : Option W64 :=
  let a := ops.getD 0 0
  match i with
  | .vldUnit .. | .vstUnit .. | .vldFf .. => some (a + BitVec.ofNat 64 (n * z))
  | .vldStr .. | .vstStr .. => some (a + BitVec.ofNat 64 n * ops.getD 1 0)
  | .vld2d .. | .vst2d .. =>
    let c := ((ops.getD 2 0).extractLsb' 0 32).toNat
    let t := ((ops.getD 2 0).extractLsb' 32 32).signExtend 64
    some (a + BitVec.ofNat 64 (n / c) * ops.getD 1 0 + BitVec.ofNat 64 (n % c) * t)
  | _ => none

/-- off(i) of an indexed access (R182). -/
def Vec.offsetAt (v : Vec) (vt : VType) (b : VReg) (i : Nat) : W64 :=
  let c := v.elem v.lanes vt.sew b i
  if (v.tagOf b).signed then BitVec.ofInt 64 (sextN vt.sew c) else BitVec.ofNat 64 c

/-- May an instruction older than a place in program order still change registers or masks of a context? -/
def Vec.unsettled (v : Vec) (po : Nat) (spans : List (Nat × Nat)) (masks : List MReg) : Bool :=
  v.open_.any fun x => decide (x.po < po) && (match decodeWord x.word with
    | .ok (.vcfgSetl ..) => !spans.isEmpty || masks.any (· ≠ 0)
    | .ok i => (destGroups i).any (fun q => spans.any (spansMeet (groupSpan x.vtype q))) ||
        (maskDests x.word x.vtype i).any fun m => m ≠ 0 && masks.contains m
    | .error _ => false)

/-- n bytes from an address, in pieces that lie in one page each. -/
def pieces (va : W64) (n piece : Nat) : List (W64 × Nat) := (List.range (n / piece)).map fun j => (va + BitVec.ofNat 64 (piece * j), piece)

/-- What the elements that a vector access has still to process touch, as addresses with sizes (R180 to R182, R194 to R196,
R210); none while an older instruction may still change the registers that they come from. -/
def Vec.spots (v : Vec) (e : Entry) : Option (List (W64 × Nat)) :=
  match decodeWord e.word with
  | .error _ => some []
  | .ok i =>
    let z := e.vtype.sew / 8
    let m := instrMask i
    let ns := (List.range e.vl.toNat).filter fun n => decide (e.pix.toNat ≤ n) && v.maskBit m n
    let a := e.ops.getD 0 0
    let known (spans : List (Nat × Nat)) (l : List (W64 × Nat)) : Option (List (W64 × Nat)) :=
      if v.unsettled e.po spans [m] then none else some l
    match i with
    | .vldIdx _ _ b _ _ _ | .vstIdx _ _ b _ _ _ =>
      known [groupSpan e.vtype (b, .one)] (ns.map fun n => (a + v.offsetAt e.vtype b n, z))
    | .vldShape _ _ b _ _ _ | .vstShape _ _ b _ _ _ =>
      known [(b.toNat, 1)] (match readShape .load (v.recordWord b) with
        | .error _ => []
        | .ok t =>
          if t.mxs then
            ((ns.filterMap fun n => (walkPos t.ext t.start t.bounds n).map fun p => p / 1024).eraseDups).flatMap fun q =>
              pieces (t.base + a + BitVec.ofNat 64 q * t.stride.getD 0 0) (segSize t.tag) 16
          else ns.filterMap fun n => (t.addr a n).map fun va => (va, z))
    | .vstMx d _ _ _ _ =>
      known [groupSpan e.vtype (d, .one)] ((List.range ((e.vl.toNat + 1023) / 1024)).flatMap fun q =>
        if q < e.pix.toNat / 1024 then [] else pieces (a + BitVec.ofNat 64 (q * segSize (v.tagOf d))) (segSize (v.tagOf d)) 16)
    | .sclLd .. | .sclSt .. => some (pieces a (e.ops.getD 1 0).toNat 1)
    | _ => known [] (ns.filterMap fun n => (elemVa i z e.ops n).map fun va => (va, z))

/-- The physical bytes of addresses of a context; one that fails its checks touches none. -/
def State.bytesAt (s : State) (k : Nat) (l : List (W64 × Nat)) : List (Nat × Nat) :=
  l.filterMap fun q => match s.checkOwn k .load q.1 1 with
    | .ok (pa, _) => some (pa, q.2)
    | .error _ => none

/-- Is an output stream bound to s(j) when an entry runs (R207)? -/
def Vec.outputAt (v : Vec) (e : Entry) (j : SReg) : Bool :=
  (v.open_.foldl (fun (b : Bool) x =>
    if e.po ≤ x.po then b
    else match decodeWord x.word with
      | .ok (.strmBindOut d _) => b || d = j
      | .ok (.strmBind d _) | .ok (.strmFree d) => b && d ≠ j
      | _ => b) ((v.stream j).any (·.out)))

/-- Does an entry free an output stream, which orders every later access after it (R203, R207, R276)? -/
def Vec.frees (v : Vec) (e : Entry) : Bool :=
  match decodeWord e.word with
  | .ok (.strmFree j) | .ok (.strmBind j _) | .ok (.strmBindOut j _) => v.outputAt e j
  | _ => false

/-! ## Order between vector and scalar accesses -/

/-- Must a vector access of a class perform before or after a scalar one, as far as the vector side touches the bytes
`spots` (R122, R275, R276)? -/
def Access.meets (x : Access) (c : Cls) (spots : List (Nat × Nat)) : Bool :=
  (clsRelated c x.cls && (x.domainAmo || (!isDomain x.pa && spots.any fun q => !isDomain q.1))) ||
    spotsMeet spots x.spots

/-- Must an older vector instruction perform before a scalar access (R122, R275, R276)? One whose addresses are not settled
does (log 9), and one that may read DONE does before an access of class 15, wherever that performs (R374). -/
def State.vecBefore (s : State) (k : Nat) (e : Entry) (x : Access) : Bool :=
  decide (e.po < x.po) &&
    (match memUse e.word with
     | .none => false
     | .barrier => (s.vec k).frees e
     | .access c =>
       match (s.vec k).spots e with
       | none => true
       | some l => x.meets c (s.bytesAt k l) || (x.cls = 15 && s.awaitsDone (s.bytesAt k l)))

/-- Does an older access of the agent hold an access back? `older` are the pending accesses before it; those of one vector
instruction are unordered but where they meet (R190, R196). -/
def State.accBlocked (s : State) (a : Nat) (older : List Access) (x : Access) : Bool :=
  older.any (fun y => (if y.po = x.po then spotsMeet y.spots x.spots else y.before x) || (x.cls = 15 && y.isLoad && s.awaitsDone y.spots)) ||
    s.requests.any (fun q => q.holds a x.po x.cls x.domainAmo x.spots) ||
    (!isDrone a && !(s.front a).held && (s.vec a).open_.any fun e => s.vecBefore a e x)

/-- Does an older scalar access of the context, or a store that it has sent, hold back a vector access of a class to the
bytes `spots` (R122, R275, R276, R282)? -/
def State.vecHeld (s : State) (k : Nat) (e : Entry) (c : Cls) (spots : List (Nat × Nat)) : Bool :=
  (s.front k).acc.any (fun x => !x.vector && decide (x.po < e.po) &&
      (x.meets c spots || (c = 15 && x.isLoad && s.awaitsDone x.spots))) ||
    (s.front k).acc.any (fun x => x.vector && x.po ≠ e.po && x.meets c spots) ||
    s.requests.any (fun q => q.holds k e.po c false spots)

/-- Must an older vector access perform before a younger one (R122, R275)? -/
def State.vecPair (s : State) (k : Nat) (e : Entry) (c : Cls) (f : Entry) (d : Cls) : Bool :=
  match (s.vec k).spots e, (s.vec k).spots f with
  | some l, some r =>
    let l := s.bytesAt k l
    let r := s.bytesAt k r
    (clsRelated c d && l.any (fun q => !isDomain q.1) && r.any fun q => !isDomain q.1) || spotsMeet l r ||
      (d = 15 && s.awaitsDone l)
  | _, _ => true

/-! ## Forks (R209, R216, R278) -/

/-- Must an access of an agent perform before a thread or stream of a class that the agent forks at a later place in
program order (R276, R278)? -/
def Access.forks (x : Access) (c : Cls) (po : Nat) : Bool :=
  decide (x.po < po) && clsRelated x.cls c && (!isDomain x.pa || x.domainAmo)

/-- Must a vector instruction perform before a thread or stream of a class forked at a later place in program order? -/
def State.vecForks (s : State) (k : Nat) (e : Entry) (c : Cls) (po : Nat) : Bool :=
  decide (e.po < po) &&
    (match memUse e.word with
     | .none => false
     | .barrier => (s.vec k).frees e
     | .access d =>
       clsRelated c d && (match (s.vec k).spots e with
         | none => true
         | some l => (s.bytesAt k l).any fun q => !isDomain q.1))

/-- Does an access of the agent that has not performed hold back a thread or stream of a class, forked at a place in
program order (R209, R216, R278)? Instructions that a vector trap holds are not older (R135). -/
def State.forkHeld (s : State) (a po : Nat) (c : Cls) : Bool :=
  (s.front a).acc.any (fun x => x.forks c po) ||
    (!isDrone a && !(s.front a).held && (s.vec a).open_.any fun e => s.vecForks a e c po)

/-! ## The generations of forked threads (R278, R280, R287) -/

/-- An access of an agent has performed: the threads and streams that it forks, which have waited for it, carry the agent's
generation, or a newer one that they had (R287). -/
def State.forkOn (s : State) (a : Nat) (forks : Cls → Nat → Bool) : State :=
  let g := (s.front a).curgen
  if g = s.oldestGen then s
  else
    let s := { s with threads := s.threads.map fun t =>
      if t.agent = a && !t.started && forks t.cls t.po then { t with gen := s.newest t.gen g } else t }
    if isDrone a then s
    else
      let v := s.vec a
      if v.s.all (·.isNone) then s
      else s.setVec a { v with s := v.s.map fun o => o.map fun t => if forks t.cls t.po then { t with gen := s.newest t.gen g } else t }

/-- A read of an agent has returned generation g: the agent adopts it (R280), and the threads that it forks carry it (R287). -/
def State.adoptAccess (s : State) (a : Nat) (x : Access) (g : BitVec 2) : State := (s.adopt a g).forkOn a x.forks

/-- Vector access e of a context has read generation g. -/
def State.adoptVec (s : State) (k : Nat) (e : Entry) (g : BitVec 2) : State := (s.adopt k g).forkOn k (s.vecForks k e)

end Sys2Proof.Machine
end

