-- ==== Sys2Proof/Machine/LoadStore.lean ====
section
/-! DEFINITION. Scalar loads, stores and atomics, and the events in which they perform (R120 to R126, R138, R285,
R362, R366). -/
namespace Sys2Proof.Machine

/-! ## Performing an access at its home (R120, R124, R138, R285, R362) -/

/-- Has the slot of a slot address been released (R368)? -/
def State.slotGone (s : State) (pa : Nat) : Bool :=
  !isSp pa && slotOf pa ≠ 0 && (s.slots.getD (slotOf pa - 1) none).isNone

/-- What performing an access gives: it is done, it traps, or its write stalls for a reserve batt (R366). -/
inductive Perf where
  | done (s : State) | trap (t : Trap) | stall
  deriving Repr

/-- The value that a load delivers (R120). -/
def loadValue (size : Nat) (sign : Bool) (v : Nat) : W64 :=
  let x : W64 := BitVec.ofNat 64 v
  if size = 1 then (if sign then (x.setWidth 8).signExtend 64 else (x.setWidth 8).setWidth 64)
  else if size = 2 then (if sign then (x.setWidth 16).signExtend 64 else (x.setWidth 16).setWidth 64)
  else if size = 4 then (if sign then (x.setWidth 32).signExtend 64 else (x.setWidth 32).setWidth 64)
  else x

/-- An agent's read moves its monitor to the line and clears the event bit (R138). -/
def State.moveMonitor (s : State) (a pa : Nat) : State :=
  s.setFront a { s.front a with monLine := lineOf pa, monEvent := false }

/-- The new value at the location of an `amo`, by the low bits of AOP, on values of one width; none when a `cas`
finds the value unequal (R124). -/
def amoResult {w : Nat} (op : Nat) (old v expect : BitVec w) : Option (BitVec w) :=
  match op with
  | 0 => some v
  | 1 => some (old + v)
  | 2 => some (old &&& v)
  | 3 => some (old ||| v)
  | 4 => some (old ^^^ v)
  | 5 => some (if old.slt v then old else v)
  | 6 => some (if old.slt v then v else old)
  | 7 => some (if old.ult v then old else v)
  | 8 => some (if old.ult v then v else old)
  | _ => if old = expect then some v else none

/-- The new code at a location of an `amo` of 4 or 8 bytes (R124). -/
def amoNew (op : BitVec 5) (old : Nat) (v expect : W64) : Option Nat :=
  let f := (op.extractLsb' 0 4).toNat
  if op.getLsbD 4 then
    (amoResult f (BitVec.ofNat 32 old) (v.setWidth 32) (expect.setWidth 32)).map (·.toNat)
  else (amoResult f (BitVec.ofNat 64 old) v expect).map (·.toNat)

/-- The newest generation whose write has reached the line of a location, or the given one (R358, R369). A read-modify-write
of this generation is no late write. -/
def State.lineGen (s : State) (pa : Nat) (g : BitVec 2) : BitVec 2 :=
  if isSp pa then g
  else (List.range 4).foldl (fun h t =>
    if (Store.get 0 s.marks (dataOf pa / 64)).getLsbD t then s.newest h (BitVec.ofNat 2 t) else h) g

/-- An access of an agent performs on its own device: a load, a store or segment with the generation that the agent has now
(R280), or an `amo` with the newest of that, of the data's and of the line's (R369). The slot of a load may have been released
since it was issued (R368). A write of a vector instruction has passed its checks with its element (log 62). -/
def State.perform (s : State) (a : Nat) (x : Access) : Perf :=
  let n := x.kind.size
  let own := (s.front a).curgen
  let write : Bool := match x.kind with | .load .. => false | _ => true
  if isSp x.pa && !x.vector && s.fenced a x.pa then .trap { code := 11, write := write, tval := x.va }
  else
    match x.kind with
    | .load _ sign d =>
      if s.slotGone x.pa then .trap { code := 7, tval := x.va }
      else if s.uecc x.pa n then .trap { code := 10, tval := x.va }
      else
        let v := loadValue n sign (s.readLE x.pa n)
        let s := ((s.adoptAccess a x (s.genRange x.pa n)).moveMonitor a x.pa)
        .done ((s.setFront a ((s.front a).deliver d v)).noteFront a x.va x.pa n false)
    | .store _ v =>
      match s.write (some a) own x.pa (bytesLE n v.toNat) with
      | some s => .done ((s.forkOn a x.forks).noteFront a x.va x.pa n true)
      | none => .stall
    | .segment bytes =>
      match s.writePatches (some a) own bytes with
      | some s => .done (s.forkOn a x.forks)
      | none => .stall
    | .amo op d v expect =>
      if s.uecc x.pa n then .trap { code := 10, write := true, tval := x.va }
      else
        let old := s.readLE x.pa n
        let g := s.newest own (s.genRange x.pa n)
        let give (s : State) : State := (s.setFront a ((s.front a).deliver d (loadValue n true old))).noteFront a x.va x.pa n true
        match amoNew op old v expect with
        | none => .done (give ((s.adoptAccess a x g).moveMonitor a x.pa))
        | some new =>
          let g := s.lineGen x.pa g
          match ((s.adoptAccess a x g).moveMonitor a x.pa).write (some a) g x.pa (bytesLE n new) with
          | some s => .done (give s)
          | none => .stall

/-! ## Issue -/

/-- The register that an access delivers to. -/
def AccessKind.dest : AccessKind → Option XReg
  | .load _ _ d => some d
  | .store .. | .segment _ => none
  | .amo _ d _ _ => some d

/-- An access that issues and does not perform yet: it joins the pending accesses, and its register waits on the
scoreboard (R123). A store has completed for INSTRET; the others complete when they perform. -/
def State.pushAccess (s : State) (a : Nat) (x : Access) : State :=
  let f := s.front a
  let f := { f with acc := f.acc ++ [x] }
  match x.kind.dest with
  | some d => (s.setFront a (f.setPend d)).issue a (f.pc + 4)
  | none => (s.setFront a f).retire a (f.pc + 4)

/-- The trap of an access of n bytes that is issuing, whose address has been looked up (R329). -/
def State.accessTrap (s : State) (a : Nat) (va : W64) (n : Nat) (t : Trap) : Out :=
  if s.vecBusy a then .next s
  else .next ((s.noteFault a false (s.front a).aspace va n t.code).takeTrap a false (s.front a).pc t)

/-- A scalar access issues at virtual address `va` (R120, R121, R123, R125): it traps by the first check that fails,
performs at once when nothing holds it back, or waits among the pending accesses (R122). -/
def issueAccess (s : State) (a : Nat) (defer : Bool) (va : W64) (kind : AccessKind) (cls : Cls) (scope : BitVec 2) : Out :=
  let acc : Acc := match kind with | .load .. => .load | _ => .store
  match s.checkOwn a acc va kind.size with
  | .error c => s.accessTrap a va kind.size { code := c, write := decide (acc = .store), tval := va }
  | .ok (pa, _) =>
    let f := s.front a
    let x : Access := ⟨kind, f.po, f.pc, va, pa, cls, scope, none, false⟩
    if defer || isDomain pa || s.accBlocked a f.acc x then .next (s.pushAccess a x)
    else
      match s.perform a x with
      | .done s => .next (s.retire a (f.pc + 4))
      | .trap t => s.accessTrap a va kind.size t
      | .stall => .next (s.pushAccess a x)

/-- A `ld` (R120): `size` bytes, sign- or zero-extended. -/
def load (size : Nat) (sign : Bool) (d a : XReg) (cls : Cls) (off : BitVec 10) (s : State) : Out :=
  onFront s fun ag defer => scalarRead s ag [a] [d] fun f =>
    issueAccess s ag defer (f.xr a + off.signExtend 64 * BitVec.ofNat 64 size) (.load size sign d) cls 0

/-- A `st` (R120): the low `size` bytes of x(S). -/
def store (size : Nat) (d a : XReg) (cls : Cls) (off : BitVec 10) (s : State) : Out :=
  onFront s fun ag defer => scalarRead s ag [a, d] [] fun f =>
    issueAccess s ag defer (f.xr a + off.signExtend 64 * BitVec.ofNat 64 size) (.store size (f.xr d)) cls 0

/-- An `amo` with operation code `op` (R124, R125); a `cas` expects the value of x(D). -/
def amo (op : BitVec 5) (d a b : XReg) (cls : Cls) (sc : BitVec 2) (s : State) : Out :=
  let isCas : Bool := op.extractLsb' 0 4 = 9
  onFront s fun ag defer => scalarRead s ag (if isCas then [a, b, d] else [a, b]) [d] fun f =>
    issueAccess s ag defer (f.xr a) (.amo op d (f.xr b) (f.xr d)) cls sc

/-! ## Events -/

/-- A pending access traps late: it is dropped, its register keeps its value, and the trap names its instruction
once older vector instructions have completed (R135; log 19). -/
def State.lateTrap (s : State) (a i : Nat) (x : Access) (t : Trap) : Out :=
  if s.vecBusy a then .next s
  else
    let f := s.front a
    let pend := match x.kind.dest with | some d => f.pend &&& ~~~(1#32 <<< d.toNat) | none => f.pend
    .next (((s.setFront a { f with acc := f.acc.eraseIdx i, pend := pend }).noteFault a false f.aspace x.va x.kind.size t.code).takeTrap a
      false x.pc t)

/-- The packet that carries an access to another device (R344). -/
def Access.packet (x : Access) : NgOut :=
  match x.kind with
  | .load n _ _ => .read x.pa n
  | .store n v => .write x.pa (bytesLE n v.toNat)
  | .amo op _ v expect => .amo x.pa op v expect
  | .segment bytes => .writeSeg bytes

/-- Pending access i of an agent performs, or leaves for the device that owns its location; a store that has left
waits no more in the agent (R342, R344). -/
def performPending (s : State) (a i : Nat) (wantLoad : Bool) : Out :=
  let f := s.front a
  match f.acc[i]? with
  | none => .next s
  | some x =>
    if x.isLoad ≠ wantLoad || s.accBlocked a (f.acc.take i) x then .next s
    else if isDomain x.pa then
      if x.sent.isSome then .next s
      else
        match x.kind with
        | .store .. =>
          .next (((s.setFront a { f with acc := f.acc.eraseIdx i }).noteLookup a x.va).send (deviceOf x.pa) x.packet
            (.store a x.po x.cls [(x.pa, x.kind.size)]))
        | _ =>
          .next (((s.setFront a { f with acc := f.acc.set i { x with sent := some s.rseq } }).noteLookup a x.va).send (deviceOf x.pa)
            x.packet (.access a))
    else
      match s.perform a x with
      | .stall => .next s
      | .trap t => s.lateTrap a i x t
      | .done s =>
        let f := s.front a
        .next (s.setFront a
          { f with acc := f.acc.eraseIdx i, instret := if x.kind.dest.isSome then f.instret + 1 else f.instret })

/-- MEM_READ_PERFORM: pending load i of an agent performs (R285). -/
def execMemReadPerform (ag i : Nat) (s : State) : Out := performPending s ag i true

/-- MEM_WRITE_PERFORM: pending store or `amo` i of an agent performs (R362). -/
def execMemWritePerform (ag i : Nat) (s : State) : Out := performPending s ag i false

/-- COW_STALL_RESUME: a write that stalled for a reserve batt proceeds when one is free; it stalls on otherwise
(R366). -/
def execCowStallResume (ag i : Nat) (s : State) : Out := performPending s ag i false

/-- `ld.b` (R120). -/
def execLdB (d a : XReg) (cls : Cls) (off : BitVec 10) (s : State) : Out := load 1 true d a cls off s
/-- `ld.h` (R120). -/
def execLdH (d a : XReg) (cls : Cls) (off : BitVec 10) (s : State) : Out := load 2 true d a cls off s
/-- `ld.w` (R120). -/
def execLdW (d a : XReg) (cls : Cls) (off : BitVec 10) (s : State) : Out := load 4 true d a cls off s
/-- `ld.d` (R120). -/
def execLdD (d a : XReg) (cls : Cls) (off : BitVec 10) (s : State) : Out := load 8 true d a cls off s
/-- `ld.bu` (R120). -/
def execLdBu (d a : XReg) (cls : Cls) (off : BitVec 10) (s : State) : Out := load 1 false d a cls off s
/-- `ld.hu` (R120). -/
def execLdHu (d a : XReg) (cls : Cls) (off : BitVec 10) (s : State) : Out := load 2 false d a cls off s
/-- `ld.wu` (R120). -/
def execLdWu (d a : XReg) (cls : Cls) (off : BitVec 10) (s : State) : Out := load 4 false d a cls off s
/-- `st.b` (R120). -/
def execStB (d a : XReg) (cls : Cls) (off : BitVec 10) (s : State) : Out := store 1 d a cls off s
/-- `st.h` (R120). -/
def execStH (d a : XReg) (cls : Cls) (off : BitVec 10) (s : State) : Out := store 2 d a cls off s
/-- `st.w` (R120). -/
def execStW (d a : XReg) (cls : Cls) (off : BitVec 10) (s : State) : Out := store 4 d a cls off s
/-- `st.d` (R120). -/
def execStD (d a : XReg) (cls : Cls) (off : BitVec 10) (s : State) : Out := store 8 d a cls off s
/-- `amo.swap` (R124, R125). -/
def execAmoSwap (d a b : XReg) (cls : Cls) (sc : BitVec 2) (s : State) : Out := amo 0 d a b cls sc s
/-- `amo.add` (R124, R125). -/
def execAmoAdd (d a b : XReg) (cls : Cls) (sc : BitVec 2) (s : State) : Out := amo 1 d a b cls sc s
/-- `amo.and` (R124, R125). -/
def execAmoAnd (d a b : XReg) (cls : Cls) (sc : BitVec 2) (s : State) : Out := amo 2 d a b cls sc s
/-- `amo.or` (R124, R125). -/
def execAmoOr (d a b : XReg) (cls : Cls) (sc : BitVec 2) (s : State) : Out := amo 3 d a b cls sc s
/-- `amo.xor` (R124, R125). -/
def execAmoXor (d a b : XReg) (cls : Cls) (sc : BitVec 2) (s : State) : Out := amo 4 d a b cls sc s
/-- `amo.min` (R124, R125). -/
def execAmoMin (d a b : XReg) (cls : Cls) (sc : BitVec 2) (s : State) : Out := amo 5 d a b cls sc s
/-- `amo.max` (R124, R125). -/
def execAmoMax (d a b : XReg) (cls : Cls) (sc : BitVec 2) (s : State) : Out := amo 6 d a b cls sc s
/-- `amo.minu` (R124, R125). -/
def execAmoMinu (d a b : XReg) (cls : Cls) (sc : BitVec 2) (s : State) : Out := amo 7 d a b cls sc s
/-- `amo.maxu` (R124, R125). -/
def execAmoMaxu (d a b : XReg) (cls : Cls) (sc : BitVec 2) (s : State) : Out := amo 8 d a b cls sc s
/-- `amo.cas` (R124, R125). -/
def execAmoCas (d a b : XReg) (cls : Cls) (sc : BitVec 2) (s : State) : Out := amo 9 d a b cls sc s
/-- `amo.swap.w` (R124, R125). -/
def execAmoSwapW (d a b : XReg) (cls : Cls) (sc : BitVec 2) (s : State) : Out := amo 16 d a b cls sc s
/-- `amo.add.w` (R124, R125). -/
def execAmoAddW (d a b : XReg) (cls : Cls) (sc : BitVec 2) (s : State) : Out := amo 17 d a b cls sc s
/-- `amo.and.w` (R124, R125). -/
def execAmoAndW (d a b : XReg) (cls : Cls) (sc : BitVec 2) (s : State) : Out := amo 18 d a b cls sc s
/-- `amo.or.w` (R124, R125). -/
def execAmoOrW (d a b : XReg) (cls : Cls) (sc : BitVec 2) (s : State) : Out := amo 19 d a b cls sc s
/-- `amo.xor.w` (R124, R125). -/
def execAmoXorW (d a b : XReg) (cls : Cls) (sc : BitVec 2) (s : State) : Out := amo 20 d a b cls sc s
/-- `amo.min.w` (R124, R125). -/
def execAmoMinW (d a b : XReg) (cls : Cls) (sc : BitVec 2) (s : State) : Out := amo 21 d a b cls sc s
/-- `amo.max.w` (R124, R125). -/
def execAmoMaxW (d a b : XReg) (cls : Cls) (sc : BitVec 2) (s : State) : Out := amo 22 d a b cls sc s
/-- `amo.minu.w` (R124, R125). -/
def execAmoMinuW (d a b : XReg) (cls : Cls) (sc : BitVec 2) (s : State) : Out := amo 23 d a b cls sc s
/-- `amo.maxu.w` (R124, R125). -/
def execAmoMaxuW (d a b : XReg) (cls : Cls) (sc : BitVec 2) (s : State) : Out := amo 24 d a b cls sc s
/-- `amo.cas.w` (R124, R125). -/
def execAmoCasW (d a b : XReg) (cls : Cls) (sc : BitVec 2) (s : State) : Out := amo 25 d a b cls sc s

end Sys2Proof.Machine
end

