-- ==== Sys2Proof/Machine/Rotator.lean ====
section
/-! DEFINITION. The rotation steps: words, tables, pre-reduction, convergence, gain and conversion
(R56 to R68), and the user microprograms (R74, R75). -/
namespace Sys2Proof.Machine

/-- The three modes of a rotation (R88, R96). -/
inductive RotMode where
  | cir | hyp | lin
  deriving DecidableEq, Repr

/-- The widths of R56 at one SEW. -/
structure RotWidth where
  xw : Nat     -- width of X and Y
  zw : Nat     -- width of Z
  fx : Nat     -- F, fraction bits of X and Y
  fz : Nat     -- fraction bits of Z (of a turn in circular mode)
  d  : Nat     -- table shift
  deriving DecidableEq, Repr

/-- R56; SEW 64 has no rotation slot and is refused before this is used. -/
def rotWidth (sew : Nat) : RotWidth :=
  if sew = 32 then ⟨42, 36, 39, 34, 0⟩ else if sew = 16 then ⟨21, 18, 18, 16, 18⟩ else ⟨10, 9, 7, 7, 27⟩

/-- The words of one element and whether NC has been raised. -/
structure RotWords where
  x : Int
  y : Int
  z : Int
  nc : Bool
  deriving DecidableEq, Repr

/-- The shift at step index i of the hyperbolic schedule (R58). -/
def hypShift (i : Nat) : Nat :=
  if i ≤ 3 then i + 1 else if i = 4 then 4 else if i ≤ 13 then i else if i = 14 then 13 else i - 1

/-- The shift at a step index (R58). -/
def rotShift (mode : RotMode) (i : Nat) : Nat :=
  match mode with
  | .hyp => hypShift i
  | _ => i

/-- The circular table of R59, k = 0 to 31. -/
def cirTable : List Nat :=
  [2147483648, 1267733622, 669835629, 340019024, 170669324, 85417861, 42719353, 21360980, 10680653, 5340347,
   2670176, 1335088, 667544, 333772, 166886, 83443, 41722, 20861, 10430, 5215, 2608, 1304, 652, 326, 163, 81,
   41, 20, 10, 5, 3, 1]

/-- The hyperbolic table of R59, k = 1 to 32, at list position k − 1. -/
def hypTable : List Nat :=
  [9437007702, 4387958696, 2158774501, 1075143211, 537045777, 268457305, 134220459, 67109205, 33554475,
   16777221, 8388609, 4194304, 2097152, 1048576, 524288, 262144, 131072, 65536, 32768, 16384, 8192, 4096,
   2048, 1024, 512, 256, 128, 64, 32, 16, 8, 4]

/-- The table entry at SEW 32 (R58, R59). -/
def rotTable32 (mode : RotMode) (k : Nat) : Nat :=
  match mode with
  | .cir => cirTable.getD k 0
  | .hyp => hypTable.getD (k - 1) 0
  | .lin => 2 ^ (34 - k)

/-- The table entry at a table shift d (R60). -/
def rotTable (w : RotWidth) (mode : RotMode) (k : Nat) : Int :=
  if w.d = 0 then rotTable32 mode k else floorShift ((rotTable32 mode k : Int) + (2 ^ (w.d - 1) : Nat)) w.d

/-- The compensation constants of circular mode, n = 1 to 12; from 12 on they are equal (R63). -/
def cirGain : List Nat :=
  [11863283, 10610843, 10294030, 10214538, 10194646, 10189672, 10188428, 10188117, 10188040, 10188020, 10188015,
   10188014]

/-- The compensation constants of hyperbolic mode, n = 1 to 13; from 13 on they are equal (R63). -/
def hypGain : List Nat :=
  [19372660, 20007998, 20166166, 20205669, 20245249, 20255142, 20257615, 20258233, 20258387, 20258426, 20258436,
   20258438, 20258439]

/-- G_n of R63. -/
def rotGain (mode : RotMode) (n : Nat) : Nat :=
  match mode with
  | .cir => cirGain.getD (n - 1) 10188014
  | _ => hypGain.getD (n - 1) 20258439

/-- Wraps the three words to their widths, raising NC for any that left its range (R62). -/
def RotWords.wrap (w : RotWidth) (r : RotWords) : RotWords :=
  let x := wrapS w.xw r.x
  let y := wrapS w.xw r.y
  let z := wrapS w.zw r.z
  ⟨x, y, z, r.nc || x != r.x || y != r.y || z != r.z⟩

/-- quarter_turn of R61. -/
def quarterTurn (x y : Int) (q : Nat) : Int × Int :=
  if q % 4 = 0 then (x, y) else if q % 4 = 1 then (-y, x) else if q % 4 = 2 then (-x, -y) else (y, -x)

/-- Pre-reduction of circular mode with S = 0 (R61). -/
def prereduce (w : RotWidth) (vec : Bool) (r : RotWords) : RotWords :=
  let lg := w.fz - 2
  let qtr : Int := (2 ^ lg : Nat)
  if vec then
    if r.x < 0 then
      if 0 ≤ r.y then RotWords.wrap w { r with x := r.y, y := -r.x, z := r.z + qtr }
      else RotWords.wrap w { r with x := -r.y, y := r.x, z := r.z - qtr }
    else r
  else
    let j := floorShift (r.z + qtr / 2) lg
    let p := quarterTurn r.x r.y (wrapN 2 j)
    RotWords.wrap w { r with x := p.1, y := p.2, z := r.z - j * qtr }

/-- The sum of the table entries of the steps S to S + n − 1. -/
def rotReach (w : RotWidth) (mode : RotMode) (s n : Nat) : Int :=
  (List.range n).foldl (fun a i => a + rotTable w mode (rotShift mode (s + i))) 0

/-- Is the element outside its range of convergence (R62)? -/
def rotOutOfRange (w : RotWidth) (mode : RotMode) (vec : Bool) (s n : Nat) (r : RotWords) : Bool :=
  match mode, vec with
  | .cir, false => s != 0 && decide (rotReach w .cir s n < r.z.natAbs)
  | .cir, true => s != 0 && (decide (r.x < 0) || decide (r.x ≤ (r.y.natAbs : Int) * (2 ^ (s - 1) : Nat)))
  | .hyp, false => decide ((11182 * 2 ^ w.fz / 10000 : Nat) < r.z.natAbs)
  | .hyp, true => decide (r.x ≤ 0) || decide (806 * r.x ≤ 1000 * (r.y.natAbs : Int))
  | .lin, false => decide ((2 ^ n - 1) * 2 ^ w.fz ≤ r.z.natAbs * 2 ^ (n - 1))
  | .lin, true => decide (r.x ≤ 0) || decide (2 * r.x ≤ r.y.natAbs)

/-- The direction of a step (R57). -/
def rotSigma (mode : RotMode) (vec : Bool) (r : RotWords) : Int :=
  match mode, vec with
  | .lin, false => if 0 < r.z then 1 else if r.z = 0 then 0 else -1
  | .lin, true => if 0 < r.y then -1 else if r.y = 0 then 0 else 1
  | _, false => if 0 ≤ r.z then 1 else -1
  | _, true => if 0 ≤ r.y then -1 else 1

/-- m of R57. -/
def RotMode.m : RotMode → Int
  | .cir => 1 | .lin => 0 | .hyp => -1

/-- One micro-rotation at step index i (R57, R58). -/
def rotStep (w : RotWidth) (mode : RotMode) (vec : Bool) (i : Nat) (r : RotWords) : RotWords :=
  let k := rotShift mode i
  let s := rotSigma mode vec r
  RotWords.wrap w
    { r with
      x := r.x - mode.m * s * floorShift r.y k
      y := r.y + s * floorShift r.x k
      z := r.z - s * rotTable w mode k }

/-- The compensation of R64. -/
def rotCompensate (w : RotWidth) (mode : RotMode) (n : Nat) (r : RotWords) : RotWords :=
  let g : Int := rotGain mode n
  RotWords.wrap w { r with x := (roundTo 0 0 (r.x * g) (-24)).1, y := (roundTo 0 0 (r.y * g) (-24)).1 }

/-- R67 from "prereduce" to the compensation. -/
def rotCore (w : RotWidth) (mode : RotMode) (vec : Bool) (s n : Nat) (g : Bool) (r : RotWords) : RotWords :=
  let r := if mode = .cir && s = 0 then prereduce w vec r else r
  let r := { r with nc := r.nc || rotOutOfRange w mode vec s n r }
  let r := (List.range n).foldl (fun r i => rotStep w mode vec (s + i) r) r
  if g then rotCompensate w mode n r else r

/-- The common exponent of a float pair (R65). -/
def pairExp (a b : Val) : Int :=
  match a, b with
  | .fin m e, .fin m' e' => max (topExp m e) (topExp m' e')
  | .fin m e, _ => topExp m e
  | _, .fin m e => topExp m e
  | _, _ => 0

/-- A finite value times 2^k, floored to an integer. -/
def floorVal (k : Int) : Val → Int
  | .fin m e => (roundTo 2 0 m (e + k)).1
  | _ => 0

/-- Is the value a NaN or an infinity? -/
def Val.special (n : Val) : Bool := n.isNan || n.isInf

/-- NV for an infinity or a signalling NaN (R65, R74). -/
def Val.rotFlag (n : Val) : Flags := if n.isInf then Flags.nv else n.sigFlag

/-- Is an int32 element one whose y result R68 gives as y + x × z? -/
def exactProduct (n : Nat) (x z : Int) : Bool := decide ((x.natAbs : Int) < 2 ^ (42 - n)) && decide ((z.natAbs : Int) < 2 ^ n - 1)

/-- One element of `vrot`: the codes of x, y and z written, and its flags (R65 to R68). For int32, NC is raised for
2^(42−n) ≤ |x| (R68), and an element with an exact product writes y + x × z narrowed even where the Y word wraps on the
way, with the NC of R62 (DESIGN CHOICE between R68 and R62; log 63). An int32 z whose word lies outside the 36 bits of Z
is wrapped and raises NC (DESIGN CHOICE: R65 gives no rule; log 63). Only from step S = 0 on do the steps reach the exact product, so
that an element that starts later writes what its steps give (DESIGN CHOICE: R68 names no S, and the steps of R67 from S on do not
reach y + x × z; log 63). -/
def rotElement (vt : VType) (txy tz : Tag) (mode : RotMode) (vec : Bool) (s n : Nat) (g : Bool)
    (cx cy cz : Nat) : (Nat × Nat × Nat) × Flags :=
  let w := rotWidth txy.width
  let x := readVal vt txy cx
  let y := readVal vt txy cy
  let z := readVal vt tz cz
  if x.special || y.special then
    let zr := if tz.cls = .float then canonicalNan tz else cz
    let zf := if tz.cls = .float then z.rotFlag else Flags.none
    ((canonicalNan txy, canonicalNan txy, zr), x.rotFlag ||| y.rotFlag ||| zf)
  else if z.special then
    ((canonicalNan txy, canonicalNan txy, canonicalNan tz),
      z.rotFlag ||| Flags.when (txy.cls ≠ .float) Flags.nv)
  else if txy.cls = .integer then
    -- int32 x, y and z in linear rotation (R65, R68)
    let xi := sextN 32 cx
    let zi := sextN 32 cz
    let r := RotWords.wrap w
      { x := xi * (2 ^ (n - 1) : Nat), y := sextN 32 cy, z := zi * (2 ^ (34 - (n - 1)) : Nat)
        nc := decide (2 ^ (42 - n) ≤ (xi.natAbs : Int)) }
    let r := rotCore w mode vec s n g r
    let yo := narrow vt .int32 (if s = 0 && exactProduct n xi zi then sextN 32 cy + xi * zi else r.y)
    let zo := encode vt .int32 (Val.mk r.z ((n : Int) - 1 - 34))
    ((cx, yo.1, zo.1), yo.2 ||| zo.2 ||| Flags.when r.nc Flags.nc)
  else
    let e := if txy.cls = .float then pairExp x y else 0
    let zBig : Bool := tz.cls = .float && (match z with | .fin m ex => decide (1 ≤ topExp m ex) | _ => false)
    let zw : Int :=
      if zBig then (if z.neg? then -(2 ^ (w.zw - 1) : Nat) else (2 ^ (w.zw - 1) : Nat) - 1) else floorVal w.fz z
    let r := rotCore w mode vec s n g
      { x := floorVal ((w.fx : Int) - e) x, y := floorVal ((w.fx : Int) - e) y, z := zw, nc := zBig }
    let xo := encode vt txy (Val.mk r.x (e - w.fx))
    let yo := encode vt txy (Val.mk r.y (e - w.fx))
    let zo := encode vt tz (Val.mk r.z (-(w.fz : Int)))
    ((xo.1, yo.1, zo.1), xo.2 ||| yo.2 ||| zo.2 ||| Flags.when r.nc Flags.nc)

/-- The tag combinations that R65 accepts for `vrot`, all of one width. -/
def rotTagsOk (mode : RotMode) (vec : Bool) (txy tz : Tag) : Bool :=
  txy.width = tz.width && txy.width ≠ 64 && !(mode = .cir && txy.width = 8) &&
  (match txy.cls with
   | .fixed | .float =>
     (match mode with
      | .cir => tz.cls = .angle
      | _ => tz.cls = .fixed || tz.cls = .float)
   | .integer => mode = .lin && !vec && txy = .int32 && tz = .int32
   | _ => false)

/-! ## User microprograms -/

/-- The micro-registers of one element slot and whether NC has been raised (R74). -/
structure Micro where
  h : List Int
  nc : Bool
  deriving DecidableEq, Repr

/-- Read h(r). -/
def Micro.get (m : Micro) (r : Nat) : Int := m.h.getD r 0

/-- The width of h(r) (R74). -/
def microWidth (w : RotWidth) (r : Nat) : Nat := if r = 2 then w.zw else if r = 7 then 16 else w.xw

/-- Write h(r), wrapped to its width, with NC if it wrapped (R74). -/
def Micro.set (w : RotWidth) (m : Micro) (r : Nat) (v : Int) : Micro :=
  let u := wrapS (microWidth w r) v
  ⟨m.h.set r u, m.nc || u != v⟩

/-- A field of a micro-op (R75). -/
def uopField (u : BitVec 32) (lo n : Nat) : Nat := (u.extractLsb' lo n).toNat

/-- One micro-op that is not `end` (R75). A circular `rot` under q6 runs with a quarter turn of 2^5 (DESIGN CHOICE: R56
traps the circular mode of `vrot` at SEW 8, R61 gives no quarter turn there, and R75 excepts no width; log 63). A `norm` scales the count of its register as it stands,
also for h2 and h7, whose unit is not that of the others (DESIGN CHOICE: R56 gives each its unit, and R75 converts none; log 63). -/
def microStep (w : RotWidth) (u : BitVec 32) (m : Micro) : Micro :=
  let d := uopField u 24 3
  let a := uopField u 21 3
  let b := uopField u 18 3
  let imm := uopField u 0 18
  let simm := sextN 18 imm
  let ha := m.get a
  let hb := m.get b
  match uopField u 27 5 with
  | 1 =>
    let mode : RotMode := match uopField u 16 2 with | 0 => .cir | 1 => .hyp | _ => .lin
    let r := rotCore w mode (u.getLsbD 15) (uopField u 9 5) (uopField u 4 5 + 1) (u.getLsbD 14)
      ⟨m.get 0, m.get 1, m.get 2, m.nc⟩
    ⟨((m.h.set 0 r.x).set 1 r.y).set 2 r.z, r.nc⟩
  | 2 => m.set w d (simm * (2 ^ (6 * a) : Nat))
  | 3 => m.set w d (ha + hb)
  | 4 => m.set w d (ha - hb)
  | 5 => m.set w d (floorShift ha (imm % 64))
  | 6 => m.set w d (ha * (2 ^ (imm % 64) : Nat))
  | 7 => m.set w d (roundTo 0 0 (ha * simm) (-16)).1
  | 8 => m.set w d (roundTo 0 0 (ha * hb) (-(w.fx : Int))).1
  | 9 =>
    if ha = 0 then m
    else
      let c := topExp ha (-(w.fx : Int))
      let m := m.set w d (roundTo 2 0 ha (-c)).1
      m.set w 7 (m.get 7 + c)
  | 10 =>
    let j := floorShift (ha + (2 ^ (imm - 1) : Nat)) imm
    (m.set w d (ha - j * (2 ^ imm : Nat))).set w b j
  | 11 =>
    let p := quarterTurn (m.get 0) (m.get 1) (wrapN 2 ha)
    (m.set w 0 p.1).set w 1 p.2
  | 12 => if hb < 0 then m.set w d ha else m
  | 13 => m.set w d ha.natAbs
  | 14 => m.set w d (min ha hb)
  | 15 => m.set w d (max ha hb)
  | 16 =>
    if 0 ≤ hb then m.set w d (floorShift ha (min hb.toNat 64))
    else m.set w d (ha * (2 ^ (min (-hb).toNat 64) : Nat))
  | _ => m

/-- Runs micro-ops from index 0 to the first `end` (R74, R75). -/
def microRun (w : RotWidth) : List (BitVec 32) → Micro → Micro
  | [], m => m
  | u :: us, m => if uopField u 27 5 = 0 then m else microRun w us (microStep w u m)

/-- One element of a user function (R74, R170). -/
def ufnElement (vt : VType) (t : Tag) (prog : List (BitVec 32)) (ca cb : Nat) : Nat × Flags :=
  let w := rotWidth t.width
  let a := readVal vt t ca
  let b := readVal vt t cb
  if a.special || b.special then (canonicalNan t, a.rotFlag ||| b.rotFlag)
  else
    let e := if t.cls = .float then pairExp a b else 0
    let h0 := floorVal ((w.fx : Int) - e) a
    let h1 := floorVal ((w.fx : Int) - e) b
    let m := microRun w prog ⟨[h0, h1, 0, 0, 0, 0, 0, e], false⟩
    let r := encode vt t (Val.mk (m.get 0) (m.get 7 - w.fx))
    (r.1, r.2 ||| Flags.when m.nc Flags.nc)

/-- Is a word one that UFNDATA accepts (R75, R76)? -/
def uopValid (u : BitVec 32) : Bool :=
  let op := uopField u 27 5
  let d0 := uopField u 24 3 = 0
  let a0 := uopField u 21 3 = 0
  let b0 := uopField u 18 3 = 0
  let imm := uopField u 0 18
  match op with
  | 0 => d0 && a0 && b0 && imm = 0
  | 1 =>
    let mode := uopField u 16 2
    let s := uopField u 9 5
    let g := u.getLsbD 14
    d0 && a0 && b0 && uopField u 0 4 = 0 && mode ≠ 3 && s + uopField u 4 5 + 1 ≤ 32 && !(g && (s ≠ 0 || mode = 2))
  | 2 => b0
  | 3 | 4 | 8 | 12 | 14 | 15 | 16 => imm = 0
  | 5 | 6 => b0 && imm < 64
  | 7 => b0
  | 9 | 13 => b0 && imm = 0
  | 10 => 1 ≤ imm && imm ≤ 40
  | 11 => d0 && b0 && imm = 0
  | _ => false

end Sys2Proof.Machine
end

