-- ==== Sys2Proof/Machine/Types.lean ====
section
/-! DEFINITION. The tags that vector instructions accept and produce (R29, R30, R38, R46, R47, R155 to R172). -/
namespace Sys2Proof.Machine

/-! ## Second operands -/

/-- The tag of a second operand beside an operand of tag `ta` (R30); none for an unbound stream. -/
def srcTag (v : Vec) (vt : VType) (ta : Tag) : VSrc → Option Tag
  | .vv b | .wide b | .narrow b => some (v.tagOf b)
  | .vx _ => some ta
  | .vi _ => some (Tag.intOf vt.sew)
  | .vs j => (v.stream j).bind Stream.tag?

/-! ## Element-wise arithmetic (R159, R160) -/

/-- The functions of `vop` that compute from two operands, and the two unary ones of the same table. -/
inductive VopFn where
  | add | sub | rsub | min | max | and | or | xor | sll | srl | sra | neg | abs | mul | mulh | macc | nmsac | avg | shrRnd
  | cmpEq | cmpNe | cmpLt | cmpLe
  deriving DecidableEq, Repr

/-- The tag classes that a function accepts (R159). -/
def VopFn.accepts (f : VopFn) (c : TagClass) : Bool :=
  match f with
  | .add | .sub | .rsub | .cmpEq | .cmpNe => c ≠ .smallFloat
  | .min | .max | .cmpLt | .cmpLe => c = .integer || c = .fixed || c = .float || c = .pointer
  | .and | .or | .xor => c = .integer || c = .angle || c = .pointer
  | .sll | .srl | .sra | .mulh => c = .integer
  | .neg | .mul => c = .integer || c = .fixed || c = .float || c = .angle
  | .abs | .avg | .macc | .nmsac => c = .integer || c = .fixed || c = .float
  | .shrRnd => c = .integer || c = .fixed

/-- Functions whose second operand is a shift count, and the unary ones: the result has A's tag. -/
def VopFn.keepsA : VopFn → Bool
  | .sll | .srl | .sra | .shrRnd | .neg | .abs => true
  | _ => false

/-- Does the function read its destination (R160)? -/
def VopFn.readsD : VopFn → Bool
  | .macc | .nmsac => true
  | _ => false

/-- The tag of the result of a two-operand function (for a compare, the common tag), or none where it traps ILLTYPE
(R29, R46, R47, R159, R160). -/
def vopTag (f : VopFn) (v : Vec) (vt : VType) (d a : VReg) (src : VSrc) : Option Tag :=
  let ta := v.tagOf a
  let td := v.tagOf d
  match srcTag v vt ta src with
  | none => none
  | some tb =>
    if ta.width ≠ (if srcNarrow src then 2 * vt.sew else vt.sew) || tb.width ≠ vt.sew || !f.accepts ta.cls || !f.accepts tb.cls then none
    else if f.readsD && (!f.accepts td.cls || td.width ≠ (if srcWide src then 2 * vt.sew else vt.sew)) then none
    else if f.keepsA then (if srcNarrow src then ta.narrowed else some ta)
    else
      match promote ta tb with
      | none => none
      | some t =>
        if f = .mul && t.cls = .angle && ta.cls ≠ .integer && tb.cls ≠ .integer then none
        else if (f = .sub || f = .rsub) && ta = .ptr64 && tb = .ptr64 && !srcWide src then some .int64
        else if srcWide src then
          match t.widen with
          | none => none
          | some w => if f.readsD && td ≠ w then none else some w
        else if f.readsD then promote t td
        else some t

/-- The tag of `vop.neg` and `vop.abs` (R159). -/
def vopTag1 (f : VopFn) (v : Vec) (vt : VType) (a : VReg) : Option Tag :=
  let ta := v.tagOf a
  if ta.width = vt.sew && f.accepts ta.cls then some ta else none

/-- The class codes of numbers that `vop.cvt` converts (R164). -/
def TagClass.number (c : TagClass) : Bool := c = .integer || c = .fixed || c = .float || c = .smallFloat

/-- The pairs of tags that `vop.cvt` accepts (R164). -/
def cvtPair (ts td : Tag) : Bool :=
  (ts.cls.number && td.cls.number) || (ts = .ang16 && td = .ang32) || (ts = .ang32 && td = .ang16) ||
    (ts = .ptr64 && (td = .int64 || td = .uint64)) || ((ts = .int64 || ts = .uint64) && td = .ptr64)

/-- The pairs of tags that `vop.cvt.sat` accepts (R159, R164). -/
def cvtSatPair (ts td : Tag) : Bool :=
  ts.cls.number && td.cls.number && ts.cls ≠ .smallFloat && td.cls ≠ .smallFloat

/-- Widths of the source and destination of a conversion (R29, R164). -/
def cvtWidths (form : CvtForm) (sew : Nat) : Nat × Nat :=
  match form with
  | .same => (sew, sew) | .wide => (sew, 2 * sew) | .narrow => (2 * sew, sew)

/-- A small float stands only at SEW 8: alike, as the source of a widening, or as the destination of a narrowing
(R38, R164). -/
def cvtOk (sat : Bool) (v : Vec) (vt : VType) (form : CvtForm) (d a : VReg) : Bool :=
  let ts := v.tagOf a
  let td := v.tagOf d
  let w := cvtWidths form vt.sew
  ts.width = w.1 && td.width = w.2 && (if sat then cvtSatPair ts td else cvtPair ts td)

/-! ## Rotation and functions (R65, R166, R167, R170) -/

/-- May `vrot` use these groups (R166)? -/
def vrotOk (mode : RotMode) (vec : Bool) (v : Vec) (vt : VType) (d a : VReg) : Bool :=
  let tx := v.tagOf d
  let ty := v.tagOf (d + BitVec.ofNat 5 vt.lmul)
  tx = ty && tx.width = vt.sew && rotTagsOk mode vec tx (v.tagOf a)

/-- The tags of composite functions (R167). -/
def Tag.composite (t : Tag) : Bool := t = .fp32 || t = .fp16 || t = .bf16 || t = .q15
/-- The tags of user functions (R170). -/
def Tag.user (t : Tag) : Bool :=
  t = .q6 || t = .q14 || t = .q15 || t = .q30 || t = .q31 || t = .fp16 || t = .bf16 || t = .fp32

/-- A function of one or two arguments with one tag (R167, R170). -/
def fnOk (ok : Tag → Bool) (v : Vec) (vt : VType) (a : VReg) (src : Option VSrc) : Bool :=
  let ta := v.tagOf a
  ta.width = vt.sew && ok ta &&
    (match src with
     | none => true
     | some b => srcTag v vt ta b = some ta)

/-! ## Reductions (R172, R174) -/

/-- The folds of `vred`. -/
inductive RedFn where
  | sum | sumOrd | max | min | and | or
  deriving DecidableEq, Repr

/-- The classes that a fold accepts (R172). -/
def RedFn.accepts (f : RedFn) (c : TagClass) : Bool :=
  match f with
  | .sum | .sumOrd => c = .integer || c = .fixed || c = .float || c = .angle
  | .max | .min => c = .integer || c = .fixed || c = .float
  | .and | .or => c = .integer

/-- The tag of a fold's result, or none where it traps ILLTYPE (R172). -/
def redTag (f : RedFn) (v : Vec) (vt : VType) (a : VReg) (src : VSrc) : Option Tag :=
  let ta := v.tagOf a
  match srcTag v vt ta src with
  | none => none
  | some tb =>
    if ta.width ≠ vt.sew || tb.width ≠ vt.sew || !f.accepts ta.cls || !f.accepts tb.cls then none else promote ta tb

/-- The tag of `vred.redsum.w` (R172). -/
def redWTag (v : Vec) (vt : VType) (a b : VReg) : Option Tag :=
  let ta := v.tagOf a
  if ta.width = vt.sew && (ta.cls = .integer || ta.cls = .fixed || ta = .fp16 || ta = .bf16) then
    match ta.widen with
    | some w => if v.tagOf b = w then some w else none
    | none => none
  else none

/-! ## What is read exactly -/

/-- An operand of a two-operand function with result tag tR: an integer that meets an angle counts the angle's units,
except in a product (R46, R160). -/
def operandVal (vt : VType) (product : Bool) (tR t : Tag) (c : Nat) : Val :=
  if tR.cls = .angle && t.cls = .integer && !product then Val.mk (sextN t.width c) (-(t.width : Int)) else readVal vt t c

end Sys2Proof.Machine
end

