-- ==== Sys2Proof/Machine/Vop.lean ====
section
/-! DEFINITION. Element-wise arithmetic, compares, copies and conversions: class `vop` (R158 to R165). -/
namespace Sys2Proof.Machine

/-- A vector word that fails a test of R98 or R193 on the vector side traps there with its word in TVAL. -/
def State.rejectVec (s : State) (k : Nat) (e : Entry) (code : Nat) : Out :=
  s.stopVec k e e.pix.toNat (wordTrap code e.word)

/-! ## One element -/

/-- One element of neg or abs on a float: the sign alone changes, after input flushing (R161). -/
def signElement (f : VopFn) (vt : VType) (t : Tag) (c : Nat) : Nat × Flags :=
  let a := readVal vt t c
  if a.isNan then (canonicalNan t, a.sigFlag)
  else
    let top := 2 ^ (t.width - 1)
    let body := if a.isZero then 0 else c % top
    let neg : Bool := if f = .neg then !a.neg? else false
    (if neg then top + body else body, Flags.none)

/-- An encoded value with the flags that forming it raised. -/
def encodeWith (vt : VType) (t : Tag) (r : Val × Flags) : Nat × Flags :=
  let x := encode vt t r.1
  (x.1, x.2 ||| r.2)

/-- One element of a two-operand function (R160): codes a, b and the old destination d of tags ta, tb and td, and the
result tag. `w` is SEW. `macc` and `nmsac` raise NV for a product 0 × ∞ whatever d holds, a
quiet NaN included (DESIGN CHOICE: R36 speaks of a NaN from non-NaN operands; log 63). -/
def vopElement (f : VopFn) (vt : VType) (w : Nat) (ta tb td tR : Tag) (ca cb cd : Nat) : Nat × Flags :=
  let rd := operandVal vt (f = .mul || f = .macc || f = .nmsac) tR
  let a := rd ta ca
  let b := rd tb cb
  let sig := a.sigFlag ||| b.sigFlag
  let out (r : Val × Flags) : Nat × Flags := encodeWith vt tR (r.1, r.2 ||| sig)
  let sh := cb % ta.width
  match f with
  | .add => out (a.add vt.rm b)
  | .sub => out (a.add vt.rm b.negate)
  | .rsub => out (b.add vt.rm a.negate)
  | .min => out (a.pick false b, Flags.none)
  | .max => out (a.pick true b, Flags.none)
  | .and => (Nat.land ca cb % 2 ^ w, Flags.none)
  | .or => (Nat.lor ca cb % 2 ^ w, Flags.none)
  | .xor => (Nat.xor ca cb % 2 ^ w, Flags.none)
  | .sll => encode vt tR (a.scale sh)
  | .srl => narrow vt tR (floorShift (ca : Int) sh)
  | .sra => narrow vt tR (floorShift (sextN ta.width ca) sh)
  | .neg => if ta.cls = .float then signElement .neg vt ta ca else out (a.negate, Flags.none)
  | .abs => if ta.cls = .float then signElement .abs vt ta ca else out (a.abs, Flags.none)
  | .mul => out (a.mul b)
  | .mulh =>
    let rd (t : Tag) (c : Nat) : Int := if t.signed then sextN t.width c else c
    (wrapN w (floorShift (rd ta ca * rd tb cb) w), Flags.none)
  | .macc =>
    let d := readVal vt td cd
    let p := a.mul b
    let r := d.add vt.rm p.1
    out (r.1, r.2 ||| p.2 ||| d.sigFlag)
  | .nmsac =>
    let d := readVal vt td cd
    let p := a.mul b
    let r := d.add vt.rm p.1.negate
    out (r.1, r.2 ||| p.2 ||| d.sigFlag)
  | .avg =>
    let r := a.add vt.rm b
    out (r.1.scale (-1), r.2)
  | .shrRnd => encode vt tR (a.scale (-(sh : Int)))
  | .cmpEq | .cmpNe | .cmpLt | .cmpLe => (0, Flags.none)

/-- One element of a compare (R162). Angles compare on their bits. -/
def cmpElement (f : VopFn) (vt : VType) (ta tb t : Tag) (ca cb : Nat) : Bool × Flags :=
  if t.cls = .angle then
    let eq : Bool := ca % 2 ^ ta.width = cb % 2 ^ tb.width
    (if f = .cmpNe then !eq else eq, Flags.none)
  else
    let a := readVal vt ta ca
    let b := readVal vt tb cb
    let nan := a.isNan || b.isNan
    let sig := a.sigFlag ||| b.sigFlag
    match f with
    | .cmpNe => (!a.eqv b, sig)
    | .cmpLt => (!nan && a.lt b, sig ||| Flags.when nan Flags.nv)
    | .cmpLe => (!nan && !b.lt a, sig ||| Flags.when nan Flags.nv)
    | _ => (a.eqv b, sig)

/-- The value of scale code e(i) as an exponent, none for the NaN code (R48, R164). -/
def Vec.scaleOf (v : Vec) (vt : VType) (i : Nat) : Option Int := scaleExp (v.scale vt i)

/-- The exact value that a conversion encodes (R164): MX scales apply when exactly one of the tags is an MX tag. -/
def cvtValue (v : Vec) (vt : VType) (ts td : Tag) (i : Nat) (c : Nat) : Val × Flags :=
  let a := readVal vt ts c
  if ts.isMx = td.isMx then (a, a.sigFlag)
  else
    match v.scaleOf vt i with
    | none => (.nan false, a.sigFlag)
    | some k => (a.scale (if ts.isMx then k else -k), a.sigFlag)

/-- One element of `vop.cvt` (R42, R164). -/
def cvtElement (v : Vec) (vt : VType) (ts td : Tag) (i : Nat) (c : Nat) : Nat × Flags :=
  if ts.cls = .pointer || td.cls = .pointer then (c, Flags.none)
  else
    let a := cvtValue v vt ts td i c
    let fromFloat : Bool := ts.cls = .float || ts.cls = .smallFloat
    let toGrid : Bool := td.cls = .integer || td.cls = .fixed
    let r := if fromFloat && toGrid then encodeR42 vt td a.1 else encode vt td a.1
    (r.1, r.2 ||| a.2)

/-- One element of `vop.cvt.sat` (R164). -/
def cvtSatElement (v : Vec) (vt : VType) (ts td : Tag) (i : Nat) (c : Nat) : Nat × Flags :=
  let a := cvtValue v vt ts td i c
  match td.fmt with
  | some f =>
    match a.1 with
    | .inf s => (f.signed s f.maxCode, Flags.ov ||| a.2)
    | x =>
      let r := encode vt td x
      if (r.2 &&& Flags.ov) ≠ 0 then (f.signed x.neg? f.maxCode, Flags.ov ||| Flags.nx ||| a.2) else (r.1, r.2 ||| a.2)
  | none =>
    match a.1 with
    | .nan _ => (0, Flags.nv)
    | .inf s => (wrapN td.width (if s then td.lo else td.hi), Flags.sa ||| a.2)
    | .zero _ => (0, a.2)
    | .fin m e =>
      let u := roundTo vt.rm (-(td.frac : Int)) m e
      let q := td.saturate u.1
      (wrapN td.width q.1, q.2 ||| Flags.when u.2 Flags.nx ||| a.2)

/-- The class bit of a float code (R165). -/
def fclassBits (t : Tag) (c : Nat) : Nat :=
  match t.fmt with
  | none => 0
  | some f =>
    match f.decode c with
    | .nan sig => if sig then 2 ^ 8 else 2 ^ 9
    | .inf s => if s then 2 ^ 0 else 2 ^ 7
    | .zero s => if s then 2 ^ 3 else 2 ^ 4
    | .fin m _ =>
      if f.subnormal c then (if m < 0 then 2 ^ 2 else 2 ^ 5) else (if m < 0 then 2 ^ 1 else 2 ^ 6)

/-! ## The shapes of meanings -/

/-- A two-operand function with a register destination (R150, R160). -/
def vopArith (i : Instr) (f : VopFn) (d a : VReg) (src : VSrc) (m : MReg) (s : State) : Out :=
  vectorInstr i (srcRegs src) none s fun k e =>
    let r := s.vrun k e false
    match vopTag f r.v r.vt d a src with
    | none => s.rejectVec k e 3
    | some t =>
      let ta := r.v.tagOf a
      let q := r.src ta src
      let wa := if srcNarrow src then 2 * r.vt.sew else r.vt.sew
      let wd := if srcWide src then 2 * r.vt.sew else r.vt.sew
      elementwise s k r m d wd (some t) ([(a, wa)] ++ q.regs ++ (if f.readsD then [(d, wd)] else [])) q.strm fun n =>
        let x := vopElement f r.vt r.vt.sew ta q.tag (r.v.tagOf d) t (r.elem wa a n) (q.get n) (r.elem wd d n)
        (some x.1, x.2)

/-- `vop.neg` and `vop.abs` (R160, R161). -/
def vopUnary (i : Instr) (f : VopFn) (d a : VReg) (m : MReg) (s : State) : Out :=
  vectorInstr i [] none s fun k e =>
    let r := s.vrun k e false
    match vopTag1 f r.v r.vt a with
    | none => s.rejectVec k e 3
    | some t =>
      let w := r.vt.sew
      elementwise s k r m d w (some t) [(a, w)] none fun n =>
        let x := vopElement f r.vt w t t t t (r.elem w a n) 0 0
        (some x.1, x.2)

/-- The compares (R162). -/
def vopCmp (i : Instr) (f : VopFn) (d : MReg) (a : VReg) (src : VSrc) (m : MReg) (s : State) : Out :=
  vectorInstr i (srcRegs src) none s fun k e =>
    let r := s.vrun k e false
    match vopTag f r.v r.vt a a src with
    | none => s.rejectVec k e 3
    | some t =>
      let ta := r.v.tagOf a
      let q := r.src ta src
      let w := r.vt.sew
      elementwiseMask s k r m d a ([(a, w)] ++ q.regs) q.strm fun n =>
        cmpElement f r.vt ta q.tag t (r.elem w a n) (q.get n)

/-! ## The instructions -/

/-- `vop.add` (R160). -/
def execVopAdd (d a : VReg) (src : VSrc) (m : MReg) (s : State) : Out := vopArith (.vopAdd d a src m) .add d a src m s
/-- `vop.sub` (R160). -/
def execVopSub (d a : VReg) (src : VSrc) (m : MReg) (s : State) : Out := vopArith (.vopSub d a src m) .sub d a src m s
/-- `vop.rsub` (R160). -/
def execVopRsub (d a : VReg) (src : VSrc) (m : MReg) (s : State) : Out := vopArith (.vopRsub d a src m) .rsub d a src m s
/-- `vop.min` (R160, R161). -/
def execVopMin (d a : VReg) (src : VSrc) (m : MReg) (s : State) : Out := vopArith (.vopMin d a src m) .min d a src m s
/-- `vop.max` (R160, R161). -/
def execVopMax (d a : VReg) (src : VSrc) (m : MReg) (s : State) : Out := vopArith (.vopMax d a src m) .max d a src m s
/-- `vop.and` (R160). -/
def execVopAnd (d a : VReg) (src : VSrc) (m : MReg) (s : State) : Out := vopArith (.vopAnd d a src m) .and d a src m s
/-- `vop.or` (R160). -/
def execVopOr (d a : VReg) (src : VSrc) (m : MReg) (s : State) : Out := vopArith (.vopOr d a src m) .or d a src m s
/-- `vop.xor` (R160). -/
def execVopXor (d a : VReg) (src : VSrc) (m : MReg) (s : State) : Out := vopArith (.vopXor d a src m) .xor d a src m s
/-- `vop.sll` (R160). -/
def execVopSll (d a : VReg) (src : VSrc) (m : MReg) (s : State) : Out := vopArith (.vopSll d a src m) .sll d a src m s
/-- `vop.srl` (R160). -/
def execVopSrl (d a : VReg) (src : VSrc) (m : MReg) (s : State) : Out := vopArith (.vopSrl d a src m) .srl d a src m s
/-- `vop.sra` (R160). -/
def execVopSra (d a : VReg) (src : VSrc) (m : MReg) (s : State) : Out := vopArith (.vopSra d a src m) .sra d a src m s
/-- `vop.neg` (R160, R161). -/
def execVopNeg (d a : VReg) (m : MReg) (s : State) : Out := vopUnary (.vopNeg d a m) .neg d a m s
/-- `vop.abs` (R160, R161). -/
def execVopAbs (d a : VReg) (m : MReg) (s : State) : Out := vopUnary (.vopAbs d a m) .abs d a m s
/-- `vop.mul` (R160). -/
def execVopMul (d a : VReg) (src : VSrc) (m : MReg) (s : State) : Out := vopArith (.vopMul d a src m) .mul d a src m s
/-- `vop.mulh` (R160). -/
def execVopMulh (d a : VReg) (src : VSrc) (m : MReg) (s : State) : Out := vopArith (.vopMulh d a src m) .mulh d a src m s
/-- `vop.macc` (R160). -/
def execVopMacc (d a : VReg) (src : VSrc) (m : MReg) (s : State) : Out := vopArith (.vopMacc d a src m) .macc d a src m s
/-- `vop.nmsac` (R160). -/
def execVopNmsac (d a : VReg) (src : VSrc) (m : MReg) (s : State) : Out := vopArith (.vopNmsac d a src m) .nmsac d a src m s
/-- `vop.avg` (R160). -/
def execVopAvg (d a : VReg) (src : VSrc) (m : MReg) (s : State) : Out := vopArith (.vopAvg d a src m) .avg d a src m s
/-- `vop.shr.rnd` (R160). -/
def execVopShrRnd (d a : VReg) (src : VSrc) (m : MReg) (s : State) : Out := vopArith (.vopShrRnd d a src m) .shrRnd d a src m s
/-- `vop.cmp.eq` (R162). -/
def execVopCmpEq (d : MReg) (a : VReg) (src : VSrc) (m : MReg) (s : State) : Out := vopCmp (.vopCmpEq d a src m) .cmpEq d a src m s
/-- `vop.cmp.ne` (R162). -/
def execVopCmpNe (d : MReg) (a : VReg) (src : VSrc) (m : MReg) (s : State) : Out := vopCmp (.vopCmpNe d a src m) .cmpNe d a src m s
/-- `vop.cmp.lt` (R162). -/
def execVopCmpLt (d : MReg) (a : VReg) (src : VSrc) (m : MReg) (s : State) : Out := vopCmp (.vopCmpLt d a src m) .cmpLt d a src m s
/-- `vop.cmp.le` (R162). -/
def execVopCmpLe (d : MReg) (a : VReg) (src : VSrc) (m : MReg) (s : State) : Out := vopCmp (.vopCmpLe d a src m) .cmpLe d a src m s

/-- `vop.merge` (R163): A's element where m(B) is set, else the old one. -/
def execVopMerge (d a : VReg) (b m : MReg) (s : State) : Out :=
  vectorInstr (.vopMerge d a b m) [] none s fun k e =>
    let r := s.vrun k e false
    let w := r.vt.sew
    elementwise s k r m d w (some (r.v.tagOf d)) [(a, w)] none fun n =>
      (if r.v.maskBit b n then some (r.elem w a n) else none, Flags.none)

/-- The held fault of an output stream is delivered at the next instruction that names it (R208): ELEM is 0, VSTART
keeps its value, and the thread writes again from the held entry afterwards. -/
def deliverHeld (s : State) (k : Nat) (e : Entry) (j : SReg) (go : Out) : Out :=
  match (s.vec k).stream j with
  | some t =>
    match t.out && !t.told, t.fault with
    | true, some f =>
      s.stopVec k e e.pix.toNat { code := f.code, write := true, tval := f.va } fun s =>
        s.setVec k ((s.vec k).setStream j (some { t with told := true }))
    | _, _ => go
  | none => go

/-- Appends the active elements of a move to an output stream (R205, R256): as many whole element groups as its buffer
takes, or none while it is full. -/
def appendStream (s : State) (k : Nat) (r : VRun) (j : SReg) (t : Stream) (d : VReg) (m : MReg) : Out :=
  let w := r.vt.sew
  if r.vl ≤ r.start then .next (s.setVec k ((s.vec k).complete r.e))
  else
    let stop := r.uecc m [(d, w)]
    let top := (stop.map (·.i)).getD r.hi
    let new (hi : Nat) : List StreamEntry :=
      (r.actives m hi).map fun i => ⟨r.pos t i, r.elem w d i % 2 ^ codeBits (r.v.tagOf d) w, t.gen⟩
    let room (hi : Nat) : Bool := decide ((t.buf.length + (new hi).length) * (w / 8) ≤ 4096)
    let ends := (List.range (top + 1)).filter fun n => decide (r.start < n) && (n = top || n % r.groupLen = 0)
    let append (hi : Nat) (v : Vec) : Vec :=
      v.setStream j (some { t with buf := t.buf ++ new hi, idx := t.idx + BitVec.ofNat 64 (hi - r.start) })
    match (ends.filter room).getLast?, stop with
    | none, some x => if top ≤ r.start then s.stopVec k r.e x.i x.trap else .next s
    | none, none => .next s
    | some hi, some x =>
      if hi = top then s.stopVec k r.e x.i x.trap fun s => s.setVec k (append hi (s.vec k))
      else .next (s.setVec k (append hi ((s.vec k).progress r.e hi)))
    | some hi, none =>
      if r.vl ≤ hi then .next (s.setVec k ((append hi (s.vec k)).complete r.e))
      else .next (s.setVec k (append hi ((s.vec k).progress r.e hi)))

/-- `vop.mv` (R163, R205): a group, the entries of an input stream, or an append to an output stream. -/
def execVopMv (d : VReg) (src : MvSrc) (m : MReg) (s : State) : Out :=
  vectorInstr (.vopMv d src m) [] none s fun k e =>
    let r := s.vrun k e false
    let w := r.vt.sew
    match src with
    | .reg a =>
      elementwise s k r m d w (some (r.v.tagOf a)) [(a, w)] none fun n => (some (r.elem w a n), Flags.none)
    | .strm j =>
      match r.v.stream j with
      | none => s.rejectVec k e 1
      | some t =>
        if t.out then deliverHeld s k e j (appendStream s k r j t d m)
        else
          let q := r.src .int8 (.vs j)
          elementwise s k r m d w (some q.tag) [] (some j) fun n => (some (q.get n), Flags.none)

/-- `vop.splat` (R163). -/
def execVopSplat (d : VReg) (src : SplatSrc) (m : MReg) (s : State) : Out :=
  vectorInstr (.vopSplat d src m) (match src with | .vx b => [b] | .vi _ => []) none s fun k e =>
    let r := s.vrun k e false
    let w := r.vt.sew
    let t := r.v.tagOf d
    let x : Nat × Flags :=
      match src with
      | .vx _ => ((r.e.ops.getD 0 0).toNat % 2 ^ w, Flags.none)
      | .vi imm => if t.cls = .angle then (wrapN w imm.toInt, Flags.none) else encode r.vt t (Val.mk imm.toInt 0)
    elementwise s k r m d w (some t) [] none fun _ => (some x.1, x.2)

/-- A conversion (R164). -/
def vopConvert (i : Instr) (sat : Bool) (form : CvtForm) (d a : VReg) (m : MReg) (s : State) : Out :=
  vectorInstr i [] none s fun k e =>
    let r := s.vrun k e false
    let w := cvtWidths form r.vt.sew
    let ts := r.v.tagOf a
    let td := r.v.tagOf d
    elementwise s k r m d w.2 (some td) [(a, w.1)] none fun n =>
      let x := if sat then cvtSatElement r.v r.vt ts td n (r.elem w.1 a n) else cvtElement r.v r.vt ts td n (r.elem w.1 a n)
      (some x.1, x.2)

/-- `vop.cvt` (R164). -/
def execVopCvt (form : CvtForm) (d a : VReg) (m : MReg) (s : State) : Out := vopConvert (.vopCvt form d a m) false form d a m s
/-- `vop.cvt.sat` (R164). -/
def execVopCvtSat (form : CvtForm) (d a : VReg) (m : MReg) (s : State) : Out := vopConvert (.vopCvtSat form d a m) true form d a m s

/-- `vop.fclass` (R165). -/
def execVopFclass (dst : ClassDst) (a : VReg) (m : MReg) (s : State) : Out :=
  vectorInstr (.vopFclass dst a m) (match dst with | .mask _ b => [b] | .vec _ => []) none s fun k e =>
    let r := s.vrun k e false
    let w := r.vt.sew
    let ta := r.v.tagOf a
    match dst with
    | .vec d =>
      elementwise s k r m d w (some (Tag.uintOf w)) [(a, w)] none fun n => (some (fclassBits ta (r.elem w a n)), Flags.none)
    | .mask d _ =>
      elementwiseMask s k r m d a [(a, w)] none fun n =>
        (decide (Nat.land (fclassBits ta (r.elem w a n)) ((r.e.ops.getD 0 0).toNat % 1024) ≠ 0), Flags.none)

end Sys2Proof.Machine
end

