-- ==== Sys2Proof/Machine/Vmem.lean ====
section
/-! DEFINITION. Vector loads and stores, shape records and MX segments: classes `vld` and `vst` (R179 to R196). -/
namespace Sys2Proof.Machine

/-! ## Elements in memory -/

/-- What an element of a vector access finds (R121, R184, R187). Only the cluster TLB serves the elements of an `idx` form
(R329). -/
def State.findElem (s : State) (k : Nat) (far : Bool) (acc : Acc) (va : W64) (z : Nat) : Found :=
  s.findBytes (.vector k) k far (s.front k).aspace (s.front k).sup acc va z z

/-- An element of an access: its index, address and what it finds. -/
structure Probe where
  i : Nat
  va : W64
  found : Found
  deriving DecidableEq, Repr

/-- How a form finds its elements: whether only the cluster TLB serves it (`idx`, R329), whether an element group costs one
cycle wherever it lies (R191), and the address of each element; none out of range (R194). -/
structure Form where
  far : Bool
  plain : Bool
  ea : Nat → Option W64

/-- The probes of the active elements in ascending order (R184). -/
def State.probes (s : State) (k : Nat) (acc : Acc) (z : Nat) (f : Form) (act : List Nat) : List Probe :=
  act.map fun i =>
    match f.ea i with
    | none => ⟨i, 0, .zero⟩
    | some va => ⟨i, va, s.findElem k f.far acc va z⟩

/-- The first probe that faults. -/
def firstFault (l : List Probe) : Option (Probe × Nat) :=
  l.findSome? fun (p : Probe) => match p.found with | .fault c => some (p, c) | _ => none

/-- The trap of a fault at an element of a context's access of n bytes (R185). -/
def State.memTrap (s : State) (k : Nat) (r : VRun) (far store : Bool) (w : Nat) (d : VReg) (i : Nat) (va : W64) (n code : Nat) : Stop :=
  ⟨i, { code := code, write := store, elem := i, tval := va,
        lane := if code = 10 then laneNumber r.v.grant (place r.lanes w d i).2.1 else 0 },
    some (s.failing k far (s.front k).aspace va n code)⟩

/-- Asks other devices for the bytes that probes miss. -/
def State.askAll (s : State) (k z : Nat) (l : List Probe) : State :=
  l.foldl (fun (s : State) (p : Probe) => match p.found with | .ask pa => s.askFor (.vector k) pa z | _ => s) s

/-- Does a probe lie on a byte of this device? -/
def Probe.covers (p : Probe) (z a : Nat) : Bool :=
  match p.found with
  | .at_ pa => !isDomain pa && decide (pa ≤ a) && decide (a < pa + z)
  | _ => false

/-- The bytes that probes touch. -/
def probeBytes (z : Nat) (l : List Probe) : List (Nat × Nat) := l.filterMap fun p => p.found.pa?.map fun pa => (pa, z)

/-- Does a probe wait for another device? -/
def Probe.waits (p : Probe) : Bool := match p.found with | .ask _ => true | _ => false

/-- The code that a probe loads. -/
def State.loaded (s : State) (z : Nat) (p : Probe) : Nat :=
  match p.found with
  | .at_ pa => s.readLE pa z
  | .given _ bs => ofBytesLE bs
  | _ => 0

/-- The agent adopts the newest of the generations of the elements that a load has read (R280), where those of another device
count as live (R356). -/
def State.adoptAll (s : State) (k z : Nat) (e : Entry) (l : List Probe) : State :=
  s.adoptVec k e (l.foldl (fun g (p : Probe) => match p.found with
    | .at_ pa => s.newest g (s.genRange pa z)
    | .given .. => s.newest g s.live
    | _ => g) s.oldestGen)

/-! ## What the hierarchy and the sampled profile see of an element group (R191, R262, R268, R394; log 62) -/

/-- The cycles that the banks take for the words of some scratchpad bytes: the most distinct words that share one bank of
one slice (R261, R262). -/
def bankCycles (pas : List Nat) : Nat :=
  let words := (pas.map fun pa => (pa - spBase) / 8).eraseDups
  let bank (w : Nat) : Nat × Nat := (w / 2 ^ 18, w % 2 ^ 18 % 383)
  let banks := words.map bank
  (banks.map fun b => (banks.filter (· = b)).length).foldl max 0

/-- The scratchpad bytes of probes. -/
def probeSlices (l : List Probe) : List Nat := l.filterMap fun p => match p.found with | .at_ pa => if isSp pa then some pa else none | _ => none

/-- The main-memory bytes of probes, with their virtual addresses. -/
def probeMain (l : List Probe) : List (W64 × Nat) :=
  l.filterMap fun p => match p.found with | .at_ pa => if isSp pa || isDomain pa then none else some (p.va, pa) | _ => none

/-- The cycles of an element group (R191, R262). -/
def groupCycles (f : Form) (l : List Probe) : Nat :=
  let sp := bankCycles (probeSlices l)
  let lines := ((probeMain l).map fun q => q.2 / 64).eraseDups.length
  let base := max (max 1 sp) (if f.plain then 1 else 1 + (lines - 8))
  if f.far then max base ((l.length + 15) / 16) else base

/-- The accesses of an element group: one for each element in a slice, one for each line of main memory, and a look-up for
an element of another device. -/
def groupTouches (k : Nat) (aspace : W64) (po z : Nat) (f : Form) (write : Bool) (h : BitVec 2) (l : List Probe) : List Touch :=
  let main := probeMain l
  let lines := (main.map fun q => q.2 / 64).eraseDups
  let away := l.filter fun p => match p.found with | .at_ pa | .given pa _ => isDomain pa | _ => false
  (l.filterMap fun p => match p.found with
    | .at_ pa => if isSp pa then some ⟨k, f.far, some (p.va, aspace), some (pa, z), write, h, some po⟩ else none
    | _ => none) ++
  (lines.filterMap fun n =>
    let here := main.filter fun q => q.2 / 64 = n
    here.head?.map fun q =>
      let full := (here.map (·.2)).eraseDups.length * z = 64
      ⟨k, f.far, some (q.1, aspace), some (if full then (64 * n, 64) else (q.2, z)), write, h, some po⟩) ++
  (away.map fun p => ⟨k, f.far, some (p.va, aspace), none, write, h, some po⟩)

/-- The element groups of the move of a frame: their probes. -/
def VRun.groups (r : VRun) (hi : Nat) (l : List Probe) : List (List Probe) :=
  let n := r.groupLen
  if n = 0 ∨ hi ≤ r.start then [] else (List.range ((hi - 1) / n + 1 - r.start / n)).map fun g => l.filter fun p => p.i / n = r.start / n + g

/-- The kind of target of bytes: own slice, another slice, main memory, another device (R394). -/
def targetKind (k pa : Nat) : Nat :=
  if isSp pa then (if spCore pa = coreOf k then 0 else 1) else if isDomain pa then 3 else 2

/-- The entry of an instruction that completes without an access: TIME and the front's next pc (R394). -/
def VRun.stamped (r : VRun) (s : State) (k : Nat) : Entry :=
  { r.e with tally := { r.e.tally with time := s.time, spc := (s.front k).pc } }

/-- What a move of a vector access adds to the record of its instruction (R394). -/
def VRun.gather (r : VRun) (s : State) (k hi : Nat) (f : Form) (l : List Probe) : VRun :=
  let t := r.e.tally
  let l := l.filter fun p => p.found.pa?.isSome
  let gs := r.groups hi l
  let add (a b : List Nat) : List Nat := (a ++ b).eraseDups
  { r with e := { r.e with tally := { t with
    target := match t.target with
      | some n => some n
      | none => (l.filterMap fun p => p.found.pa?).head?.map (targetKind k)
    elems := t.elems + l.length
    lines := add t.lines (l.map fun p => p.va.toNat / 64)
    pages := add t.pages ((l.filter fun p => !inWindow p.va).map fun p => p.va.toNat / 4096)
    cyc := t.cyc + (gs.map (groupCycles f)).sum
    conf := t.conf + (gs.map fun g => bankCycles (probeSlices g) - 1).sum
    time := s.time, spc := (s.front k).pc } } }

/-- Counts the cycles in which a bank of a slice held back an element group, by the slice bytes of the group (R272). -/
def State.countConflicts (s : State) (sp : List Nat) : State :=
  ((sp.map spCore).eraseDups).foldl (fun (s : State) c =>
    let n := bankCycles (sp.filter fun pa => spCore pa = c) - 1
    if n = 0 then s else s.countCore c 0x10 n) s

/-- Notes the accesses of a move, and counts the conflicts of its element groups (R272). -/
def State.noteMove (s : State) (k hi : Nat) (r : VRun) (f : Form) (write : Bool) (h : BitVec 2) (l : List Probe) : State :=
  let z := r.vt.sew / 8
  (r.groups hi l).foldl (fun (s : State) g =>
    (groupTouches k (s.front k).aspace r.e.po z f write h g).foldl State.note (s.countConflicts (probeSlices g))) s

/-! ## Loads -/

/-- The VL that a `vld.ff` settles on reaches the younger instructions up to the next `vcfg.setl`, and VL itself when
there is none; one that stands behind another `vld.ff` waits for that one too (R186, R247). -/
def Vec.trim (v : Vec) (e : Entry) (n : Nat) : Vec :=
  let younger := (v.infl ++ v.viq).filter fun x => decide (e.po < x.po)
  let last := (younger.find? fun x => isSetl x.word).map (·.po)
  let cut (x : BitVec 13) : BitVec 13 := BitVec.ofNat 13 (min x.toNat n)
  let trimmed (x : Entry) : Entry :=
    if decide (e.po < x.po) && x.ffv && last.all (fun po => decide (x.po < po)) then
      { x with vl := cut x.vl, ffv := younger.any fun y => decide (y.po < x.po) && isFf y.word && !y.done }
    else x
  { v with infl := v.infl.map trimmed, viq := v.viq.map trimmed, vl := if last.isSome then v.vl else cut v.vl }

/-- The tag that a load of a group writes: every write of a group sets the tag of all its members (R79), and a load
leaves the group's tag as it is (R183). -/
def VRun.ownTag (r : VRun) (d : VReg) : Option Tag := some (r.v.tagOf d)

/-- The probes below the first that faults. -/
def belowFault (l : List Probe) : List Probe :=
  match firstFault l with
  | some (p, _) => l.filter fun (q : Probe) => decide (q.i < p.i)
  | none => l

/-- What a load writes into its destination group: the loaded codes below `hi`. -/
def State.loadInto (s : State) (r : VRun) (m : MReg) (d : VReg) (tag : Option Tag) (l : List Probe) (hi : Nat) (fin : Bool) (v : Vec) : Vec :=
  let z := r.vt.sew / 8
  r.put m hi fin ⟨d, r.vt.sew, tag, fun i => (l.find? fun (p : Probe) => p.i = i).map (s.loaded z)⟩ v

/-- What the read of a move does beside its registers: the generations adopted, the accesses noted, and the bytes of other
devices used up. -/
def State.readMove (s : State) (k hi : Nat) (r : VRun) (f : Form) (h : BitVec 2) (l : List Probe) : State :=
  ((s.adoptAll k (r.vt.sew / 8) r.e l).noteMove k hi r f false h l).dropArrived (.vector k)

/-- A move of a load of the elements that a form gives (R183 to R185). `tag` is the tag written. -/
def vecLoad (s : State) (k : Nat) (r : VRun) (m : MReg) (d : VReg) (cls : Cls) (h : BitVec 2) (tag : Option Tag)
    (srcStop : Option Stop) (f : Form) : Out :=
  let w := r.vt.sew
  let z := w / 8
  let act := (r.actives m r.hi).filter fun i => match srcStop with | some x => decide (i < x.i) | none => true
  let l := s.probes k .load z f act
  let good := belowFault l
  if s.vecHeld k r.e cls (probeBytes z good) then .next s
  else if good.any Probe.waits then .next (s.askAll k z good)
  else
    let stop := match firstFault l with
      | some (p, c) => some (s.memTrap k r f.far false w d p.i p.va z c)
      | none => srcStop
    let hi := (stop.map (·.i)).getD r.hi
    vecFinish s k (r.gather s k hi f good) m stop none false (s.loadInto r m d tag good) (fun _ => 0)
      (fun s => s.readMove k hi r f h good)

/-- `vld.ff` (R186): a fault on the first active element traps, and a LDFAULT or BADADDR on a later one ends the load at
its index, which VL takes. -/
def vecLoadFirst (s : State) (k : Nat) (r : VRun) (m : MReg) (d : VReg) (cls : Cls) (h : BitVec 2) (f : Form) : Out :=
  let w := r.vt.sew
  let z := w / 8
  let r := { r with hi := r.vl }
  let act := r.actives m r.vl
  let l := s.probes k .load z f act
  let good := belowFault l
  if s.vecHeld k r.e cls (probeBytes z good) then .next s
  else if good.any Probe.waits then .next (s.askAll k z good)
  else
    let ended (n : Nat) (fin : Bool) (look : Option Touch) : Out :=
      let q := r.gather s k n f good
      let t := s.readMove k n r f h good
      let t := look.elim t t.note
      .next (t.setVec k (((if r.vl ≤ r.start then t.vec k else s.loadInto r m d (r.ownTag d) good n fin (t.vec k)).trim r.e n).complete
        { q.e with pix := BitVec.ofNat 13 n }))
    match firstFault l with
    | some (p, c) =>
      let x := s.memTrap k r f.far false w d p.i p.va z c
      if act.head? ≠ some p.i && (c = 7 || c = 14) then ended p.i false x.look
      else vecFinish s k (r.gather s k p.i f good) m (some x) none false
        (s.loadInto r m d (r.ownTag d) good) (fun _ => 0) (fun s => s.readMove k p.i r f h good)
    | none => ended r.vl true none

/-! ## Stores -/

/-- Joins an access to those of an agent that have not performed, in program order. -/
def Front.addAccess (f : Front) (x : Access) : Front :=
  { f with acc := f.acc.takeWhile (fun y => decide (y.po ≤ x.po)) ++ x :: f.acc.dropWhile fun y => decide (y.po ≤ x.po) }

/-- One store of at most 8 bytes of a vector instruction: here, or as a packet to another device (R344). Where it stalls
for a reserve batt, or an earlier element of the same bytes does, it joins the pending accesses of the context, and
performs later (R366). With the state it gives whether it has been written or has left. -/
def State.storeVec (s : State) (k : Nat) (e : Entry) (cls : Cls) (va : W64) (pa : Nat) (bytes : List Byte) : State × Bool :=
  let f := s.front k
  if isDomain pa then (s.send (deviceOf pa) (.write pa bytes) (.store k e.po cls [(pa, bytes.length)]), true)
  else
    let wait : State × Bool := (s.setFront k (f.addAccess
      ⟨.store bytes.length (BitVec.ofNat 64 (ofBytesLE bytes)), e.po, e.addr, va, pa, cls, 0, none, true⟩), false)
    if f.acc.any fun x => x.vector && overlap x.pa x.kind.size pa bytes.length then wait
    else match s.write (some k) f.curgen pa bytes with
      | some s => (s, true)
      | none => wait

/-- Stores the bytes of elements that probes have found; with the state, the probes that have been written or have left. -/
def State.storeEach (s : State) (k : Nat) (e : Entry) (cls : Cls) (bytes : Nat → List Byte) (l : List Probe) : State × List Probe :=
  l.foldl (fun (st : State × List Probe) (p : Probe) => match p.found with
    | .at_ pa =>
      let t := st.1.storeVec k e cls p.va pa (bytes p.i)
      (t.1, if t.2 then st.2 ++ [p] else st.2)
    | _ => (st.1, st.2 ++ [p])) (s, [])

/-- Stores elements of a group. -/
def State.storeProbes (s : State) (k : Nat) (r : VRun) (d : VReg) (cls : Cls) (l : List Probe) : State × List Probe :=
  let w := r.vt.sew
  let cap := 2 ^ codeBits (r.v.tagOf d) w
  s.storeEach k r.e cls (fun i => bytesLE (w / 8) (r.elem w d i % cap)) l

/-- What the stores of a move do beside the record of the instruction: the elements, errors, forked threads and the accesses
noted. A line that the elements of the move cover whole is a full-line write (R269, R380). -/
def State.storeMove (s : State) (k hi : Nat) (r : VRun) (d : VReg) (cls : Cls) (f : Form) (h : BitVec 2) (l : List Probe) : State :=
  let t := s.storeProbes k r d cls l
  ((t.1.healWhole (s.front k).curgen fun a => t.2.any fun (p : Probe) => p.covers (r.vt.sew / 8) a).forkOn k
    (s.vecForks k r.e)).noteMove k hi r f true h t.2

/-- A move of a store of the active elements that a form gives (R183 to R185). -/
def vecStore (s : State) (k : Nat) (r : VRun) (m : MReg) (d : VReg) (cls : Cls) (h : BitVec 2) (srcStop : Option Stop)
    (f : Form) : Out :=
  let w := r.vt.sew
  let z := w / 8
  let l := s.probes k .store z f (r.actives m r.hi)
  let bad := (firstFault l).map fun (p : Probe × Nat) => s.memTrap k r f.far true w d p.1.i p.1.va z p.2
  let stop := Stop.first (Stop.first srcStop (r.uecc m [(d, w)])) bad
  let good := match stop with | some x => l.filter fun (q : Probe) => decide (q.i < x.i) | none => l
  if s.vecHeld k r.e cls (probeBytes z good) then .next s
  else
    let hi := (stop.map (·.i)).getD r.hi
    vecFinish s k (r.gather s k hi f good) m stop none false (fun _ _ v => v) (fun _ => 0)
      fun s => s.storeMove k hi r d cls f h good

/-! ## Addresses of elements -/

/-- May a register group hold offsets (R182)? -/
def offsetsOk (v : Vec) (vt : VType) (b : VReg) : Bool :=
  let t := v.tagOf b
  (t.cls = .integer || t.cls = .pointer) && t.width = vt.sew

/-- The form of a load or store whose addresses come from captured operands (R180, R181). -/
def elemForm (i : Instr) (r : VRun) : Form :=
  ⟨false, match i with | .vldUnit .. | .vstUnit .. | .vldFf .. => true | _ => false, elemVa i (r.vt.sew / 8) r.e.ops⟩

/-- The form of an indexed access (R182). -/
def VRun.idxForm (r : VRun) (b : VReg) : Form := ⟨true, false, fun n => some (r.e.ops.getD 0 0 + r.v.offsetAt r.vt b n)⟩

/-- The form of an access by a shape record (R194, R195). -/
def VRun.shapeForm (r : VRun) (t : Shape) : Form :=
  ⟨false, t.stride.getD 0 0 = BitVec.ofNat 64 (r.vt.sew / 8), t.addr (r.e.ops.getD 0 0)⟩

/-! ## The instructions -/

/-- `vld.unit` (R180, R184). -/
def execVldUnit (d : VReg) (a : XReg) (cls : Cls) (h : BitVec 2) (m : MReg) (s : State) : Out :=
  vectorInstr (.vldUnit d a cls h m) [a] none s fun k e =>
    let r := s.vrun k e false
    vecLoad s k r m d cls h (r.ownTag d) none (elemForm (.vldUnit d a cls h m) r)

/-- `vld.str` (R180, R184). -/
def execVldStr (d : VReg) (a b : XReg) (cls : Cls) (h : BitVec 2) (m : MReg) (s : State) : Out :=
  vectorInstr (.vldStr d a b cls h m) [a, b] none s fun k e =>
    let r := s.vrun k e false
    vecLoad s k r m d cls h (r.ownTag d) none (elemForm (.vldStr d a b cls h m) r)

/-- `vld.2d` (R180, R181, R184). -/
def execVld2d (d : VReg) (a b : XReg) (cls : Cls) (h : BitVec 2) (m : MReg) (s : State) : Out :=
  vectorInstr (.vld2d d a b cls h m) [a, b, b + 1] none s fun k e =>
    let r := s.vrun k e false
    vecLoad s k r m d cls h (r.ownTag d) none (elemForm (.vld2d d a b cls h m) r)

/-- `vld.idx` (R182, R184). -/
def execVldIdx (d : VReg) (a : XReg) (b : VReg) (cls : Cls) (h : BitVec 2) (m : MReg) (s : State) : Out :=
  vectorInstr (.vldIdx d a b cls h m) [a] none s fun k e =>
    let r := s.vrun k e false
    if !offsetsOk r.v r.vt b then s.rejectVec k e 3
    else vecLoad s k r m d cls h (r.ownTag d) (r.uecc m [(b, r.vt.sew)]) (r.idxForm b)

/-- `vld.ff` (R186). -/
def execVldFf (d : VReg) (a : XReg) (cls : Cls) (h : BitVec 2) (m : MReg) (s : State) : Out :=
  vectorInstr (.vldFf d a cls h m) [a] none s fun k e =>
    let r := s.vrun k e false
    vecLoadFirst s k r m d cls h (elemForm (.vldFf d a cls h m) r)

/-- `vst.unit` (R180, R184). -/
def execVstUnit (d : VReg) (a : XReg) (cls : Cls) (h : BitVec 2) (m : MReg) (s : State) : Out :=
  vectorInstr (.vstUnit d a cls h m) [a] none s fun k e =>
    let r := s.vrun k e false
    vecStore s k r m d cls h none (elemForm (.vstUnit d a cls h m) r)

/-- `vst.str` (R180, R184). -/
def execVstStr (d : VReg) (a b : XReg) (cls : Cls) (h : BitVec 2) (m : MReg) (s : State) : Out :=
  vectorInstr (.vstStr d a b cls h m) [a, b] none s fun k e =>
    let r := s.vrun k e false
    vecStore s k r m d cls h none (elemForm (.vstStr d a b cls h m) r)

/-- `vst.2d` (R180, R181, R184). -/
def execVst2d (d : VReg) (a b : XReg) (cls : Cls) (h : BitVec 2) (m : MReg) (s : State) : Out :=
  vectorInstr (.vst2d d a b cls h m) [a, b, b + 1] none s fun k e =>
    let r := s.vrun k e false
    vecStore s k r m d cls h none (elemForm (.vst2d d a b cls h m) r)

/-- `vst.idx` (R182, R184). -/
def execVstIdx (d : VReg) (a : XReg) (b : VReg) (cls : Cls) (h : BitVec 2) (m : MReg) (s : State) : Out :=
  vectorInstr (.vstIdx d a b cls h m) [a] none s fun k e =>
    let r := s.vrun k e false
    if !offsetsOk r.v r.vt b then s.rejectVec k e 3
    else vecStore s k r m d cls h (r.uecc m [(b, r.vt.sew)]) (r.idxForm b)

/-! ## Segments (R50, R195, R196) -/

/-- The physical runs of a segment: its 16-byte pieces, joined where they follow one another, each with its length. -/
def joinPieces : List Nat → List (Nat × Nat)
  | [] => []
  | p :: ps =>
    match joinPieces ps with
    | (q, n) :: rest => if p + 16 = q && deviceOf p = deviceOf (q + n - 1) then (p, n + 16) :: rest else (p, 16) :: (q, n) :: rest
    | [] => [(p, 16)]

/-- The runs of a segment at an address, or the first failing check, made on its 16-byte pieces in ascending order (R121, R187,
R195, R196). An address that is no multiple of 16 fails as a misaligned one (DESIGN CHOICE for `vld.shape`: R50 begins a segment
on a 16-byte boundary, and R195 names no trap; log 41). -/
def State.segCheck (s : State) (k : Nat) (acc : Acc) (va : W64) (size : Nat) : Except Nat (List (Nat × Nat)) :=
  let pieces : Except Nat (List Nat) := (List.range (size / 16)).foldl
    (fun o j => match o with
      | .error c => .error c
      | .ok l =>
        match s.checkFor (.vector k) k false (s.front k).aspace (s.front k).sup acc (va + BitVec.ofNat 64 (16 * j)) 16 16 with
        | .error c => .error c
        | .ok (pa, io) =>
          if io then .error acc.code
          else if acc = .load && !isDomain pa && s.uecc pa 16 then .error 10
          else .ok (l ++ [pa])) (.ok [])
  match pieces with
  | .error c => .error c
  | .ok l => .ok (joinPieces l)

/-- The physical address of byte `off` of a segment with given runs. -/
def runAt : List (Nat × Nat) → Nat → Nat
  | [], _ => 0
  | (p, n) :: rest, off => if off < n then p + off else runAt rest (off - n)

/-- Runs of other devices, by device. -/
def byDevice (runs : List (Nat × Nat)) : List (List (Nat × Nat)) :=
  ((runs.map fun q => deviceOf q.1).eraseDups).map fun d => runs.filter fun q => deviceOf q.1 = d

/-- What one segment of a load gives: its bytes, a fault, or runs of other devices to be asked for, those of one device in one
request. -/
inductive SegFound where
  | bytes (b : List Byte) | fault (code : Nat) | ask (runs : List (List (Nat × Nat)))
  deriving DecidableEq, Repr

/-- The bytes of a segment from its runs. All its runs on one device are one request (R284; log 62). -/
def State.segBytes (s : State) (k : Nat) (runs : List (Nat × Nat)) : SegFound :=
  let away := runs.filter fun q => isDomain q.1
  let parts := runs.map fun q =>
    if isDomain q.1 then s.arrivedFor (.vector k) q.1 q.2 else some (.data (bytesLE q.2 (s.readLE q.1 q.2)))
  let bad := parts.findSome? fun o => match o with | some (.status n) => some (remoteCode n) | _ => none
  match bad with
  | some c => .fault c
  | none =>
    if parts.any (·.isNone) then .ask (byDevice away)
    else .bytes (parts.flatMap fun o => match o with | some (.data bs) => bs | _ => [])

/-- Element j of a segment's bytes (R50). -/
def segElem (t : Tag) (bytes : List Byte) (j : Nat) : Nat :=
  let b := codeBits t 8
  let lo := b * j
  let two := (bytes.getD (16 + lo / 8) 0).toNat + 256 * (bytes.getD (16 + lo / 8 + 1) 0).toNat
  two / 2 ^ (lo % 8) % 2 ^ b

/-- The byte positions of a segment that element j touches (R50). -/
def segTouched (t : Tag) (j : Nat) : List Nat :=
  let b := codeBits t 8
  let lo := 16 + b * j / 8
  let hi := 16 + (b * j + b - 1) / 8
  if lo = hi then [lo] else [lo, hi]

/-- A segment of a load (R195). -/
def State.segLoad (s : State) (k : Nat) : Except Nat (List (Nat × Nat)) → SegFound
  | .error c => .fault c
  | .ok runs => s.segBytes k runs

/-- The agent adopts the newest of the generations of the runs of segments that it has read (R280, R356). -/
def State.adoptRuns (s : State) (k : Nat) (e : Entry) (runs : List (Nat × Nat)) : State :=
  s.adoptVec k e (runs.foldl (fun g q => s.newest g (if isDomain q.1 then s.live else s.genRange q.1 q.2)) s.oldestGen)

/-- Notes the reads of a segment at an address: one for each of its runs, and a look-up for a run of another device
(R268, R329; log 62). -/
def State.noteRuns (s : State) (k : Nat) (e : Entry) (h : BitVec 2) (va : W64) (runs : List (Nat × Nat)) : State :=
  (runs.foldl (fun (st : Nat × State) q =>
    (st.1 + q.2, st.2.note ⟨k, false, some (va + BitVec.ofNat 64 st.1, (s.front k).aspace),
      if isDomain q.1 then none else some q, false, h, some e.po⟩)) (0, s)).2

/-- A segment that a move has read or written: its address, its runs, and the elements of the instruction that it has processed
there, with the places of their bytes in the segment. -/
structure Seg where
  va : W64
  runs : List (Nat × Nat)
  elems : List (Nat × List Nat)

/-- The slice bytes of each element group of a move over MX segments. -/
def VRun.segSlices (r : VRun) (segs : List Seg) : List (List Nat) :=
  let bytes := segs.flatMap fun g => g.elems.map fun q => (q.1, (q.2.map (runAt g.runs)).filter isSp)
  ((bytes.map fun q => q.1 / r.groupLen).eraseDups).map fun n => (bytes.filter fun q => q.1 / r.groupLen = n).flatMap (·.2)

/-- The element groups from the start of a move up to an element. -/
def VRun.groupCount (r : VRun) (hi : Nat) : Nat :=
  if r.groupLen = 0 ∨ hi ≤ r.start then 0 else (hi - 1) / r.groupLen + 1 - r.start / r.groupLen

/-- What a move over MX segments adds to the record of its instruction (R191, R262, R394), up to an element. -/
def VRun.gatherSegs (r : VRun) (s : State) (k size hi : Nat) (segs : List Seg) : VRun :=
  let t := r.e.tally
  let add (a b : List Nat) : List Nat := (a ++ b).eraseDups
  let ends (g : Seg) : List W64 := (List.range ((size + 15) / 16)).map fun j => g.va + BitVec.ofNat 64 (16 * j)
  let back := ((r.segSlices segs).map fun sp => bankCycles sp - 1).sum
  { r with e := { r.e with tally := { t with
    target := match t.target with
      | some n => some n
      | none => (segs.flatMap fun g => g.runs.map (·.1)).head?.map (targetKind k)
    elems := t.elems + (segs.map fun g => g.elems.length).sum
    lines := add t.lines ((segs.flatMap ends).map fun va => va.toNat / 64)
    pages := add t.pages (((segs.flatMap ends).filter fun va => !inWindow va).map fun va => va.toNat / 4096)
    cyc := t.cyc + r.groupCount hi + back + 4 * segs.length
    conf := t.conf + back
    time := s.time, spc := (s.front k).pc } } }

/-- `vld.shape` over MX segments (R195): elements one per byte, and each touched segment's scale into the scale
registers. -/
def loadSegments (s : State) (k : Nat) (r : VRun) (m : MReg) (d : VReg) (cls : Cls) (h : BitVec 2) (t : Shape) : Out :=
  if r.vt.sew ≠ 8 then s.rejectVec k r.e 3
  else
    let size := segSize t.tag
    let pos (i : Nat) : Option Nat := walkPos t.ext t.start t.bounds i
    let segVa (q : Nat) : W64 := t.base + r.e.ops.getD 0 0 + BitVec.ofNat 64 q * t.stride.getD 0 0
    let act := r.actives m r.hi
    let segs := (act.filterMap fun i => (pos i).map fun p => p / 1024).eraseDups
    let checks := segs.map fun q => (q, s.segCheck k .load (segVa q) size)
    let found := checks.map fun p => (p.1, s.segLoad k p.2)
    let at_ (q : Nat) : Option SegFound := (found.find? fun p => p.1 = q).map (·.2)
    let bad := act.findSome? fun i => (pos i).bind fun p => match at_ (p / 1024) with
      | some (.fault c) => some (i, segVa (p / 1024), c)
      | _ => none
    let good := match bad with | some (j, _) => act.filter fun i => decide (i < j) | none => act
    let read := (good.filterMap fun i => (pos i).map fun p => p / 1024).eraseDups
    let gone : List Seg := checks.filterMap fun p => match p.2 with
      | .ok l =>
        if read.contains p.1 then
          some ⟨segVa p.1, l, good.filterMap fun i => (pos i).bind fun n => if n / 1024 = p.1 then some (i, segTouched t.tag (n % 1024)) else none⟩
        else none
      | .error _ => none
    let runs := gone.flatMap (·.runs)
    let asks := read.flatMap fun q => match at_ q with | some (.ask l) => l | _ => []
    if s.vecHeld k r.e cls runs then .next s
    else if !asks.isEmpty then .next (asks.foldl (fun s l => s.askSegment (.vector k) l) s)
    else
      let bytesOf (i : Nat) : Option (Nat × List Byte) := (pos i).bind fun p => match at_ (p / 1024) with
        | some (.bytes b) => some (p % 1024, b)
        | _ => none
      let res (i : Nat) : Option Nat := if good.contains i then some (match bytesOf i with
        | some (j, b) => segElem t.tag b j
        | none => 0) else none
      let scales (v : Vec) : Vec := good.foldl (fun v i => match bytesOf i with
        | some (_, b) => { v with e := v.e.setIfInBounds ((i / 2 ^ r.vt.bl + v.scalebase.toNat) % 256) (b.getD 0 0) }
        | none => v) v
      let hi := (bad.map (·.1)).getD r.hi
      vecFinish s k (r.gatherSegs s k size hi gone) m
        (bad.map fun p => s.memTrap k r false false 8 d p.1 p.2.1 size p.2.2) none false
        (fun hi fin v => scales (r.put m hi fin ⟨d, 8, some t.tag, res⟩ v)) (fun _ => 0) fun s =>
          let s := (r.segSlices gone).foldl State.countConflicts (s.adoptRuns k r.e runs)
          (gone.foldl (fun (s : State) g => s.noteRuns k r.e h g.va g.runs) s).dropArrived (.vector k)

/-- Reads the record of an instruction: a trap, or the shape (R192, R193, R379). -/
def withShape (s : State) (k : Nat) (r : VRun) (use : ShapeUse) (b : VReg) (go : Shape → Out) : Out :=
  match r.v.recordBad b with
  | some j =>
    let p := place r.lanes 64 b j
    s.stopVec k r.e r.e.pix.toNat { code := 10, elem := j, lane := laneNumber r.v.grant p.2.1, reg := some (p.1, p.2.1) }
  | none =>
    match readShape use (r.v.recordWord b) with
    | .error c => s.rejectVec k r.e c
    | .ok t => go t

/-- The frame of a shape form, whose record's first stride the sampled profile takes (R394). -/
def VRun.strided (r : VRun) (t : Shape) : VRun := { r with e := { r.e with tally := { r.e.tally with stride := some (t.stride.getD 0 0) } } }

/-- `vld.shape` (R195). -/
def execVldShape (d : VReg) (a : XReg) (b : VReg) (cls : Cls) (h : BitVec 2) (m : MReg) (s : State) : Out :=
  vectorInstr (.vldShape d a b cls h m) [a] none s fun k e =>
    let r := s.vrun k e false
    if r.lanes = 0 then .next (s.setVec k ((s.vec k).complete (r.stamped s k)))
    else withShape s k r .load b fun t =>
      if t.mxs then loadSegments s k (r.strided t) m d cls h t
      else if t.tag.width ≠ r.vt.sew then s.rejectVec k e 3
      else vecLoad s k (r.strided t) m d cls h (some t.tag) none (r.shapeForm t)

/-- `vst.shape` (R195). -/
def execVstShape (d : VReg) (a : XReg) (b : VReg) (cls : Cls) (h : BitVec 2) (m : MReg) (s : State) : Out :=
  vectorInstr (.vstShape d a b cls h m) [a] none s fun k e =>
    let r := s.vrun k e false
    if r.lanes = 0 then .next (s.setVec k ((s.vec k).complete (r.stamped s k)))
    else withShape s k r .store b fun t =>
      if t.tag.width ≠ r.vt.sew then s.rejectVec k e 3
      else vecStore s k (r.strided t) m d cls h none (r.shapeForm t)

/-- A byte of a segment as the elements that are written into it change it: the bits of the new codes, and which bits they are. -/
def segBits (t : Tag) (code : Nat → Option Nat) (pos : Nat) : Byte × Byte :=
  let b := codeBits t 8
  let at_ (j : Nat) : Option Bool := let n := 8 * (pos - 16) + j
    (code (n / b)).map fun c => c.testBit (n % b)
  let sum (f : Option Bool → Bool) : Byte := BitVec.ofNat 8 ((List.range 8).foldl (fun a j => if f (at_ j) then a + 2 ^ j else a) 0)
  (sum fun o => o = some true, sum Option.isSome)

/-- What a `vst.mx` changes of byte p of segment q: the scale, the reserved zeros, and the bits of active elements (R50, R196). -/
def segWrites (r : VRun) (m : MReg) (d : VReg) (t : Tag) (q p : Nat) : Option (Byte × Byte) :=
  let code (j : Nat) : Option Nat :=
    let i := 1024 * q + j
    if j < 1024 && r.active m i then some (r.elem 8 d i % 2 ^ codeBits t 8) else none
  if p = 0 then some (r.v.e.getD ((1024 * q / 2 ^ r.vt.bl + r.v.scalebase.toNat) % 256) 0, 0xFF)
  else if p < 16 then some (0, 0xFF)
  else
    let w := segBits t code p
    if w.2 = 0 then none else some w

/-- The bytes of a segment that change, with their places in it. -/
def segPatches (runs : List (Nat × Nat)) (size : Nat) (byteAt : Nat → Option (Byte × Byte)) : List (Nat × Patch) :=
  (List.range size).filterMap fun p => (byteAt p).map fun w => (p, ⟨runAt runs p, w.1, w.2⟩)

/-- Notes the writes of a segment at an address: one for each slice, one for each line of main memory, which is written whole
where all its bytes are, and a look-up for each other device (R268, R269, R329; log 62). -/
def State.noteSegment (s : State) (k : Nat) (e : Entry) (h : BitVec 2) (va : W64) (l : List (Nat × Patch)) : State :=
  let unit (q : Nat × Patch) : Nat := if isSp q.2.pa then spBase + spCore q.2.pa else if isDomain q.2.pa then 2 ^ 58 + deviceOf q.2.pa else lineOf q.2.pa
  ((l.map unit).eraseDups).foldl (fun (s : State) u =>
    let here := l.filter fun q => unit q = u
    match here.head? with
    | none => s
    | some q =>
      let bytes : Option (Nat × Nat) :=
        if isDomain q.2.pa then none
        else if !isSp q.2.pa && decide ((here.filter fun x => x.2.mask = 0xFF).length = 64) then some (64 * u, 64)
        else some (q.2.pa, 1)
      s.note ⟨k, false, some (va + BitVec.ofNat 64 q.1, (s.front k).aspace), bytes, true, h, some e.po⟩) s

/-- Segment q of a `vst.mx`, at an address: header and active elements written together (R196). What lies on this device joins the
pending accesses of the context, among which the segments of one instruction are unordered; what lies on another leaves as one
request (log 62). None while an older access holds the latter back. -/
def State.segStore (s : State) (k : Nat) (r : VRun) (cls : Cls) (h : BitVec 2) (va : W64) (l : List (Nat × Patch)) : Option State :=
  let away := (l.filter fun x => isDomain x.2.pa).map (·.2)
  let here := (l.filter fun x => !isDomain x.2.pa).map (·.2)
  if !away.isEmpty && s.vecHeld k r.e cls (away.map fun p => (p.pa, 1)) then none
  else
    let s := s.noteSegment k r.e h va l
    let s := match here with
      | [] => s
      | p :: _ => s.setFront k ((s.front k).addAccess ⟨.segment here, r.e.po, r.e.addr, va, p.pa, cls, 0, none, true⟩)
    some (((away.map fun p => deviceOf p.pa).eraseDups).foldl (fun (s : State) dev =>
      let part := away.filter fun p => deviceOf p.pa = dev
      s.sendSegment dev part (.store k r.e.po cls (part.map fun p => (p.pa, 1)))) s)

/-- How far storing segments has come: the segments stored, the stop that ended it, and the state. -/
structure SegProgress where
  stored : List Seg
  stop : Option Stop
  s : State

/-- Stores segments until one faults, meets an unreadable source element, or has to wait (R121, R196, R379). An unreadable source
element stops its whole segment, so that the resume index is a multiple of 1,024. -/
def storeSegments (k : Nat) (r : VRun) (m : MReg) (d : VReg) (cls : Cls) (t : Tag) (h : BitVec 2) (src : Option Stop) :
    List Nat → SegProgress → SegProgress
  | [], p => p
  | q :: qs, p =>
    let va := r.e.ops.getD 0 0 + BitVec.ofNat 64 (q * segSize t)
    match p.s.segCheck k .store va (segSize t) with
    | .error c => { p with stop := some (p.s.memTrap k r false true 8 d (1024 * q) va 16 c) }
    | .ok runs =>
      match src.filter fun x => decide (x.i / 1024 = q) with
      | some x => { p with stop := some { x with i := 1024 * q } }
      | none =>
        match p.s.segStore k r cls h va (segPatches runs (segSize t) (segWrites r m d t q)) with
        | none => p
        | some s =>
          let elems := (r.actives m r.vl).filterMap fun i => if i / 1024 = q then some (i, segTouched t (i % 1024)) else none
          storeSegments k r m d cls t h src qs { p with stored := p.stored ++ [⟨va, runs, elems⟩], s := s }

/-- `vst.mx` (R196). A move takes whole segments. An address that is no multiple of 16 fails at the first segment, which is that of
element VSTART. -/
def execVstMx (d : VReg) (a : XReg) (cls : Cls) (h : BitVec 2) (m : MReg) (s : State) : Out :=
  vectorInstr (.vstMx d a cls h m) [a] none s fun k e =>
    let r := s.vrun k e false
    let t := r.v.tagOf d
    if r.vt.sew ≠ 8 || !t.isMx then s.rejectVec k e 3
    else if r.start % 1024 ≠ 0 then s.rejectVec k e 2
    else if r.vl ≤ r.start then .next (s.setVec k ((s.vec k).complete (r.stamped s k)))
    else
      let first := r.start / 1024
      let last := if r.ends then (r.vl + 1023) / 1024 else max (r.hi / 1024) (first + 1)
      let p := storeSegments k r m d cls t h ({ r with hi := r.vl }.uecc m [(d, 8)]) ((List.range last).filter fun q => decide (first ≤ q))
        ⟨[], none, s⟩
      let n := first + p.stored.length
      let g := (r.gatherSegs s k (segSize t) (min r.vl (1024 * n)) p.stored).e
      let u := (r.segSlices p.stored).foldl State.countConflicts p.s
      if r.vl ≤ 1024 * n then .next (u.setVec k ((u.vec k).complete g))
      else if first < n then .next (u.setVec k ((u.vec k).progress g (1024 * n)))
      else
        match p.stop with
        | some x => if s.mayTrap k e then .next ((x.look.elim s s.note).vectorTrap k e x.i x.trap) else .next s
        | none => .next s

end Sys2Proof.Machine
end

