-- ==== Sys2Proof/Machine/Engine.lean ====
section
/-! DEFINITION. Engine threads in common: their ranges, the range checker, the fork, and their number (R209, R216,
R217, R255). -/
namespace Sys2Proof.Machine

/-- A range of bytes of the scratchpad window, by offset, and whether it is written. -/
structure SpRange where
  lo : Int
  hi : Int
  write : Bool
  deriving DecidableEq, Repr

/-- The start of the scratchpad window as a signed number (R260). -/
def windowBase : Int := (0xFFFFF00000000000#64).toInt

/-- The part of an address interval that lies in the scratchpad window (R255). -/
def spPart (lo hi : Int) (write : Bool) : List SpRange :=
  let a := max 0 (lo - windowBase)
  let b := min (2 ^ 29) (hi - windowBase)
  if a < b then [⟨a, b, write⟩] else []

/-- The interval that h rows of l bytes cover, `stride` bytes apart (R213, R216). -/
def rowsInterval (va : W64) (stride : W64) (h l : Nat) : Int × Int :=
  let d := stride.toInt * ((h : Int) - 1)
  (va.toInt + min 0 d, va.toInt + max 0 d + l)

/-- The rows and their length in a `copy2d` size (R213). -/
def copyRows (n : W64) : Nat × Nat := ((n.extractLsb' 32 32).toNat, (n.extractLsb' 0 32).toNat)

/-- The K-blocks that one pass covers, by SP: dense, 4 of 8, 2 of 8 (R222). -/
def kBlocks (sp : BitVec 2) : Nat := if sp = 0 then 8 else if sp = 1 then 16 else 32

/-- The bytes that a part of a weight set takes from memory (R222). -/
def wldBytes (part sp : BitVec 2) : Nat := if part = 0 then 1048576 else if part = 1 then 128 * kBlocks sp else 393216

/-- The scratchpad ranges of an engine thread (R216, R255). A weight load reads its source; a `fab.add96` updates its slot, and a
`fab.notify` writes its word (R273, R349, R350). -/
def Thread.ranges (t : Thread) : List SpRange :=
  match t.kind with
  | .copy _ dst src n => spPart dst.toInt (dst.toInt + n) true ++ spPart src.toInt (src.toInt + n) false
  | .copy2d _ dst src ds ss h l =>
    let a := rowsInterval dst ds h l
    let b := rowsInterval src ss h l
    spPart a.1 a.2 true ++ spPart b.1 b.2 false
  | .fill _ dst n _ => spPart dst.toInt (dst.toInt + n) true
  | .wld _ src _ part sp _ => spPart src.toInt (src.toInt + wldBytes part sp) false
  | .add96 _ va _ _ => spPart va.toInt (va.toInt + 16) true
  | .notify va _ _ => spPart va.toInt (va.toInt + 8) true

/-- The scratchpad range of a bound stream: from its lowest to its highest byte (R209). -/
def Stream.ranges (t : Stream) : List SpRange :=
  let z : Nat := (t.tag?.map fun g => g.width / 8).getD 1
  let dim (k : Nat) : Int := (t.stride.getD k 0).toInt * (((t.ext.getD k 1).toNat : Int) - 1)
  let lo := t.base.toInt + min 0 (dim 0) + min 0 (dim 1) + min 0 (dim 2)
  let hi := t.base.toInt + max 0 (dim 0) + max 0 (dim 1) + max 0 (dim 2) + z
  spPart lo hi t.out

/-- Do two lists of ranges overlap in bytes that at least one side writes? -/
def rangesMeet (a b : List SpRange) : Bool := a.any fun x => b.any fun y => (x.write || y.write) && decide (x.lo < y.hi) && decide (y.lo < x.hi)

/-- Is a thread held in the range checker of a core (R255)? Of a drone's threads only its copies and weight loads are. -/
def Thread.inChecker (t : Thread) (g : Nat) : Bool :=
  if isDrone t.agent then
    (match t.kind with | .add96 .. | .notify .. => false | _ => true) && clusterOf t.agent = g / 4 && t.ranges.any fun r => decide (r.lo < ((g : Int) + 1) * 2 ^ 21) && decide ((g : Int) * 2 ^ 21 < r.hi)
  else coreOf t.agent = g

/-- The cores whose range checkers hold a thread. -/
def Thread.checkers (t : Thread) : List Nat :=
  if isDrone t.agent then ((List.range 4).map fun q => 4 * clusterOf t.agent + q).filter t.inChecker else [coreOf t.agent]

/-- The streams of a core's contexts. -/
def State.coreStreams (s : State) (g : Nat) : List Stream := (List.range 4).flatMap fun q => (s.vec (4 * g + q)).s.toList.filterMap id

/-- Must a command of a core, with place `seq` in the issue order, wait for an older overlapping entry (R255)? -/
def State.checkerBusy (s : State) (g seq : Nat) (ranges : List SpRange) : Bool :=
  (s.threads.any fun t => decide (t.id < seq) && t.inChecker g && rangesMeet t.ranges ranges) ||
    ((s.coreStreams g).any fun t => decide (t.seq < seq) && rangesMeet t.ranges ranges)

/-- The engine threads of a core: copies and fills of its contexts, their bound streams, and weight loads of the drone
whose source lies in its slice (R217). -/
def State.threadCount (s : State) (g : Nat) : Nat :=
  (s.threads.filter fun t => t.inChecker g && (match t.kind with
    | .copy .. | .copy2d .. | .fill .. => !isDrone t.agent
    | .wld .. => true
    | _ => false)).length + (s.coreStreams g).length

/-- Does a core have room for one more thread of a command (R217)? -/
def State.threadRoom (s : State) (t : Thread) : Bool := t.checkers.all fun g => decide (s.threadCount g < 16)

/-- An agent forks an engine thread: it takes its place in the issue order, and its token register waits (R213, R215). -/
def State.fork (s : State) (a : Nat) (t : Thread) (d : Option XReg) : State :=
  let f := s.front a
  let s := { s with threads := s.threads ++ [t], threadSeq := s.threadSeq + 1 }
  let s := match d with | some d => s.setFront a (f.setPend d) | none => s
  s.retire a (f.pc + 4)

/-- The thread that an agent forks now. -/
def State.newThread (s : State) (a : Nat) (kind : ThreadKind) (cls : Cls) : Thread :=
  let f := s.front a
  { id := s.threadSeq, agent := a, po := f.po, kind := kind, cls := cls, aspace := f.aspace, sup := f.sup,
    gen := f.curgen, started := false, sent := none, pos := 0, err := none }

/-- The thread with an identifier. -/
def State.thread (s : State) (t : Nat) : Option Thread := s.threads.find? fun x => x.id = t

/-- Replaces a thread. -/
def State.setThread (s : State) (t : Thread) : State := { s with threads := s.threads.map fun x => if x.id = t.id then t else x }

/-- At an ovl edge the later threads and streams of a core adopt the generation of the entry that leaves its checker
(R280). -/
def State.ovlAdopt (s : State) (cores : List Nat) (seq : Nat) (ranges : List SpRange) (gen : BitVec 2) : State :=
  if ranges.isEmpty then s
  else
    let s := { s with threads := s.threads.map fun (x : Thread) =>
      if seq < x.id && (cores.any x.inChecker) && rangesMeet ranges x.ranges then { x with gen := s.newest x.gen gen } else x }
    { s with vecs := s.vecs.map fun (p : Nat × Vec) =>
      if cores.contains (coreOf p.1) then
        (p.1, { p.2 with s := p.2.s.map fun o => o.map fun (t : Stream) =>
          if seq < t.seq && rangesMeet ranges t.ranges then { t with gen := s.newest t.gen gen } else t })
      else p }

/-- A thread ends: its completion value waits for the read of its token register, which is the join (R214, R215, R280). -/
def State.endThread (s : State) (t : Thread) (d : Option XReg) (v : W64) : State :=
  let s := ({ s with threads := s.threads.filter fun x => x.id ≠ t.id }.dropArrived (.thread t.id)).dropArrived (.written t.id)
  let s := s.ovlAdopt t.checkers t.id t.ranges t.gen
  match d with
  | some d =>
    if d = 0 then s
    else s.setFront t.agent { s.front t.agent with tokens := ⟨d, v, t.gen⟩ :: (s.front t.agent).tokens }
  | none => s

/-- An error completion value (R214). -/
def errorValue (code : Nat) (off : Nat) : W64 := 1#1 ++ BitVec.ofNat 7 code ++ 0#16 ++ BitVec.ofNat 40 off

/-- The completion code of a failed access of a thread (R121, R187, R214): the source code, or the destination's. -/
def threadCode (code : Nat) : Nat :=
  if code = 7 then 1 else if code = 8 then 2 else if code = 10 then 4 else if code = 11 then 5 else 3

/-- What an access of n bytes of a thread finds (R121, R187, R214). The bytes lie in one unit of the checks. -/
def State.findThread (s : State) (t : Thread) (acc : Acc) (va : W64) (n : Nat) : Found :=
  s.findBytes (.thread t.id) t.agent true t.aspace t.sup acc va 1 n

/-- The thread adopts the generation of bytes that it reads (R280). -/
def Thread.adopt (s : State) (t : Thread) (g : BitVec 2) : Thread := { t with gen := s.newest t.gen g }

/-! ## Notify words (R350) -/

/-- A notify word is written at a physical address of the device or sent to another one; a word that cannot be written is
dropped and counted in NGLOST (R345, R350, R364, R387). None when its write stalls (R366). -/
def State.notifyWrite (s : State) (gen : BitVec 2) (pa : Nat) (v : W64) : Option State :=
  if isDomain pa && deviceOf pa ≠ s.flash.deviceId then
    some (if s.routed (deviceOf pa) then s.send (deviceOf pa) (.notify pa v) .none else s.countDevice 0x44 1)
  else
    let pa := if isDomain pa then dataOf pa else pa
    if !isSp pa && (slotOf pa ≠ 0 || decide (s.dataLimit ≤ dataOf pa) || s.uecc pa 8) then some (s.countDevice 0x44 1)
    else (s.write none gen pa (bytesLE 8 v.toNat)).map fun s => s.noteBytes pa 8 true

/-- A notify word of the device itself, at a physical address as software has given it: one that names no location of R266 is
dropped, and one whose write stalls is kept (R345, R366, R387). -/
def State.notifyOr (s : State) (pa : Nat) (v : W64) : State :=
  if isSp pa then s.countDevice 0x44 1
  else
    let here := if isDomain pa then dataOf pa else pa
    let wait : State := { s with stuck := s.stuck ++ [⟨.device, here, bytesLE 8 v.toNat⟩] }
    if (!isDomain pa || deviceOf pa = s.flash.deviceId) && s.behindStuck .device here 8 then wait
    else (s.notifyWrite s.live pa v).getD wait

end Sys2Proof.Machine
end

