-- ==== Sys2Proof/Machine/Strm.lean ====
section
/-! DEFINITION. Streams: class `strm`, and the transfers of a stream's thread (R202 to R209). -/
namespace Sys2Proof.Machine

/-- The stream that a valid record binds (R203): the thread keeps the context's ASPACE, mode and CURGEN. -/
def Shape.bind (t : Shape) (out : Bool) (f : Front) (po seq : Nat) : Stream :=
  { out := out, base := t.base, stride := t.stride, ext := t.ext, start := t.start, word1 := t.word1, idx := 0,
    aspace := f.aspace, sup := f.sup, gen := f.curgen, po := po, seq := seq, buf := [], fault := none, told := false }

/-- Is a request the write of an entry of an output stream? -/
def Request.entryOf (k : Nat) (j : SReg) (q : Request) : Bool := decide (q.waiter = .entry k j.toNat)

/-- Has the stream of a register output entries that have not performed (R207)? -/
def State.unwritten (s : State) (k : Nat) (j : SReg) : Bool :=
  match (s.vec k).stream j with
  | some t => t.out && (!t.buf.isEmpty || s.requests.any (Request.entryOf k j))
  | none => false

/-- The stream of a register is gone, and its entry leaves the range checker (R207, R255). -/
def freeStream (s : State) (k : Nat) (j : SReg) : State :=
  match (s.vec k).stream j with
  | some t => ((s.setVec k ((s.vec k).setStream j none)).forget (.stream k j.toNat)).ovlAdopt [coreOf k] t.seq t.ranges t.gen
  | none => s

/-- Binding a stream (R203): the old one is freed first, and a core runs at most 16 threads (R217). -/
def strmBind (i : Instr) (out : Bool) (d : SReg) (a : VReg) (s : State) : Out :=
  vectorInstr i [] none s fun k e =>
    let r := s.vrun k e false
    deliverHeld s k e d <|
      if s.unwritten k d then .next s
      else withShape s k r (.stream out) a fun t =>
        let s := freeStream s k d
        if 16 ≤ s.threadCount (coreOf k) then .next s
        else
          let s := s.setVec k (((s.vec k).setStream d (some (t.bind out (s.front k) e.po s.threadSeq))).complete e)
          .next { s with threadSeq := s.threadSeq + 1 }

/-- `strm.bind` (R203). -/
def execStrmBind (d : SReg) (a : VReg) (s : State) : Out := strmBind (.strmBind d a) false d a s
/-- `strm.bind.out` (R203). -/
def execStrmBindOut (d : SReg) (a : VReg) (s : State) : Out := strmBind (.strmBindOut d a) true d a s

/-- `strm.free` (R207): an output stream ends only when its entries have performed. -/
def execStrmFree (d : SReg) (s : State) : Out :=
  vectorInstr (.strmFree d) [] none s fun k e =>
    if ((s.vec k).stream d).isNone then s.rejectVec k e 1
    else deliverHeld s k e d <|
      if s.unwritten k d then .next s else
        let s := freeStream s k d
        .next (s.setVec k ((s.vec k).complete e))

/-- The value of `strm.status` (R206). A fault that has been delivered is not held any more. -/
def streamStatus : Option Stream → W64
  | none => 0
  | some t => 1#1 ++ BitVec.ofBool t.out ++ BitVec.ofBool (t.fault.isSome && !t.told) ++ 0#29 ++ t.idx.extractLsb' 0 32

/-- `strm.status` (R206). -/
def execStrmStatus (d : XReg) (a : SReg) (s : State) : Out :=
  vectorInstr (.strmStatus d a) [] (some d) s fun k e =>
    let x := streamStatus ((s.vec k).stream a)
    .next ((s.setVec k ((s.vec k).complete e)).setFront k ((s.front k).deliver d x))

/-- A stream skipped by n positions (R207). -/
def Stream.skip (t : Stream) (n : W64) : Stream :=
  let idx := t.idx + n
  if t.out then { t with idx := idx }
  else
    { t with
      idx := idx
      buf := t.buf.filter fun e => decide (t.idx.toNat + n.toNat ≤ e.n)
      fault := match t.fault with
        | some f => if f.n < t.idx.toNat + n.toNat then none else some f
        | none => none }

/-- `strm.skip` (R207). -/
def execStrmSkip (d : SReg) (a : XReg) (s : State) : Out :=
  vectorInstr (.strmSkip d a) [a] none s fun k e =>
    match (s.vec k).stream d with
    | none => s.rejectVec k e 1
    | some t => deliverHeld s k e d (.next (s.setVec k (((s.vec k).setStream d (some (t.skip (e.ops.getD 0 0)))).complete e)))

/-! ## The thread of a stream -/

/-- The address of a stream's position n; none out of range (R194). -/
def Stream.addr (t : Stream) (n : Nat) : Option W64 :=
  (walkPos t.ext t.start t.bounds n).map (walkAddr t.base t.ext t.stride 0)

/-- The size of a stream's entries in bytes. -/
def Stream.size (t : Stream) : Nat := (t.tag?.map fun g => g.width / 8).getD 1

/-- The position that an input stream fetches next (R203). -/
def Stream.nextFetch (t : Stream) : Nat := t.idx.toNat + t.buf.length

/-- May the thread of a stream access memory (R209, R255)? -/
def State.streamReady (s : State) (k : Nat) (t : Stream) : Bool :=
  !s.forkHeld k t.po t.cls && !s.checkerBusy (coreOf k) t.seq t.ranges

/-- What an access of a stream's thread finds (R121, R187, R208). -/
def State.findStream (s : State) (k : Nat) (j : SReg) (t : Stream) (acc : Acc) (va : W64) : Found :=
  s.findBytes (.stream k j.toNat) k true t.aspace t.sup acc va t.size t.size

/-- STREAM_FETCH: the thread of an input stream fetches its next entry, or holds the fault it meets (R203, R208). At
most 4 KiB of entries wait. The thread adopts the generation of what it reads (R280). -/
def execStreamFetch (k : Nat) (j : SReg) (s : State) : Out :=
  match (s.vec k).stream j with
  | none => .next s
  | some t =>
    let n := t.nextFetch
    if t.out || t.fault.isSome || (s.front k).stopped || decide (4096 < (t.buf.length + 1) * t.size) || !s.streamReady k t then .next s
    else
      let put (s : State) (t : Stream) : Out := .next ((s.setVec k ((s.vec k).setStream j (some t))).dropArrived (.stream k j.toNat))
      let take (s : State) (bits : Nat) (g : BitVec 2) : Out := put s { t with buf := t.buf ++ [⟨n, bits, g⟩], gen := s.newest t.gen g }
      match t.addr n with
      | none => take s 0 s.oldestGen
      | some va =>
        match s.findStream k j t .load va with
        | .at_ pa => take (s.noteFar k t.aspace va pa t.size false) (s.readLE pa t.size) (s.genRange pa t.size)
        | .given _ bs => take s (ofBytesLE bs) s.live
        | .zero => .next s
        | .fault c => put (s.noteFault k true t.aspace va t.size c) { t with fault := some ⟨n, c, va⟩, told := false }
        | .ask pa => .next (s.askFor (.stream k j.toNat) pa t.size)

/-- STREAM_WRITEBACK: the thread of an output stream writes an entry, or holds the fault it meets (R205, R208). It writes
the entries in the order in which they were appended (log 62). After a fatal trap the entry and the later ones are discarded
instead (R311). -/
def execStreamWriteback (k : Nat) (j : SReg) (s : State) : Out :=
  match (s.vec k).stream j with
  | none => .next s
  | some t =>
    if !t.out || t.fault.isSome || !s.streamReady k t then .next s
    else
      match t.buf with
      | [] => .next s
      | e :: rest =>
        let put (s : State) (t : Stream) : Out := .next (s.setVec k ((s.vec k).setStream j (some t)))
        match t.addr e.n with
        | none => put s { t with buf := rest }
        | some va =>
          match s.findStream k j t .store va with
          | .fault c =>
            let s := s.noteFault k true t.aspace va t.size c
            if (s.front k).fatal then put s { t with buf := [] } else put s { t with fault := some ⟨e.n, c, va⟩, told := false }
          | .at_ pa =>
            if isDomain pa then put (s.send (deviceOf pa) (.write pa (bytesLE t.size e.bits)) (.entry k j.toNat)) { t with buf := rest }
            else
              match s.write none t.gen pa (bytesLE t.size e.bits) with
              | some s => put (s.noteFar k t.aspace va pa t.size true) { t with buf := rest }
              | none => .next s
          | _ => .next s

end Sys2Proof.Machine
end

