-- ==== Sys2Proof/Machine/Csr.lean ====
section
/-! DEFINITION. CSR access (R81 to R87, R130, R391 to R397): what each register reads as, the tests of a write, its
effect, and the waits of R84. -/
namespace Sys2Proof.Machine

/-! ## VTYPE and ASPACE -/

/-- Installs a VTYPE: VLMAX is recomputed under the grant and VL clamped (R85, R154). -/
def Vec.setVtype (v : Vec) (x : W64) : Vec :=
  let vt : VType := x.extractLsb' 0 24
  let vm := vlmaxOf (lanesOf v.fgrant) vt
  { v with vtype := vt, vlmax := BitVec.ofNat 13 vm, vl := BitVec.ofNat 13 (min v.vl.toNat vm) }

/-- A write of VTYPE acts as `vcfg.settype` (R85): none for a value that holds a reserved or reserved-bit field. -/
def vtypeWrite (s : State) (k : Nat) (x : W64) : Option State :=
  if vtypeValid x then some (s.setVec k ((s.vec k).setVtype x)) else none

/-- Have the accesses performed that a write of ASPACE waits for (R146)? -/
def State.quiet (s : State) (a : Nat) : Bool :=
  (s.front a).acc.isEmpty && !s.requests.any (Request.storeOf a) &&
    (isDrone a || (s.front a).held || (s.vec a).open_.all fun e => decide (memUse e.word = .none))

/-- Bound input streams discard their unconsumed prefetch (R146, R317). -/
def Vec.dropPrefetch (v : Vec) : Vec :=
  { v with s := v.s.map fun o => o.map fun t => if t.out then t else { t with buf := [], fault := none, told := false } }

/-- The bound input streams of a context discard their unconsumed prefetch, and what is on its way to them (R146, R317). -/
def State.dropPrefetch (s : State) (k : Nat) : State :=
  (List.range 8).foldl (fun s j => match (s.vec k).s.getD j none with
    | some t => if t.out then s else s.forget (.stream k j)
    | none => s) (s.setVec k (s.vec k).dropPrefetch)

/-- Installs a new ASPACE in the agent, and in its bound input streams for their later fetches; the thread of an output
stream keeps that of its bind (R86, R146, R203). -/
def State.setAspace (s : State) (a : Nat) (x : W64) : State :=
  let s := s.setFront a { s.front a with aspace := x }
  if isDrone a then s
  else
    let s := s.dropPrefetch a
    let v := s.vec a
    s.setVec a { v with s := v.s.map fun o => o.map fun t => if t.out then t else { t with aspace := x } }

/-! ## Core registers -/

/-- Is a value one that LANEPART may take (R87)? -/
def lanepartOk (c : Core) (x : W64) : Bool :=
  x.extractLsb' 24 40 = 0 &&
    (List.range 8).all fun j =>
      let g := laneHolder (x.extractLsb' 0 24) j
      if c.lanemap.getLsbD j then g = laneHolder c.lanepart j else g ≠ 6 && g ≠ 7

/-- A write of LANEPART (R87). -/
def lanepartWrite (s : State) (a : Nat) (x : W64) : Option State :=
  let c := s.core (coreOf a)
  if lanepartOk c x then some (s.setCore (coreOf a) { c with lanepart := x.extractLsb' 0 24 }) else none

/-- UFNADDR.INDEX after an access to UFNDATA (R76). -/
def nextUfnAddr (x : BitVec 10) : BitVec 10 := x.extractLsb' 6 4 ++ (x.extractLsb' 0 6 + 1)

/-- The micro-op at a slot and index, at 64 × slot + index (R76). -/
def Core.micro (c : Core) (n : Nat) : BitVec 32 := Store.get 0 c.ufn n

/-- An access to UFNDATA: a write stores a valid micro-op into a slot whose VALID bit is clear; UFNADDR.INDEX then
advances once (R76; log 20). -/
def ufndataAccess (s : State) (a : Nat) (wr : Option W64) : Option State :=
  let c := s.core (coreOf a)
  let next := { c with ufnaddr := nextUfnAddr c.ufnaddr }
  match wr with
  | none => some (s.setCore (coreOf a) next)
  | some x =>
    if x.extractLsb' 32 32 = 0 && uopValid (x.extractLsb' 0 32) && !c.ufnvalid.getLsbD (c.ufnaddr.extractLsb' 6 4).toNat then
      some (s.setCore (coreOf a) { next with ufn := c.ufn.put c.ufnaddr.toNat (x.extractLsb' 0 32) })
    else none

/-- Does a slot hold an `end` (R75, R76)? A word that was never loaded is 0, which is one. -/
def Core.hasEnd (c : Core) (j : Nat) : Bool := (List.range 64).any fun n => uopField (c.micro (64 * j + n)) 27 5 = 0

/-- May a value be written to UFNVALID (R76)? -/
def ufnvalidOk (c : Core) (x : W64) : Bool :=
  x.extractLsb' 16 48 = 0 && (List.range 16).all fun j => !(x.getLsbD j && !c.ufnvalid.getLsbD j) || c.hasEnd j

/-- Is an instruction that names a slot that a write of UFNVALID clears still executing in the core (R76)? -/
def State.ufnRunning (s : State) (g : Nat) (x : W64) : Bool :=
  (List.range 4).any fun k => (s.vec (4 * g + k)).infl.any fun e =>
    !e.done && (match decodeWord e.word with
      | .ok (.vfnUfn j ..) => !x.getLsbD j.toNat
      | _ => false)

/-- A write of UFNVALID (R76). -/
def ufnvalidWrite (s : State) (a : Nat) (x : W64) : Option State :=
  let c := s.core (coreOf a)
  if ufnvalidOk c x then some (s.setCore (coreOf a) { c with ufnvalid := x.extractLsb' 0 16 }) else none

/-! ## Trace, trigger, sampling, breakpoints, counters -/

/-- A write of BPRUN releases frozen contexts of the core and the cluster's drone (R391, R393). -/
def bprunWrite (s : State) (a : Nat) (x : W64) : State :=
  let free (s : State) (b : Nat) : State := s.setFront b { s.front b with frozen := false, freezing := false }
  let s := (List.range 4).foldl (fun s k => if x.getLsbD k then free s (4 * coreOf a + k) else s) s
  if x.getLsbD 4 then free s (droneOf (clusterOf a)) else s

/-- A write of SMPCTL: setting EN clears COUNT and FULL and starts sampling (R394). -/
def smpctlWrite (s : State) (a : Nat) (x : W64) : Option State :=
  let c := s.core (coreOf a)
  if x.extractLsb' 32 32 = 0 && x.extractLsb' 13 3 = 0 && x.extractLsb' 2 6 = 0 && decide ((x.extractLsb' 8 5).toNat ≤ 16) then
    let c := { c with smpctl := x.extractLsb' 0 32 }
    some (s.setCore (coreOf a)
      (if x.getLsbD 0 && !(s.core (coreOf a)).smpctl.getLsbD 0 then
        { c with smpcount := 0, smpfull := false, smpleft := (x.extractLsb' 16 16).toNat + 1 }
      else c))
  else none

/-- A write of TRCCTL: setting RUN clears DONE, NEXT and WRAP; CLUSTER and POST stay while RUN is set (R395). -/
def trcctlWrite (s : State) (x : W64) : Option State :=
  let zero := x.extractLsb' 48 16 = 0 && x.extractLsb' 14 18 = 0 && x.extractLsb' 6 6 = 0
  let held := s.trcctl.getLsbD 12 &&
    (x.extractLsb' 0 6 ≠ s.trcctl.extractLsb' 0 6 || x.extractLsb' 32 16 ≠ s.trcctl.extractLsb' 32 16)
  if zero && !held then
    let keep : W64 := x &&& ~~~(1#64 <<< 13)
    if x.getLsbD 12 && !s.trcctl.getLsbD 12 then
      some { s with trcctl := keep, trcnext := 0, trcwrap := false, trcpost := none }
    else some { s with trcctl := keep ||| (s.trcctl &&& (1#64 <<< 13)) }
  else none

/-- A write of TRGCTL: ARMED and SRC, and FIRE fires the source SOFT (R397). -/
def trgctlWrite (s : State) (x : W64) : Option State :=
  if x.extractLsb' 21 43 = 0 && x.extractLsb' 10 6 = 0 && x.extractLsb' 5 3 = 0 then
    let s := { s with trgctl := s.trgctl.extractLsb' 16 5 ++ 0#7 ++ x.extractLsb' 8 1 ++ 0#3 ++ x.extractLsb' 0 5 }
    some (if x.getLsbD 9 then s.fire 4 else s)
  else none

/-- A supervisor read of TRCDATA returns the word and advances TRCADDR (R391). -/
def trcdataRead (s : State) : State := { s with trcaddr := s.trcaddr + 1 }

/-- Is an event code listed for the holder of a selector (R272, R345, R384, R392)? -/
def codeListed (n : CsrNum) (code : Nat) : Bool :=
  if n.toNat < 0x510 then decide (code ≤ 0x05) || (decide (0x10 ≤ code) && decide (code ≤ 0x15))
  else if n.toNat < 0x520 then decide (0x20 ≤ code) && decide (code ≤ 0x2A)
  else decide (0x40 ≤ code) && decide (code ≤ 0x4B)

/-- A write of a counter selector: the code is tested when EN is set, and a frozen counter resumes (R392). -/
def evsWrite (s : State) (a : Nat) (n : CsrNum) (x : W64) : Option State :=
  if x.extractLsb' 10 54 ≠ 0 || (x.getLsbD 8 && !codeListed n (x.extractLsb' 0 8).toNat) then none
  else
    let e := x.extractLsb' 0 10
    let c := s.core (coreOf a)
    let q := s.cluster (clusterOf a)
    if n.toNat < 0x510 then
      let i := n.toNat - 0x508
      some (s.setCore (coreOf a) { c with evs := c.evs.setIfInBounds i e, evfrz := c.evfrz &&& ~~~(1#8 <<< i) })
    else if n.toNat < 0x520 then
      let i := n.toNat - 0x518
      some (s.setCluster (clusterOf a) { q with kvs := q.kvs.setIfInBounds i e, kvfrz := q.kvfrz &&& ~~~(1#8 <<< i) })
    else
      let i := n.toNat - 0x530
      some { s with dvs := s.dvs.setIfInBounds i e, dvfrz := s.dvfrz &&& ~~~(1#16 <<< i) }

/-! ## Sensor subscriptions -/

/-- The reading of a sensor (R386): lane groups recorded as parked are counted, the others are as last sampled. -/
def State.sensor (s : State) (n : Nat) : Nat :=
  if n = 8 then
    (s.cores.map fun (p : Nat × Core) => ((List.range 8).filter fun j => laneHolder p.2.lanepart j = 5).length).sum
  else Store.get 0 s.sensors n

/-- The subscription in a record at a physical address, when it is valid (R386). A record beyond the memory or with an uncorrectable
error counts as invalid (DESIGN CHOICE: R386 names no outcome; log 65). -/
def State.readSubscription (s : State) (pa : Nat) : Option Subscription :=
  if s.dataLimit < pa + 32 || s.uecc pa 32 then none
  else
    let addr := s.readLE pa 8
    let sensor := s.readLE (pa + 8) 1
    let dir := s.readLE (pa + 9) 1
    if s.readLE (pa + 10) 6 ≠ 0 || 3 < dir || dir = 0 || 10 < sensor || addr % 8 ≠ 0 then none
    else
      let thresh := s.readLE (pa + 16) 8
      some { addr := addr, sensor := sensor, up := dir % 2 = 1, down := decide (2 ≤ dir), thresh := thresh,
             hyst := s.readLE (pa + 24) 8, above := decide (thresh ≤ s.sensor sensor), last := none, window := false,
             latest := 0 }

/-- Sets or clears the ENABLE bit and the subscription k for a bit of a value written (R386). -/
def State.armOne (s : State) (base : Nat) (x : W64) (k : Nat) : State :=
  if !x.getLsbD k then { s with subs := s.subs.setIfInBounds k none, notifybase := s.notifybase &&& ~~~(1#64 <<< k) }
  else if s.notifybase.getLsbD k then s
  else
    let t := if s.dataLimit < base + 32 * k + 32 then s else s.noteBytes (base + 32 * k) 32 false
    match s.readSubscription (base + 32 * k) with
    | some q => { t with subs := s.subs.setIfInBounds k (some q), notifybase := s.notifybase ||| (1#64 <<< k) }
    | none => { t with subs := s.subs.setIfInBounds k none }

/-- A write of NOTIFYBASE: an ENABLE bit that rises reads, latches and arms its record, or stays clear (R386). -/
def notifybaseWrite (s : State) (x : W64) : State :=
  let s := { s with notifybase := x.extractLsb' 8 56 ++ s.notifybase.extractLsb' 0 8 }
  (List.range 8).foldl (fun s k => s.armOne ((x.extractLsb' 8 56).toNat * 256) x k) s

/-! ## Other registers -/

/-- A write of LANEREQ prompts the arbiter (R313); none for a reserved value (R85). -/
def lanereqWrite (s : State) (k : Nat) (x : W64) : Option State :=
  if decide (x.toNat ≤ 8) then some ((s.setVec k { s.vec k with lanereq := x.extractLsb' 0 4 }).promptArbiter (coreOf k))
  else none

/-- A write of BELSTAT: a one in FULL clears it (R87). -/
def belstatWrite (s : State) (a : Nat) (x : W64) : Option State :=
  if x.extractLsb' 32 32 = 0 && x.extractLsb' 29 2 = 0 && x.extractLsb' 13 3 = 0 then
    let q := s.cluster (clusterOf a)
    some (if x.getLsbD 31 then s.setCluster (clusterOf a) { q with belfull := false } else s)
  else none

/-- Bits at or above n are zero. -/
def fits (n : Nat) (x : W64) : Bool := decide (x.toNat < 2 ^ n)

/-- A write of a register without behaviour of its own: none when it is read-only, unassigned, or a "—" field or a
reserved value would be written (R82, R85 to R87, R391, R393). -/
def plainWrite (s : State) (a : Nat) (n : CsrNum) (x : W64) : Option State :=
  let f := s.front a
  let v := s.vec a
  let g := coreOf a
  let c := s.core g
  let q := s.cluster (clusterOf a)
  let setF (f : Front) : Option State := some (s.setFront a f)
  let when (b : Bool) (t : State) : Option State := if b then some t else none
  match n.toNat with
  | 0x003 => when (!isDrone a && fits 13 x) (s.setVec a { v with vstart := x.extractLsb' 0 13 })
  | 0x006 => when (!isDrone a && fits 8 x) (s.setVec a { v with scalebase := x.extractLsb' 0 8 })
  | 0x007 => when (!isDrone a && fits 7 x) (s.setVec a { v with flags := x.extractLsb' 0 7 })
  | 0x008 => when (!isDrone a && fits 7 x) (s.setVec a { v with ftrap := x.extractLsb' 0 7 })
  | 0x100 => if fits 5 x then setF { f with status := f.status.extractLsb' 4 1 ++ x.extractLsb' 0 4 } else none
  | 0x101 => if fits 29 x then setF { f with cause := x.extractLsb' 0 29 } else none
  | 0x102 => if x.extractLsb' 0 2 = 0 then setF { f with epc := x } else none
  | 0x103 => setF { f with tval := x }
  | 0x104 => if x.extractLsb' 0 2 = 0 then setF { f with tvec := x } else none
  | 0x105 => setF { f with scratch := x }
  | 0x202 => when (fits 10 x) (s.setCore g { c with ufnaddr := x.extractLsb' 0 10 })
  | 0x300 => when (fits 1 x) (s.setCluster (clusterOf a) { q with belpol := x.getLsbD 0 })
  | 0x302 => when (fits 8 x) (s.setCluster (clusterOf a) { q with droopth := x.extractLsb' 0 8 })
  | 0x400 => when (fits 32 x) { s with age := x.extractLsb' 0 32 }
  | 0x542 => when (fits 19 x) { s with trcaddr := x.extractLsb' 0 19 }
  | 0x552 => when (x.extractLsb' 0 6 = 0) (s.setCore g { c with smpbase := x })
  | m =>
    if 0x500 ≤ m ∧ m ≤ 0x507 then some (s.setCore g { c with evc := c.evc.setIfInBounds (m - 0x500) x })
    else if 0x510 ≤ m ∧ m ≤ 0x517 then
      some (s.setCluster (clusterOf a) { q with kvc := q.kvc.setIfInBounds (m - 0x510) x })
    else if 0x520 ≤ m ∧ m ≤ 0x52F then some { s with dvc := s.dvc.setIfInBounds (m - 0x520) x }
    else if 0x548 ≤ m ∧ m ≤ 0x54B then
      when (x.extractLsb' 0 2 = 0) (s.setCore g { c with bpaddr := c.bpaddr.setIfInBounds (m - 0x548) x })
    else if 0x54C ≤ m ∧ m ≤ 0x54F then
      when (fits 12 x && x.extractLsb' 6 2 = 0 && !x.getLsbD 3 && x.extractLsb' 4 2 ≠ 3 && x.extractLsb' 1 2 ≠ 3)
        (s.setCore g { c with bpctl := c.bpctl.setIfInBounds (m - 0x54C) (x.extractLsb' 0 12) })
    else none

/-- Writes a CSR: none when the write traps ILLFLD and changes nothing (R82). ASPACE and UFNVALID have waited. -/
def csrWrite (s : State) (a : Nat) (n : CsrNum) (x : W64) : Option State :=
  match n.toNat with
  | 0x000 => if isDrone a then none else vtypeWrite s a x
  | 0x005 => if isDrone a then none else lanereqWrite s a x
  | 0x106 => if x.extractLsb' 32 16 = 0 then some (s.setAspace a x) else none
  | 0x200 => lanepartWrite s a x
  | 0x203 => ufndataAccess s a (some x)
  | 0x204 => ufnvalidWrite s a x
  | 0x301 => belstatWrite s a x
  | 0x401 => some (notifybaseWrite s x)
  | 0x540 => trcctlWrite s x
  | 0x544 => trgctlWrite s x
  | 0x550 => some (bprunWrite s a x)
  | 0x551 => smpctlWrite s a x
  | m =>
    if (0x508 ≤ m ∧ m ≤ 0x50F) ∨ (0x518 ≤ m ∧ m ≤ 0x51F) ∨ (0x530 ≤ m ∧ m ≤ 0x53F) then evsWrite s a n x
    else plainWrite s a n x

/-- What a context CSR of the user block reads as on a context (R85). -/
def userCsr (s : State) (k : Nat) (m : Nat) : Option W64 :=
  let v := s.vec k
  match m with
  | 0x000 => some (v.vtype.zeroExtend 64)
  | 0x001 => some (v.vl.zeroExtend 64)
  | 0x002 => some (v.vlmax.zeroExtend 64)
  | 0x003 => some (v.vstart.zeroExtend 64)
  | 0x004 => some (v.grant.zeroExtend 64)
  | 0x005 => some (v.lanereq.zeroExtend 64)
  | 0x006 => some (v.scalebase.zeroExtend 64)
  | 0x007 => some (v.flags.zeroExtend 64)
  | 0x008 => some (v.ftrap.zeroExtend 64)
  | _ => none

/-- What a CSR reads as; none when no table assigns the number to the agent (R82, R83, R86, R391). TRCDATA is the
word at TRCADDR. -/
def csrRead (s : State) (a : Nat) (n : CsrNum) : Option W64 :=
  let f := s.front a
  let c := s.core (coreOf a)
  let q := s.cluster (clusterOf a)
  match n.toNat with
  | 0x009 => some (f.curgen.zeroExtend 64)
  | 0x00A => some s.time
  | 0x00B => some q.cycle
  | 0x00C => some f.instret
  | 0x100 => some (f.status.zeroExtend 64)
  | 0x101 => some (f.cause.zeroExtend 64)
  | 0x102 => some f.epc
  | 0x103 => some f.tval
  | 0x104 => some f.tvec
  | 0x105 => some f.scratch
  | 0x106 => some f.aspace
  | 0x107 => some f.spc
  | 0x108 => some f.vcp
  | 0x200 => some (c.lanepart.zeroExtend 64)
  | 0x201 => some (c.lanemap.zeroExtend 64)
  | 0x202 => some (c.ufnaddr.zeroExtend 64)
  | 0x203 => some ((c.micro c.ufnaddr.toNat).zeroExtend 64)
  | 0x204 => some (c.ufnvalid.zeroExtend 64)
  | 0x300 => some ((BitVec.ofBool q.belpol).zeroExtend 64)
  | 0x301 => some q.belstat
  | 0x302 => some (q.droopth.zeroExtend 64)
  | 0x400 => some (s.age.zeroExtend 64)
  | 0x401 => some s.notifybase
  | 0x540 => some s.trcctl
  | 0x541 => some ((BitVec.ofBool s.trcwrap ++ s.trcnext).zeroExtend 64)
  | 0x542 => some (s.trcaddr.zeroExtend 64)
  | 0x543 => some (Store.get 0 s.trcsram s.trcaddr.toNat)
  | 0x544 => some (s.trgctl.zeroExtend 64)
  | 0x545 => some s.trgtime
  | 0x546 => some s.trgcount
  | 0x550 => some 0
  | 0x551 => some (c.smpctl.zeroExtend 64)
  | 0x552 => some c.smpbase
  | 0x553 => some ((BitVec.ofBool c.smpfull ++ c.smpcount).zeroExtend 64)
  | 0x568 => some (c.tlanepart.zeroExtend 64)
  | 0x570 => some q.tdpc
  | 0x571 => some q.tbelstat
  | 0x572 => some q.tpres
  | 0x57E => some (s.ready.zeroExtend 64)
  | 0x57F => some (BitVec.ofNat 64 ((List.range 64).foldl (fun n c => if (s.cluster c).ready then n + 2 ^ c else n) 0))
  | m =>
    if m < 0x009 then (if isDrone a then none else userCsr s a m)
    else if 0x500 ≤ m ∧ m ≤ 0x507 then some (c.evc.getD (m - 0x500) 0)
    else if 0x508 ≤ m ∧ m ≤ 0x50F then some ((c.evs.getD (m - 0x508) 0).zeroExtend 64)
    else if 0x510 ≤ m ∧ m ≤ 0x517 then some (q.kvc.getD (m - 0x510) 0)
    else if 0x518 ≤ m ∧ m ≤ 0x51F then some ((q.kvs.getD (m - 0x518) 0).zeroExtend 64)
    else if 0x520 ≤ m ∧ m ≤ 0x52F then some (s.dvc.getD (m - 0x520) 0)
    else if 0x530 ≤ m ∧ m ≤ 0x53F then some ((s.dvs.getD (m - 0x530) 0).zeroExtend 64)
    else if 0x548 ≤ m ∧ m ≤ 0x54B then some (c.bpaddr.getD (m - 0x548) 0)
    else if 0x54C ≤ m ∧ m ≤ 0x54F then some ((c.bpctl.getD (m - 0x54C) 0).zeroExtend 64)
    else if 0x560 ≤ m ∧ m ≤ 0x563 then some (c.tspc.getD (m - 0x560) 0)
    else if 0x564 ≤ m ∧ m ≤ 0x567 then some (c.tvcp.getD (m - 0x564) 0)
    else none

/-! ## The instructions -/

/-- What a read of a register does besides returning it: TRCDATA advances TRCADDR in supervisor mode (R391), UFNDATA
advances UFNADDR (R76); an access that writes UFNDATA advances it once, in the write (log 20). -/
def readEffect (s : State) (a : Nat) (n : CsrNum) (writes : Bool) : State :=
  if n = 0x543 && (s.front a).sup then trcdataRead s
  else if n = 0x203 && !writes then (ufndataAccess s a none).getD s
  else s

/-- Must a CSR access wait (R76, R84, R146)? `x` is the value written, if any. -/
def csrWaits (s : State) (a : Nat) (n : CsrNum) (x : Option W64) : Bool :=
  if n = 1 || n = 3 || n = 7 || n = 8 then s.vecBusy a
  else
    match x with
    | some x => (n = 0x106 && !s.quiet a) || (n = 0x204 && s.ufnRunning (coreOf a) x)
    | none => false

/-- The PRIV test of a CSR access (R81): blocks 1 to 4 in user mode, and a write of block 5. -/
def csrPriv (n : CsrNum) (sup writes : Bool) : Bool :=
  let block := (n.extractLsb' 8 3).toNat
  !sup && ((decide (1 ≤ block) && decide (block ≤ 4)) || (block = 5 && writes))

/-- Is an assigned register of the counter block read only in every mode (R391)? -/
def traceReadOnly (n : CsrNum) : Bool :=
  let m := n.toNat
  m = 0x541 || m = 0x543 || m = 0x545 || m = 0x546 || m = 0x553 || decide (0x560 ≤ m)

/-- Does the PRIV test of a write of the counter block in user mode come before the test of the value (R81, R391)? -/
def privFirst (n : CsrNum) (sup writes : Bool) : Bool := n.extractLsb' 8 3 = 5 && !traceReadOnly n && csrPriv n sup writes

/-- A CSR instruction (R130): the tests of R82 and R81 in the order of R98, the waits, then the access. `newVal` is the value
written from the old one and x(A), if it writes. -/
def csrOp (i : Instr) (newVal : Option (W64 → W64 → W64)) (d a : XReg) (n : CsrNum) (s : State) : Out :=
  onFront s fun ag _ => scalarRead s ag [a] [d] fun f =>
    let w : InstrWord := (Sys2Proof.encode i).getD 0
    match csrRead s ag n with
    | none => s.scalarTrap ag (wordTrap 2 w)
    | some old =>
      let new := newVal.map fun g => g old (f.xr a)
      let written := match new with
        | some x => csrWrite s ag n x
        | none => some s
      if written.isNone && !privFirst n f.sup new.isSome then s.scalarTrap ag (wordTrap 2 w)
      else if csrPriv n f.sup new.isSome then s.scalarTrap ag (wordTrap 4 w)
      else if csrWaits s ag n new then .next s
      else .next (((readEffect (written.getD s) ag n new.isSome).writeX ag d old).retire ag (f.pc + 4))

/-- `sys.csr.rw` (R130). -/
def execSysCsrRw (d a : XReg) (n : BitVec 11) (s : State) : Out :=
  csrOp (.sysCsrRw d a n) (some fun _ x => x) d a n s

/-- `sys.csr.rs` (R130): it writes only when A is not 0. -/
def execSysCsrRs (d a : XReg) (n : BitVec 11) (s : State) : Out :=
  csrOp (.sysCsrRs d a n) (if a = 0 then none else some fun old x => old ||| x) d a n s

/-- `sys.csr.rc` (R130): it writes only when A is not 0. -/
def execSysCsrRc (d a : XReg) (n : BitVec 11) (s : State) : Out :=
  csrOp (.sysCsrRc d a n) (if a = 0 then none else some fun old x => old &&& ~~~x) d a n s

/-! ## The effects as operations of their own

The rows of CSR writes act for the agent whose front moves. A write that a test of R82 refuses changes nothing; the
trap belongs to the CSR instruction. -/

/-- A CSR effect for the moving front. -/
def csrEffect (s : State) (f : Nat → Option State) : Out :=
  onFront s fun a _ => .next ((f a).getD s)

/-- VTYPE_CSR_WRITE (R85). -/
def execVtypeCsrWrite (v : W64) (s : State) : Out := csrEffect s fun a => csrWrite s a 0x000 v
/-- ASPACE_CSR_WRITE (R86, R146), after its waits. -/
def execAspaceCsrWrite (v : W64) (s : State) : Out :=
  csrEffect s fun a => if s.quiet a then csrWrite s a 0x106 v else none
/-- LANEPART_WRITE (R87). -/
def execLanepartWrite (v : W64) (s : State) : Out := csrEffect s fun a => csrWrite s a 0x200 v
/-- LANEREQ_CSR_WRITE (R85, R313). -/
def execLanereqCsrWrite (v : W64) (s : State) : Out := csrEffect s fun a => csrWrite s a 0x005 v
/-- BELSTAT_FULL_CLEAR (R87). -/
def execBelstatFullClear (v : W64) (s : State) : Out := csrEffect s fun a => csrWrite s a 0x301 v
/-- UFNDATA_ACCESS (R76). -/
def execUfndataAccess (wr : Option W64) (s : State) : Out := csrEffect s fun a => ufndataAccess s a wr
/-- UFNVALID_WRITE (R76), after its wait. -/
def execUfnvalidWrite (v : W64) (s : State) : Out :=
  csrEffect s fun a => if s.ufnRunning (coreOf a) v then none else csrWrite s a 0x204 v
/-- NOTIFYBASE_WRITE (R386). -/
def execNotifybaseWrite (v : W64) (s : State) : Out := csrEffect s fun a => csrWrite s a 0x401 v
/-- EVS_WRITE (R392). -/
def execEvsWrite (n : BitVec 11) (v : W64) (s : State) : Out := csrEffect s fun a => evsWrite s a n v
/-- BPRUN (R391, R393). -/
def execBprun (v : W64) (s : State) : Out := csrEffect s fun a => csrWrite s a 0x550 v
/-- TRGCTL_FIRE (R397). -/
def execTrgctlFire (v : W64) (s : State) : Out := csrEffect s fun a => csrWrite s a 0x544 v
/-- SMPCTL_WRITE (R394). -/
def execSmpctlWrite (v : W64) (s : State) : Out := csrEffect s fun a => csrWrite s a 0x551 v
/-- TRCCTL_WRITE (R395). -/
def execTrcctlWrite (v : W64) (s : State) : Out := csrEffect s fun a => csrWrite s a 0x540 v
/-- TRCDATA_READ in supervisor mode (R391). -/
def execTrcdataRead (s : State) : Out :=
  csrEffect s fun a => if (s.front a).sup then some (trcdataRead s) else some s
/-- CSR_WRITE_GENERIC: a register without behaviour of its own (R82). -/
def execCsrWriteGeneric (n : BitVec 11) (v : W64) (s : State) : Out := csrEffect s fun a => plainWrite s a n v

end Sys2Proof.Machine
end

