-- ==== Sys2Proof/Machine/System.lean ====
section
/-! DEFINITION. Fences, traps and their return, waiting, halting, counts and translation control (R131 to R146). -/
namespace Sys2Proof.Machine

/-- A supervisor-only `sys` function (R91): PRIV in user mode. -/
def supervisorOnly (s : State) (a : Nat) (i : Instr) (k : Front → Out) : Out :=
  if (s.front a).sup then k (s.front a) else s.scalarTrap a (wordTrap 4 ((Sys2Proof.encode i).getD 0))

/-! ## Fences -/

/-- Does an older vector or array instruction hold back a fence that orders the classes of `named` (R131, R276)? -/
def State.fenceWaitsSide (s : State) (a : Nat) (named : Cls → Bool) : Bool :=
  if isDrone a then
    !(s.front a).held &&
      (!(s.cluster (clusterOf a)).queue.isEmpty || (s.cluster (clusterOf a)).mma.isSome)
  else
    !(s.front a).held && (s.vec a).open_.any fun e =>
      presenceWord e.word || (match memUse e.word with | .none => false | .barrier => (s.vec a).frees e | .access c => named c)

/-- `sys.fence.c`: it waits until the earlier accesses of the named classes, and of class 15, have performed on the
device (R131, R147). -/
def execSysFenceC (mask : BitVec 16) (s : State) : Out :=
  onFront s fun a _ =>
    let named (c : Cls) : Bool := c = 15 || mask.getLsbD c.toNat
    let f := s.front a
    if (f.acc.any fun x => named x.cls && !isDomain x.pa) || s.fenceWaitsSide a named then .next s
    else .next (s.retire a (f.pc + 4))

/-- `sys.fence.s`: it waits until every earlier access has performed at the scope; domain accesses count at scope 3
(R132, R276). -/
def execSysFenceS (sc : BitVec 2) (s : State) : Out :=
  onFront s fun a _ =>
    let f := s.front a
    let remote := sc = 3 && s.requests.any (Request.storeOf a)
    if (f.acc.any fun x => !isDomain x.pa || sc = 3) || remote || s.fenceWaitsSide a (fun _ => true) then .next s
    else .next (s.retire a (f.pc + 4))

/-! ## Traps and their return -/

/-- `sys.trap`: TRAPI with the code in TVAL (R137). -/
def execSysTrap (code : BitVec 16) (s : State) : Out :=
  onFront s fun a _ => s.scalarTrap a { code := 13, tval := code.zeroExtend 64 }

/-- Restores the shadow into VTYPE and VL; VLMAX follows (R85, R136). -/
def Vec.unshadow (v : Vec) (vt : VType) (vl : BitVec 13) : Vec :=
  { v with vtype := vt, vl := vl, vlmax := BitVec.ofNat 13 (vlmaxOf (lanesOf v.fgrant) vt) }

/-- The held entries of an agent: the VIQ of a context, the array queue of a drone. -/
def State.heldWords (s : State) (a : Nat) : List InstrWord :=
  if isDrone a then (s.cluster (clusterOf a)).queue.map (·.word) else ((s.vec a).viq.filter (!·.done)).map (·.word)

/-- Discards the held entries of an agent, with VSTART 0 and pending x registers 0 (R136). -/
def State.dropHeld (s : State) (a : Nat) : State :=
  let s := s.discard a (s.heldWords a)
  if isDrone a then s.setCluster (clusterOf a) { s.cluster (clusterOf a) with queue := [], stalled := false }
  else s.setVec a { s.vec a with viq := [], vstart := 0 }

/-- Discards the entries that a trap holds, if one does. -/
def State.dropIfHeld (s : State) (a : Nat) : State := if (s.front a).held then s.dropHeld a else s

/-- The oldest held entry resumes from VSTART (R136). -/
def Vec.resumeHead (v : Vec) : Vec :=
  match v.viq with
  | e :: es => { v with viq := { e with pix := v.vstart } :: es }
  | [] => v

/-- The streams whose fault has been delivered fetch or write again (R208). -/
def Vec.retry (v : Vec) : Vec :=
  { v with s := v.s.map fun o => o.map fun t => if t.told then { t with fault := none, told := false } else t }

/-- Returning from a trap (R136): mode and shadow are restored; with CAUSE.VEC the held entries resume and the front
continues at SPC, else held entries are discarded and the front continues at EPC. Streams go on (R208). -/
def State.eret (s : State) (a : Nat) : State :=
  let f := s.front a
  let s := if isDrone a then s else s.setVec a ((s.vec a).unshadow f.shVtype f.shVl).retry
  let vec := f.cause.getLsbD 9
  let s :=
    if vec then (if isDrone a || !f.held then s else s.setVec a (s.vec a).resumeHead)
    else s.dropIfHeld a
  let f := s.front a
  (s.setFront a { f with status := eretStatus f.status, held := false }).retire a (if vec then f.spc else f.epc)

/-- `sys.eret` (R136). -/
def execSysEret (s : State) : Out :=
  onFront s fun a _ => supervisorOnly s a .sysEret fun _ => .next (s.eret a)

/-! ## Waiting -/

/-- Has the launch of an agent taken a fatal fault, so that a wait of a member traps PEERFAULT (R311)? -/
def State.peerFatal (s : State) (a : Nat) : Bool := (s.launchOf a).any (·.fatal)

/-- The line of a monitor after a restart, whose event bit every `sys.wfe` finds (R325): the number of no line. -/
def anyLine : Nat := 2 ^ 60

/-- `sys.wfe` (R139): the checks of a load, the monitor moves to the line, and the agent waits unless the event bit
is set; a wait of a member of a faulted launch takes PEERFAULT (R311). -/
def execSysWfe (ra : XReg) (s : State) : Out :=
  onFront s fun a _ => scalarRead s a [ra] [] fun f =>
    let va := f.xr ra
    match s.checkOwn a .load va 8 with
    | .error c => s.accessTrap a va 8 { code := c, tval := va }
    | .ok (pa, _) =>
      if !isDomain pa && s.uecc pa 8 then s.accessTrap a va 8 { code := 10, tval := va }
      else
        let s := s.noteLookup a va
        let m := if f.monLine = lineOf pa || (f.monLine = anyLine && f.monEvent) then f else { f with monLine := lineOf pa, monEvent := false }
        if m.monEvent then .next ((s.setFront a { m with monEvent := false, monLine := lineOf pa }).retire a (f.pc + 4))
        else if s.peerFatal a then s.scalarTrap a { code := 11 }
        else .next (s.setFront a { m with run := .waiting, po := f.po + 1 })

/-- WFE_WAKE: a waiting agent returns; without its event this is the return that R139 allows at any time, or the
one at a pre-emption request, a TIME boundary or an error report. A member of a faulted launch takes PEERFAULT
(R311). -/
def execWfeWake (ag : Nat) (s : State) : Out :=
  let f := s.front ag
  if f.run ≠ .waiting then .next s
  else if s.peerFatal ag then
    if s.vecBusy ag then .next s else .next (s.takeTrap ag false f.pc { code := 11 })
  else
    .next (s.setFront ag { f with run := .running, monEvent := false, pc := f.pc + 4, instret := f.instret + 1 })

/-- The idle cycles of a `sys.yield` end (R141). -/
def State.endIdle (s : State) (a : Nat) : State :=
  let f := s.front a
  if f.run = .yielding then s.setFront a { f with run := .running } else s

/-- YIELD_IDLE_END (R141). -/
def execYieldIdleEnd (ag : Nat) (s : State) : Out := .next (s.endIdle ag)

/-! ## Halting -/

/-- The held fault of a bound output stream (R140, R208). -/
def Vec.outFault (v : Vec) : Option StreamFault :=
  (v.s.toList.filterMap fun o => o.bind fun t => if t.out && !t.told then t.fault else none).head?

/-- The held faults of output streams have been delivered; their threads write again after the handler (R208). -/
def Vec.tellOutFaults (v : Vec) : Vec :=
  { v with s := v.s.map fun o => o.map fun t => if t.out && t.fault.isSome then { t with told := true } else t }

/-- `sys.halt` (R140): the front issues no more; a fault held by an output stream is taken first. The pc stays at
the `sys.halt`, which an older trap finds not yet issued. A stream whose fault has been delivered, and whose handler halts
instead of returning, writes again (DESIGN CHOICE: R208 names `sys.eret` alone; log 65). -/
def execSysHalt (s : State) : Out :=
  onFront s fun a _ =>
    let s := if isDrone a then s else s.setVec a (s.vec a).retry
    match (if isDrone a then none else (s.vec a).outFault) with
    | some f =>
      if s.vecBusy a then .next s
      else (s.setVec a (s.vec a).tellOutFaults).scalarTrap a { code := f.code, write := true, tval := f.va }
    | none => .next (s.setFront a { s.front a with run := .halting, po := (s.front a).po + 1 })

/-- Frees the lane groups that a context holds (R18, R140, R249). GRANT stays as it was (R336). -/
def State.freeLanes (s : State) (k : Nat) : State :=
  let c := s.core (coreOf k)
  let lp := (List.range 8).foldl
    (fun (lp : BitVec 24) j => if laneHolder c.lanepart j = ctxOf k then setHolder lp j 4 else lp) c.lanepart
  s.setCore (coreOf k) { c with lanepart := lp, restart := c.restart.drop (ctxOf k) }

/-- Have the engine threads, scalar accesses and stores of an agent ended (R140)? -/
def State.agentDrained (s : State) (a : Nat) : Bool :=
  (s.front a).acc.isEmpty && !(s.threads.any fun t => t.agent = a) &&
    !(s.requests.any fun q => q.storeOf a || q.entryBy a)

/-- The agent counts as halted, the last of its launch so far (R369). -/
def State.setHalted (s : State) (a : Nat) : State :=
  let f := s.front a
  let s := s.setFront a { f with run := .halted, preempt := false }
  match s.launchOf a with
  | some p => s.setPlaced { p with last := some a }
  | none => s

/-- Frees the bound streams of a context that have nothing left to write (R140, R207). -/
def State.freeDone (s : State) (k : Nat) : State :=
  (List.range 8).foldl (fun s j => if s.unwritten k (BitVec.ofNat 3 j) then s else freeStream s k (BitVec.ofNat 3 j)) s

/-- KERNEL_HALT_COMPLETE (R140, R297): a halting kernel counts as halted once its vector or array work, streams,
threads and accesses have ended; entries that a trap holds count for nothing (R135), and are discarded with the halt (DESIGN
CHOICE: R140 and R297 do not say what becomes of them; log 65). The arbiter writes LANEPART before (R334). Bound input streams are freed; output streams write out first, and a fault that one meets is taken as a trap of the
`sys.halt`. -/
def execKernelHaltComplete (ag : Nat) (s : State) : Out :=
  let f := s.front ag
  if f.run ≠ .halting then .next s
  else if isDrone ag then
    let q := s.cluster (clusterOf ag)
    if (q.queue.isEmpty || f.held) && q.mma.isNone && s.agentDrained ag then .next ((s.dropIfHeld ag).setHalted ag) else .next s
  else
    let v := s.vec ag
    if s.vecBusy ag then .next s
    else
      match v.outFault with
      | some x =>
        .next ((s.setVec ag v.tellOutFaults).takeTrap ag false f.pc { code := x.code, write := true, tval := x.va })
      | none =>
        let s := s.freeDone ag
        let v := s.vec ag
        if (v.s.toList.all Option.isNone) && v.infl.isEmpty && s.agentDrained ag then
          .next ((((s.dropIfHeld ag).freeLanes ag).setHalted ag).arbitrate (coreOf ag))
        else .next s

/-! ## Time, counts, generation -/

/-- `sys.time` (R142). -/
def execSysTime (d : XReg) (s : State) : Out := aluOp d [] (fun _ => s.time) s

/-- `sys.cycle`: CYCLE of the agent's cluster (R142). -/
def execSysCycle (d : XReg) (s : State) : Out :=
  onFront s fun a _ => aluOp d [] (fun _ => (s.cluster (clusterOf a)).cycle) s

/-- `sys.gen` (R142). -/
def execSysGen (d : XReg) (s : State) : Out := aluOp d [] (fun f => f.curgen.zeroExtend 64) s

/-! ## Translation -/

/-- Is a translation of an address under an identifier named by a flush (R145)? The fields select, not the values. -/
def flushNames (pageSel idSel : Bool) (page : W64) (id : BitVec 16) (t : TlbEntry) : Bool :=
  (!idSel || t.asid = id) && (!pageSel || t.vfn = (page.toNat % 2 ^ 57) / 2 ^ fragBits t.big)

/-- Is a request an access of an agent, a thread or a stream that has looked up a translation? -/
def Request.translated (q : Request) : Bool :=
  match q.waiter with
  | .access _ | .thread _ | .store .. | .entry .. => true
  | .bytes o _ _ | .segment o _ => (match o with | .device _ => false | _ => true)
  | _ => false

/-- May an access that has not performed have looked up a named translation (R330)? A page is named with the 2 MiB
fragment that may hold it; an access that another device has still to answer, and a write of a thread or the device that stalls
for a reserve batt, count whatever their page is (log 62). A `fab.add96` or `fab.notify` has looked up its address at issue. -/
def State.flushBlocked (s : State) (pageSel idSel : Bool) (page : W64) (id : BitVec 16) : Bool :=
  let named (va aspace : W64) : Bool :=
    !inWindow va && (!idSel || aspaceId aspace = id) &&
      (!pageSel || (va.toNat % 2 ^ 57) / 2 ^ 21 = (page.toNat % 2 ^ 57) / 2 ^ 21)
  s.requests.any Request.translated || !s.stuck.isEmpty ||
    (s.threads.any fun t => match t.kind with | .add96 _ va _ _ | .notify va _ _ => named va t.aspace | _ => false) ||
    s.fronts.any fun p => p.2.acc.any fun x => named x.va p.2.aspace

/-- `sys.tlb.flush` (R145, R330): it waits for the accesses that use named entries, then drops the entries from every
TLB of the device. -/
def execSysTlbFlush (ra rb : XReg) (s : State) : Out :=
  onFront s fun a _ => supervisorOnly s a (.sysTlbFlush ra rb) fun _ => scalarRead s a [ra, rb] [] fun f =>
    let page := f.xr ra
    let id := (f.xr rb).extractLsb' 0 16
    let pageSel : Bool := ra ≠ 0
    let idSel : Bool := rb ≠ 0
    if s.flushBlocked pageSel idSel page id then .next s
    else
      let keep (t : TlbEntry) : Bool := !flushNames pageSel idSel page id t
      let s := { s with
        cores := s.cores.map fun (p : Nat × Core) => (p.1, { p.2 with utlb := p.2.utlb.filter keep })
        clusters := s.clusters.map fun (p : Nat × Cluster) => (p.1, { p.2 with tlb := p.2.tlb.filter keep }) }
      .next (s.retire a (f.pc + 4))

/-- `sys.aspace` (R146): ILLFLD for a value with [47:32] set; it waits for the agent's accesses, and bound input
streams drop their prefetch. -/
def execSysAspace (d ra : XReg) (s : State) : Out :=
  onFront s fun a _ => scalarRead s a [ra] [d] fun f =>
    let x := f.xr ra
    if x.extractLsb' 32 16 ≠ 0 then s.scalarTrap a (wordTrap 2 ((Sys2Proof.encode (.sysAspace d ra)).getD 0))
    else supervisorOnly s a (.sysAspace d ra) fun _ =>
      if !s.quiet a then .next s
      else .next (((s.setAspace a x).writeX a d f.aspace).retire a (f.pc + 4))

/-! ## Page walks -/

/-- PAGE_WALK_COMPLETE (R328, R329): a walk for an agent's address ends; a valid leaf fills the TLBs, and a failed
one leaves them, its fault being that of the accesses that wait. -/
def execPageWalkComplete (ag : Nat) (va : W64) (s : State) : Out :=
  if inWindow va || !canonical va then .next s
  else .next ((s.countCluster (clusterOf ag) 0x29 1).walkFill ag false (s.front ag).aspace va)

end Sys2Proof.Machine
end

