-- ==== Sys2Proof/Machine/Vcfg.lean ====
section
/-! DEFINITION. Vector configuration: class `vcfg` (R152 to R157, R249). -/
namespace Sys2Proof.Machine

/-- The lane groups that LANEPART gives a context (R152). -/
def State.grantNow (s : State) (k : Nat) : BitVec 8 :=
  let c := s.core (coreOf k)
  (List.range 8).foldl (fun g j => if laneHolder c.lanepart j = ctxOf k then g ||| (1#8 <<< j) else g) 0

/-! ## The strip boundary -/

/-- The scalar half of `vcfg.setl` (R152, R246): the wait for lanes, VLMAX, VL and x(D). It ends the target held since a
restart (R324). -/
def setlFront (i : Instr) (d a b : XReg) (s : State) (k : Nat) : Out :=
  scalarRead s k [a, b] [d] fun f =>
    let avl := (f.xr a).toNat
    let v := s.vec k
    let g := s.grantNow k
    if 0 < avl ∧ v.lanereq ≠ 0 ∧ g = 0 then
      if s.peerFatal k then s.scalarTrap k { code := 11 } else .next s
    else if v.room < 1 then .next s
    else
      let s := s.enterViq k ((Sys2Proof.encode i).getD 0) [] ((f.xr b).extractLsb' 0 32) g
      let v := s.vec k
      let vm := vlmaxOf (lanesOf g) v.vtype
      let vl := min avl vm
      let s := s.setVec k { v with fgrant := g, vlmax := BitVec.ofNat 13 vm, vl := BitVec.ofNat 13 vl }
      let c := s.core (coreOf k)
      let s := s.setCore (coreOf k) { c with restart := c.restart.drop (ctxOf k) }
      .next ((s.writeX k d (BitVec.ofNat 64 vl)).issue k (f.pc + 4))

/-- The elements of the group at a base that a new grant keeps (R153). -/
def keptCount (v : Vec) (vt : VType) (new : Nat) (base : VReg) : Nat :=
  let w := (v.tagOf base).width
  min (64 * v.lanes * vt.lmul / w) (64 * new * vt.lmul / w)

/-- Moves a kept group of `old` into the new lanes (R153). -/
def moveGroup (old : Vec) (vt : VType) (new : Nat) (v : Vec) (base : VReg) : Vec :=
  let w := (old.tagOf base).width
  (List.range (keptCount old vt new base)).foldl (fun v i => v.setElem new w base i (old.elem old.lanes w base i)) v

/-- The unreadable marks of a kept group in the new lanes (R379). -/
def movedMarks (old : Vec) (vt : VType) (new : Nat) (base : VReg) : List (Nat × Nat × Nat) :=
  let w := (old.tagOf base).width
  if old.bad.isEmpty then []
  else
    ((List.range (keptCount old vt new base)).filter (old.elemBad old.lanes w base)).flatMap fun i =>
      let p := place new w base i
      (List.range 8).filterMap fun b => if inElem new w base i (p.1, p.2.1, b) then some (p.1, p.2.1, b) else none

/-- The entries of a kept group in the new lanes whose marks had been reported (R382). -/
def movedTold (old : Vec) (vt : VType) (new : Nat) (base : VReg) : List (Nat × Nat) :=
  let w := (old.tagOf base).width
  if old.told.isEmpty then []
  else
    ((List.range (keptCount old vt new base)).filter fun i =>
      old.elemBad old.lanes w base i && old.told.contains ((place old.lanes w base i).1, (place old.lanes w base i).2.1)).map fun i =>
      ((place new w base i).1, (place new w base i).2.1)

/-- The groups that a keep mask names under an LMUL (R153). -/
def keptGroups (vt : VType) (keep : BitVec 32) : List VReg :=
  ((List.range 32).filter fun j => j % vt.lmul = 0 && keep.getLsbD j).map fun j => BitVec.ofNat 5 j

/-- Re-lays the registers for a new grant and switches to it (R153, R249): kept groups move, the other bits are 0,
tags stay, and the masks keep the bits below both VLMAX. -/
def Vec.relay (v : Vec) (vt : VType) (keep : BitVec 32) (g : BitVec 8) : Vec :=
  let new := lanesOf g
  let kept := keptGroups vt keep
  let cleared := { v with v := Vector.replicate 32 0, bad := [], told := [] }
  let moved := kept.foldl (moveGroup v vt new) cleared
  let n := min (vlmaxOf v.lanes vt) (vlmaxOf new vt)
  { moved with
    bad := (kept.flatMap (movedMarks v vt new)).eraseDups
    told := (kept.flatMap (movedTold v vt new)).eraseDups
    m := v.m.mapIdx fun i x => if i = 0 then x else x &&& BitVec.ofNat 4096 (2 ^ n - 1)
    grant := g }

/-- The lane groups that a context still uses: those of its GRANT, which stays as it was when its kernel has halted (R140,
R336); a `vcfg.setl` whose vector half has begun has released those that leave it (R249 step 1). -/
def State.usedGrant (s : State) (k : Nat) : BitVec 8 :=
  match (s.front k).run with
  | .halted | .idle => 0
  | _ =>
    let v := s.vec k
    match v.infl.find? fun e => !e.done && e.started && isSetl e.word with
    | some e => v.grant &&& e.gnew
    | none => v.grant

/-- Has every lane group entering a context's grant been released by its previous holder (R249 step 2)? -/
def State.lanesReleased (s : State) (k : Nat) (g : BitVec 8) : Bool :=
  (List.range 4).all fun q =>
    let o := 4 * coreOf k + q
    o = k || (s.usedGrant o &&& g &&& ~~~(s.vec k).grant) = 0

/-- The vector half of `vcfg.setl` (R249). Where it changes the grant, every older instruction of the context has completed when
it runs, so that the groups leaving the grant are released before it waits for those entering it. -/
def setlVector (s : State) (k : Nat) (e : Entry) : Out :=
  if !s.lanesReleased k e.gnew then .next (s.setVec k ((s.vec k).setEntry { e with started := true }))
  else .next (s.setVec k (((s.vec k).relay e.vtype e.keep e.gnew).complete e))

/-- `vcfg.setl` (R152, R249). -/
def execVcfgSetl (d a b : XReg) (s : State) : Out :=
  match s.actor with
  | .front k _ => if isDrone k then .fault .notAnEvent else setlFront (.vcfgSetl d a b) d a b s k
  | .vector k j _ =>
    match (s.vec k).infl[j]? with
    | some e => if e.done then .fault .notAnEvent else setlVector s k e
    | none => .fault .notAnEvent
  | _ => .fault .notAnEvent

/-- SETL_GRANT_SWITCH: the vector half of a `vcfg.setl` that has issued (R249). -/
def execSetlGrantSwitch (k : Nat) (s : State) : Out :=
  match (s.vec k).infl.find? fun e => !e.done with
  | some e =>
    match decodeWord e.word with
    | .ok (.vcfgSetl ..) => setlVector s k e
    | _ => .next s
  | none => .next s

/-! ## Type and request -/

/-- `vcfg.settype` (R154). -/
def execVcfgSettype (d a : XReg) (s : State) : Out :=
  onFront s fun k _ => scalarRead s k [a] [d] fun f =>
    match vtypeWrite s k (f.xr a) with
    | none => s.scalarTrap k (wordTrap 2 ((Sys2Proof.encode (.vcfgSettype d a)).getD 0))
    | some s => .next ((s.writeX k d ((s.vec k).vlmax.zeroExtend 64)).retire k (f.pc + 4))

/-- `vcfg.getmax` (R156). -/
def execVcfgGetmax (d a : XReg) (s : State) : Out :=
  onFront s fun k _ => scalarRead s k [a] [d] fun f =>
    let x := f.xr a
    if !vtypeValid x then s.scalarTrap k (wordTrap 2 ((Sys2Proof.encode (.vcfgGetmax d a)).getD 0))
    else .next ((s.writeX k d (BitVec.ofNat 64 (vlmaxOf (lanesOf (s.vec k).fgrant) (x.extractLsb' 0 24)))).retire k (f.pc + 4))

/-- `vcfg.lanereq` (R157). -/
def execVcfgLanereq (d a : XReg) (s : State) : Out :=
  onFront s fun k _ => scalarRead s k [a] [d] fun f =>
    match lanereqWrite s k (f.xr a) with
    | none => s.scalarTrap k (wordTrap 2 ((Sys2Proof.encode (.vcfgLanereq d a)).getD 0))
    | some t => .next ((t.writeX k d ((s.vec k).lanereq.zeroExtend 64)).retire k (f.pc + 4))

/-- `vcfg.tag` (R155). -/
def execVcfgTag (d : VReg) (code : BitVec 5) (s : State) : Out :=
  vectorInstr (.vcfgTag d code) [] none s fun k e =>
    match Tag.ofCode code.toNat with
    | none => s.rejectVec k e 3
    | some t => .next (s.setVec k (((s.vec k).setTags d e.vtype.lmul t).complete e))

end Sys2Proof.Machine
end

