-- ==== Sys2Proof/Machine/Vred.lean ====
section
/-! DEFINITION. Reductions, scans and mask operations: class `vred` (R171 to R177). A register read that meets an
unreadable entry traps without an effect, since no stop divides these instructions (R171). -/
namespace Sys2Proof.Machine

/-- Flags raised on one element of an instruction that is not element-wise (R45, R172). While FTRAP traps on some flag, FLAGS
takes them with the completion (R253). -/
def VRun.routeAt (r : VRun) (i : Nat) (fl : Flags) (v : Vec) : Vec :=
  let v := { v with flags := if v.ftrap = 0 then v.flags ||| fl else v.flags }
  if Flags.routed r.vt fl then v.setMaskBit (BitVec.ofNat 3 r.vt.xm) i true else v

/-- Ends an instruction that no stop divides (R171, R197): an unreadable source or an FPX trap leaves no effect;
otherwise `write` gives the registers, and the flags fall on element 0. With vl = 0 it only completes. -/
def foldFinish (s : State) (k : Nat) (r : VRun) (stop : Option Stop) (fl : Flags) (write : Vec → Vec) : Out :=
  if r.vl = 0 then .next (s.setVec k ((s.vec k).complete r.e))
  else
    match stop with
    | some x => s.stopVec k r.e 0 x.trap
    | none =>
      if Flags.traps r.v.ftrap fl then
        if s.mayTrap k r.e then .next (s.fpxTrap k r.e { code := 5, tval := BitVec.zeroExtend 64 (fl &&& r.v.ftrap) })
        else .next s
      else .next (s.setVec k ((r.routeAt 0 fl (write (s.vec k))).complete { r.e with flags := r.e.flags ||| fl }))

/-- Writes element 0 of a group; the other elements are tail (R172, R198). -/
def VRun.putFirst (r : VRun) (d : VReg) (w : Nat) (t : Tag) (c : Nat) (v : Vec) : Vec :=
  VRun.put { r with vl := 1, start := 0 } 0 1 true ⟨d, w, some t, fun _ => some c⟩ v

/-! ## Folds -/

/-- A term of a fold: a value and the flags met so far. -/
abbrev Term := Val × Flags

/-- An addition rounded into the result tag (R173). -/
def addRounded (vt : VType) (t : Tag) (a b : Term) : Term :=
  let x := encodeWith vt t (a.1.add vt.rm b.1)
  (value t x.1, x.2 ||| a.2 ||| b.2)

/-- One level of the pairwise tree (R173). -/
def treeLevel (vt : VType) (t : Tag) : List (Option Term) → List (Option Term)
  | a :: b :: rest =>
    (match a, b with
     | some x, some y => some (addRounded vt t x y)
     | some x, none => some x
     | none, b => b) :: treeLevel vt t rest
  | l => l

/-- The pairwise tree over n levels (R173). -/
def treeSum (vt : VType) (t : Tag) : Nat → List (Option Term) → Option Term
  | 0, l => l.head?.join
  | n + 1, l => treeSum vt t n (treeLevel vt t l)

/-- Reads a term: a signalling NaN raises NV and goes on as a quiet one (R36). -/
def Term.of (x : Val) : Term := ((match x with | .nan _ => .nan false | x => x), x.sigFlag)

/-- The fold of an initial value and terms with a float result, in the order of R173: the tree for `ord` false. -/
def floatSum (vt : VType) (t : Tag) (ord : Bool) (init : Term) (terms : List (Option Term)) : Term :=
  if ord then (terms.filterMap id).foldl (addRounded vt t) init
  else
    -- 13 levels bring 4,096 terms, the largest VLMAX, to one
    match treeSum vt t 13 terms with
    | some x => addRounded vt t init x
    | none => init

/-- The fold of a reduction: the code and flags of element 0 (R172, R173). `va` and `vi` read an element and the
initial value in the way of R46. -/
def foldResult (f : RedFn) (vt : VType) (w : Nat) (t : Tag) (init : Val) (initCode : Nat) (terms : List (Option (Val × Nat))) :
    Nat × Flags :=
  let present := terms.filterMap id
  let vals := present.map (·.1)
  let sig := vals.foldl (fun f x => f ||| x.sigFlag) init.sigFlag
  match f with
  | .and => (present.foldl (fun a p => Nat.land a p.2) initCode % 2 ^ w, Flags.none)
  | .or => (present.foldl (fun a p => Nat.lor a p.2) initCode % 2 ^ w, Flags.none)
  | .max => encodeWith vt t (vals.foldl (Val.pick true) init, sig)
  | .min => encodeWith vt t (vals.foldl (Val.pick false) init, sig)
  | .sum | .sumOrd =>
    if t.cls = .float then
      let x := floatSum vt t (f = .sumOrd) (Term.of init) (terms.map fun o => o.map fun p => Term.of p.1)
      encodeWith vt t x
    else encodeWith vt t (vals.foldl (fun a b => (a.add vt.rm b).1) init, Flags.none)

/-- The terms of a reduction: element i of A where it is active (R173). -/
def VRun.terms (r : VRun) (m : MReg) (w : Nat) (a : VReg) (rd : Nat → Val) : List (Option (Val × Nat)) :=
  (List.range r.vl).map fun i => if r.active m i then some (rd (r.elem w a i), r.elem w a i) else none

/-- The unreadable entry that a reduction meets: element 0 of a vector initial value, or an active element of A. -/
def VRun.foldStop (r : VRun) (m : MReg) (w : Nat) (a : VReg) (init : List (VReg × Nat)) : Option Stop :=
  Stop.first (VRun.uecc { r with vl := 1 } 0 init) (r.uecc m [(a, w)])

/-- A reduction with an initial value in element 0 of B or in x(B) (R171, R172). -/
def vredFold (i : Instr) (f : RedFn) (d a : VReg) (src : VSrc) (m : MReg) (s : State) : Out :=
  vectorInstr i (srcRegs src) none s fun k e =>
    let r := s.vrun k e true
    let w := r.vt.sew
    match redTag f r.v r.vt a src with
    | none => s.rejectVec k e 3
    | some t =>
      let ta := r.v.tagOf a
      let q := r.src ta src
      let x := foldResult f r.vt w t (operandVal r.vt false t q.tag (q.get 0)) (q.get 0)
        (r.terms m w a (operandVal r.vt false t ta))
      foldFinish s k r (r.foldStop m w a q.regs) x.2 (r.putFirst d w t x.1)

/-- `vred.redsum` (R172, R173). -/
def execVredRedsum (d a : VReg) (src : VSrc) (m : MReg) (s : State) : Out := vredFold (.vredRedsum d a src m) .sum d a src m s
/-- `vred.redsum.ord` (R173). -/
def execVredRedsumOrd (d a : VReg) (src : VSrc) (m : MReg) (s : State) : Out :=
  vredFold (.vredRedsumOrd d a src m) .sumOrd d a src m s
/-- `vred.redmax` (R172). -/
def execVredRedmax (d a : VReg) (src : VSrc) (m : MReg) (s : State) : Out := vredFold (.vredRedmax d a src m) .max d a src m s
/-- `vred.redmin` (R172). -/
def execVredRedmin (d a : VReg) (src : VSrc) (m : MReg) (s : State) : Out := vredFold (.vredRedmin d a src m) .min d a src m s
/-- `vred.redand` (R172). -/
def execVredRedand (d a : VReg) (src : VSrc) (m : MReg) (s : State) : Out := vredFold (.vredRedand d a src m) .and d a src m s
/-- `vred.redor` (R172). -/
def execVredRedor (d a : VReg) (src : VSrc) (m : MReg) (s : State) : Out := vredFold (.vredRedor d a src m) .or d a src m s

/-- `vred.redsum.w`: the sum in the wide tag, with the initial value in the wide group B (R172). -/
def execVredRedsumW (d a b : VReg) (m : MReg) (s : State) : Out :=
  vectorInstr (.vredRedsumW d a b m) [] none s fun k e =>
    let r := s.vrun k e true
    let w := r.vt.sew
    match redWTag r.v r.vt a b with
    | none => s.rejectVec k e 3
    | some t =>
      let ta := r.v.tagOf a
      let c := r.elem (2 * w) b 0
      let x := foldResult .sum r.vt (2 * w) t (readVal r.vt t c) c (r.terms m w a (readVal r.vt ta))
      foldFinish s k r (r.foldStop m w a [(b, 2 * w)]) x.2 (r.putFirst d (2 * w) t x.1)

/-! ## Scans (R174) -/

/-- One step of a scan: the fold so far and the next element. -/
def scanStep (f : RedFn) (vt : VType) (t : Tag) (acc : Val) (x : Val) : Val × Nat × Flags :=
  match f with
  | .max =>
    let v := acc.pick true x
    let c := encode vt t v
    (v, c.1, c.2 ||| x.sigFlag)
  | _ =>
    if t.cls = .float then
      let y := addRounded vt t (acc, Flags.none) (Term.of x)
      (y.1, (encode vt t y.1).1, y.2)
    else
      let v := (acc.add vt.rm x).1
      let c := encode vt t v
      (v, c.1, c.2)

/-- The prefixes of a scan over the elements below vl: index, code and flags of each active one (R174). -/
def scanList (f : RedFn) (vt : VType) (t : Tag) : Val → List (Nat × Val) → List (Nat × Nat × Flags)
  | _, [] => []
  | acc, (i, x) :: rest =>
    let y := scanStep f vt t acc x
    (i, y.2.1, y.2.2) :: scanList f vt t y.1 rest

/-- The prefix at an index. -/
def scanAt (l : List (Nat × Nat × Flags)) (i : Nat) : Nat × Flags := ((l.find? fun p => p.1 = i).map (·.2)).getD (0, Flags.none)

/-- An inclusive scan (R174): the flags of reading the initial value fall on the lowest active element. -/
def vredScan (i : Instr) (f : RedFn) (d a : VReg) (src : VSrc) (m : MReg) (s : State) : Out :=
  vectorInstr i (srcRegs src) none s fun k e =>
    let r := s.vrun k e true
    let w := r.vt.sew
    match redTag f r.v r.vt a src with
    | none => s.rejectVec k e 3
    | some t =>
      let ta := r.v.tagOf a
      let q := r.src ta src
      let init := operandVal r.vt false t q.tag (q.get 0)
      let act := r.actives m r.vl
      let l := scanList f r.vt t (Term.of init).1 (act.map fun n => (n, operandVal r.vt false t ta (r.elem w a n)))
      match r.foldStop m w a q.regs with
      | some x => if r.vl = 0 then .next (s.setVec k ((s.vec k).complete r.e)) else s.stopVec k r.e 0 x.trap
      | none =>
        elementwise s k r m d w (some t) [] none fun n =>
          let y := scanAt l n
          (some y.1, y.2 ||| Flags.when (act.head? = some n) init.sigFlag)

/-- `vred.scan.add` (R174). -/
def execVredScanAdd (d a : VReg) (src : VSrc) (m : MReg) (s : State) : Out := vredScan (.vredScanAdd d a src m) .sum d a src m s
/-- `vred.scan.max` (R174). -/
def execVredScanMax (d a : VReg) (src : VSrc) (m : MReg) (s : State) : Out := vredScan (.vredScanMax d a src m) .max d a src m s

/-! ## Masks (R175, R176) -/

/-- A logical function of two masks (R175). -/
def maskLogic (i : Instr) (f : Bool → Bool → Bool) (d a b m : MReg) (s : State) : Out :=
  vectorInstr i [] none s fun k e =>
    let r := s.vrun k e true
    elementwiseMask s k r m d 0 [] none fun n => (f (r.v.maskBit a n) (r.v.maskBit b n), Flags.none)

/-- `vred.mask.and` (R175). -/
def execVredMaskAnd (d a b m : MReg) (s : State) : Out := maskLogic (.vredMaskAnd d a b m) (fun x y => x && y) d a b m s
/-- `vred.mask.or` (R175). -/
def execVredMaskOr (d a b m : MReg) (s : State) : Out := maskLogic (.vredMaskOr d a b m) (fun x y => x || y) d a b m s
/-- `vred.mask.xor` (R175). -/
def execVredMaskXor (d a b m : MReg) (s : State) : Out := maskLogic (.vredMaskXor d a b m) (fun x y => x != y) d a b m s
/-- `vred.mask.andn` (R175). -/
def execVredMaskAndn (d a b m : MReg) (s : State) : Out := maskLogic (.vredMaskAndn d a b m) (fun x y => x && !y) d a b m s

/-- Delivers an x register that a vector instruction writes (R176, R206). -/
def State.deliverX (s : State) (k : Nat) (d : XReg) (v : W64) : State := s.setFront k ((s.front k).deliver d v)

/-- The active set bits of m(A) below vl, ascending. -/
def VRun.setBits (r : VRun) (m a : MReg) : List Nat := (r.actives m r.vl).filter (r.v.maskBit a)

/-- `vred.mask.first` (R176). -/
def execVredMaskFirst (d : XReg) (a m : MReg) (s : State) : Out :=
  vectorInstr (.vredMaskFirst d a m) [] (some d) s fun k e =>
    let r := s.vrun k e true
    let x : W64 := match (r.setBits m a).head? with
      | some i => BitVec.ofNat 64 i
      | none => BitVec.allOnes 64
    .next ((s.setVec k ((s.vec k).complete e)).deliverX k d x)

/-- `vred.mask.count` (R176). -/
def execVredMaskCount (d : XReg) (a m : MReg) (s : State) : Out :=
  vectorInstr (.vredMaskCount d a m) [] (some d) s fun k e =>
    let r := s.vrun k e true
    .next ((s.setVec k ((s.vec k).complete e)).deliverX k d (BitVec.ofNat 64 (r.setBits m a).length))

/-- Cuts a mask at its first active set bit, which is kept for `thru` (R176). -/
def maskCut (i : Instr) (thru : Bool) (a m : MReg) (s : State) : Out :=
  vectorInstr i [] none s fun k e =>
    let r := s.vrun k e true
    let f := ((r.setBits m a).head?).getD r.vl
    elementwiseMask s k r m a 0 [] none fun n => (decide (n < f) || (thru && n = f), Flags.none)

/-- `vred.mask.cutoff` (R176). -/
def execVredMaskCutoff (a m : MReg) (s : State) : Out := maskCut (.vredMaskCutoff a m) false a m s
/-- `vred.mask.thru` (R176). -/
def execVredMaskThru (a m : MReg) (s : State) : Out := maskCut (.vredMaskThru a m) true a m s

/-- `vred.iota` (R177). An index of 2^SEW and above is written modulo 2^SEW with no flag, under SAT too (DESIGN CHOICE:
R177 names no narrowing; log 63). -/
def execVredIota (d : VReg) (m : MReg) (s : State) : Out :=
  vectorInstr (.vredIota d m) [] none s fun k e =>
    let r := s.vrun k e true
    let w := r.vt.sew
    elementwise s k r m d w (some (Tag.uintOf w)) [] none fun n => (some (wrapN w n), Flags.none)

end Sys2Proof.Machine
end

