-- ==== Sys2Proof/Machine/Matrix.lean ====
section
/-! DEFINITION. The matrix array: weight sets, feeding, multiplication, bellows and drain (R218 to R241). An MMA
runs one row at a time; its slots empty and its quarters become ready when it completes (log 12). -/
namespace Sys2Proof.Machine

/-! ## Types (R220, R221) -/

/-- The integer of a small-float code on a grid of 2^−f; none for a NaN. -/
def gridInt (t : Tag) (f : Nat) (c : Nat) : Option Int :=
  match value t c with
  | .fin m e => some (m * (2 ^ (e + f).toNat : Nat))
  | .zero _ => some 0
  | _ => none

/-- Does `mat.feed.end` accept a slot type (R220)? -/
def slotTypeOk (code : BitVec 5) : Bool := [0, 15, 23, 7, 6, 5, 4, 2].contains code.toNat

/-- I of a slot byte, none for an invalid element (R220). -/
def slotInt (code : BitVec 5) (b : Byte) : Option Int :=
  match code.toNat with
  | 15 | 23 => some (sextN 4 b.toNat)
  | 6 => gridInt .e2m1 1 b.toNat
  | 5 => gridInt .e2m3 3 b.toNat
  | 4 => gridInt .e3m2 4 b.toNat
  | 2 => gridInt .e4m3 9 b.toNat
  | _ => some (sextN 8 b.toNat)

/-- fA of a slot type (R220). -/
def slotFrac (code : BitVec 5) : Nat :=
  match code.toNat with
  | 7 => 6 | 6 => 1 | 5 => 3 | 4 => 4 | 2 => 9 | _ => 0

/-- The planes P of a slot type (R220). -/
def slotPlanes (code : BitVec 5) : Nat :=
  match code.toNat with
  | 15 | 23 => 4 | 6 => 5 | 5 => 7 | 4 => 10 | 2 => 19 | _ => 8

/-- Does a slot type take its scales from the slot (R220)? -/
def slotScaled (code : BitVec 5) : Bool := code ≠ 0 && code ≠ 15

/-- Is a code a BTAG (R221)? -/
def btagOk (code : BitVec 5) : Bool := [0, 7, 5, 6].contains code.toNat

/-- I of a weight cell (R221). -/
def cellInt (btag : BitVec 5) (c : Byte) : Int :=
  match btag.toNat with
  | 5 => (gridInt .e2m3 3 c.toNat).getD 0
  | 6 => (gridInt .e2m1 1 c.toNat).getD 0
  | _ => sextN 8 c.toNat

/-- fB of a BTAG (R221). -/
def btagFrac (btag : BitVec 5) : Nat := match btag.toNat with | 7 => 6 | 5 => 3 | 6 => 1 | _ => 0

/-! ## Reading the objects -/

/-- A weight set of a cluster. -/
def Cluster.weights (q : Cluster) (ws : BitVec 4) : WeightSet := Store.get WeightSet.reset q.ws ws.toNat

/-- N of a sparse form (R222). -/
def sparseN (sp : BitVec 2) : Nat := if sp = 1 then 4 else 2

/-- The K position of a cell (R230). -/
def WeightSet.kPos (w : WeightSet) (k n : Nat) : Nat :=
  if w.sp = 0 then k
  else 8 * (k / sparseN w.sp) + (Store.get (BitVec.ofNat 3 (k % sparseN w.sp)) w.idx (4096 * k + n)).toNat

/-- The scale of a K-block and column (R221, R222). -/
def WeightSet.scale (w : WeightSet) (kb n : Nat) : Byte := if w.btag = 0 then 127 else Store.get 127 w.scales (128 * kb + n / 32)

/-- The slots of an MMA (R228). -/
def mmaSlots (fd sp : BitVec 2) : List Nat :=
  if sp = 0 then [fd.toNat] else if sp = 1 then [fd.toNat, fd.toNat + 1] else [0, 1, 2, 3]

/-- Element p of a row over the slots of an MMA (R230). -/
def slotElem (slots : List Slot) (row p : Nat) : Byte := ((slots.getD (p / 256) Slot.reset).elems).read (256 * row + p % 256)

/-- The sum of a block for one cell; none when it reads an invalid element (R230). -/
def blockSum (w : WeightSet) (slots : List Slot) (row n kb : Nat) : Option Int :=
  let rows := 256 / kBlocks w.sp
  let code := (slots.headD Slot.reset).code
  (List.range rows).foldl
    (fun (o : Option Int) j =>
      let k := rows * kb + j
      match o, slotInt code (slotElem slots row (w.kPos k n)) with
      | some a, some x => some (a + x * cellInt w.btag (w.cells.read (4096 * k + n)))
      | _, _ => none) (some 0)

/-- What one pass adds to one cell: T, and whether it is lossy or bad (R229). -/
def passCell (w : WeightSet) (slots : List Slot) (anc : BitVec 9) (row n : Nat) : Int × Bool × Bool :=
  (List.range (kBlocks w.sp)).foldl
    (fun (a : Int × Bool × Bool) kb =>
      let eA := ((slots.getD (kb / 8) Slot.reset).scales).getD (kb % 8) 127
      let eB := w.scale kb n
      let s : Int := eA.toNat + eB.toNat - anc.toNat
      match blockSum w slots row n kb with
      | none => (a.1, a.2.1, true)
      | some p =>
        if eA = 255 || eB = 255 || decide (40 < s) then (a.1, a.2.1, true)
        else if 0 ≤ s then (a.1 + p * (2 ^ s.toNat : Nat), a.2.1, a.2.2)
        else
          let q := floorShift p (-s).toNat
          (a.1 + q, a.2.1 || q * (2 ^ (-s).toNat : Nat) != p, a.2.2)) (0, false, false)

/-- A cell after a pass: T is added with its carry, or the cell is invalid (R229, R233). -/
def TileCell.add (c : TileCell) (p : Int × Bool × Bool) : TileCell :=
  if p.2.2 then { c with inv := true }
  else
    let z := c.v.toInt + p.1
    let v := BitVec.ofInt 28 z
    { c with v := v, x := c.x || p.2.1, c := c.c + (z - v.toInt) / 2 ^ 28 }

/-- Why a pass stops at a cell: the bellows has no entry for it, or its entry is unreadable. -/
inductive PassStop where
  | full (key : Nat) | bad (key : Nat)
  deriving DecidableEq, Repr

/-- A tile part way through an MMA: its cells, the bellows entries that it holds, whether the bellows was full at some
moment, and why it has stopped. -/
structure Pass where
  cells : Store TileCell
  used : Nat
  full : Bool
  stop : Option PassStop
  deriving DecidableEq, Repr

/-- One cell of one pass; `room` is what the other tile leaves of the 4,096 entries, and `bad` says which entries are
unreadable (R233, R234, R377). -/
def Pass.step (room : Nat) (bad : Nat → Bool) (t : Pass) (key : Nat) (p : Int × Bool × Bool) : Pass :=
  let old := Store.get TileCell.zero t.cells key
  let new := old.add p
  let used := t.used + belEntries new.c - belEntries old.c
  if new = old then t
  else if new.c ≠ old.c && bad key then { t with stop := some (.bad key) }
  else if room < used then { t with full := true, stop := some (.full key) }
  else { t with cells := t.cells.put key new, used := used, full := t.full || used = room }

/-- The pass of one row from a cell on (R229). -/
def runRow (w : WeightSet) (slots : List Slot) (anc : BitVec 9) (room : Nat) (bad : Nat → Bool) (pos : Nat) (t : Pass) : Pass :=
  (List.range (4096 - pos % 4096)).foldl
    (fun t n => if t.stop.isSome then t else t.step room bad (pos + n) (passCell w slots anc ((pos + n) / 4096) ((pos + n) % 4096))) t

/-- The tile that an MMA works on: opened and zeroed with FIRST or when it is closed (R229). -/
def Tile.openFor (t : Tile) (first : Bool) (f : Nat) : Tile :=
  if first || !t.opened then { t with cells := [], anc := t.anchor, f := f, opened := true } else t

/-! ## Locators of uncorrectable errors (R378) -/

/-- KIND, INDEX and position (row, column) of a locator. -/
def locKind (l : W64) : Nat := (l.extractLsb' 52 4).toNat
/-- The object number of a locator. -/
def locIndex (l : W64) : Nat := (l.extractLsb' 48 4).toNat
/-- The tile cell of a locator. -/
def locCell (l : W64) : Nat := 4096 * (l.extractLsb' 32 5).toNat + (l.extractLsb' 0 12).toNat

/-- The locators of a cluster. -/
def State.locators (s : State) (c : Nat) : List W64 := (s.arrUncor.filter fun p => p.1 = c).map (·.2)

/-- The locators that an MMA meets at its start: those of its weight set and of its slots (R377). -/
def mmaErrors (ls : List W64) (ws : BitVec 4) (slots : List Nat) : List W64 :=
  ls.filter fun l => (locKind l = 0 && locIndex l = ws.toNat) || (locKind l = 1 && slots.contains (locIndex l))

/-- The locator of the bellows entry of a cell of a tile. -/
def bellowsError (ls : List W64) (ac key : Nat) : Option W64 := ls.find? fun l => locKind l = 3 && locIndex l = ac && locCell l = key

/-- Drops locators of a cluster. -/
def State.dropLocators (s : State) (c : Nat) (gone : W64 → Bool) : State :=
  { s with arrUncor := s.arrUncor.filter fun p => !(p.1 = c && gone p.2) }

/-! ## The array queue -/

/-- A precise stop of the drone at an entry of the array queue (R241). -/
def State.droneTrap (s : State) (c : Nat) (e : QEntry) (t : Trap) : State := s.takeTrap (droneOf c) true e.addr t

/-- The head of the queue leaves it. -/
def State.popQueue (s : State) (c : Nat) : State := s.setCluster c { s.cluster c with queue := (s.cluster c).queue.drop 1 }

/-- An instruction of the array queue has completed (R85). -/
def State.arrayRetire (s : State) (c : Nat) : State :=
  let f := s.front (droneOf c)
  s.setFront (droneOf c) { f with instret := f.instret + 1 }

/-- The front half: the word enters the array queue when it has room, where an MMA that has started keeps its place, since it may stand
at the head again (R218, R219, R228, R234). -/
def enterArray (i : Instr) (op : W64) (dest : Option XReg) (s : State) (a : Nat) : Out :=
  let f := s.front a
  let c := clusterOf a
  let q := s.cluster c
  if 8 ≤ q.queue.length + (if q.mma.isSome then 1 else 0) then .next s
  else
    let e : QEntry := { word := (Sys2Proof.encode i).getD 0, addr := f.pc, op := op, po := f.po }
    let s := s.setCluster c { q with queue := q.queue ++ [e] }
    let s := match dest with | some d => s.setFront a ((s.front a).setPend d) | none => s
    .next (s.issue a (f.pc + 4))

/-- The two halves of an array instruction: at the drone's front it enters the queue; on the array `run` is its effect
at the head of the queue, once the queue is not held (R241). -/
def arrayInstr (s : State) (enter : Nat → Out) (run : Nat → QEntry → Out) : Out :=
  match s.actor with
  | .front a _ => if isDrone a then enter a else .fault .notAnEvent
  | .array c =>
    match (s.cluster c).queue with
    | e :: _ => if (s.front (droneOf c)).held then .next s else run c e
    | [] => .fault .notAnEvent
  | _ => .fault .notAnEvent

/-! ## The multiplication -/

/-- The presence waits of an MMA: for full slots, and for the quarters of its tile to be empty (R228). -/
def mmaPresence (q : Cluster) (fd : BitVec 2) (ac : BitVec 1) (sp : BitVec 2) : Bool :=
  ((mmaSlots fd sp).any fun j => !(q.fd.getD j Slot.reset).full) || (q.ac.getD ac.toNat Tile.reset).ready ≠ 0

/-- Must an MMA wait (R228, R224)? -/
def mmaWaits (s : State) (c : Nat) (e : QEntry) (fd : BitVec 2) (ac : BitVec 1) (ws : BitVec 4) (sp : BitVec 2) : Bool :=
  let q := s.cluster c
  q.mma.isSome || mmaPresence q fd ac sp ||
    (s.threads.any fun t => t.agent = droneOf c && decide (t.po < e.po) &&
      (match t.kind with | .wld _ _ w _ _ _ => w = ws | _ => false))

/-- May a full bellows stall (R234): STALL, and the other tile holds entries in a ready quarter? -/
def Cluster.mayStall (q : Cluster) (ac : Nat) : Bool :=
  let o := q.ac.getD (1 - ac) Tile.reset
  q.belpol && o.cells.any fun p => decide (0 < belEntries p.2.c) && o.ready.getLsbD (p.1 % 4096 / 1024)

/-- The cells of a tile. -/
def tileSize : Nat := 32 * 4096

/-- An MMA at the head of the queue starts, waits or traps (R228, R229). A presence wait of a faulted launch takes PEERFAULT
(R311). -/
def mmaRun (fd : BitVec 2) (ac : BitVec 1) (ws : BitVec 4) (sp : BitVec 2) (first : Bool) (s : State) (c : Nat)
    (e : QEntry) : Out :=
  let q := s.cluster c
  let a := droneOf c
  if mmaWaits s c e fd ac ws sp then
    (if s.peerFatal a && q.mma.isNone && mmaPresence q fd ac sp then .next (s.droneTrap c e { code := 11 }) else .next s)
  else
    let names := mmaSlots fd sp
    let slots := names.map fun j => q.fd.getD j Slot.reset
    let w := q.weights ws
    let code := (slots.headD Slot.reset).code
    let f := slotFrac code + btagFrac w.btag
    let t := q.ac.getD ac.toNat Tile.reset
    if (slots.any fun x => x.code ≠ code) || w.state ≠ .valid || w.sp ≠ sp || (t.opened && !first && t.f ≠ f) then
      .next (s.droneTrap c e (wordTrap 3 e.word))
    else
      match mmaErrors (s.locators c) ws names with
      | l :: _ => .next (s.droneTrap c e { code := 10, tval := l })
      | [] =>
        let s := slots.foldl (fun (s : State) (x : Slot) => s.adopt a x.gen) (s.adopt a t.gen)
        let o := { t.openFor first f with gen := (s.front a).curgen }
        .next (s.setCluster c { q with ac := q.ac.setIfInBounds ac.toNat o, mma := some ⟨e, 0, t⟩, queue := q.queue.drop 1 })

/-- A started MMA leaves no visible result, stands at the head of the queue again, and traps (R234, R241, R377). How many of the p
planes of its last row the array has broadcast is timing (R392; log 11). -/
def State.withdrawMma (s : State) (c : Nat) (ac : BitVec 1) (r : MmaRun) (p : Nat) (t : Trap) : State :=
  let s := s.countCluster c 0x28 (Config.timingEvents s.freeCtr (256 + c) 0x28 % (p + 1))
  let q := s.cluster c
  (s.setCluster c { q with ac := q.ac.setIfInBounds ac.toNat r.held, mma := none, stalled := false, queue := r.entry :: q.queue }).droneTrap
    c r.entry t

/-- A started MMA goes through its next row (R229), whose planes the array broadcasts (R231, R392), as far as the bellows has
entries: with none free it stalls, or traps BELFULL (R234). Whenever the bellows is full, BELSTAT.FULL is set. -/
def State.mmaMove (s : State) (c : Nat) : State :=
  let q := s.cluster c
  match q.mma with
  | none => s
  | some r =>
    match decodeWord r.entry.word with
    | .ok (.matMma fd ac ws sp _ first) =>
      if tileSize ≤ r.pos then s
      else
        let slots := (mmaSlots fd sp).map fun j => q.fd.getD j Slot.reset
        let o := q.ac.getD ac.toNat Tile.reset
        let room := 4096 - (q.ac.getD (1 - ac.toNat) Tile.reset).bel
        let ls := if first || !r.held.opened then [] else s.locators c
        let p := runRow (q.weights ws) slots o.anc room (fun key => (bellowsError ls ac.toNat key).isSome) r.pos ⟨o.cells, o.bel, false, none⟩
        let at_ (pos : Nat) (stalled : Bool) : Cluster :=
          { q with ac := q.ac.setIfInBounds ac.toNat { o with cells := p.cells }, mma := some { r with pos := pos },
                   stalled := stalled, belfull := q.belfull || p.full }
        let planes := slotPlanes (slots.headD Slot.reset).code
        match p.stop with
        | none => (s.setCluster c (at_ (4096 * (r.pos / 4096 + 1)) false)).countCluster c 0x28 planes
        | some (.full key) =>
          let s' := s.setCluster c (at_ key true)
          if q.mayStall ac.toNat then s' else s'.withdrawMma c ac r planes { code := 12, tval := BitVec.ofNat 64 ac.toNat }
        | some (.bad key) =>
          (s.setCluster c (at_ key false)).withdrawMma c ac r planes { code := 10, tval := (bellowsError ls ac.toNat key).getD 0 }
    | _ => s

/-- `mat.mma` (R228, R229). -/
def execMatMma (fd : BitVec 2) (ac : BitVec 1) (ws : BitVec 4) (sp : BitVec 2) (last first : Bool) (s : State) : Out :=
  arrayInstr s (enterArray (.matMma fd ac ws sp last first) 0 none s) (mmaRun fd ac ws sp first s)

/-- May the array of a cluster start an entry: its drone is neither frozen nor stopped, and no trap holds the queue (R241,
R317, R393)? -/
def State.arrayMayStart (s : State) (c : Nat) : Bool :=
  let f := s.front (droneOf c)
  !f.held && !f.freezing && !f.frozen && !f.stopped

/-- MMA_START (R228): the MMA at the head of a cluster's queue tries to start. -/
def execMmaStart (c : Nat) (s : State) : Out :=
  match (s.cluster c).queue with
  | [] => .next s
  | e :: _ =>
    match decodeWord e.word with
    | .ok (.matMma fd ac ws sp _ first) => if s.arrayMayStart c then mmaRun fd ac ws sp first s c e else .next s
    | _ => .next s

/-- BELLOWS_STALL_RESUME (R234): the stalled MMA goes on if it now can, stalls on, or traps BELFULL. -/
def execBellowsStallResume (c : Nat) (s : State) : Out := .next (if (s.cluster c).stalled then s.mmaMove c else s)

/-- MMA_COMPLETE (R229): an MMA that has gone through its rows ends; the slots empty, LAST sets the quarters ready, and the
errors of what was written anew are gone (R377). -/
def execMmaComplete (c : Nat) (s : State) : Out :=
  let q := s.cluster c
  match q.mma with
  | none => .next s
  | some r =>
    match decodeWord r.entry.word with
    | .ok (.matMma fd ac _ sp last first) =>
      if r.pos < tileSize then .next s
      else
        let g := (s.front (droneOf c)).curgen
        let names := mmaSlots fd sp
        let fds := names.foldl (fun (v : Vector Slot 4) j => v.setIfInBounds j { Slot.reset with gen := g }) q.fd
        let t := q.ac.getD ac.toNat Tile.reset
        let t := if last then { t with ready := 0xF } else t
        let fresh := first || !r.held.opened
        let s := s.setCluster c { q with mma := none, fd := fds, ac := q.ac.setIfInBounds ac.toNat t }
        let s := s.dropLocators c fun l =>
          (locKind l = 1 && names.contains (locIndex l)) || (fresh && (locKind l = 2 || locKind l = 3) && locIndex l = ac.toNat)
        .next (s.arrayRetire c)
    | _ => .next (s.setCluster c { q with mma := none })

/-- `mat.anchor` (R232). -/
def execMatAnchor (ac : BitVec 1) (a : XReg) (s : State) : Out :=
  arrayInstr s
    (fun ag => scalarRead s ag [a] [] fun f =>
      if decide (508 < (f.xr a).toNat) then s.scalarTrap ag (wordTrap 2 ((Sys2Proof.encode (.matAnchor ac a)).getD 0))
      else enterArray (.matAnchor ac a) (f.xr a) none s ag)
    (fun c e =>
      let q := s.cluster c
      let t := q.ac.getD ac.toNat Tile.reset
      .next (((s.setCluster c { q with ac := q.ac.setIfInBounds ac.toNat { t with anchor := e.op.extractLsb' 0 9 } }).popQueue c).arrayRetire c))

/-- `mat.bel` (R235). -/
def execMatBel (d : XReg) (clr : Bool) (s : State) : Out :=
  arrayInstr s
    (fun ag => scalarRead s ag [] [d] fun _ => enterArray (.matBel d clr) 0 (some d) s ag)
    (fun c _ =>
      let q := s.cluster c
      if q.mma.isSome then .next s
      else
        let s := s.setFront (droneOf c) ((s.front (droneOf c)).deliver d q.belstat)
        .next (((s.setCluster c { q with belfull := q.belfull && !clr }).popQueue c).arrayRetire c))

/-! ## Weight loads -/

/-- Is a control word one that R222 accepts? -/
def controlOk (w : W64) : Bool :=
  let part := w.extractLsb' 8 2
  let sp := w.extractLsb' 5 2
  w.extractLsb' 10 54 = 0 && !w.getLsbD 7 && part ≠ 3 && sp ≠ 3 && btagOk (w.extractLsb' 0 5) && !(part = 2 && sp = 0)

/-- `mat.wld` (R222): it forks an engine thread. -/
def execMatWld (d a : XReg) (ws : BitVec 4) (s : State) : Out :=
  onFront s fun ag _ => scalarRead s ag [a, d] [d] fun f =>
    let w := f.xr d
    let src := f.xr a
    if !controlOk w then s.scalarTrap ag (wordTrap 2 ((Sys2Proof.encode (.matWld d a ws)).getD 0))
    else if src.toNat % 64 ≠ 0 then s.scalarTrap ag { code := 6, tval := src }
    else
      let t := s.newThread ag (.wld d src ws (w.extractLsb' 8 2) (w.extractLsb' 5 2) (w.extractLsb' 0 5)) 15
      if !s.threadRoom t then .next s else .next (s.fork ag t (some d))

/-- Must a weight load wait for earlier loads and MMAs of its set (R224)? -/
def wldHeld (s : State) (t : Thread) (ws : BitVec 4) : Bool :=
  let q := s.cluster (clusterOf t.agent)
  let names (w : InstrWord) : Bool := match decodeWord w with | .ok (.matMma _ _ x _ _ _) => x = ws | _ => false
  (s.threads.any fun x => x.agent = t.agent && decide (x.id < t.id) && (match x.kind with | .wld _ _ y _ _ _ => y = ws | _ => false)) ||
    (q.queue.any fun e => decide (e.po < t.po) && names e.word) || (match q.mma with | some r => names r.entry.word | none => false)

/-- Replaces a weight set. -/
def State.setWeights (s : State) (c : Nat) (ws : BitVec 4) (w : WeightSet) : State :=
  s.setCluster c { s.cluster c with ws := (s.cluster c).ws.put ws.toNat w }

/-- The non-zero bytes of a list with their positions: a memory in canonical form. -/
def memoryOf (bytes : List Byte) : Memory := bytes.zipIdx.filterMap fun p => if p.1 = 0 then none else some (p.2, p.1)

/-- A set whose load has failed: invalid, and its contents are not defined (R223; log 3). -/
def failedSet (s : State) (ws : BitVec 4) (w : WeightSet) : WeightSet :=
  let free (n : Nat) : Byte := Config.failedWeight s.freeCtr ws.toNat n
  { w with
    state := .invalid
    cells := memoryOf ((List.range 1048576).map free)
    scales := (List.range 4096).map fun n => (n, free (1048576 + n))
    idx := (List.range 1048576).map fun n => (n, (free (1052672 + n)).extractLsb' 0 3) }

/-- Does a part other than the cells find the set that it requires (R223)? -/
def partFits (w : WeightSet) (part sp : BitVec 2) (btag : BitVec 5) : Bool :=
  part = 0 || (w.state = .valid && w.btag = btag && w.sp = sp)

/-- The 3-bit index of cell row k in column n of PART 2 (R222). -/
def indexAt (bytes : List Byte) (k n : Nat) : Nat :=
  let bit := 3 * k
  let p := 96 * n + bit / 8
  ((bytes.getD p 0).toNat + 256 * (bytes.getD (p + 1) 0).toNat) / 2 ^ (bit % 8) % 8

/-- Do the indices rise strictly within each group of N cell rows (R223)? -/
def indicesOk (bytes : List Byte) (sp : BitVec 2) : Bool :=
  (List.range 4096).all fun n => (List.range 255).all fun k =>
    (k + 1) % sparseN sp = 0 || decide (indexAt bytes k n < indexAt bytes (k + 1) n)

/-- The set after a part has been written into it; none when its indices do not rise (R223). -/
def writePart (w : WeightSet) (part sp : BitVec 2) (btag : BitVec 5) (bytes : List Byte) : Option WeightSet :=
  if part = 0 then some { state := .valid, btag := btag, sp := sp, cells := memoryOf bytes, scales := [], idx := [] }
  else if part = 1 then some { w with state := .valid, scales := bytes.zipIdx.map fun p => (p.2, p.1) }
  else if indicesOk bytes sp then
    some { w with
      state := .valid
      idx := (List.range 1048576).map fun key => (key, BitVec.ofNat 3 (indexAt bytes (key / 4096) (key % 4096))) }
  else none

/-- The 64-byte lines of a thread's source: what each finds. -/
def State.lineProbes (s : State) (t : Thread) (src : W64) (n : Nat) : List Probe :=
  (List.range (n / 64)).map fun j => ⟨64 * j, src + BitVec.ofNat 64 (64 * j), s.findThread t .load (src + BitVec.ofNat 64 (64 * j)) 64⟩

/-- The lowest byte of a failing line that fails (R214): the first unreadable code unit, else the line itself. -/
def State.failOffset (s : State) (t : Thread) (p : Probe) : Nat :=
  match (List.range 64).find? fun j => match s.findThread t .load (p.va + BitVec.ofNat 64 j) 1 with | .fault _ => true | _ => false with
  | some j => p.i + j
  | none => p.i

/-- The bytes of a line. -/
def State.lineBytes (s : State) (p : Probe) : List Byte :=
  match p.found with
  | .at_ pa => bytesLE 64 (s.readLE pa 64)
  | .given _ bs => bs
  | _ => List.replicate 64 0

/-- WLD_COMPLETE (R223): a weight load that has started reads its part and ends. The byte offset of a load that fails with code 8 is
0 (DESIGN CHOICE: R214 makes it that of the lowest failing byte, and invalid weight data has none; log 65). -/
def execWldComplete (n : Nat) (s : State) : Out :=
  match s.thread n with
  | none => .next s
  | some t =>
    match t.kind with
    | .wld d src ws part sp btag =>
      if !t.started then .next s
      else
        let c := clusterOf t.agent
        let w := (s.cluster c).weights ws
        let fail (code off : Nat) : Out := .next ((s.setWeights c ws (failedSet s ws w)).endThread t (some d) (errorValue code off))
        let l := s.lineProbes t src (wldBytes part sp)
        match firstFault l with
        | some (p, code) =>
          .next (((s.noteFault t.agent true t.aspace p.va 64 code).setWeights c ws (failedSet s ws w)).endThread t (some d)
            (errorValue (threadCode code) (s.failOffset t p)))
        | none =>
          let asks := l.filterMap fun (p : Probe) => match p.found with | .ask pa => some pa | _ => none
          if !asks.isEmpty then .next (asks.foldl (fun (s : State) pa => s.askFor (.thread t.id) pa 64) s)
          else
            match writePart w part sp btag (l.flatMap s.lineBytes) with
            | none => fail 8 0
            | some w' =>
              let g := l.foldl (fun (g : BitVec 2) (p : Probe) => match p.found with
                | .at_ pa => s.newest g (s.genRange pa 64)
                | .given .. => s.newest g s.live
                | _ => g) t.gen
              let s := l.foldl (fun (s : State) (p : Probe) => match p.found with
                | .at_ pa => s.noteFar t.agent t.aspace p.va pa 64 false
                | _ => s) (s.dropLocators c fun x => part = 0 && locKind x = 0 && locIndex x = ws.toNat)
              .next ((s.setWeights c ws w').endThread { t with gen := g } (some d) (BitVec.ofNat 64 (wldBytes part sp)))
    | _ => .next s

/-! ## Feeding -/

/-- The cluster of a context (R16). -/
def feedCluster (k : Nat) : Nat := clusterOf k

/-- A wait of a vector-side `mat` instruction on a presence bit: PEERFAULT once the launch has faulted (R311). -/
def presenceWait (s : State) (k : Nat) (e : Entry) : Out :=
  if s.peerFatal k then s.stopVec k e e.pix.toNat { code := 11 } else .next s

/-- May x(B) of a `mat.feed` be used (R225)? -/
def feedWordOk (w : W64) : Bool := w.extractLsb' 24 40 = 0 && w.extractLsb' 5 11 = 0

/-- `mat.feed` (R225). -/
def execMatFeed (fd : BitVec 2) (a : VReg) (b : XReg) (s : State) : Out :=
  vectorInstr (.matFeed fd a b) [b] none s fun k e =>
    let r := s.vrun k e false
    let c := clusterOf k
    let q := s.cluster c
    let t := q.fd.getD fd.toNat Slot.reset
    let w := e.ops.getD 0 0
    if r.vt.sew ≠ 8 || (r.v.tagOf a).width ≠ 8 then s.rejectVec k e 3
    else if !feedWordOk w then s.rejectVec k e 2
    else if t.full then presenceWait s k e
    else
      let row := (w.extractLsb' 0 5).toNat
      let koff := (w.extractLsb' 16 8).toNat
      let read := (List.range (min r.hi (256 - koff))).filter fun j => decide (r.start ≤ j)
      let stop := VRun.uecc { r with hi := min r.hi (256 - koff) } 0 [(a, 8)]
      let hi := match stop with | some x => x.i | none => 256
      let elems := (read.filter fun j => decide (j < hi)).foldl
        (fun (m : Memory) j => m.write (256 * row + koff + j) (BitVec.ofNat 8 (r.elem 8 a j))) t.elems
      let written (p : Nat) : Bool := decide (koff ≤ p) && read.contains (p - koff) && decide (p - koff < hi)
      let put (s : State) : State :=
        let s := (s.adopt k t.gen).dropLocators c fun l =>
          locKind l = 1 && locIndex l = fd.toNat && locCell l / 4096 = row &&
            (List.range 8).all fun j => written (locCell l % 4096 / 8 * 8 + j)
        s.setCluster c { q with fd := q.fd.setIfInBounds fd.toNat { t with elems := elems, gen := (s.front k).curgen } }
      match stop with
      | some x => s.stopVec k e x.i x.trap put
      | none =>
        let s := put s
        .next (s.setVec k (if r.ends then (s.vec k).complete e else (s.vec k).progress e r.hi))

/-- The A scales that `mat.feed.end` records (R226). -/
def feedScales (v : Vec) (vt : VType) (code : BitVec 5) : Vector Byte 8 :=
  Vector.ofFn fun b => if slotScaled code then v.scale vt (32 * b.val) else 127

/-- `mat.feed.end` (R226). -/
def execMatFeedEnd (fd : BitVec 2) (code : BitVec 5) (s : State) : Out :=
  vectorInstr (.matFeedEnd fd code) [] none s fun k e =>
    let v := s.vec k
    let c := clusterOf k
    let q := s.cluster c
    let t := q.fd.getD fd.toNat Slot.reset
    if !slotTypeOk code then s.rejectVec k e 3
    else if t.full then presenceWait s k e
    else
      let s := s.adopt k t.gen
      let t := { t with full := true, code := code, scales := feedScales v e.vtype code, gen := s.newest t.gen (s.front k).curgen }
      .next ((s.setCluster c { q with fd := q.fd.setIfInBounds fd.toNat t }).setVec k (v.complete e))

/-- The value of `mat.slot` (R227). -/
def slotStatus (q : Cluster) (fd : BitVec 2) : W64 :=
  BitVec.zeroExtend 64 ((q.ac.getD 1 Tile.reset).ready ++ (q.ac.getD 0 Tile.reset).ready ++ 0#7 ++
    BitVec.ofBool (q.fd.getD fd.toNat Slot.reset).full)

/-- `mat.slot` (R227). -/
def execMatSlot (d : XReg) (fd : BitVec 2) (s : State) : Out :=
  vectorInstr (.matSlot d fd) [] (some d) s fun k e =>
    .next ((s.setVec k ((s.vec k).complete e)).deliverX k d (slotStatus (s.cluster (clusterOf k)) fd))

/-! ## Draining -/

/-- The tags of a drain's result (R237). -/
def drainTagOk (t : Tag) : Bool :=
  [.int8, .int16, .int32, .int64, .q14, .q15, .q30, .q31, .fp16, .bf16, .fp32, .uint64].contains t

/-- The anchored value of a cell (R229, R237): an invalid one has V = 0 and X = 1. -/
def Tile.anchored (t : Tile) (key : Nat) : Anchored :=
  let c := Store.get TileCell.zero t.cells key
  let e : BitVec 10 := BitVec.ofInt 10 ((t.anc.toNat : Int) - 254 - t.f)
  if c.inv then ⟨0, e, true⟩ else ⟨BitVec.ofInt 96 (c.v.toInt + 2 ^ 28 * c.c), e, c.x⟩

/-- One converted element of a drain (R237). -/
def drainElement (vt : VType) (t : Tag) (x : Tile) (row q coff j : Nat) : Nat × Flags :=
  if t = .uint64 then
    let col := coff + j / 2
    if 1023 < col then (0, Flags.none)
    else
      let key := 4096 * row + 1024 * q + col
      let bits := (x.anchored key).bits
      ((bits.extractLsb' (64 * (j % 2)) 64).toNat, Flags.when (Store.get TileCell.zero x.cells key).inv Flags.nv)
  else
    let col := coff + j
    if 1023 < col then (0, Flags.none)
    else
      let key := 4096 * row + 1024 * q + col
      if (Store.get TileCell.zero x.cells key).inv then (canonicalNan t, Flags.nv) else (x.anchored key).convert vt t

/-- May x(A) of a `mat.drain` be used (R237)? -/
def drainWordOk (w : W64) : Bool := w.extractLsb' 26 38 = 0 && w.extractLsb' 5 11 = 0

/-- The first element of a drain that meets an unreadable cell or bellows entry (R377, R378): any element of the tile's
drain for a bellows entry. -/
def drainStop (s : State) (r : VRun) (c : Nat) (ac : BitVec 1) (t : Tag) (row q coff : Nat) (d : VReg) : Option Stop :=
  let ls := (s.locators c).filter fun l => locIndex l = ac.toNat && (locKind l = 2 || locKind l = 3)
  if ls.isEmpty then none
  else
    (List.range r.hi).findSome? fun j =>
      let col := if t = .uint64 then coff + j / 2 else coff + j
      if j < r.start || decide (1023 < col) then none
      else
        (ls.find? fun l => locKind l = 3 || locCell l = 4096 * row + 1024 * q + col).map fun l =>
          ⟨j, { code := 10, elem := j, lane := laneNumber r.v.grant (place r.lanes r.vt.sew d j).2.1, tval := l }, none⟩

/-- `mat.drain` (R237). -/
def execMatDrain (d : VReg) (a : XReg) (ac : BitVec 1) (s : State) : Out :=
  vectorInstr (.matDrain d a ac) [a] none s fun k e =>
    let r := s.vrun k e false
    let c := clusterOf k
    let core := coreOf k % 4
    let x := (s.cluster c).ac.getD ac.toNat Tile.reset
    let t := r.v.tagOf d
    let w := e.ops.getD 0 0
    if !drainWordOk w then s.rejectVec k e 2
    else if !drainTagOk t || t.width ≠ r.vt.sew then s.rejectVec k e 3
    else if !x.ready.getLsbD core then presenceWait s k e
    else
      let row := (w.extractLsb' 0 5).toNat
      let coff := (w.extractLsb' 16 10).toNat
      let f := drainElement r.vt t x row core coff
      vecFinish s k r 0 (drainStop s r c ac t row core coff d) none false
        (fun hi fin => r.put 0 hi fin ⟨d, r.vt.sew, some t, fun j => some (f j).1⟩) (fun j => (f j).2) (fun s => s.adopt k x.gen)

/-- A tile with one quarter emptied (R238). -/
def Tile.emptyQuarter (t : Tile) (q : Nat) (g : BitVec 2) : Tile :=
  let ready := t.ready &&& ~~~(1#4 <<< q)
  { t with
    cells := t.cells.filter fun p => p.1 % 4096 / 1024 ≠ q
    ready := ready
    opened := t.opened && ready ≠ 0
    gen := g }

/-- `mat.drain.end` (R238). -/
def execMatDrainEnd (ac : BitVec 1) (s : State) : Out :=
  vectorInstr (.matDrainEnd ac) [] none s fun k e =>
    let c := clusterOf k
    let q := s.cluster c
    let core := coreOf k % 4
    let x := q.ac.getD ac.toNat Tile.reset
    if !x.ready.getLsbD core then presenceWait s k e
    else
      let s := s.adopt k x.gen
      let s := s.dropLocators c fun l => locIndex l = ac.toNat && (locKind l = 2 || locKind l = 3) && locCell l % 4096 / 1024 = core
      let x := x.emptyQuarter core (s.newest x.gen (s.front k).curgen)
      .next ((s.setCluster c { q with ac := q.ac.setIfInBounds ac.toNat x }).setVec k ((s.vec k).complete e))

end Sys2Proof.Machine
end

