-- ==== Sys2Proof/Machine/Scale.lean ====
section
/-! DEFINITION. Scale registers: class `scl` (R210, R211). -/
namespace Sys2Proof.Machine

/-- The scale register of byte j (R210). -/
def scaleIndex (v : Vec) (j : Nat) : Nat := (v.scalebase.toNat + j) % 256

/-- The bytes of `scl.ld` and `scl.st`, from an address on (R210). -/
def bytesForm (va : W64) : Form := ⟨false, true, fun j => some (va + BitVec.ofNat 64 j)⟩

/-- Notes the bytes of `scl.ld` and `scl.st` at their homes. -/
def State.noteScales (s : State) (k : Nat) (e : Entry) (write : Bool) (l : List Probe) : State :=
  (groupTouches k (s.front k).aspace e.po 1 (bytesForm 0) write 0 l).foldl State.note s

/-- `scl.ld` (R210): nothing changes when a check fails. The first failing byte traps, so that the bytes below it are
awaited. -/
def execSclLd (a b : XReg) (s : State) : Out :=
  vectorInstr (.sclLd a b) [a, b] none s fun k e =>
    let n := (e.ops.getD 1 0).toNat
    if 256 < n then s.rejectVec k e 2
    else
      let l := s.probes k .load 1 (bytesForm (e.ops.getD 0 0)) (List.range n)
      let below := belowFault l
      if s.vecHeld k e 15 (probeBytes 1 below) then .next s
      else if below.any Probe.waits then .next (s.askAll k 1 below)
      else
        match firstFault l with
        | some (p, c) => s.stopVec k e e.pix.toNat { code := c, tval := p.va } fun s => s.noteFault k false (s.front k).aspace p.va 1 c
        | none =>
          let t := ((s.adoptAll k 1 e l).noteScales k e false l).dropArrived (.vector k)
          let v := t.vec k
          let scales := l.foldl (fun (x : Vector Byte 256) (p : Probe) => x.setIfInBounds (scaleIndex v p.i) (BitVec.ofNat 8 (s.loaded 1 p))) v.e
          .next (t.setVec k ({ v with e := scales }.complete e))

/-- `scl.st` (R210). -/
def execSclSt (a b : XReg) (s : State) : Out :=
  vectorInstr (.sclSt a b) [a, b] none s fun k e =>
    let n := (e.ops.getD 1 0).toNat
    if 256 < n then s.rejectVec k e 2
    else
      let v := s.vec k
      let l := s.probes k .store 1 (bytesForm (e.ops.getD 0 0)) (List.range n)
      match firstFault l with
      | some (p, c) =>
        s.stopVec k e e.pix.toNat { code := c, write := true, tval := p.va } fun s => s.noteFault k false (s.front k).aspace p.va 1 c
      | none =>
        if s.vecHeld k e 15 (probeBytes 1 l) then .next s
        else
          let w := s.storeEach k e 15 (fun i => [v.e.getD (scaleIndex v i) 0]) l
          let t := ((w.1.healWhole (s.front k).curgen fun a => w.2.any fun (p : Probe) => p.covers 1 a).forkOn k (s.vecForks k e)).noteScales
            k e true w.2
          .next (t.setVec k ((t.vec k).complete e))

/-- `scl.tov` (R211). -/
def execSclTov (d : VReg) (s : State) : Out :=
  vectorInstr (.sclTov d) [] none s fun k e =>
    let r := s.vrun k e true
    if r.vt.sew ≠ 8 then s.rejectVec k e 3
    else elementwise s k r 0 d 8 (some .uint8) [] none fun i => (some (r.v.e.getD (scaleIndex r.v i) 0).toNat, Flags.none)

/-- `scl.fromv` (R211). -/
def execSclFromv (a : VReg) (s : State) : Out :=
  vectorInstr (.sclFromv a) [] none s fun k e =>
    let r := s.vrun k e true
    if r.vt.sew ≠ 8 || (r.v.tagOf a).width ≠ 8 then s.rejectVec k e 3
    else
      let n := min r.vl 256
      foldFinish s k r (VRun.uecc { r with vl := n } 0 [(a, 8)]) Flags.none fun v =>
        { v with e := (List.range n).foldl (fun (x : Vector Byte 256) i => x.setIfInBounds (scaleIndex v i) (BitVec.ofNat 8 (r.elem 8 a i))) v.e }

end Sys2Proof.Machine
end

