-- ==== Sys2Proof/Machine/Composite.lean ====
section
/-! DEFINITION. The composite functions of `vfn` FN 0 to 14: special inputs (R168, R169), exact results
(R71) and, for the rest, a free value held to the error bounds of R72 and to the monotony of R73 (log 3). -/
namespace Sys2Proof.Machine

/-- The built-in functions, by FN (R90). -/
inductive Fn where
  | sinCos | exp | exp2 | ln | log2 | sqrt | rsqrt | recip | div | atan2 | hypot | tanh | sigm | gelu | softx
  deriving DecidableEq, Repr

/-- The function number (R90). -/
def Fn.code : Fn → Nat
  | .sinCos => 0 | .exp => 1 | .exp2 => 2 | .ln => 3 | .log2 => 4 | .sqrt => 5 | .rsqrt => 6 | .recip => 7
  | .div => 8 | .atan2 => 9 | .hypot => 10 | .tanh => 11 | .sigm => 12 | .gelu => 13 | .softx => 14

/-- m1 × 2^e1 ≤ m2 × 2^e2. -/
def leDyadic (m1 e1 m2 e2 : Int) : Bool := decide ((addFin m1 e1 (-m2) e2).1 ≤ 0)

/-! ## Enclosures in fixed point -/

/-- A real that is not negative lies between lo × 2^e and hi × 2^e. -/
structure Encl where
  lo : Int
  hi : Int
  e : Int
  deriving DecidableEq, Repr

/-- Fraction bits of the fixed-point evaluations. -/
def fp : Nat := 200
/-- 1 in fixed point. -/
def one : Int := (2 ^ 200 : Nat)
/-- ln 2 in fixed point, floored. -/
def ln2F : Int := 1113844574712631719546256151097547306333272293549090750737802
/-- π in fixed point, floored. -/
def piF : Int := 5048344754617993871973410141242436836214643421488662971535368
/-- A bound of the error of every fixed-point evaluation below, in units of 2^−200. -/
def slack : Int := 65536

/-- An enclosure around a fixed-point value, times 2^sh. -/
def Encl.around (v sh : Int) : Encl := ⟨v - slack, v + slack, sh - 200⟩

/-- The product of two fixed-point numbers, floored. -/
def mulF (a b : Int) : Int := floorShift (a * b) fp

/-- The power series of e^r for |r| below 1. -/
def expSeries (r : Int) : Int :=
  ((List.range 60).foldl (fun (p : Int × Int) (k : Nat) =>
    let t := mulF p.2 r / ((k : Int) + 1)
    (p.1 + t, t)) (one, one)).1

/-- e^x for a fixed-point x, as a fixed-point number times a power of two. -/
def expF (x : Int) : Int × Int :=
  let j := (x + ln2F / 2) / ln2F
  (expSeries (x - j * ln2F), j)

/-- The series s + s³/3 + s⁵/5 + … of atanh, or with alternating signs of atan. -/
def oddSeries (alt : Bool) (s : Int) : Int :=
  let s2 := if alt then -(mulF s s) else mulF s s
  ((List.range 90).foldl (fun (p : Int × Int) (k : Nat) =>
    let t := mulF p.2 s2
    (p.1 + t / (2 * (k : Int) + 3), t)) (s, s)).1

/-- ln of a positive m × 2^e in fixed point. -/
def lnF (m e : Int) : Int :=
  let j := topExp m e
  let x := floorVal' m (e - j)
  j * ln2F + 2 * oddSeries false ((x - one) * one / (x + one))
where
  /-- m × 2^e in fixed point, floored. -/
  floorVal' (m e : Int) : Int := (roundTo 2 0 m (e + 200)).1

/-- sin and cos of a fixed-point angle in radians of magnitude at most 1. -/
def sinCosF (x : Int) : Int × Int :=
  let x2 := -(mulF x x)
  let s := (List.range 30).foldl (fun (p : Int × Int) (k : Nat) =>
    let t := mulF p.2 x2 / ((2 * (k : Int) + 2) * (2 * k + 3))
    (p.1 + t, t)) (x, x)
  let c := (List.range 30).foldl (fun (p : Int × Int) (k : Nat) =>
    let t := mulF p.2 x2 / ((2 * (k : Int) + 1) * (2 * k + 2))
    (p.1 + t, t)) (one, one)
  (s.1, c.1)

/-- atan of a fixed-point number from 0 to 1, in turns. -/
def atanTurnsF (t : Int) : Int :=
  let big : Bool := decide (2 * one < 5 * t)
  let u := if big then (one - t) * one / (one + t) else t
  let a := oddSeries true u * one / (2 * piF)
  if big then one / 8 - a else a

/-- The largest integer whose square is at most n, by halving steps from a power of two above it. -/
def sqrtFloor (n : Nat) : Nat :=
  let k := Nat.log2 n / 2 + 1
  (List.range (k + 1)).foldl (fun r i =>
    let c := r + 2 ^ (k - i)
    if c * c ≤ n then c else r) 0

/-- An enclosure of √(m × 2^e), m positive. -/
def sqrtEncl (m e : Int) : Encl :=
  let e' := if e % 2 = 0 then e else e - 1
  let m' := if e % 2 = 0 then m else 2 * m
  let r : Int := sqrtFloor (m'.toNat * 2 ^ 200)
  ⟨r, r + 1, e' / 2 - 100⟩

/-- An enclosure of (m1 × 2^e1) / (m2 × 2^e2), both positive. -/
def divEncl (m1 e1 m2 e2 : Int) : Encl :=
  let q := m1 * one / m2
  ⟨q, q + 1, e1 - e2 - 200⟩

/-- A finite value in fixed point, floored. -/
def Val.fixedPt : Val → Int
  | .fin m e => (roundTo 2 0 m (e + 200)).1
  | _ => 0

/-- An enclosure of e^x, for |x| below 1,024. -/
def expEncl (x : Int) : Encl := Encl.around (expF x).1 (expF x).2

/-- A finite value of magnitude at least 1,024. -/
def Val.huge : Val → Bool
  | .fin m e => decide (10 ≤ topExp m e)
  | _ => false

/-- A value that overflows every tag, or one below every tag's least subnormal (R40, R41). -/
def hugeEncl (neg : Bool) : Encl := if neg then ⟨1, 1, -3000⟩ else ⟨1, 1, 3000⟩

/-- The position of an angle in turns: the residual around the nearest quarter turn, in fixed point, and the
quadrant; the angle is a multiple of its unit, so the split is exact (R70). -/
def turnSplit (x : Val) : Int × Nat :=
  match x with
  | .fin m e =>
    -- multiples of a turn are dropped before the shift to fixed point
    let m' := if 0 ≤ e then 0 else m % (2 ^ (-e).toNat : Nat)
    let f := (roundTo 2 0 m' (e + 200)).1
    let j := (f + one / 8) / (one / 4)
    (f - j * (one / 4), wrapN 2 j)
  | _ => (0, 0)

/-- |sin| or |cos| of an angle in turns as an enclosure, with its sign. -/
def trigEncl (wantSin : Bool) (x : Val) : Bool × Encl :=
  let p := turnSplit x
  let sc := sinCosF (mulF p.1 (2 * piF))
  -- quadrant q: sin is s, c, −s, −c and cos is c, −s, −c, s
  let v := match wantSin, p.2 with
    | true, 0 => sc.1 | true, 1 => sc.2 | true, 2 => -sc.1 | true, _ => -sc.2
    | false, 0 => sc.2 | false, 1 => -sc.1 | false, 2 => -sc.2 | false, _ => sc.1
  (decide (v < 0), Encl.around v.natAbs 0)

/-- An enclosure of |atan2(y, x)| in turns, both finite and not 0. -/
def atan2Encl (my ey mx ex : Int) : Encl :=
  let ay : Int := my.natAbs
  let ax : Int := mx.natAbs
  let steep : Bool := decide (0 < (addFin ay ey (-ax) ex).1)
  let t := if steep then divEncl ax ex ay ey else divEncl ay ey ax ex
  let a := atanTurnsF (roundTo 2 0 t.lo (t.e + 200)).1
  let q := if steep then one / 4 - a else a
  Encl.around (if mx < 0 then one / 2 - q else q) 0

/-- √(2π) in fixed point, floored. -/
def sqrt2PiF : Int := 4027996337319827116642962989623696569982349042520938485862620

/-- Φ(x) − ½ of the normal distribution, for a fixed-point x from 0 to 15: the density φ(x) times the series
x + x³/3 + x⁵/15 + … -/
def normalF (x : Int) : Int :=
  let x2 := mulF x x
  let s := ((List.range 400).foldl (fun (p : Int × Int) (k : Nat) =>
    let t := mulF p.2 x2 / (2 * (k : Int) + 3)
    (p.1 + t, t)) (x, x)).1
  let d := expF (-(x2 / 2))
  (roundTo 2 0 (d.1 * s / sqrt2PiF) d.2).1

/-- An enclosure of |x × Φ(x)| for x = m × 2^e not 0: `gelu`, which the spec names and does not define
(PRESUMED: x times the standard normal distribution function; log 3). -/
def geluEncl (m e : Int) : Encl :=
  let a : Int := m.natAbs
  let far : Bool := !leDyadic a e 15 0
  if far then (if m < 0 then hugeEncl true else ⟨a * (one - 2 ^ 60), a * one, e - 200⟩)
  else
    let q := normalF (Val.fin a e).fixedPt
    let p := one / 2 + (if m < 0 then -q else q)
    ⟨a * max 0 (p - slack), a * (p + slack), e - 200⟩

/-- The sign and an enclosure of the magnitude of a function's exact result in the function's own units
(turns for `atan2`), where R72 bounds it. -/
def exactEncl (f : Fn) (second : Bool) (a b : Val) : Option (Bool × Encl) :=
  match f, a, b with
  | .sinCos, a, _ => some (trigEncl second a)
  | .exp, a, _ => some (false, if a.huge then hugeEncl a.neg? else expEncl a.fixedPt)
  | .exp2, a, _ => some (false, if a.huge then hugeEncl a.neg? else expEncl (mulF a.fixedPt ln2F))
  | .ln, .fin m e, _ => some (decide (lnF m e < 0), Encl.around (lnF m e).natAbs 0)
  | .log2, .fin m e, _ => some (decide (lnF m e < 0), Encl.around ((lnF m e).natAbs * one / ln2F) 0)
  | .sqrt, .fin m e, _ => some (false, sqrtEncl m e)
  | .rsqrt, .fin m e, _ => let q := divEncl 1 0 m e; some (false, let r := sqrtEncl q.lo q.e; ⟨r.lo, r.hi + 1, r.e⟩)
  | .recip, .fin m e, _ => some (decide (m < 0), divEncl 1 0 m.natAbs e)
  | .div, .fin m e, .fin m' e' => some (decide (m < 0) != decide (m' < 0), divEncl m.natAbs e m'.natAbs e')
  | .atan2, .fin my ey, .fin mx ex => some (decide (my < 0), atan2Encl my ey mx ex)
  | .hypot, a, b =>
    match (a.mul a).1, (b.mul b).1 with
    | .fin m e, .fin m' e' => let s := addFin m e m' e'; some (false, sqrtEncl s.1 s.2)
    | .fin m e, _ => some (false, sqrtEncl m e)
    | _, .fin m e => some (false, sqrtEncl m e)
    | _, _ => some (false, ⟨0, 0, 0⟩)
  | .div, a, b => some (a.neg? != b.neg?, ⟨0, 0, 0⟩)
  | .tanh, a, _ =>
    if a.isZero then some (a.neg?, ⟨0, 0, 0⟩)
    else
      let x := a.abs
      if x.huge then some (a.neg?, ⟨one - slack, one, -200⟩)
      else
        let p := expF (2 * x.fixedPt)
        -- (E − 1) / (E + 1) with E = p.1 × 2^p.2, p.2 at least 0
        let big := p.1 * (2 ^ p.2.toNat : Nat)
        some (a.neg?, Encl.around ((big - one) * one / (big + one)) 0)
  | .sigm, a, _ =>
    if a.huge then some (false, if a.neg? then hugeEncl true else ⟨one - slack, one, -200⟩)
    else
      -- 1 / (1 + E) with E = e^(−x)
      let p := expF (-a.fixedPt)
      if 0 ≤ p.2 then
        let d := p.1 * (2 ^ p.2.toNat : Nat) + one
        some (false, Encl.around (one * (2 ^ p.2.toNat : Nat) * one / d) (-p.2))
      else some (false, Encl.around (one * one / (floorShift p.1 (-p.2).toNat + one)) 0)
  | .gelu, .fin m e, _ => some (decide (m < 0), geluEncl m e)
  | .gelu, a, _ => some (a.neg?, ⟨0, 0, 0⟩)
  | .softx, a, b =>
    let d := (a.add 0 b.negate).1
    some (false, if d.huge then hugeEncl d.neg? else expEncl d.fixedPt)
  | _, _, _ => none

/-- The error bound of R72 in units in the last place (2^−15 for q15), or of R77 when CPX has its effect on the
function. -/
def ulpBound (cpx : Bool) (f : Fn) (t : Tag) (a : Val) : Nat :=
  if cpx then (if t = .fp32 then 4 else 2)
  else
    match f, t with
    | .sqrt, .q15 => 1
    | .gelu, .q15 => 3
    | _, .q15 => 2
    | .gelu, .fp32 => 3
    | .gelu, .fp16 => 2
    | .div, .fp32 | .atan2, .fp32 | .tanh, .fp32 | .sigm, .fp32 | .softx, .fp32 => 2
    | .ln, .fp32 | .log2, .fp32 =>
      -- |x − 1| below 2^−6
      match (a.add 0 (.fin (-1) 0)).1 with
      | .fin m e => if topExp m e < -6 then 2 else 1
      | _ => 2
    | _, _ => 1

/-! ## Exact results -/

/-- An integer value. -/
def Val.toInt? : Val → Option Int
  | .zero _ => some 0
  | .fin m e => if 0 ≤ e then (if e < 64 then some (m * (2 ^ e.toNat : Nat)) else none)
      else if m % (2 ^ (-e).toNat : Nat) = 0 then some (m / (2 ^ (-e).toNat : Nat)) else none
  | _ => none

/-- The exponent j when a value is 2^j. -/
def Val.pow2? : Val → Option Int
  | .fin m e => if 0 < m && m.natAbs = 2 ^ Nat.log2 m.natAbs then some (topExp m e) else none
  | _ => none

/-- Is 2^j a normal number of a tag (R71)? For q15, whose angles and values have no normals, any point of its
grid below 1 and 1 itself, which saturates. -/
def normalPow (t : Tag) (j : Int) : Bool :=
  match t.fmt with
  | some f => decide (1 - f.bias ≤ j) && decide (j ≤ 2 ^ f.ebits - 2 - f.bias)
  | none => decide (-15 ≤ j) && decide (j ≤ 0)

/-- The exact square root of a value, when it is one on the grid of the tag (R71). -/
def exactRoot (t : Tag) : Val → Option Val
  | .fin m e =>
    let m' := if e % 2 = 0 then m else 2 * m
    let e' := if e % 2 = 0 then e else e - 1
    -- q15 roots stand on the grid of 2^−15
    let k : Nat := if t.cls = .fixed then (max 0 (30 + e')).toNat else 0
    let r := sqrtFloor (m'.toNat * 2 ^ (2 * k))
    if (r * r : Int) = m' * (2 ^ (2 * k) : Nat) then
      let v := Val.mk r (e' / 2 - k)
      if t.cls = .fixed && (roundTo 0 (-15) r (e' / 2 - k)).2 then none else some v
    else none
  | _ => none

/-- sin or cos at a whole quarter turn, given by the quadrant; `z` signs a zero. -/
def quarterValue (wantSin : Bool) (q : Nat) (z : Bool) : Val :=
  match wantSin, q % 4 with
  | true, 1 | false, 0 => .fin 1 0
  | true, 3 | false, 2 => .fin (-1) 0
  | _, _ => .zero z

/-- The exact quotient of finite operands where the reduced argument is exactly zero, which bypasses the core
(R71): a zero dividend, and a divisor ±2^j with a normal quotient (DEDUCED, as 0/4, 1/4 and 1/2 come out in
R296; log 3). -/
def exactQuotient (t : Tag) (a b : Val) : Option Val :=
  match a, b.abs.pow2? with
  | .zero s, _ => if b.isZero then none else some (.zero (s != b.neg?))
  | .fin m e, some j =>
    if t.fmt.isNone || normalPow t (topExp m (e - j)) then some (.fin (if b.neg? then -m else m) (e - j)) else none
  | _, _ => none

/-- The results that R71 makes exact; `softx` of equal operands is exp(0) (R169), and recip(−2^j) is taken as exact as
recip(2^j) is (DESIGN CHOICE: R71 names the positive powers only; log 3). `z` is the sign of a zero whose sign the
spec leaves open (log 3). -/
def exactResult (f : Fn) (second : Bool) (t : Tag) (a b : Val) (z : Bool) : Option Val :=
  match f with
  | .softx => if a.eqv b then some (.fin 1 0) else none
  | .div => exactQuotient t a b
  | .exp => if a.isZero then some (.fin 1 0) else none
  | .exp2 => match a.toInt? with
    | some j => if normalPow t j then some (.fin 1 j) else none
    | none => none
  | .ln => if a.eqv (.fin 1 0) then some (.zero z) else none
  | .log2 => match a.pow2? with
    | some j => some (if j = 0 then .zero z else .fin j 0)
    | none => none
  | .sqrt => exactRoot t a
  | .recip => match a.abs.pow2? with
    | some j => if normalPow t (-j) then some (.fin (if a.neg? then -1 else 1) (-j)) else none
    | none => none
  | .sinCos => match (a.scale 2).toInt? with
    | some q => some (quarterValue second (wrapN 2 q) z)
    | none =>
      -- a multiple of 2^64 quarter turns and above is a whole turn
      match a with
      | .fin _ e => if 0 ≤ e then some (quarterValue second 0 z) else none
      | _ => none
  | _ => none

/-- Does a function of a fixed tag have an exact result on the tag's grid and beyond its range, so that it saturates with
SA alone (R33, R34)? -/
def saturatesExactly (f : Fn) (t : Tag) (a b : Val) : Bool :=
  let quotient (m e m' e' : Int) : Bool :=
    let k := e + t.frac - e'
    decide (m' ≠ 0) && (if 0 ≤ k then m * (2 ^ k.toNat : Nat) % m' = 0 else m % (m' * (2 ^ (-k).toNat : Nat)) = 0) &&
      decide (0 ≤ (addFin (m.natAbs : Int) e (-(m'.natAbs : Int)) e').1)
  t.cls = .fixed && match f, a, b with
    | .recip, .fin m e, _ => quotient 1 0 m e
    | .div, .fin m e, .fin m' e' => quotient m e m' e'
    | .rsqrt, a, _ => (match a.pow2? with | some j => j % 2 = 0 | none => false)
    | .hypot, a, b =>
      let s := ((a.mul a).1.add 0 (b.mul b).1).1
      (exactRoot t s).isSome && (match s with | .fin m e => decide (0 ≤ (addFin m e (-1) 0).1) | _ => false)
    | _, _, _ => false

/-- Is r the exact result of the function? It decides NX (R167). Angles are in turns. -/
def isExact (f : Fn) (second : Bool) (t : Tag) (a b r : Val) : Bool :=
  match f with
  | .exp | .exp2 | .ln | .log2 | .sinCos =>
    (match exactResult f second t a b false with
     | some v => r.eqv v
     | none =>
       -- 2^j below the normals is exact as well
       (match f, a.toInt? with
        | .exp2, some j => decide (j.natAbs < 2000) && r.eqv (.fin 1 j)
        | _, _ => false))
  | .sqrt => !r.neg? && (r.mul r).1.eqv a
  | .rsqrt => !r.neg? && ((r.mul r).1.mul a).1.eqv (.fin 1 0)
  | .recip => (r.mul a).1.eqv (.fin 1 0)
  | .div => (r.mul b).1.eqv a
  | .atan2 => a.abs.eqv b.abs && r.eqv (match a.neg?, b.neg? with
      | false, false => .fin 1 (-3) | false, true => .fin 3 (-3) | true, false => .fin (-1) (-3) | true, true => .fin (-3) (-3))
  | .hypot => !r.neg? && (r.mul r).1.eqv (((a.mul a).1.add 0 (b.mul b).1).1)
  | .tanh | .gelu => a.isZero && r.isZero
  | .sigm => a.isZero && r.eqv (.fin 1 (-1))
  | .softx => a.eqv b && r.eqv (.fin 1 0)

/-! ## Special inputs -/

/-- The flags of R36 for two operands. -/
def sigFlags (a b : Val) : Flags := a.sigFlag ||| b.sigFlag

/-- The special inputs of R168 and R169 for one-result functions and `cos`; `second` asks for `sin`. Angles
are in turns. The flags are those listed beside NV of a signalling NaN. -/
def specialResult (f : Fn) (second : Bool) (a b : Val) : Option (Val × Flags) :=
  let nanNv : Option (Val × Flags) := some (.nan false, Flags.nv)
  let two : Bool := match f with | .div | .atan2 | .hypot | .softx => true | _ => false
  if f = .hypot && (a.isInf || b.isInf) then some (.inf false, sigFlags a b)
  else if a.isNan || (two && b.isNan) then some (.nan false, if two then sigFlags a b else a.sigFlag)
  else
    match f, a, b with
    | .sinCos, .zero s, _ => some (if second then .zero s else .fin 1 0, Flags.none)
    | .sinCos, .inf _, _ => nanNv
    | .exp, .inf s, _ | .exp2, .inf s, _ => some (if s then .zero false else .inf false, Flags.none)
    | .ln, .zero _, _ | .log2, .zero _, _ => some (.inf true, Flags.dz)
    | .ln, a, _ | .log2, a, _ => if a.neg? then nanNv else if a.isInf then some (.inf false, Flags.none) else none
    | .sqrt, .zero s, _ => some (.zero s, Flags.none)
    | .sqrt, a, _ => if a.neg? then nanNv else if a.isInf then some (.inf false, Flags.none) else none
    | .rsqrt, .zero s, _ => some (.inf s, Flags.dz)
    | .rsqrt, a, _ => if a.neg? then nanNv else if a.isInf then some (.zero false, Flags.none) else none
    | .recip, .zero s, _ => some (.inf s, Flags.dz)
    | .recip, .inf s, _ => some (.zero s, Flags.none)
    | .div, .inf _, .inf _ => nanNv
    | .div, .inf s, b => some (.inf (s != b.neg?), Flags.none)
    | .div, a, .inf s => some (.zero (a.neg? != s), Flags.none)
    | .div, .zero _, .zero _ => nanNv
    | .div, .fin m _, .zero s => some (.inf (decide (m < 0) != s), Flags.dz)
    | .atan2, .zero s, b => some (if b.neg? then .fin (if s then -1 else 1) (-1) else .zero s, Flags.none)
    | .atan2, .inf s, .inf false => some (.fin (if s then -1 else 1) (-3), Flags.none)
    | .atan2, .inf s, .inf true => some (.fin (if s then -3 else 3) (-3), Flags.none)
    | .atan2, .inf s, _ => some (.fin (if s then -1 else 1) (-2), Flags.none)
    | .atan2, .fin m _, .zero _ => some (.fin (if m < 0 then -1 else 1) (-2), Flags.none)
    | .atan2, .fin m _, .inf false => some (.zero (decide (m < 0)), Flags.none)
    | .atan2, .fin m _, .inf true => some (.fin (if m < 0 then -1 else 1) (-1), Flags.none)
    | .tanh, .inf s, _ => some (.fin (if s then -1 else 1) 0, Flags.none)
    | .sigm, .inf s, _ => some (if s then .zero false else .fin 1 0, Flags.none)
    | .gelu, .inf s, _ => some (if s then .zero true else .inf false, Flags.none)
    | .softx, a, .inf false => some (if a = .inf false then .fin 1 0 else .zero false, Flags.none)
    | .softx, _, .inf true => some (.zero false, Flags.nv)
    | .softx, .inf false, _ => some (.inf false, Flags.none)
    | .softx, .inf true, _ => some (.zero false, Flags.none)
    | _, _, _ => none

/-- Writes a special or exact result: in q15, a NaN is 0 with NV and an infinity is the extreme value of its
sign with SA (R168). -/
def writeResult (vt : VType) (t : Tag) (v : Val) : Nat × Flags :=
  if t.cls = .fixed then
    match v with
    | .nan _ => (0, Flags.nv)
    | .inf s => (wrapN t.width (if s then t.lo else t.hi), Flags.sa)
    | other => encode vt t other
  else encode vt t v

/-- Does a value lie within k units of the last place of an exact result (R72)? `u` is the exponent of the
unit. -/
def withinUlp (neg : Bool) (E : Encl) (k : Nat) (u : Int) (r : Val) : Bool :=
  match (if neg then r.negate else r) with
  | .fin m e =>
    let s := addFin m e k u
    let d := addFin m e (-(k : Int)) u
    leDyadic E.lo E.e s.1 s.2 && leDyadic d.1 d.2 E.hi E.e
  | .zero _ => leDyadic E.lo E.e k u
  | _ => false

/-- A value inside an enclosure that lies on no grid: it rounds as the exact result does. An exact 0 is a zero. -/
def Encl.mid (E : Encl) (neg : Bool) : Val :=
  let m := 2 * max 0 E.lo + 1
  if E.hi = 0 then .zero neg else .fin (if neg then -m else m) (E.e - 1)

/-- Is a value below the least normal number of a format, with the sign of an exact result that is not 0? -/
def belowNormal (f : FloatFmt) (neg : Bool) (E : Encl) : Val → Bool
  | .fin m e => !leDyadic 1 (1 - f.bias) m.natAbs e && (E.hi = 0 || decide (m < 0) = neg)
  | v => v.isZero && E.hi = 0

/-- A value that rounds as the exact result of a function does: the exact result itself, where it stands on the grid of the
tag, else a point inside its enclosure. `half` is 1 for the angles that q15 keeps in half-turns. -/
def roundsAsExact (f : Fn) (second : Bool) (t : Tag) (a b : Val) (half : Int) (neg : Bool) (E : Encl) : Val :=
  let near := value t (encode 0 t (E.mid neg)).1
  if isExact f second t a b (near.scale (-half)) then near else E.mid neg

/-- Is a result the half-turn of an `atan2` in q15, which R168 writes as −1? -/
def isHalfTurn (f : Fn) (t : Tag) (r : Nat × Flags) : Bool :=
  f = .atan2 && t.cls = .fixed && r.1 = 2 ^ (t.width - 1) - 1 && r.2.getLsbD 5

/-- The value of a result; a half-turn of q15 is 1 here, whatever its code. -/
def resultVal (f : Fn) (t : Tag) (r : Nat × Flags) : Val := if isHalfTurn f t r then .fin 1 0 else value t r.1

/-- May a result of `atan2` on a float tag stand: it lies in [−½, ½] (R168)? -/
def turnInRange (f : Fn) (r : Val) : Bool :=
  f ≠ .atan2 || (match r with | .fin m e => leDyadic m.natAbs e 1 (-1) | v => v.isZero)

/-- The rounded value of a free number v, where it keeps the bound of R72, else the rounded exact result, that of x. The bound
holds where the exact result is finite and, for a float tag, normal. An exact result above the range of a float tag
overflows by R40, and one beyond the range of q15 saturates. An exact result below the normals has no bound: v stays
below the normals with it, and a result far below the least subnormal underflows by R41. The bound of an `atan2` near a half-turn of
q15 is that of the unwrapped angle, and one on a float tag stays within half a turn (R168). -/
def holdToBound (vt : VType) (f : Fn) (t : Tag) (k : Nat) (neg : Bool) (E : Encl) (x v : Val) : Nat × Flags :=
  let r := encode vt t v
  let best := encode vt t x
  match t.fmt with
  | some m =>
    if !leDyadic 1 (1 - m.bias) E.hi E.e then
      (if E.hi ≠ 0 && leDyadic E.hi E.e 1 (-(m.bias + m.mbits + 8)) then best
       else if belowNormal m neg E v then r else best)
    else if leDyadic 1 (2 ^ m.ebits - 1 - m.bias) E.lo E.e then best
    else if turnInRange f (value t r.1) && withinUlp neg E k (topExp E.hi E.e - m.mbits) (value t r.1) then r
    else best
  | none =>
    if leDyadic 1 0 E.lo E.e then best
    else if withinUlp neg E k (-(t.frac : Int)) (resultVal f t r) then r
    else best

/-- A free value as a number. -/
def freeVal (p : Bool × Nat × Int) : Val := if p.2.1 = 0 then .zero p.1 else .fin (if p.1 then -(p.2.1 : Int) else p.2.1) p.2.2

/-- NX when a result is not exact (R167), and UF when it is then below the normals of its format (R41). -/
def inexactFlags (t : Tag) (exact : Bool) (r : Nat × Flags) : Flags :=
  let low : Bool := match t.fmt, value t r.1 with
    | some f, .fin m e => decide (topExp m e < 1 - f.bias)
    | some _, .zero _ => true
    | _, _ => false
  if exact then r.2 &&& ~~~(Flags.nx ||| Flags.uf) else r.2 ||| Flags.nx ||| Flags.when low Flags.uf

/-! ## One element -/

/-- Does CPX have its effect on a function (R77)? -/
def cpxOf (vt : VType) (f : Fn) : Bool := vt.cpx && f ≠ .gelu && f ≠ .softx

/-- The operands of one element as values, angles in turns (q15 angles are in half-turns; R70). -/
def fnArgs (vt : VType) (t : Tag) (f : Fn) (ca cb : Nat) : Val × Val :=
  let a := readVal vt t ca
  (if f = .sinCos && t.cls = .fixed then a.scale (-1) else a, readVal vt t cb)

/-- The result of one element, with a half-turn of q15 not yet written as −1. `v` is the free number that stands where
R71 and R168 decide nothing, none for the exact result itself; `z` signs a zero whose sign the spec leaves open. -/
def fnResult (vt : VType) (t : Tag) (f : Fn) (second : Bool) (v : Option Val) (z : Bool) (ca cb : Nat) : Nat × Flags :=
  let ab := fnArgs vt t f ca cb
  let half : Int := if f = .atan2 && t.cls = .fixed then 1 else 0
  match specialResult f second ab.1 ab.2 with
  | some (x, fl) =>
    let r := writeResult vt t (x.scale half)
    (r.1, r.2 ||| fl)
  | none =>
    let known := exactResult f second t ab.1 ab.2 z
    match (if cpxOf vt f then none else known) with
    | some x => writeResult vt t (x.scale half)
    | none =>
      -- under CPX an exact 0 has no enclosure of its own in fixed point
      let zero : Bool := match known with | some x => x.isZero | none => false
      match (if zero then some (z, ⟨0, 0, 0⟩) else exactEncl f second ab.1 ab.2) with
      | some (neg, E) =>
        let E := { E with e := E.e + half }
        let best := roundsAsExact f second t ab.1 ab.2 half neg E
        let r := holdToBound vt f t (ulpBound (cpxOf vt f) f t ab.1) neg E best (match v with | some x => x.scale half | none => best)
        (r.1, inexactFlags t (isExact f second t ab.1 ab.2 ((resultVal f t r).scale (-half)) || saturatesExactly f t ab.1 ab.2) r)
      | none => writeResult vt t (.nan false)

/-! ## Monotony -/

/-- floor of twice a value. -/
def Val.halves : Val → Int
  | .fin m e => (roundTo 2 0 m (e + 1)).1
  | _ => 0

/-- Do two values lie on one side of 0, each zero on the side of its sign? -/
def sameSide (a b : Val) : Bool := a.neg? = b.neg?

/-- Two angles a < b in turns that share a closed half-turn between the whole half-turns: its number. -/
def sharedHalfTurn (a b : Val) : Option Int :=
  if !a.isInf && !b.isInf && !(Val.fin (a.halves + 1) (-1)).lt b then some a.halves else none

/-- The least argument of x × Φ(x), where `gelu` turns from falling to rising, in fixed point, floored. -/
def geluTurnF : Int := -1208082402381560862785825044810338068059015641728867577711427

/-- R73 for one argument: for a < b in an interval on which the function is monotone, does it rise there? None where
no such interval holds both. -/
def riseOne (f : Fn) (second : Bool) (a b : Val) : Option Bool :=
  match f with
  | .exp | .exp2 | .tanh | .sigm => some true
  | .ln | .log2 | .sqrt => if a.neg? then none else some true
  | .rsqrt => if a.neg? then none else some false
  | .recip => if sameSide a b then some false else none
  | .sinCos =>
    let turn (v : Val) : Val := if second then (v.add 0 (.fin 1 (-2))).1 else v
    (sharedHalfTurn (turn a) (turn b)).map fun j => decide (j % 2 = 0) = second
  | .gelu =>
    let right (v : Val) : Bool := match v with | .inf s => !s | v => decide (geluTurnF < v.fixedPt)
    if right a then some true else if right b then none else some false
  | _ => none

/-- R73 for the first argument, a < a', with the second held at b. -/
def riseFirst (f : Fn) (a a' b : Val) : Option Bool :=
  match f with
  | .div => if b.isZero || b.isInf then none else some (!b.neg?)
  | .atan2 =>
    if b.isZero then none
    else if b.neg? then (if sameSide a a' then some false else none) else some true
  | .hypot => if (Val.zero false).lt a' && a.lt (.zero false) then none else some (!a.lt (.zero false))
  | .softx => if b.isInf then none else some true
  | _ => none

/-- R73 for the second argument, b < b', with the first held at a. -/
def riseSecond (f : Fn) (a b b' : Val) : Option Bool :=
  match f with
  | .div => if a.isZero || a.isInf || !sameSide b b' then none else some a.neg?
  | .atan2 => if a.isZero || a.isInf then none else some a.neg?
  | .hypot => if (Val.zero false).lt b' && b.lt (.zero false) then none else some (!b.lt (.zero false))
  | .softx => if a.isInf || b.isInf || b'.isInf then none else some false
  | _ => none

/-- No backward step: r before, r' after, in the direction given (R73). -/
def inStep (rise : Option Bool) (r r' : Val) : Bool :=
  match rise with
  | some true => !r'.lt r
  | some false => !r.lt r'
  | none => true

/-- R73 over every input of the tag: do the results `res`, one for each pair of operand codes, never step against the
direction of the function? Evaluating this for a wide tag takes too long to be of use; it is there to be reasoned about. -/
def monotone (vt : VType) (t : Tag) (f : Fn) (second : Bool) (res : Nat → Nat → Val) : Bool :=
  let codes := List.range (2 ^ t.width)
  let two : Bool := match f with | .div | .atan2 | .hypot | .softx => true | _ => false
  codes.all fun ca => (if two then codes else [0]).all fun cb => codes.all fun c =>
    let p := fnArgs vt t f ca cb
    let q := fnArgs vt t f c c
    let before (x y : Val) : Bool := !x.isNan && !y.isNan && x.lt y
    if two then
      (!before p.1 q.1 || inStep (riseFirst f p.1 q.1 p.2) (res ca cb) (res c cb)) &&
        (!before p.2 q.2 || inStep (riseSecond f p.1 p.2 q.2) (res ca cb) (res ca c))
    else !before p.1 q.1 || inStep (riseOne f second p.1 q.1) (res ca cb) (res c cb)

/-- The free number of an element (log 3). -/
def fnFree (vt : VType) (t : Tag) (f : Fn) (second : Bool) (ca cb : Nat) : Bool × Nat × Int :=
  Config.composite (f.code + if second then 16 else 0) t.code (cpxOf vt f) ca cb

/-- The result of one element with the free number of the unit, held to R71, R72 and R168. -/
def fnFreeResult (vt : VType) (t : Tag) (f : Fn) (second : Bool) (ca cb : Nat) : Nat × Flags :=
  let p := fnFree vt t f second ca cb
  fnResult vt t f second (some (freeVal p)) p.1 ca cb

/-- One result of a composite function for one element (R167 to R169, R71 to R73, R77). `ca` and `cb` are the operand
codes; `second` asks for the sine of `sin.cos`. The free results stand when they are monotone as R73 says; else the
rounded exact results do, which are (log 3). R73 does not apply under CPX. -/
def compositeElement (vt : VType) (t : Tag) (f : Fn) (second : Bool) (ca cb : Nat) : Nat × Flags :=
  let r := fnFreeResult vt t f second ca cb
  let best := fnResult vt t f second none (fnFree vt t f second ca cb).1 ca cb
  let r :=
    if r = best || cpxOf vt f || monotone vt t f second (fun x y => resultVal f t (fnFreeResult vt t f second x y)) then r
    else best
  -- a half-turn of q15 is −1 (R168)
  if isHalfTurn f t r then
    (2 ^ (t.width - 1), r.2 &&& ~~~Flags.sa)
  else r

end Sys2Proof.Machine
end

