-- ==== Sys2Proof/Machine/Vfn.lean ====
section
/-! DEFINITION. Composite and user functions: class `vfn` (R167 to R170). -/
namespace Sys2Proof.Machine

/-- A function of one argument (R167). -/
def vfnOne (i : Instr) (f : Fn) (d a : VReg) (m : MReg) (s : State) : Out :=
  vectorInstr i [] none s fun k e =>
    let r := s.vrun k e false
    let w := r.vt.sew
    let t := r.v.tagOf a
    if !fnOk Tag.composite r.v r.vt a none then s.rejectVec k e 3
    else
      elementwise s k r m d w (some t) [(a, w)] none fun n =>
        let x := compositeElement r.vt t f false (r.elem w a n) 0
        (some x.1, x.2)

/-- A function of two arguments: A first, the second operand second (R167). -/
def vfnTwo (i : Instr) (f : Fn) (d a : VReg) (src : VSrc) (m : MReg) (s : State) : Out :=
  vectorInstr i (srcRegs src) none s fun k e =>
    let r := s.vrun k e false
    let w := r.vt.sew
    let t := r.v.tagOf a
    let q := r.src t src
    if !fnOk Tag.composite r.v r.vt a (some src) then s.rejectVec k e 3
    else
      elementwise s k r m d w (some t) ([(a, w)] ++ q.regs) q.strm fun n =>
        let x := compositeElement r.vt t f false (r.elem w a n) (q.get n)
        (some x.1, x.2)

/-- `vfn.sin.cos`: the cosine to D and the sine to D + LMUL (R167). -/
def execVfnSinCos (d a : VReg) (m : MReg) (s : State) : Out :=
  vectorInstr (.vfnSinCos d a m) [] none s fun k e =>
    let r := s.vrun k e false
    let w := r.vt.sew
    let t := r.v.tagOf a
    if !fnOk Tag.composite r.v r.vt a none then s.rejectVec k e 3
    else
      let f (sine : Bool) (n : Nat) := compositeElement r.vt t .sinCos sine (r.elem w a n) 0
      vecFinish s k r m (r.uecc m [(a, w)]) none false
        (fun hi fin v =>
          r.put m hi fin ⟨d + BitVec.ofNat 5 r.vt.lmul, w, some t, fun n => some (f true n).1⟩
            (r.put m hi fin ⟨d, w, some t, fun n => some (f false n).1⟩ v))
        (fun n => (f false n).2 ||| (f true n).2)

/-- `vfn.exp` (R167). -/
def execVfnExp (d a : VReg) (m : MReg) (s : State) : Out := vfnOne (.vfnExp d a m) .exp d a m s
/-- `vfn.exp2` (R167). -/
def execVfnExp2 (d a : VReg) (m : MReg) (s : State) : Out := vfnOne (.vfnExp2 d a m) .exp2 d a m s
/-- `vfn.ln` (R167). -/
def execVfnLn (d a : VReg) (m : MReg) (s : State) : Out := vfnOne (.vfnLn d a m) .ln d a m s
/-- `vfn.log2` (R167). -/
def execVfnLog2 (d a : VReg) (m : MReg) (s : State) : Out := vfnOne (.vfnLog2 d a m) .log2 d a m s
/-- `vfn.sqrt` (R167). -/
def execVfnSqrt (d a : VReg) (m : MReg) (s : State) : Out := vfnOne (.vfnSqrt d a m) .sqrt d a m s
/-- `vfn.rsqrt` (R167). -/
def execVfnRsqrt (d a : VReg) (m : MReg) (s : State) : Out := vfnOne (.vfnRsqrt d a m) .rsqrt d a m s
/-- `vfn.recip` (R167). -/
def execVfnRecip (d a : VReg) (m : MReg) (s : State) : Out := vfnOne (.vfnRecip d a m) .recip d a m s
/-- `vfn.tanh` (R167). -/
def execVfnTanh (d a : VReg) (m : MReg) (s : State) : Out := vfnOne (.vfnTanh d a m) .tanh d a m s
/-- `vfn.sigm` (R167). -/
def execVfnSigm (d a : VReg) (m : MReg) (s : State) : Out := vfnOne (.vfnSigm d a m) .sigm d a m s
/-- `vfn.gelu` (R167). -/
def execVfnGelu (d a : VReg) (m : MReg) (s : State) : Out := vfnOne (.vfnGelu d a m) .gelu d a m s
/-- `vfn.div` (R167). -/
def execVfnDiv (d a : VReg) (src : VSrc) (m : MReg) (s : State) : Out := vfnTwo (.vfnDiv d a src m) .div d a src m s
/-- `vfn.atan2` (R167). -/
def execVfnAtan2 (d a : VReg) (src : VSrc) (m : MReg) (s : State) : Out := vfnTwo (.vfnAtan2 d a src m) .atan2 d a src m s
/-- `vfn.hypot` (R167). -/
def execVfnHypot (d a : VReg) (src : VSrc) (m : MReg) (s : State) : Out := vfnTwo (.vfnHypot d a src m) .hypot d a src m s
/-- `vfn.softx` (R169). -/
def execVfnSoftx (d a : VReg) (src : VSrc) (m : MReg) (s : State) : Out := vfnTwo (.vfnSoftx d a src m) .softx d a src m s

/-- The micro-ops of a user slot (R74, R76). -/
def Core.program (c : Core) (slot : Nat) : List (BitVec 32) := (List.range 64).map fun n => c.micro (64 * slot + n)

/-- `vfn.ufn` (R170). -/
def execVfnUfn (slot : BitVec 4) (d a : VReg) (src : VSrc) (m : MReg) (s : State) : Out :=
  vectorInstr (.vfnUfn slot d a src m) (srcRegs src) none s fun k e =>
    let r := s.vrun k e false
    let w := r.vt.sew
    let t := r.v.tagOf a
    let q := r.src t src
    let prog := (s.core (coreOf k)).program slot.toNat
    if !fnOk Tag.user r.v r.vt a (some src) then s.rejectVec k e 3
    else
      elementwise s k r m d w (some t) ([(a, w)] ++ q.regs) q.strm fun n =>
        let x := ufnElement r.vt t prog (r.elem w a n) (q.get n)
        (some x.1, x.2)

end Sys2Proof.Machine
end

