-- ==== Sys2Proof/Machine/Vperm.lean ====
section
/-! DEFINITION. Permutes: class `vperm` (R197 to R200). -/
namespace Sys2Proof.Machine

/-- Where an element of a permute's destination comes from: it stays, it is a constant, or it is an element of A. -/
inductive Pick where
  | keep | const (c : Nat) | elem (j : Nat)
  deriving DecidableEq, Repr

/-- The first unreadable element that a permute reads, over destination elements ascending (R379). -/
def VRun.pickStop (r : VRun) (a : VReg) (dst : List Nat) (pick : Nat → Pick) : Option Stop :=
  if r.v.bad.isEmpty then none
  else
    (dst.filterMap fun i => match pick i with
      | .elem j =>
        if r.v.elemBad r.lanes r.vt.sew a j then
          some (⟨i, { code := 10, elem := i, lane := laneNumber r.v.grant (place r.lanes r.vt.sew a j).2.1,
                      reg := some ((place r.lanes r.vt.sew a j).1, (place r.lanes r.vt.sew a j).2.1) }, none⟩ : Stop)
        else none
      | _ => none).head?

/-- The code that a pick stands for. -/
def VRun.picked (r : VRun) (a : VReg) (p : Pick) : Option Nat :=
  match p with
  | .keep => none
  | .const c => some c
  | .elem j => some (r.elem r.vt.sew a j)

/-- A permute: `frame` gives the kinds of the destination's elements, `dst` the elements that read A (R197). -/
def permute (s : State) (k : Nat) (r frame : VRun) (m : MReg) (d a : VReg) (t : Tag) (dst : List Nat) (pick : Nat → Pick) : Out :=
  foldFinish s k r (r.pickStop a dst pick) Flags.none fun v =>
    frame.put m frame.vl true ⟨d, r.vt.sew, some t, fun i => r.picked a (pick i)⟩ v

/-- A permute whose elements follow R148 under its mask. -/
def permuteAll (s : State) (k : Nat) (r : VRun) (m : MReg) (d a : VReg) (pick : Nat → Pick) : Out :=
  permute s k r r m d a (r.v.tagOf a) (r.actives m r.vl) pick

/-- The offset or index of a vx or vi form, read unsigned (R198). -/
def VRun.offset (r : VRun) : VSrc → Nat
  | .vi imm => imm.toNat
  | _ => (r.e.ops.getD 0 0).toNat

/-- The low SEW bits of x(B). -/
def VRun.scalar (r : VRun) : Nat := (r.e.ops.getD 0 0).toNat % 2 ^ r.vt.sew

/-- `vperm.slideup` (R198): elements below the offset stay as they are, whatever the mask. -/
def execVpermSlideup (d a : VReg) (src : VSrc) (m : MReg) (s : State) : Out :=
  vectorInstr (.vpermSlideup d a src m) (srcRegs src) none s fun k e =>
    let r := s.vrun k e true
    let off := r.offset src
    permute s k r { r with start := min off r.vl } m d a (r.v.tagOf a) ((r.actives m r.vl).filter fun i => decide (off ≤ i))
      fun i => .elem (i - off)

/-- `vperm.slidedown` (R198). -/
def execVpermSlidedown (d a : VReg) (src : VSrc) (m : MReg) (s : State) : Out :=
  vectorInstr (.vpermSlidedown d a src m) (srcRegs src) none s fun k e =>
    let r := s.vrun k e true
    let off := r.offset src
    permuteAll s k r m d a fun i => if i + off < r.vlmax then .elem (i + off) else .const 0

/-- `vperm.slide1up` (R198). -/
def execVpermSlide1up (d a : VReg) (b : XReg) (m : MReg) (s : State) : Out :=
  vectorInstr (.vpermSlide1up d a b m) [b] none s fun k e =>
    let r := s.vrun k e true
    permuteAll s k r m d a fun i => if i = 0 then .const r.scalar else .elem (i - 1)

/-- `vperm.slide1down` (R198). -/
def execVpermSlide1down (d a : VReg) (b : XReg) (m : MReg) (s : State) : Out :=
  vectorInstr (.vpermSlide1down d a b m) [b] none s fun k e =>
    let r := s.vrun k e true
    permuteAll s k r m d a fun i => if i + 1 < r.vl then .elem (i + 1) else .const r.scalar

/-- Does the index group of a gather carry a tag that R199 accepts? -/
def gatherOk (v : Vec) (vt : VType) (src : VSrc) : Bool :=
  match src with
  | .vv b => (v.tagOf b).cls = .integer && (v.tagOf b).width = vt.sew
  | _ => true

/-- `vperm.gather` (R199). -/
def execVpermGather (d a : VReg) (src : VSrc) (m : MReg) (s : State) : Out :=
  vectorInstr (.vpermGather d a src m) (srcRegs src) none s fun k e =>
    let r := s.vrun k e true
    let idx (i : Nat) : Nat := match src with
      | .vv b => r.elem r.vt.sew b i
      | x => r.offset x
    let groups : List (VReg × Nat) := match src with
      | .vv b => [(b, r.vt.sew)]
      | _ => []
    match r.uecc m groups with
    | some x => foldFinish s k r (some x) Flags.none id
    | none => permuteAll s k r m d a fun i => if idx i < r.vlmax then .elem (idx i) else .const 0

/-- The indices below vl that a mask selects. -/
def VRun.selected (r : VRun) (b : MReg) : List Nat := (List.range r.vl).filter (r.v.maskBit b)

/-- `vperm.compress` (R198): what follows the packed elements is tail. -/
def execVpermCompress (d a : VReg) (b : MReg) (s : State) : Out :=
  vectorInstr (.vpermCompress d a b) [] none s fun k e =>
    let r := s.vrun k e true
    let sel := r.selected b
    permute s k r { r with vl := sel.length } 0 d a (r.v.tagOf a) (List.range sel.length) fun i => .elem (sel.getD i 0)

/-- `vperm.expand` (R198): elements that m(B) does not select follow the inactive rule. -/
def execVpermExpand (d a : VReg) (b : MReg) (s : State) : Out :=
  vectorInstr (.vpermExpand d a b) [] none s fun k e =>
    let r := s.vrun k e true
    permute s k r r b d a (r.v.tagOf a) (r.selected b) fun i => .elem ((List.range i).filter (r.v.maskBit b)).length

/-- The source element that the transpose of R200 brings to position i, for rows of length c of vl elements. -/
def reshapeFrom (vl c i : Nat) : Pick :=
  let rows := (vl + c - 1) / c
  let j := i % rows * c + i / rows
  if i / rows < c ∧ j < vl then .elem j else .const 0

/-- `vperm.reshape` (R200). -/
def execVpermReshape (d a : VReg) (b : XReg) (s : State) : Out :=
  vectorInstr (.vpermReshape d a b) [b] none s fun k e =>
    let r := s.vrun k e true
    let c := max 1 (min (r.e.ops.getD 0 0).toNat r.vl)
    permuteAll s k r 0 d a (reshapeFrom r.vl c)

/-- `vperm.extract` (R198): element 0 alone is written, and the others are tail. -/
def execVpermExtract (d a : VReg) (b : XReg) (m : MReg) (s : State) : Out :=
  vectorInstr (.vpermExtract d a b m) [b] none s fun k e =>
    let r := s.vrun k e true
    let j := (r.e.ops.getD 0 0).toNat
    let one := { r with vl := 1 }
    permute s k r one m d a (r.v.tagOf a) (one.actives m 1) fun _ => if j < r.vlmax then .elem j else .const 0

/-- `vperm.insert` (R37, R198): element x(B) alone is written, when it is below VLMAX; every member of the group takes the tag (R79). -/
def execVpermInsert (d a : VReg) (b : XReg) (m : MReg) (s : State) : Out :=
  vectorInstr (.vpermInsert d a b m) [b] none s fun k e =>
    let r := s.vrun k e true
    let j := (r.e.ops.getD 0 0).toNat
    if r.vlmax ≤ j then foldFinish s k r none Flags.none id
    else
      let on := r.v.maskBit m j
      let cap := 2 ^ codeBits (r.v.tagOf d) r.vt.sew
      let stop := if on then r.pickStop a [j] fun _ => .elem 0 else none
      foldFinish s k r stop Flags.none fun v =>
        (if on then v.setElem r.lanes r.vt.sew d j (r.elem r.vt.sew a 0 % cap)
        else if r.vt.ma then v.setElem r.lanes r.vt.sew d j (cap - 1) else v).setTags d r.vt.lmul (r.v.tagOf d)

/-- The tests of R198 and R199 on tags: A's width is SEW; `vperm.insert` needs one tag; a gather index group is an
integer one. -/
def permOk (v : Vec) (vt : VType) (a : VReg) : Bool := (v.tagOf a).width = vt.sew

end Sys2Proof.Machine
end

