-- ==== Sys2Proof/Machine/Vrot.lean ====
section
/-! DEFINITION. Rotation: class `vrot` (R166). -/
namespace Sys2Proof.Machine

/-- A rotation of a mode and kind (R166): x from D, y from D + LMUL, z from A; z is written last and prevails. -/
def vrotOp (i : Instr) (mode : RotMode) (vec : Bool) (d a : VReg) (start n : BitVec 5) (g : Bool) (m : MReg) (s : State) : Out :=
  vectorInstr i [] none s fun k e =>
    let r := s.vrun k e false
    if !vrotOk mode vec r.v r.vt d a then s.rejectVec k e 3
    else
      let w := r.vt.sew
      let y := d + BitVec.ofNat 5 r.vt.lmul
      let txy := r.v.tagOf d
      let tz := r.v.tagOf a
      let f (i : Nat) := rotElement r.vt txy tz mode vec start.toNat (n.toNat + 1) g (r.elem w d i) (r.elem w y i) (r.elem w a i)
      vecFinish s k r m (r.uecc m [(d, w), (y, w), (a, w)]) none false
        (fun hi fin v =>
          r.put m hi fin ⟨a, w, some tz, fun i => some (f i).1.2.2⟩
            (r.put m hi fin ⟨y, w, some txy, fun i => some (f i).1.2.1⟩
              (r.put m hi fin ⟨d, w, some txy, fun i => some (f i).1.1⟩ v)))
        (fun i => (f i).2)

/-- `vrot.cir.rot` (R166). -/
def execVrotCirRot (d a : VReg) (start n : BitVec 5) (g : Bool) (m : MReg) (s : State) : Out :=
  vrotOp (.vrotCirRot d a start n g m) .cir false d a start n g m s
/-- `vrot.cir.vec` (R166). -/
def execVrotCirVec (d a : VReg) (start n : BitVec 5) (g : Bool) (m : MReg) (s : State) : Out :=
  vrotOp (.vrotCirVec d a start n g m) .cir true d a start n g m s
/-- `vrot.hyp.rot` (R166). -/
def execVrotHypRot (d a : VReg) (start n : BitVec 5) (g : Bool) (m : MReg) (s : State) : Out :=
  vrotOp (.vrotHypRot d a start n g m) .hyp false d a start n g m s
/-- `vrot.hyp.vec` (R166). -/
def execVrotHypVec (d a : VReg) (start n : BitVec 5) (g : Bool) (m : MReg) (s : State) : Out :=
  vrotOp (.vrotHypVec d a start n g m) .hyp true d a start n g m s
/-- `vrot.lin.rot` (R166). -/
def execVrotLinRot (d a : VReg) (start n : BitVec 5) (g : Bool) (m : MReg) (s : State) : Out :=
  vrotOp (.vrotLinRot d a start n g m) .lin false d a start n g m s
/-- `vrot.lin.vec` (R166). -/
def execVrotLinVec (d a : VReg) (start n : BitVec 5) (g : Bool) (m : MReg) (s : State) : Out :=
  vrotOp (.vrotLinVec d a start n g m) .lin true d a start n g m s

end Sys2Proof.Machine
end

