-- ==== Sys2Proof/Machine/Issue.lean ====
section
/-! DEFINITION. Vector issue with the tests of R98 that wait for it, and commit with the sampled profile (R248, R394). -/
namespace Sys2Proof.Machine

/-! ## The tests of R98 at vector issue -/

/-- Order 1 of R98 at vector issue: streams (R204, R207). -/
def issueOp (s : State) (k : Nat) (i : Instr) : Bool :=
  let v := s.vec k
  let input (j : SReg) : Bool := match v.stream j with | some t => !t.out | none => false
  (match issueSrc i with
   | some (.vs j) => input j
   | _ => true) &&
  (match i with
   | .vopMv _ (.strm j) _ => (v.stream j).isSome
   | .strmFree j | .strmSkip j _ => (v.stream j).isSome
   | _ => true)

/-- The VALID bit of the user slot that an instruction names; it is tested after the word tests of R98 (R76, R170; log 59). -/
def slotValid (s : State) (k : Nat) : Instr → Bool
  | .vfnUfn j .. => (s.core (coreOf k)).ufnvalid.getLsbD j.toNat
  | _ => true

/-- Order 2 of R98 at vector issue: groups (R79) and operand values (R181, R210, R225, R237). -/
def issueFld (e : Entry) (i : Instr) : Bool :=
  (issueGroups i).all (groupOk e.vtype) &&
  (match i with
   | .vld2d .. | .vst2d .. => (e.ops.getD 2 0).extractLsb' 0 32 ≠ 0
   | .sclLd .. | .sclSt .. => decide ((e.ops.getD 1 0).toNat ≤ 256)
   | .matFeed .. => feedWordOk (e.ops.getD 0 0)
   | .matDrain .. => drainWordOk (e.ops.getD 0 0)
   | _ => true)

/-- Order 4 of R98 at vector issue: tags, widths and promotions. -/
def issueType (v : Vec) (vt : VType) (i : Instr) : Bool :=
  let w := vt.sew
  let has (r : VReg) : Bool := (v.tagOf r).width = w
  -- R38: a small float stands in no instruction but those that it lists
  let plain (r : VReg) : Bool := has r && (v.tagOf r).cls ≠ .smallFloat
  match i with
  | .vopAdd d a b _ => (vopTag .add v vt d a b).isSome
  | .vopSub d a b _ => (vopTag .sub v vt d a b).isSome
  | .vopRsub d a b _ => (vopTag .rsub v vt d a b).isSome
  | .vopMin d a b _ => (vopTag .min v vt d a b).isSome
  | .vopMax d a b _ => (vopTag .max v vt d a b).isSome
  | .vopAnd d a b _ => (vopTag .and v vt d a b).isSome
  | .vopOr d a b _ => (vopTag .or v vt d a b).isSome
  | .vopXor d a b _ => (vopTag .xor v vt d a b).isSome
  | .vopSll d a b _ => (vopTag .sll v vt d a b).isSome
  | .vopSrl d a b _ => (vopTag .srl v vt d a b).isSome
  | .vopSra d a b _ => (vopTag .sra v vt d a b).isSome
  | .vopMul d a b _ => (vopTag .mul v vt d a b).isSome
  | .vopMulh d a b _ => (vopTag .mulh v vt d a b).isSome
  | .vopMacc d a b _ => (vopTag .macc v vt d a b).isSome
  | .vopNmsac d a b _ => (vopTag .nmsac v vt d a b).isSome
  | .vopAvg d a b _ => (vopTag .avg v vt d a b).isSome
  | .vopShrRnd d a b _ => (vopTag .shrRnd v vt d a b).isSome
  | .vopCmpEq _ a b _ => (vopTag .cmpEq v vt a a b).isSome
  | .vopCmpNe _ a b _ => (vopTag .cmpNe v vt a a b).isSome
  | .vopCmpLt _ a b _ => (vopTag .cmpLt v vt a a b).isSome
  | .vopCmpLe _ a b _ => (vopTag .cmpLe v vt a a b).isSome
  | .vopNeg _ a _ => (vopTag1 .neg v vt a).isSome
  | .vopAbs _ a _ => (vopTag1 .abs v vt a).isSome
  | .vopMerge d a _ _ => has a && v.tagOf d = v.tagOf a
  | .vopMv _ (.reg a) _ => has a
  | .vopMv d (.strm j) _ =>
    (match v.stream j with
     | some t => (t.tag?.map Tag.width) = some w && (!t.out || has d)
     | none => false)
  | .vopSplat d _ _ => has d
  | .vopCvt f d a _ => cvtOk false v vt f d a
  | .vopCvtSat f d a _ => cvtOk true v vt f d a
  | .vopFclass _ a _ => has a && (v.tagOf a).cls = .float
  | .vrotCirRot d a .. => vrotOk .cir false v vt d a
  | .vrotCirVec d a .. => vrotOk .cir true v vt d a
  | .vrotHypRot d a .. => vrotOk .hyp false v vt d a
  | .vrotHypVec d a .. => vrotOk .hyp true v vt d a
  | .vrotLinRot d a .. => vrotOk .lin false v vt d a
  | .vrotLinVec d a .. => vrotOk .lin true v vt d a
  | .vfnSinCos _ a _ | .vfnExp _ a _ | .vfnExp2 _ a _ | .vfnLn _ a _ | .vfnLog2 _ a _ | .vfnSqrt _ a _ | .vfnRsqrt _ a _
  | .vfnRecip _ a _ | .vfnTanh _ a _ | .vfnSigm _ a _ | .vfnGelu _ a _ => fnOk Tag.composite v vt a none
  | .vfnDiv _ a b _ | .vfnAtan2 _ a b _ | .vfnHypot _ a b _ | .vfnSoftx _ a b _ => fnOk Tag.composite v vt a (some b)
  | .vfnUfn _ _ a b _ => fnOk Tag.user v vt a (some b)
  | .vredRedsum _ a b _ => (redTag .sum v vt a b).isSome
  | .vredRedsumOrd _ a b _ => (redTag .sumOrd v vt a b).isSome
  | .vredRedmax _ a b _ => (redTag .max v vt a b).isSome
  | .vredRedmin _ a b _ => (redTag .min v vt a b).isSome
  | .vredRedand _ a b _ => (redTag .and v vt a b).isSome
  | .vredRedor _ a b _ => (redTag .or v vt a b).isSome
  | .vredScanAdd _ a b _ => (redTag .sum v vt a b).isSome
  | .vredScanMax _ a b _ => (redTag .max v vt a b).isSome
  | .vredRedsumW _ a b _ => (redWTag v vt a b).isSome
  | .vpermSlideup _ a .. | .vpermSlidedown _ a .. | .vpermSlide1up _ a .. | .vpermSlide1down _ a .. | .vpermCompress _ a _
  | .vpermExpand _ a _ | .vpermReshape _ a _ | .vpermExtract _ a .. => plain a
  | .vpermGather _ a b _ => plain a && gatherOk v vt b
  | .vpermInsert d a .. => plain a && v.tagOf d = v.tagOf a
  | .vldUnit d .. | .vldStr d .. | .vld2d d .. | .vldFf d .. | .vstUnit d .. | .vstStr d .. | .vst2d d .. => has d
  | .vldIdx d _ b .. | .vstIdx d _ b .. => has d && offsetsOk v vt b
  | .vldShape _ _ b .. => recordTagOk v b
  | .vstShape d _ b .. => has d && recordTagOk v b
  | .vstMx d .. => w = 8 && (v.tagOf d).isMx
  | .strmBind _ a | .strmBindOut _ a => recordTagOk v a
  | .sclTov _ => w = 8
  | .sclFromv a => w = 8 && plain a
  | .matFeed _ a _ => w = 8 && (v.tagOf a).width = 8
  | .matFeedEnd _ c => slotTypeOk c
  | .matDrain d .. => drainTagOk (v.tagOf d) && has d
  | .vcfgTag _ c => (Tag.ofCode c.toNat).isSome
  | _ => true

/-- The code of the first test that a word fails at vector issue: those of R98, then the VALID bit of R76. -/
def issueTest (s : State) (k : Nat) (e : Entry) : Option Nat :=
  match decodeWord e.word with
  | .error r => some (rejectCode r)
  | .ok i =>
    if !issueOp s k i then some 1
    else if !issueFld e i then some 2
    else if !issueType (s.vec k) e.vtype i then some 3
    else if !slotValid s k i then some 1
    else none

/-! ## Issue (R248) -/

/-- Registers that an instruction of a VTYPE writes, each a physical entry of every lane until the commit (R248). -/
def destRegs (vt : VType) (w : InstrWord) : Nat :=
  match decodeWord w with
  | .ok i => ((destSpans vt i).map (·.2)).sum
  | .error _ => 0

/-- Has every lane room for the destinations of one more instruction, out of 192 entries of which 32 hold the registers of the
context (R78, R248)? -/
def Vec.entriesFree (v : Vec) (e : Entry) : Bool :=
  decide (32 + (v.infl.map fun x => destRegs x.vtype x.word).sum + destRegs e.vtype e.word ≤ 192)

/-- Does an instruction in flight have the tags, the grant or the streams to change that the tests of an instruction depend on,
or the VL (R98, R186, R249)? `strm.status` and `mat.slot` read none of these, and wait only for a `vcfg.setl` (R206, R227, R249). -/
def Vec.testsPending (v : Vec) (e : Entry) (i : Instr) : Bool :=
  let status := match i with | .strmStatus .. | .matSlot .. => true | _ => false
  (e.ffv && !status) || v.infl.any fun x => !x.done && (match decodeWord x.word with
    | .ok (.vcfgSetl ..) => true
    | .ok (.vcfgTag ..) => !status
    | .ok (.strmBind j _) | .ok (.strmBindOut j _) | .ok (.strmFree j) => streamNamed i = some j && !status
    | .ok p => !x.started && (destSpans x.vtype p).any fun q => (namedSpans e.vtype i).any (spansMeet q)
    | .error _ => false)

/-- Does a vector side start nothing: it is held by a trap, frozen, stopped, or about to stop (R135, R257, R393)? -/
def State.vectorRests (s : State) (k : Nat) : Bool :=
  let f := s.front k
  f.held || f.frozen || f.stopped || (((f.preempt && f.ie && f.run ≠ .waiting) || f.freezing) && s.canStop k)

/-- The wait of a `mat` instruction on a presence bit (R225, R226, R237, R238), which an older `mat.feed.end` or `mat.drain.end` in
flight has yet to change. -/
def State.presencePending (s : State) (k : Nat) (i : Instr) : Bool :=
  let q := s.cluster (clusterOf k)
  let full (fd : BitVec 2) : Bool := (q.fd.getD fd.toNat Slot.reset).full
  let ready (ac : BitVec 1) : Bool := (q.ac.getD ac.toNat Tile.reset).ready.getLsbD (coreOf k % 4)
  let ends (f : Instr → Bool) : Bool := (s.vec k).infl.any fun x => !x.done && (match decodeWord x.word with | .ok p => f p | .error _ => false)
  match i with
  | .matFeed fd .. | .matFeedEnd fd _ => full fd || ends fun p => match p with | .matFeedEnd fe _ => fe = fd | _ => false
  | .matDrain _ _ ac | .matDrainEnd ac => !ready ac || ends fun p => match p with | .matDrainEnd ad => ad = ac | _ => false
  | _ => false

/-- The wait of an instruction that ends a stream for the entries that an output stream has not written (R203, R207), and of a bind
for a thread (R217). A fault that the stream holds is delivered instead (R208). -/
def State.streamPending (s : State) (k : Nat) (i : Instr) : Bool :=
  let faulty (j : SReg) : Bool := ((s.vec k).stream j).any fun t => t.fault.isSome && !t.told
  match i with
  | .strmFree j => s.unwritten k j && !faulty j
  | .strmBind j _ | .strmBindOut j _ =>
    !faulty j && (s.unwritten k j || (((s.vec k).stream j).isNone && decide (16 ≤ s.threadCount (coreOf k))))
  | _ => false

/-- VECTOR_ISSUE: the head of the VIQ is tested and issues, or traps when it is the oldest that has not completed (R98, R135,
R248). It waits while 16 instructions have not committed, for physical entries, for what its tests depend on (log 8), and for what
its own description names (R248), where a presence wait of a faulted launch takes PEERFAULT (R311). An instruction that had completed
before a stop issues again with nothing to do (R257). -/
def execVectorIssue (k : Nat) (s : State) : Out :=
  let v := s.vec k
  if s.vectorRests k || decide (16 ≤ v.infl.length) then .next s
  else
    match v.viq with
    | [] => .next s
    | e :: rest =>
      let enter (s : State) : Out :=
        let e := { e with pix0 := e.pix, flags := 0, fpx := none, undo := Undo.empty, tally := Tally.empty }
        let g := s.core (coreOf k)
        .next ((s.setVec k { v with viq := rest, infl := v.infl ++ [e] }).setCore (coreOf k) { g with vshown := g.vshown.put (ctxOf k) e.word })
      if e.done then enter s
      else
        match decodeWord e.word with
        | .error r => s.stopVec k e e.pix.toNat (wordTrap (rejectCode r) e.word)
        | .ok i =>
          if v.testsPending e i || !v.entriesFree e then .next s
          else
            match issueTest s k e with
            | some c => s.stopVec k e e.pix.toNat (wordTrap c e.word)
            | none =>
              if s.presencePending k i then presenceWait s k e
              else if s.streamPending k i then .next s
              else enter s

/-! ## Commit -/

/-- MOP of a vector load or store, and whether it is a store (R94, R394). -/
def memShape : Instr → Option (Nat × Bool)
  | .vldUnit .. => some (0, false) | .vldStr .. => some (1, false) | .vld2d .. => some (2, false)
  | .vldIdx .. => some (3, false) | .vldFf .. => some (4, false) | .vldShape .. => some (5, false)
  | .vstUnit .. => some (0, true) | .vstStr .. => some (1, true) | .vst2d .. => some (2, true)
  | .vstIdx .. => some (3, true) | .vstMx .. => some (4, true) | .vstShape .. => some (5, true)
  | _ => none

/-- The byte stride of a form, for STRC bit 6 (R394): that of the record for a shape form. -/
def formStride (mop z : Nat) (ops : List W64) (record : Option W64) : Int :=
  match mop with
  | 1 => (ops.getD 1 0).toInt
  | 2 => ((ops.getD 2 0).extractLsb' 32 32).toInt
  | 5 => (record.getD (BitVec.ofNat 64 z)).toInt
  | _ => z

/-- The bytes of a sampled record (R394), from what its moves have gathered. The target of an instruction that has accessed
nothing, and the cycles of walks, are free (log 11). -/
def State.sampleRecord (s : State) (k : Nat) (e : Entry) (mop : Nat) (store : Bool) : List Byte :=
  let free (n : Nat) : Nat := Config.sampleTiming s.freeCtr n
  let t := e.tally
  let target := t.target.getD (free 0 % 4)
  let conflict := decide (target ≤ 1) && formStride mop (e.vtype.sew / 8) e.ops t.stride % 3064 = 0
  let strc := mop + (if store then 8 else 0) + 16 * target + (if conflict then 64 else 0)
  let walk := if t.cluster = 0 then 0 else free 1
  let cyc := (t.cyc + (if t.micro = 0 && t.cluster = 0 then 0 else free 2)) % 2 ^ 32
  bytesLE 8 e.addr.toNat ++ bytesLE 8 t.time.toNat ++ bytesLE 4 e.word.toNat ++ bytesLE 2 e.vl.toNat ++
    bytesLE 1 (ctxOf k + if e.resumed then 4 else 0) ++ bytesLE 1 strc ++ bytesLE 4 t.elems ++ bytesLE 4 cyc ++
    bytesLE 4 t.conf ++ bytesLE 4 t.lines.length ++ bytesLE 4 t.pages.length ++ bytesLE 2 t.micro ++ bytesLE 2 t.cluster ++
    bytesLE 4 walk ++ bytesLE 4 (if t.elems = 0 then 0 else 256 * cyc / t.elems) ++ bytesLE 8 t.spc.toNat

/-- A record of the sampled profile has performed: COUNT rises (R394). -/
def State.sampled (s : State) (g pa : Nat) : State :=
  let c := s.core g
  let n := c.smpcount + 1
  (s.noteBytes pa 64 true).setCore g { c with smpcount := n, smpfull := c.smpctl.getLsbD 1 && decide (2 ^ (c.smpctl.extractLsb' 8 5).toNat ≤ n.toNat) }

/-- The sampled profile counts a completed vector load or store, and writes the record of every PERIOD + 1st (R394). A record whose
write stalls is kept, and the next ones queue behind it (R366). -/
def State.sample (s : State) (k : Nat) (e : Entry) : State :=
  let g := coreOf k
  let c := s.core g
  match decodeWord e.word with
  | .error _ => s
  | .ok i =>
    match memShape i with
    | none => s
    | some (mop, store) =>
      if !c.smpctl.getLsbD 0 then s
      else if 1 < c.smpleft then s.setCore g { c with smpleft := c.smpleft - 1 }
      else
        let ring := 2 ^ (c.smpctl.extractLsb' 8 5).toNat
        let u := s.setCore g { c with smpleft := (c.smpctl.extractLsb' 16 16).toNat + 1 }
        let n := c.smpcount.toNat + (s.stuck.filter fun x => x.by_ = .sample g).length
        if c.smpfull || (c.smpctl.getLsbD 1 && decide (ring ≤ n)) then u
        else
          let at_ := c.smpbase.toNat + 64 * (n % ring)
          let bytes := s.sampleRecord k e mop store
          let wait : State := { u with stuck := u.stuck ++ [⟨.sample g, at_, bytes⟩] }
          if u.isStuck (.sample g) then wait
          else match u.write none u.live at_ bytes with
            | some u => u.sampled g at_
            | none => wait

/-- VECTOR_COMMIT: the oldest completed instruction commits: INSTRET, VCOMMIT, the profile and the comparators (R85,
R248, R392 to R394). -/
def execVectorCommit (k : Nat) (s : State) : Out :=
  let v := s.vec k
  match v.infl with
  | [] => .next s
  | e :: rest =>
    if !e.done then .next s
    else
      let s := (s.sample k e).setVec k { v with infl := rest }
      let f := s.front k
      let s := (s.setFront k { f with instret := f.instret + 1 }).countCore (coreOf k) 2 1
      .next (s.breakpoints k 1 e.addr)

end Sys2Proof.Machine
end

