-- ==== Sys2Proof/Machine/Chain.lean ====
section
/-! DEFINITION. Chaining: how far an instruction in flight may be processed behind the older ones (R248, R249, R251, R253,
R256; log 8). -/
namespace Sys2Proof.Machine

/-! ## What one older instruction allows -/

/-- Element groups in common: the same registers, read alike (R152). -/
def groupsAlike (a b : VType) (p q : VReg × GroupKind) : Bool := decide (p = q) && a.sew = b.sew && a.lmul = b.lmul

/-- Does an older instruction make every consumer wait for its completion, or does a younger one wait for its producers (R251)?
Those that run in one move do; so do `vst.mx` as a consumer and a raw `mat.drain` as a producer. -/
def wholeWait (v : Vec) (p : Entry) (ip : Instr) (c : Entry) (ic : Instr) : Bool :=
  oneMove p.word ip || oneMove c.word ic || (match ic with | .vstMx .. => true | _ => false) ||
    (match ip with | .matDrain d _ _ => decide (v.tagOf d = .uint64) | _ => false)

/-- The limit that two uses of registers give, the older instruction having been processed up to `pix`: none when the
younger one waits for its completion. A younger one that writes does not complete before the older one. -/
def hazard (wait : Bool) (pix last : Nat) (writes : Bool) : Option Nat :=
  if wait then none else some (if writes then min pix last else pix)

/-- Puts limits together. -/
def allLimits (l : List (Option Nat)) : Option Nat :=
  l.foldl (fun a b => match a, b with | some x, some y => some (min x y) | _, _ => none) (some 8192)

/-- The limit by v registers (R251). -/
def groupLimit (v : Vec) (p : Entry) (ip : Instr) (c : Entry) (ic : Instr) : Option Nat :=
  let whole := wholeWait v p ip c ic
  let last := c.vl.toNat - 1
  let meet (a b : VReg × GroupKind) : Bool := spansMeet (groupSpan p.vtype a) (groupSpan c.vtype b)
  let pairs (as bs : List (VReg × GroupKind)) (writes : Bool) : List (Option Nat) :=
    as.flatMap fun a => bs.filterMap fun b =>
      if meet a b then some (hazard (whole || !groupsAlike p.vtype c.vtype a b) p.pix.toNat last writes) else none
  let record := match recordReg ic with
    | some r => if (destSpans p.vtype ip).any (spansMeet (r.toNat, 1)) then [none] else []
    | none => []
  let taken := match recordReg ip with
    | some r => if (destSpans c.vtype ic).any (spansMeet (r.toNat, 1)) then [none] else []
    | none => []
  allLimits (pairs (destGroups ip) (issueGroups ic) false ++ pairs (issueGroups ip) (destGroups ic) true ++ record ++ taken)

/-- The masks that an instruction reads. -/
def masksRead (i : Instr) : List MReg := (instrMask i :: maskSources i).filter (· ≠ 0)

/-- The limit by mask registers (R251). -/
def maskLimit (v : Vec) (p : Entry) (ip : Instr) (c : Entry) (ic : Instr) : Option Nat :=
  let whole := wholeWait v p ip c ic
  let last := c.vl.toNat - 1
  let pw := maskDests p.word p.vtype ip
  let cw := maskDests c.word c.vtype ic
  allLimits ((if pw.any (masksRead ic).contains then [hazard whole p.pix.toNat last false] else []) ++
    (if cw.any (fun m => pw.contains m || (masksRead ip).contains m) then [hazard whole p.pix.toNat last true] else []))

/-- Does an instruction write scale registers: a `vld.shape` does for an MXS record (R195)? -/
def Vec.writesScalesNow (v : Vec) (e : Entry) (i : Instr) : Bool :=
  writesScales i && (match i with
    | .vldShape _ _ b _ _ _ => v.unsettled e.po [(b.toNat, 1)] [] || (v.recordWord b 1).getLsbD 13
    | _ => true)

/-- Does a `vcfg.setl` wait for an older instruction: it changes the grant, so that groups leave and the kept ones move, or it zeroes
a register or bits of a mask that the older one names (R153, R249)? -/
def setlWaits (v : Vec) (p : Entry) (ip : Instr) (c : Entry) : Bool :=
  let kept := keptGroups c.vtype c.keep
  decide (c.gnew ≠ v.grant) || !(masksRead ip).isEmpty || (maskDests p.word p.vtype ip).any (· ≠ 0) ||
    (namedSpans p.vtype ip).any fun q => (List.range q.2).any fun j => !kept.any fun g =>
      decide (g.toNat ≤ q.1 + j) && decide (q.1 + j < g.toNat + c.vtype.lmul)

/-- Must the younger instruction wait for the completion of the older one for another reason: a stream that both name (R256),
scale registers, the array, a `vcfg.setl`, or the order of their memory accesses (R122, R276)? `mat.slot` waits for nothing (R227). -/
def State.waitsDone (s : State) (k : Nat) (p : Entry) (ip : Instr) (c : Entry) (ic : Instr) : Bool :=
  let v := s.vec k
  let setl := isSetl p.word || (isSetl c.word && setlWaits v p ip c)
  let array := matWord ip && matWord ic && (match ic with | .matSlot .. => false | _ => true)
  let stream := match ic with
    | .strmStatus .. => false
    | _ => (streamNamed ic).isSome && decide (streamNamed ip = streamNamed ic)
  let scales := (v.writesScalesNow p ip && (readsScales ic || writesScales ic)) || (readsScales ip && v.writesScalesNow c ic)
  let memory := match memUse p.word, memUse c.word with
    | .access a, .access b => s.vecPair k p a c b
    | .barrier, .access _ => v.frees p
    | _, _ => false
  setl || stream || scales || array || memory

/-- How far an older instruction that has not completed lets a younger one be processed; none when it must complete first. -/
def State.behind (s : State) (k : Nat) (p c : Entry) (ic : Instr) : Option Nat :=
  match decodeWord p.word with
  | .error _ => none
  | .ok ip =>
    if s.waitsDone k p ip c ic then none
    else allLimits [groupLimit (s.vec k) p ip c ic, maskLimit (s.vec k) p ip c ic]

/-! ## How far an entry may move -/

/-- Does an instruction reach beyond the vector and mask registers of its context (R253)? -/
def outside (w : InstrWord) (i : Instr) : Bool :=
  (match i with
   | .vstUnit .. | .vstStr .. | .vst2d .. | .vstIdx .. | .vstMx .. | .vstShape .. | .sclSt .. | .vldFf .. | .vcfgSetl .. => true
   | _ => writesScales i || matWord i || (streamNamed i).isSome || (pendingDest w).isSome)

/-- Do the groups of an instruction clash with its own destinations, so that it can only be processed in one move: registers
in common that are not read alike, or the register of its record? -/
def selfClash (vt : VType) (i : Instr) : Bool :=
  (destGroups i).any fun d =>
    (issueGroups i).any (fun q => d ≠ q && spansMeet (groupSpan vt d) (groupSpan vt q)) ||
      (recordReg i).any fun r => spansMeet (groupSpan vt d) (r.toNat, 1)

/-- The elements of an element group of an instruction: those of its widest group (R150, R178). -/
def stepLen (lanes : Nat) (vt : VType) (i : Instr) : Nat :=
  perReg lanes (if (issueGroups i).any fun q => decide (q.2 = .wide) then 2 * vt.sew else vt.sew)

/-- The element up to which the entry at position j in flight may be processed now; none while it may not move. `n` element
groups are asked for, or as many as may be for 0. A load of MX segments goes in one move, which reads each segment once (R284), and so
does an instruction that consumes stream entries while FTRAP traps on some flag (R45, R253). `strm.status` and `mat.slot` wait for no
older instruction (R206, R227) but for the order of R253 while FTRAP does (log 63). -/
def State.moveLimit (s : State) (k j n : Nat) : Option Nat :=
  let v := s.vec k
  match v.infl[j]? with
  | none => none
  | some e =>
    match decodeWord e.word with
    | .error _ => none
    | .ok i =>
      let older := (v.infl.take j).filter fun p => !p.done
      let alone := older.isEmpty
      let vl := e.vl.toNat
      let at_ := e.pix.toNat
      let inOne := oneMove e.word i || selfClash e.vtype i || (match i with
        | .vldShape _ _ b _ _ _ => (v.recordWord b 1).getLsbD 13
        | _ => (streamNamed i).isSome && v.ftrap ≠ 0)
      let limit : Option Nat :=
        match i with
        | .strmStatus .. | .matSlot .. => if !alone && v.ftrap ≠ 0 then none else some 8192
        | _ =>
          if !alone && v.ftrap ≠ 0 && outside e.word i then none
          else allLimits (older.map fun p => s.behind k p e i)
      match limit with
      | none => none
      | some l =>
        if vl ≤ at_ then some vl
        else
          let g := stepLen v.lanes e.vtype i
          let asked := if n = 0 || inOne then vl else min vl ((at_ / g + n) * g)
          if asked ≤ l then some asked
          else if inOne then none
          else
            let hi := l / g * g
            if at_ < hi then some hi else none

end Sys2Proof.Machine
end

