-- ==== Sys2Proof/Machine/Clock.lean ====
section
/-! DEFINITION. Time: clock edges, TIME, the counters of timing, and the trace (R85, R353, R392, R395, R396; logs 10, 11). -/
namespace Sys2Proof.Machine

/-! ## Counters of timing -/

/-- Event codes that count the timing of an implementation, or corrected errors that the model holds nowhere (R272, R384,
R392; log 11). -/
def timedCode (n : Nat) : Bool := [0x04, 0x13, 0x14, 0x15, 0x23, 0x27, 0x42].contains n

/-- Adds clock edges to the counters of CYCLES (R392), and the free increments of timing events (log 11). -/
def bumpTimed {n m : Nat} (ctr holder edges : Nat) (sel : Vector (BitVec 10) n) (frz : BitVec m) (cnt : Vector W64 n) : Vector W64 n :=
  cnt.mapIdx fun i v =>
    let e := sel.getD i 0
    let code := (e.extractLsb' 0 8).toNat
    if e.getLsbD 8 && !frz.getLsbD i then
      (if code = 0 then v + BitVec.ofNat 64 edges
       else if timedCode code then v + BitVec.ofNat 64 (Config.timingEvents ctr holder code) else v)
    else v

/-! ## The trace (R395, R396) -/

/-- MAJ and the function field of a vector instruction that has issued, as a vector slot shows them (R396). -/
def issuedSlot (w : InstrWord) : BitVec 16 :=
  let maj := w.extractLsb' 27 5
  let fn : BitVec 6 :=
    if maj = 14 then 0#3 ++ w.extractLsb' 5 2 ++ w.extractLsb' 4 1
    else if maj = 18 || maj = 19 then 0#3 ++ w.extractLsb' 5 3
    else w.extractLsb' 6 6
  1#1 ++ maj ++ fn ++ 0#4

/-- Does an instruction in flight wait for its stream: an input stream that is empty, or an output stream that is full (R204, R205)? -/
def Vec.streamStalls (v : Vec) (e : Entry) : Bool :=
  match decodeWord e.word with
  | .ok i => (streamNamed i).any fun j => (v.stream j).any fun t => if t.out then decide (4096 < (t.buf.length + 1) * t.size) else t.buf.isEmpty
  | .error _ => false

/-- The waits that hold back the head of a VIQ: for a grant (7), for presence (6), for a stream (3), for an even cycle of a half-rate
window (8), and for chaining behind what is in flight (2). -/
def State.slotWaits (s : State) (k : Nat) (e : Entry) (half : Bool) : List Nat :=
  let v := s.vec k
  let open_ := v.infl.filter fun x => !x.done
  let head (f : Instr → Bool) : Bool := match decodeWord e.word with | .ok i => f i | .error _ => false
  (if open_.any fun x => isSetl x.word then [7] else []) ++ (if head (s.presencePending k) then [6] else []) ++
    (if head (s.streamPending k) || open_.any v.streamStalls then [3] else []) ++ (if half then [8] else []) ++
    (if open_.isEmpty then [] else [2])

/-- The reason that a vector slot shows when no instruction has issued (R396). Which of several waits it is depends on the cycle, and
is free (log 11). -/
def State.slotReason (s : State) (k : Nat) (half : Bool) (free : Nat) : Nat :=
  let v := s.vec k
  match v.viq with
  | [] => (match (s.front k).run with | .idle | .halted => 0 | _ => 1)
  | e :: _ =>
    if 16 ≤ v.infl.length then 5
    else if !v.entriesFree e then 4
    else
      let l := s.slotWaits k e half
      l.getD (free % l.length) 2

/-- The array field of a record: whether an MMA in progress broadcasts at the edge, from which of its slots and which plane, is
timing, and free (R231, R396; log 11). -/
def arrayField (q : Cluster) (free : Nat → Byte) : BitVec 16 :=
  match q.mma.map fun r => decodeWord r.entry.word with
  | some (.ok (.matMma fd ac ws sp _ _)) =>
    let slots := mmaSlots fd sp
    let planes := slotPlanes (q.fd.getD fd.toNat Slot.reset).code
    if (free 0).getLsbD 0 then
      1#1 ++ BitVec.ofNat 2 (slots.getD ((free 1).toNat % slots.length) 0) ++ ac ++ ws ++ 0#3 ++ BitVec.ofNat 5 ((free 2).toNat % planes)
    else 0
  | _ => 0

/-- A core's part of a record: the word that its front has issued, and its four vector slots (R396). -/
def State.coreRecord (s : State) (g : Nat) (first half : Bool) (free : Nat → Byte) : List Byte :=
  let c := s.core g
  let word := if first then (c.shown.map fun p => p.2.toNat).getD 0 else 0
  bytesLE 4 word ++ (List.range 4).flatMap fun k =>
    match (if first then c.vshown.find? fun p => p.1 = k else none) with
    | some p => bytesLE 2 (issuedSlot p.2).toNat
    | none => bytesLE 2 (s.slotReason (4 * g + k) half (free k).toNat)

/-- The 64 bytes of a record (R396). The first edge after a step shows what has issued since the edge before. -/
def State.traceBytes (s : State) (c : Nat) (cyc : W64) (first : Bool) : List Byte :=
  let x := s.cluster c
  let free (j : Nat) : Byte := Config.traceByte (s.freeCtr + cyc.toNat) j
  let ctx (q : Nat) : BitVec 2 := if first then BitVec.ofNat 2 (((s.core (4 * c + q)).shown.map (·.1)).getD 0) else 0
  let flags : BitVec 2 := if first then s.trcflags.extractLsb' 0 2 else 0
  let half := decide (0 < x.half) && x.stretch = 0
  bytesLE 8 cyc.toNat ++
    ((List.range 4).flatMap fun q => s.coreRecord (4 * c + q) first half fun j => free (4 * q + j)) ++
    bytesLE 4 (if first then (x.dshown.map (·.toNat)).getD 0 else 0) ++
    bytesLE 2 (arrayField x fun j => free (16 + j)).toNat ++ [ctx 3 ++ ctx 2 ++ ctx 1 ++ ctx 0] ++
    [0#4 ++ flags ++ BitVec.ofBool half ++ BitVec.ofBool (decide (0 < x.stretch))]

/-- One record is written (R395). That of an armed trigger does not count among those of POST. -/
def State.traceOne (s : State) (c : Nat) (cyc : W64) (first : Bool) : State :=
  let bytes := s.traceBytes c cyc first
  let words := (List.range 8).map fun j => BitVec.ofNat 64 (ofBytesLE ((bytes.drop (8 * j)).take 8))
  { s with
    trcsram := (words.zipIdx).foldl (fun m p => m.put (8 * s.trcnext.toNat + p.2) p.1) s.trcsram
    trcnext := s.trcnext + 1
    trcwrap := s.trcwrap || s.trcnext = 0xFFFF
    trcpost := if first && s.trcflags.getLsbD 2 then s.trcpost else s.trcpost.map fun n => n - 1
    trcflags := if first then 0 else s.trcflags }

/-- Has the trace written its last record (R395)? -/
def State.traceEnded (s : State) : Bool := s.trcpost = some 0 && !s.trcflags.getLsbD 2

/-- The records of n clock edges; none once the trace has written its last one (R395). -/
def State.traceEdges (s : State) (c : Nat) (cyc : W64) (first : Bool) : Nat → State
  | 0 => s
  | n + 1 => if s.traceEnded then s else State.traceEdges (s.traceOne c cyc first) c (cyc + 1) false n

/-! ## Clock edges -/

/-- What has issued is shown no more after an edge of its cluster (R396); n edges pass. -/
def State.clearShown (s : State) (c n : Nat) : State :=
  let s := s.setCluster c { s.cluster c with dshown := if n = 0 then (s.cluster c).dshown else none }
  { s with
    cores := s.cores.map fun (p : Nat × Core) =>
      if p.1 / 4 = c then
        (p.1, { p.2 with shown := if n = 0 then p.2.shown else none, vshown := if n = 0 then p.2.vshown else [] })
      else p
    trcflags := if n ≠ 0 ∧ (s.trcctl.extractLsb' 0 6).toNat = c then 0 else s.trcflags }

/-- Time passes for the cluster that acts next (R85, R353, R392, R395; log 10): CYCLE, TIME, timing counters and the trace.
`least` clock edges pass at the least. -/
def State.tick (s : State) (c least : Nat) : State :=
  let n := max least (Config.elapsedCycles s.freeCtr c)
  let cyc := (s.cluster c).cycle
  let s := if s.trcctl.getLsbD 12 && (s.trcctl.extractLsb' 0 6).toNat = c then s.traceEdges c (cyc + 1) true n else s
  let s := s.clearShown c n
  let x := s.cluster c
  let s := s.setCluster c { x with
    cycle := cyc + BitVec.ofNat 64 n
    kvc := bumpTimed s.freeCtr (256 + c) n x.kvs x.kvfrz x.kvc }
  let s := { s with cores := s.cores.map fun (p : Nat × Core) =>
    if p.1 / 4 = c then (p.1, { p.2 with evc := bumpTimed s.freeCtr p.1 n p.2.evs p.2.evfrz p.2.evc }) else p }
  { s with
    time := if s.ready.getLsbD 2 then s.time + BitVec.ofNat 64 (Config.elapsedNs s.freeCtr) else s.time
    trig := if n = 0 then s.trig else 0
    dvc := bumpTimed s.freeCtr 320 n s.dvs s.dvfrz s.dvc
    freeCtr := s.freeCtr + 1 }

end Sys2Proof.Machine
end

