-- ==== Sys2Proof/Machine/Power.lean ====
section
/-! DEFINITION. Scrubbing, lane retirement, parking, sensors and droop (R381 to R388). -/
namespace Sys2Proof.Machine

/-! ## Scrubbing (R381) -/

/-- PATROL_SCRUB (R381): a single-bit error of a line is corrected, which DRAMCE counts (R384), and is gone; an uncorrectable one
stays. -/
def execPatrolScrub (line : Nat) (s : State) : Out :=
  .next (if s.cor.contains (64 * line) then { s.countDevice 0x45 1 with cor := s.cor.filter fun u => u ≠ 64 * line } else s)

/-- WEIGHT_SCRUB (R381): it never changes a value that a program can read, and an uncorrectable error stays. -/
def execWeightScrub (_c _ws _row : Nat) (s : State) : Out := .next s

/-! ## Retirement (R382, R383) -/

/-- LANE_RETIRE (R382): 256 corrected errors of a group have come within 2^30 ns (log 52). -/
def execLaneRetire (g j : Nat) (s : State) : Out := .next (s.retireGroup g j)

/-! ## Parking (R385) -/

/-- The groups of a core that are neither parked nor retired. -/
def Core.active (c : Core) : List Nat := (List.range 8).filter fun j => !c.lanemap.getLsbD j && laneHolder c.lanepart j ≠ 5

/-- The groups of a core that are parked and not retired. -/
def Core.parkedGroups (c : Core) : List Nat := (List.range 8).filter fun j => !c.lanemap.getLsbD j && laneHolder c.lanepart j = 5

/-- The placed contexts of a core that want lanes (R385). -/
def State.wanting (s : State) (g : Nat) : Nat := ((s.placedOn g).filter fun q => decide (1 ≤ (s.vec (4 * g + q)).lanereq.toNat)).length

/-- A change of parking of group j of a core: LANEPART, the arbiter's event and PARKCHG. -/
def State.setParked (s : State) (g j h : Nat) : State :=
  let c := s.core g
  (s.setCore g { c with lanepart := setHolder c.lanepart j h, arb := true }).countDevice 0x47 1

/-- Parks the highest-numbered active group of a core that has more than it needs (R385). -/
def State.parkOne (s : State) (g : Nat) : State :=
  let l := (s.core g).active
  match l.getLast? with
  | some j => if max 1 (s.wanting g) < l.length then s.setParked g j 5 else s
  | none => s

/-- Unparks the lowest-numbered parked group of a core (R385). -/
def State.unparkOne (s : State) (g : Nat) : State :=
  match (s.core g).parkedGroups with
  | j :: _ => s.setParked g j 4
  | [] => s

/-- POWER_CONTROL_TICK (R385), every 100 µs: the module power in mW, averaged over 1 ms, and the hottest compute die in
0.001 °C. Ten clear ticks in a row are the millisecond of R385. -/
def execPowerControlTick (mw mdeg : Nat) (s : State) : Out :=
  let limit := 1000 * s.powerLimit
  if limit < mw ∨ 105000 < mdeg then .next ((List.range 256).foldl State.parkOne { s with clearFor := 0 })
  else if mw + 75000 ≤ limit ∧ mdeg ≤ 100000 then
    if 10 ≤ s.clearFor + 1 then .next ((List.range 256).foldl State.unparkOne { s with clearFor := s.clearFor + 1 })
    else .next { s with clearFor := s.clearFor + 1 }
  else .next { s with clearFor := 0 }

/-! ## Sensor subscriptions (R386, R387) -/

/-- The notify word of subscription k (R387). -/
def crossingWord (k : Nat) (q : Subscription) (up : Bool) (value : Nat) : W64 :=
  1#1 ++ BitVec.ofBool up ++ BitVec.ofNat 3 k ++ 0#3 ++ BitVec.ofNat 8 q.sensor ++ 0#16 ++ BitVec.ofNat 32 (min value (2 ^ 32 - 1))

/-- Does the record select a direction? -/
def Subscription.selects (q : Subscription) (up : Bool) : Bool := if up then q.up else q.down

/-- Subscription k writes its word, and its window opens (R387). -/
def State.notifyCrossing (s : State) (k : Nat) (q : Subscription) (value : Nat) : State :=
  let s := s.notifyOr q.addr (crossingWord k q q.above value)
  { s with subs := s.subs.setIfInBounds k (some { q with last := some q.above, window := true, latest := value }) }

/-- Subscription k meets a reading (R387). -/
def State.sampleOne (s : State) (k value : Nat) : State :=
  match s.subs.getD k none with
  | none => s
  | some q =>
    let cross : Bool := if q.above then decide ((value : Int) < q.thresh - q.hyst) else decide (q.thresh ≤ value)
    if !cross then s
    else
      let q := { q with above := !q.above }
      if !q.window && q.selects q.above then s.notifyCrossing k q value
      else { s with subs := s.subs.setIfInBounds k (some { q with latest := value }) }

/-- SENSOR_SAMPLE (R387): a sensor is read, and its subscriptions meet the reading; sensors 8 to 10 are the device's own
counts. -/
def execSensorSample (sensor value : Nat) (s : State) : Out :=
  let t := if sensor < 8 then { s with sensors := s.sensors.put sensor value } else s
  let v := t.sensor sensor
  .next ((List.range 8).foldl
    (fun (s : State) k => match s.subs.getD k none with
      | some q => if q.sensor = sensor then s.sampleOne k v else s
      | none => s) t)

/-- NOTIFY_WINDOW_END (R387): a crossing inside the window is written now, if the state differs from the one last
written. -/
def execNotifyWindowEnd (k : Nat) (s : State) : Out :=
  match s.subs.getD k none with
  | none => .next s
  | some q =>
    if !q.window then .next s
    else
      let q := { q with window := false }
      if q.last ≠ some q.above && q.selects q.above then .next (s.notifyCrossing k q q.latest)
      else .next { s with subs := s.subs.setIfInBounds k (some q) }

/-! ## Droop (R388) -/

/-- DROOP_ALARM (R388): a droop in mV at or above DROOPTH, outside a stretched cycle, starts six stretched cycles and a
window of 64. The cycles of a window that it cuts short are timing (log 11). -/
def execDroopAlarm (c mv : Nat) (s : State) : Out :=
  let x := s.cluster c
  if x.droopth = 0 || decide (mv < x.droopth.toNat) || decide (0 < x.stretch) then .next s
  else
    let cut := if 0 < x.half then Config.timingEvents s.freeCtr (256 + c) 0x26 % 65 else 0
    let s := ((s.setCluster c { x with stretch := 6, half := 64 }).countCluster c 0x24 1).countCluster c 0x26 cut
    let shown : Bool := (s.trcctl.extractLsb' 0 6).toNat = c
    .next (({ s with
      sensors := s.sensors.put 10 (Store.get 0 s.sensors 10 + 1)
      trcflags := if shown then s.trcflags ||| 2 else s.trcflags }).fire 2)

/-- STRETCH_END (R388): the six stretched cycles are over. -/
def execStretchEnd (c : Nat) (s : State) : Out :=
  let x := s.cluster c
  if x.stretch = 0 then .next s else .next ((s.setCluster c { x with stretch := 0 }).countCluster c 0x25 6)

/-- HALF_RATE_WINDOW_END (R388): the 64 cycles after the stretch are over. -/
def execHalfRateWindowEnd (c : Nat) (s : State) : Out :=
  let x := s.cluster c
  if 0 < x.stretch || x.half = 0 then .next s else .next ((s.setCluster c { x with half := 0 }).countCluster c 0x26 64)

end Sys2Proof.Machine
end

