-- ==== Sys2Proof/Machine/Board.lean ====
section
/-! DEFINITION. Bring-up, boot, the end of a trace, the sideband and the JTAG port (R27, R395, R399, R401, R402). -/
namespace Sys2Proof.Machine

/-! ## Boot (R27) -/

/-- The retired groups of a core as the flash gives them: the signed image, then the log (R27, R382). -/
def flashRetired (f : Flash) (g : Nat) : BitVec 8 :=
  (f.retireLog.filter fun e => e.1 = g).foldl (fun m e => m ||| (1#8 <<< e.2.1))
    (((f.laneMap.find? fun p => p.1 = g).map (·.2)).getD 0)

/-- A core after boot: LANEMAP from the flash, and 7 in the groups that it retires (R87). -/
def Core.boot (f : Flash) (g : Nat) : Core :=
  let map := flashRetired f g
  { Core.reset with
    lanemap := map
    lanepart := (List.range 8).foldl (fun lp j => if map.getLsbD j then setHolder lp j 7 else lp) Core.reset.lanepart }

/-- A boot (R27): every state at its reset value but the flash, which is applied. The model's own fields go on (log 2). -/
def State.boot (s : State) : State :=
  let cores : Store Core := (List.range 256).foldl
    (fun (m : Store Core) g => if flashRetired s.flash g = 0 then m else m.put g (Core.boot s.flash g)) []
  { State.reset with cores := cores, flash := s.flash, sched := s.sched, actor := s.actor, freeCtr := s.freeCtr }

/-- POWER_GOOD_BOOT (R27). -/
def execPowerGoodBoot (s : State) : Out := .next s.boot

/-! ## Ready bits (R399) -/

/-- The bit of a function in READY, and the bits that it needs. -/
def readyBits : ReadyFn → BitVec 8 × BitVec 8
  | .power => (0x01, 0) | .flash => (0x02, 0x01) | .clock => (0x04, 0) | .mem => (0x08, 0x02) | .gen => (0x10, 0x08)
  | .ngurid => (0x20, 0x02) | .launch => (0x40, 0x10) | .trace => (0x80, 0) | .cluster _ => (0, 0)

/-- BRINGUP_FUNCTION_READY (R399): a function that has what it needs sets its bit. The clock of a device that is not the
time master is synchronised by TIMING_PACKET (R353). -/
def execBringupFunctionReady (fn : ReadyFn) (s : State) : Out :=
  if s.inReset then .next s
  else
    match fn with
    | .cluster c => if c < 64 then .next (s.setCluster c { s.cluster c with ready := true }) else .next s
    | _ =>
      let b := readyBits fn
      if s.ready &&& b.2 ≠ b.2 then .next s
      else if fn = .clock ∧ s.flash.timeMaster ≠ s.flash.deviceId then .next s
      else .next { s with ready := s.ready ||| b.1 }

/-! ## The trace (R395) -/

/-- TRACE_POST_END (R395): after POST records RUN is cleared and DONE set. -/
def execTracePostEnd (s : State) : Out :=
  if s.traceEnded then
    .next { s with trcpost := none, trcctl := (s.trcctl &&& ~~~(1#64 <<< 12)) ||| (1#64 <<< 13) }
  else .next s

/-! ## The sideband (R401) -/

/-- READYCL as a number (R391). -/
def State.readycl (s : State) : Nat := (List.range 64).foldl (fun n c => if (s.cluster c).ready then n + 2 ^ c else n) 0

/-- SMB_READ_READY (R401). -/
def execSmbReadReady (s : State) : Out := .next { s with sbReply := bytesLE 8 s.ready.toNat ++ bytesLE 8 s.readycl }

/-- SMB_POWER_LIMIT (R385, R401): a value outside 300 to 1,500 W is refused. -/
def execSmbPowerLimit (setTo : Option Nat) (s : State) : Out :=
  match setTo with
  | none => .next { s with sbReply := bytesLE 2 s.powerLimit }
  | some w => if 300 ≤ w ∧ w ≤ 1500 then .next { s with powerLimit := w } else .next s

/-- SMB_SENSOR_READ (R386, R401). -/
def execSmbSensorRead (code : Nat) (s : State) : Out :=
  if code ≤ 10 then .next { s with sbReply := bytesLE 4 (s.sensor code) } else .next s

/-- SMB_RESET (R401): 1 holds the device in reset, 0 releases it, which boots it. -/
def execSmbReset (value : Nat) (s : State) : Out :=
  if value = 1 then .next { s.boot with inReset := true }
  else if value = 0 ∧ s.inReset then .next s.boot
  else .next s

/-- SMB_FIRE_SOFT (R397, R401). -/
def execSmbFireSoft (s : State) : Out := .next (s.fire 4)

/-- SMB_FLASH_IMAGE (R401): accepted only in reset and with a valid signature. -/
def execSmbFlashImage (image : Flash) (signed : Bool) (s : State) : Out :=
  if s.inReset && signed then .next { s with flash := image } else .next s

/-! ## The JTAG port (R402)

`State.jtag` is the data register that the last instruction selected, as far as the spec gives its contents. -/

/-- JTAG_BYPASS (R402): the bypass register captures 0 (log 26). -/
def execJtagBypass (s : State) : Out := .next { s with jtag := 0 }

/-- JTAG_IDCODE (R402). -/
def execJtagIdcode (s : State) : Out := .next { s with jtag := 0x1C460AB5 }

/-- JTAG_SAMPLE_PRELOAD (R402): it concerns the signal balls of the module and no state of the device. -/
def execJtagSamplePreload (s : State) : Out := .next s

/-- JTAG_EXTEST (R402): only in reset, on the signal balls; it changes no state that the model holds. -/
def execJtagExtest (s : State) : Out := .next s

end Sys2Proof.Machine
end

