-- ==== Sys2Proof/Machine/Branch.lean ====
section
/-! DEFINITION. Branches and jumps (R127, R128). A target that cannot be fetched traps at its own fetch. -/
namespace Sys2Proof.Machine

/-- A `br` that is taken when f holds of x(A) and x(B) (R127). -/
def branch (f : W64 → W64 → Bool) (a b : XReg) (off : BitVec 14) (s : State) : Out :=
  onFront s fun ag _ => scalarRead s ag [a, b] [] fun fr =>
    .next (s.retire ag (if f (fr.xr a) (fr.xr b) then fr.pc + off.signExtend 64 * 4 else fr.pc + 4))

/-- `br.eq` (R127). -/
def execBrEq (a b : XReg) (off : BitVec 14) (s : State) : Out := branch (fun a b => a == b) a b off s
/-- `br.ne` (R127). -/
def execBrNe (a b : XReg) (off : BitVec 14) (s : State) : Out := branch (fun a b => a != b) a b off s
/-- `br.lt` (R127). -/
def execBrLt (a b : XReg) (off : BitVec 14) (s : State) : Out := branch (fun a b => a.slt b) a b off s
/-- `br.ge` (R127). -/
def execBrGe (a b : XReg) (off : BitVec 14) (s : State) : Out := branch (fun a b => !a.slt b) a b off s
/-- `br.ltu` (R127). -/
def execBrLtu (a b : XReg) (off : BitVec 14) (s : State) : Out := branch (fun a b => a.ult b) a b off s
/-- `br.geu` (R127). -/
def execBrGeu (a b : XReg) (off : BitVec 14) (s : State) : Out := branch (fun a b => !a.ult b) a b off s

/-- `jal`: the link and a jump by words (R128). -/
def execJal (d : XReg) (off : BitVec 22) (s : State) : Out :=
  onFront s fun ag _ => scalarRead s ag [] [d] fun fr =>
    .next ((s.writeX ag d (fr.pc + 4)).retire ag (fr.pc + off.signExtend 64 * 4))

/-- `jalr`: the link and a jump to x(A) as it was before, bits [1:0] cleared (R128). -/
def execJalr (d a : XReg) (off : BitVec 14) (s : State) : Out :=
  onFront s fun ag _ => scalarRead s ag [a] [d] fun fr =>
    .next ((s.writeX ag d (fr.pc + 4)).retire ag ((fr.xr a + off.signExtend 64 * 4) &&& ~~~3#64))

end Sys2Proof.Machine
end

