-- ==== Sys2Proof/Machine/Copy.lean ====
section
/-! DEFINITION. Copies and fills, and the start of engine threads (R212 to R217, R255). A copy moves its bytes in pieces, in
the order in which R213 counts them (log 12). -/
namespace Sys2Proof.Machine

/-! ## Issue -/

/-- Do two address intervals meet? -/
def intervalsMeet (a b : Int × Int) : Bool := decide (a.1 < b.2) && decide (b.1 < a.2)

/-- Does a copy's source overlap its destination, other than in the prefetch case (R213)? That case
is taken for every equal address outside the window, whatever device its page maps (DESIGN CHOICE; log 63). -/
def copyOverlaps : ThreadKind → Bool
  | .copy _ dst src n =>
    !(dst = src && !inWindow dst) && intervalsMeet (dst.toInt, dst.toInt + n) (src.toInt, src.toInt + n)
  | .copy2d _ dst src ds ss h l => intervalsMeet (rowsInterval dst ds h l) (rowsInterval src ss h l)
  | _ => false

/-- The number of bytes of a copy or fill (R213). -/
def copySize : ThreadKind → Nat
  | .copy _ _ _ n | .fill _ _ n _ => n
  | .copy2d _ _ _ _ _ h l => h * l
  | _ => 0

/-- A copy command issues (R213): sizes of 0 and above the limit, and overlapping ranges, complete at once; otherwise
it forks a thread when the core has room for one (R217). -/
def issueCopy (s : State) (a : Nat) (d : XReg) (kind : ThreadKind) (cls : Cls) : Out :=
  let f := s.front a
  let n := copySize kind
  let now (v : W64) : Out := .next ((s.writeX a d v).retire a (f.pc + 4))
  if n = 0 then now 0
  else if 2 ^ 40 ≤ n then now (errorValue 7 0)
  else if copyOverlaps kind then now (errorValue 6 0)
  else
    let t := s.newThread a kind cls
    if !s.threadRoom t then .next s else .next (s.fork a t (some d))

/-- `copy.copy` (R213). -/
def execCopyCopy (d a b : XReg) (cls : Cls) (s : State) : Out :=
  onFront s fun ag _ => scalarRead s ag [d, a, b] [d] fun f =>
    issueCopy s ag d (.copy d (f.xr a) (f.xr b) (f.xr d).toNat) cls

/-- `copy.copy2d` (R213). -/
def execCopyCopy2d (d a b : XReg) (cls : Cls) (s : State) : Out :=
  onFront s fun ag _ => scalarRead s ag [d, a, a + 1, b, b + 1] [d] fun f =>
    let r := copyRows (f.xr d)
    issueCopy s ag d (.copy2d d (f.xr a) (f.xr b) (f.xr (a + 1)) (f.xr (b + 1)) r.1 r.2) cls

/-- `copy.fill` (R213). -/
def execCopyFill (d a b : XReg) (cls : Cls) (s : State) : Out :=
  onFront s fun ag _ => scalarRead s ag [d, a, b] [d] fun f =>
    issueCopy s ag d (.fill d (f.xr a) (f.xr d).toNat (f.xr b)) cls

/-! ## Start -/

/-- ENGINE_THREAD_START (R216, R224, R255): a thread starts when nothing it is ordered after remains. A weight load marks
its set as loading, or fails at once when the set is not the one that it requires (R223). A notify word is written
(R350). -/
def execEngineThreadStart (n : Nat) (s : State) : Out :=
  match s.thread n with
  | none => .next s
  | some t =>
    if t.started || s.forkHeld t.agent t.po t.cls || (t.checkers.any fun g => s.checkerBusy g t.id t.ranges) then .next s
    else
      match t.kind with
      | .wld d _ ws part sp btag =>
        let c := clusterOf t.agent
        let w := (s.cluster c).weights ws
        if wldHeld s t ws then .next s
        else if !partFits w part sp btag then
          .next ((s.setWeights c ws (failedSet s ws w)).endThread t (some d) (errorValue 8 0))
        else .next ((s.setWeights c ws { w with state := .loading }).setThread { t with started := true })
      | .notify _ pa v =>
        match s.notifyWrite t.gen pa v with
        | some s => .next (s.endThread t none 0)
        | none => .next s
      | _ => .next (s.setThread { t with started := true })

/-! ## The bytes of a copy -/

/-- A byte of a copy: its offset, where it comes from, and where it goes. -/
structure CopyByte where
  j : Nat
  src : Option W64
  fill : Byte
  dst : Option W64
  deriving DecidableEq, Repr

/-- Byte j of the pattern of a fill (R213). -/
def patternByte (p : W64) (j : Nat) : Byte := p.extractLsb' (8 * (j % 8)) 8

/-- Byte j of a copy or fill in the order of R213; a prefetch writes nothing. -/
def copyByte (kind : ThreadKind) (j : Nat) : CopyByte :=
  let at_ (va stride : W64) (l : Nat) : W64 := va + BitVec.ofNat 64 (j / l) * stride + BitVec.ofNat 64 (j % l)
  match kind with
  | .copy _ dst src _ => ⟨j, some (src + BitVec.ofNat 64 j), 0, if dst = src then none else some (dst + BitVec.ofNat 64 j)⟩
  | .copy2d _ dst src ds ss _ l => ⟨j, some (at_ src ss l), 0, some (at_ dst ds l)⟩
  | .fill _ dst _ p => ⟨j, none, patternByte p j, some (dst + BitVec.ofNat 64 j)⟩
  | _ => ⟨j, none, 0, none⟩

/-- What a byte of a copy meets: it can move from and to physical addresses, it fails with a code of R214, or it
waits for another device. -/
inductive ByteFound where
  | move (src : Option Nat) (v : Byte) (dst : Option Nat) | fail (code : Nat) | ask (pa : Nat)
  deriving DecidableEq, Repr

/-- The destination of a byte. -/
def State.byteDst (s : State) (t : Thread) (src : Option Nat) (v : Byte) : Option W64 → ByteFound
  | none => .move src v none
  | some va =>
    match s.findThread t .store va 1 with
    | .at_ pa => .move src v (some pa)
    | .fault c => .fail (threadCode c)
    | _ => .fail 3

/-- What a byte of a copy meets; the source is tested first. -/
def State.byteFound (s : State) (t : Thread) (b : CopyByte) : ByteFound :=
  match b.src with
  | none => s.byteDst t none b.fill b.dst
  | some va =>
    match s.findThread t .load va 1 with
    | .at_ pa => s.byteDst t (some pa) (s.readByte pa) b.dst
    | .given _ bs => s.byteDst t none (bs.headD 0) b.dst
    | .zero => .fail 3
    | .fault c => .fail (threadCode c)
    | .ask pa => .ask pa

/-- The token register of a copy or fill. -/
def copyToken : ThreadKind → Option XReg
  | .copy d .. | .copy2d d .. | .fill d .. => some d
  | _ => none

/-- The source rows of a copy: where each starts, and their length. -/
def sourceRows : ThreadKind → List W64 × Nat
  | .copy _ _ src n => ([src], n)
  | .copy2d _ _ src _ ss h l => ((List.range h).map fun y => src + BitVec.ofNat 64 y * ss, l)
  | _ => ([], 0)

/-- Is a physical byte one of the source bytes of a copy (R213)? Each page of each row is asked for the byte at the same
place in it. -/
def State.sourceByte (s : State) (t : Thread) (pa : Nat) : Bool :=
  let q := sourceRows t.kind
  q.1.any fun va => (List.range (q.2 / 4096 + 2)).any fun j =>
    let at_ : W64 := BitVec.ofNat 64 (va.toNat / 4096 * 4096 + 4096 * j + pa % 4096)
    let off := (at_ - va).toNat
    decide (off < q.2) && (match s.findThread t .load at_ 1 with | .at_ x => x = pa | _ => false)

/-- A byte that a piece of a copy writes: its offset, its destination and its value. -/
structure MovedByte where
  j : Nat
  pa : Nat
  v : Byte
  deriving DecidableEq, Repr

/-- The bytes that a piece writes: those below the first failure, and above it those that a free value lets move (R214). A
destination byte that is also a source byte keeps its value where a free value says so (R213). -/
def State.movedBytes (s : State) (t : Thread) (l : List (Nat × ByteFound)) (failAt : Option Nat) : List MovedByte :=
  l.filterMap fun p => match p.2 with
    | .move _ v (some pa) =>
      let above := match failAt with | some f => decide (f < p.1) | none => false
      if (above && !Config.copyMovedAbove s.freeCtr p.1) || (s.sourceByte t pa && Config.copyKeepsShared s.freeCtr p.1) then none
      else some ⟨p.1, pa, v⟩
    | _ => none

/-- Bytes at rising addresses and offsets of one 256-byte block, as the packets of a copy carry them (R340; log 58): the
offset and address of the first, and the bytes. -/
def byteRuns : List MovedByte → List (Nat × Nat × List Byte)
  | [] => []
  | b :: rest =>
    match byteRuns rest with
    | (j, q, bs) :: runs =>
      if j = b.j + 1 && q = b.pa + 1 && q / 256 = b.pa / 256 then (b.j, b.pa, b.v :: bs) :: runs else (b.j, b.pa, [b.v]) :: (j, q, bs) :: runs
    | [] => [(b.j, b.pa, [b.v])]

/-- Writes the bytes of this device; a run whose write stalls is kept and holds back no other (R366). With the state it gives the
bytes that have been written. -/
def State.writeNear (s : State) (t : Thread) (gen : BitVec 2) (l : List MovedByte) : State × List MovedByte :=
  (byteRuns l).foldl (fun (st : State × List MovedByte) r =>
    let u := st.1.writeOr (.thread t.id) gen r.2.1 r.2.2
    (u, if u.stuck.length = st.1.stuck.length then st.2 ++ (l.filter fun b => decide (r.1 ≤ b.j) && decide (b.j < r.1 + r.2.2.length)) else st.2))
    (s, [])

/-- Sends the bytes of other devices (R344). -/
def State.sendFar (s : State) (t : Thread) (l : List MovedByte) : State :=
  (byteRuns l).foldl (fun (s : State) r =>
    s.send (deviceOf r.2.1) (.write r.2.1 r.2.2) (.bytes (.written t.id) r.1 r.2.2.length)) s

/-- The accesses of a piece, one for each line of a row (R268, R329; log 62): the bytes at rising addresses are one. -/
def State.noteCopy (s : State) (t : Thread) (write : Bool) (l : List (W64 × Nat)) : State :=
  let lines := (l.map fun q => q.2 / 64).eraseDups
  lines.foldl (fun (s : State) n =>
    match l.filter fun q => q.2 / 64 = n with
    | [] => s
    | q :: rest => s.noteFar t.agent t.aspace q.1 (if rest.length = 63 then 64 * n else q.2) (if rest.length = 63 then 64 else 1) write) s

/-! ## Moves and completion -/

/-- Notes the access of a byte of a copy that fails (R329, R384). -/
def State.noteByteFault (s : State) (t : Thread) (b : CopyByte) : State :=
  let fails (acc : Acc) (o : Option W64) : Option (W64 × Nat) := o.bind fun va => match s.findThread t acc va 1 with
    | .fault c => some (va, c)
    | _ => none
  match (fails .load b.src).orElse fun _ => fails .store b.dst with
  | some (va, c) => s.noteFault t.agent true t.aspace va 1 c
  | none => s

/-- A piece of a copy: up to `count` bytes from where it has come to, the rest for 0. It reads under the checks of each byte,
adopts what it reads, and writes with the generation that it then has (R213, R214, R280, R369). It ends at the first byte
that fails, or that another device has still to deliver. -/
def copyPiece (s : State) (t : Thread) (count : Nat) : State :=
  let n := copySize t.kind
  let hi := if count = 0 then n else min n (t.pos + count)
  let l : List (Nat × ByteFound) := (List.range (hi - t.pos)).map fun j => (t.pos + j, s.byteFound t (copyByte t.kind (t.pos + j)))
  let fail := l.findSome? fun (p : Nat × ByteFound) => match p.2 with | .fail c => some (p.1, c) | _ => none
  let asks := (l.filterMap fun (p : Nat × ByteFound) => match p.2 with | .ask pa => some ⟨p.1, pa, 0⟩ | _ => none).filter fun b =>
    match fail with | some (f, _) => decide (b.j < f) | none => true
  match asks with
  | a :: _ =>
    let s := (byteRuns asks).foldl (fun (s : State) r => s.askFor (.thread t.id) r.2.1 r.2.2.length) s
    go s (l.filter fun p => decide (p.1 < a.j)) none a.j
  | [] => go s l fail hi
where
  /-- The bytes up to `last` move; `fail` is the first that fails. -/
  go (s : State) (l : List (Nat × ByteFound)) (fail : Option (Nat × Nat)) (last : Nat) : State :=
    let gen := l.foldl (fun (g : BitVec 2) (p : Nat × ByteFound) => match p.2 with
      | .move (some pa) _ _ => s.newest g (s.genByte pa)
      | .move none _ _ => (match t.kind with | .fill .. => g | _ => s.newest g s.live)
      | _ => g) t.gen
    let out := s.movedBytes t l (fail.map (·.1))
    let w := s.writeNear t gen (out.filter fun b => !isDomain b.pa)
    let s := w.1.healWhole gen fun a => w.2.any fun b => b.pa = a
    let s := s.sendFar t (out.filter fun b => isDomain b.pa)
    let reads := l.filterMap fun p => match p.2, (copyByte t.kind p.1).src with
      | .move (some pa) _ _, some va => some (va, pa)
      | _, _ => none
    let s := s.noteCopy t false reads
    let s := s.noteCopy t true (w.2.filterMap fun b => (copyByte t.kind b.j).dst.map fun va => (va, b.pa))
    let s := match fail with | some f => s.noteByteFault t (copyByte t.kind f.1) | none => s
    let s := if l.any fun p => match p.2 with | .move none _ _ => true | _ => false then s.dropArrived (.thread t.id) else s
    s.setThread { t with gen := gen, pos := last, err := fail.map fun f => (f.2, f.1) }

/-- Is a copy at its end: all bytes moved, or one has failed? -/
def Thread.moved (t : Thread) : Bool := t.err.isSome || decide (copySize t.kind ≤ t.pos)

/-- A move of a thread by n bytes, as far as it may go for n = 0. -/
def State.moveThread (s : State) (id n : Nat) : State :=
  match s.thread id with
  | none => s
  | some t => if !t.started || (copyToken t.kind).isNone || t.moved then s else copyPiece s t n

/-- The lowest failing offset of a copy: of the failure that it met, and of the writes that another device has answered with
a status (R214, R342). -/
def State.copyError (s : State) (t : Thread) : Option (Nat × Nat) :=
  let far := s.arrived.filterMap fun r => match r.reply with
    | .status n => if r.owner = .written t.id ∧ n ≠ 0 then some (threadCode (remoteCode n), r.addr) else none
    | .data _ => none
  far.foldl (fun o e => match o with | some x => if e.2 < x.2 then some e else some x | none => some e) t.err

/-- COPY_COMPLETE (R213, R214): what is left to move moves, and the copy ends when every write has performed or been answered. -/
def execCopyComplete (n : Nat) (s : State) : Out :=
  let s := s.moveThread n 0
  match s.thread n with
  | none => .next s
  | some t =>
    if !t.started || (copyToken t.kind).isNone || !t.moved then .next s
    else if s.isStuck (.thread t.id) || s.requests.any (Request.readBy (.written t.id)) then .next s
    else
      .next (s.endThread t (copyToken t.kind) (match s.copyError t with
        | some (c, f) => errorValue c f
        | none => BitVec.ofNat 64 (copySize t.kind)))

end Sys2Proof.Machine
end

