-- ==== Sys2Proof/Machine/Launch.lean ====
section
/-! DEFINITION. Launch records, the queues, placement and completion (R300 to R311, R143). -/
namespace Sys2Proof.Machine

/-! ## Records -/

/-- The record in 64 bytes (R300). -/
def LaunchRec.ofBytes (bs : List Byte) : LaunchRec :=
  let w (j : Nat) : W64 := BitVec.ofNat 64 (ofBytesLE ((bs.drop (8 * j)).take 8))
  { entry := w 0, dentry := w 1, arg := w 2, cbaddr := w 3, aftaddr := w 4, aftval := w 5, aspace := w 6, ctrl := w 7 }

/-- May an address be an ENTRY (R301)? -/
def entryOk (v : W64) : Bool := v ≠ 0 && v.extractLsb' 0 2 = 0 && canonical v

/-- Clusters with enough cores of at least `need` unretired lane groups (R301). -/
def State.clustersWith (s : State) (cores need : Nat) : Nat :=
  ((List.range 64).filter fun c =>
    decide (cores ≤ ((List.range 4).filter fun q => decide (need ≤ (s.core (4 * c + q)).unretired)).length)).length

/-- The tests of R301 that do not depend on who sent the record. -/
def State.recordOk (s : State) (r : LaunchRec) : Bool :=
  entryOk r.entry && (r.dentry = 0 || entryOk r.dentry) && r.cbaddr ≠ 0 && r.cbaddr.toNat % 64 = 0 &&
    r.aftaddr.toNat % 8 = 0 && r.aspace.extractLsb' 32 16 = 0 && r.ctrl.extractLsb' 0 13 = 0 && decide (1 ≤ r.lanes) &&
    decide (r.lanes ≤ 8) && decide (r.contexts * r.lanes ≤ 8) &&
    decide (r.clusters ≤ s.clustersWith r.cores (r.contexts * r.lanes))

/-- The tests of R301 and R302 on a record that an agent sends: a user-mode issuer may use only its own ASPACE, no PRIO
above that of its launch, and no SUP. -/
def State.issuerOk (s : State) (a : Nat) (r : LaunchRec) : Bool :=
  let f := s.front a
  f.sup || (r.aspace = f.aspace && !r.sup &&
    (match s.launchOf a with | some p => decide (r.prio ≤ p.record.prio) | none => true))

/-! ## Acceptance -/

/-- Replaces queue n. -/
def State.setQueue (s : State) (n : Nat) (l : List Queued) : State := { s with queues := s.queues.setIfInBounds n l }

/-- The records of queue n. -/
def State.queue (s : State) (n : Nat) : List Queued := s.queues.getD n []

/-- The status −n in x(D) (R143, R347). -/
def statusWord (n : Nat) : W64 := 0 - BitVec.ofNat 64 n

/-- Reads the 64 bytes at an address as a load of a class (R121, R143, R348, R360): it traps, waits for older accesses or
for another device, or goes on with the bytes. Bytes that have been asked for need no route any more (R342). -/
def readBlock (s : State) (a : Nat) (cls : Cls) (va : W64) (k : List Byte → State → Out) : Out :=
  let f := s.front a
  let trap (s : State) (c : Nat) : Out := s.accessTrap a va 64 { code := c, tval := va }
  match s.checkFor (.front a) a false f.aspace f.sup .load va 64 64 with
  | .error c => trap s c
  | .ok (pa, io) =>
    let x : Access := ⟨.load 64 false 0, f.po, f.pc, va, pa, cls, 0, none, false⟩
    if io then trap s 7
    else if s.accBlocked a f.acc x then .next s
    else if isDomain pa then
      match s.arrivedFor (.front a) pa 64 with
      | some (.data bs) => k bs ((s.adoptAccess a x s.live).noteLookup a va)
      | some (.status n) => if s.vecBusy a then .next s else trap (s.dropArrived (.front a)) (remoteCode n)
      | none => .next (s.askFor (.front a) pa 64)
    else if s.uecc pa 64 then trap s 10
    else k (bytesLE 64 (s.readLE pa 64)) ((s.adoptAccess a x (s.genRange pa 64)).noteFront a va pa 64 false)

/-! ## The device's own reads (log 24) -/

/-- What a read of the device for a launch finds. -/
def State.devRead (s : State) (owner : Nat) (aspace : W64) (sup : Bool) (va : W64) (n : Nat) : Found :=
  s.findBytes (.device owner) deviceAgent true aspace sup .load va n n

/-- The number that a read of n bytes finds. -/
def State.foundValue (s : State) (n : Nat) : Found → Nat
  | .at_ pa => s.readLE pa n
  | .given _ bs => ofBytesLE bs
  | _ => 0

/-- Does a request of the device for an owner wait for its answer? -/
def State.devWaits (s : State) (owner : Nat) : Bool :=
  s.requests.any fun r => match r.waiter with | .bytes (.device n) _ _ => n = owner | _ => false

/-! ## Eligibility (R305) -/

/-- The record with a sequence number that waits in a queue. -/
def State.queued (s : State) (seq : Nat) : Option Queued := (s.queues.toList.flatMap id).find? fun q => q.seq = seq

/-- Drops a record from its queue. -/
def State.unqueue (s : State) (seq : Nat) : State :=
  { s with queues := s.queues.map fun (l : List Queued) => l.filter fun q => q.seq ≠ seq }

/-- A record becomes eligible now. -/
def State.makeEligible (s : State) (seq : Nat) : State :=
  { s with queues := s.queues.map fun (l : List Queued) => l.map fun q => if q.seq = seq then { q with eligible := some s.time } else q }

/-- A launch fails before placement: its gang fault word receives the code, and LAUNCH_END completes it (R305, R310,
R311). -/
def State.failUnplaced (s : State) (q : Queued) (code : Nat) : State :=
  let p : Placed :=
    { seq := q.seq, record := q.record, eligible := s.time, members := [], clusters := [], fatal := true, gang := none,
      stopping := false, savePos := 0, saved := none, restoring := none, last := none }
  ({ (s.unqueue q.seq) with placed := s.placed ++ [p] }).writeGang p (gangWord 0 (BitVec.ofNat 29 code) false true)

/-- A read of an after-dependency has found its word at a line, and no other read is due. -/
def State.watch (s : State) (seq : Nat) (line : Option Nat) : State :=
  { s with queues := s.queues.map fun (l : List Queued) => l.map fun q => if q.seq = seq then { q with line := line, due := false } else q }

/-- One read of an after-dependency word (R305). -/
def State.eligibilityRead (s : State) (seq : Nat) : State :=
  match s.queued seq with
  | none => s
  | some q =>
    if q.eligible.isSome then s
    else
      let f := s.devRead seq q.record.aspace q.record.sup q.record.aftaddr 8
      match f with
      | .fault c => (s.dropArrived (.device seq)).failUnplaced q c
      | .ask pa => s.askFor (.device seq) pa 8
      | _ =>
        let t := (s.dropArrived (.device seq)).watch seq (f.pa?.map lineOf)
        let t := match f with | .at_ pa => t.noteBytes pa 8 false | _ => t
        if q.record.aftval.toNat ≤ s.foundValue 8 f then t.makeEligible seq else t

/-- The reads of after-dependencies that are due (R305). -/
def State.readDue (s : State) : State :=
  ((s.queues.toList.flatMap id).filter (·.due)).foldl (fun (s : State) q => s.eligibilityRead q.seq) s

/-- LAUNCH_ELIGIBILITY_READ (R305). -/
def execLaunchEligibilityRead (seq : Nat) (s : State) : Out := .next (s.eligibilityRead seq)

/-- AFTDEP_POLL_TIMER (R305). -/
def execAftdepPollTimer (seq : Nat) (s : State) : Out := .next (s.eligibilityRead seq)

/-- A record is accepted: it takes the next sequence number, and is eligible at once without an after-dependency, whose word
is read now otherwise (R304, R305). -/
def State.accept (s : State) (r : LaunchRec) : State :=
  let s' := { (s.setQueue r.prio (s.queue r.prio ++
      [⟨s.launchSeq, r, if r.aftaddr = 0 then some s.time else none, none, none, decide (r.aftaddr ≠ 0)⟩])) with
    launchSeq := s.launchSeq + 1 }
  s'.eligibilityRead s.launchSeq

/-- The tests at the device that queues a record, in the order of R348 (4 to 7), and its status n for −n: queues not
ready, a QUEUE other than PRIO, an invalid record, a full queue (R301, R304, R347, R399). -/
def State.submit (s : State) (r : LaunchRec) (queue : Nat) : State × Nat :=
  if !s.ready.getLsbD 6 then (s, 1)
  else if queue ≠ r.prio || !s.recordOk r then (s, 2)
  else if 256 ≤ (s.queue r.prio).length then (s, 1)
  else (s.accept r, 0)

/-- `sys.launch` (R143). -/
def execSysLaunch (d ra : XReg) (s : State) : Out :=
  onFront s fun a _ => scalarRead s a [ra] [d] fun f =>
    readBlock s a 15 (f.xr ra) fun bs s =>
      let r := LaunchRec.ofBytes bs
      let st := if s.issuerOk a r then s.submit r r.prio else (s, 2)
      .next ((st.1.writeX a d (statusWord st.2)).retire a (f.pc + 4))

/-! ## The head (R306) -/

/-- The effective priority of an eligible record (R306). -/
def State.effective (s : State) (r : LaunchRec) (since : W64) : Nat :=
  if s.age = 0 then r.prio else min 7 (r.prio + (s.time - since).toNat / s.age.toNat)

/-- The eligible records of a queue with their effective priority, in queue order. -/
def State.eligibles (s : State) (n : Nat) : List (Nat × Queued) :=
  (s.queue n).filterMap fun q => q.eligible.map fun t => (s.effective q.record t, q)

/-- The candidate of a queue: the first record of the highest effective priority. A returned record stands before the
others of its PRIO (R312). -/
def firstBest (l : List (Nat × Queued)) : Option (Nat × Queued) :=
  l.foldl (fun (o : Option (Nat × Queued)) x => match o with
    | none => some x
    | some y => if y.1 < x.1 then some x else some y) none

/-- The record that R306 chooses: the highest effective priority, then the lowest sequence number. -/
def State.best (s : State) : Option Queued :=
  (((List.range 8).filterMap fun n => firstBest (s.eligibles n)).foldl
    (fun (o : Option (Nat × Queued)) x => match o with
      | none => some x
      | some y => if y.1 < x.1 ∨ (x.1 = y.1 ∧ x.2.seq < y.2.seq) then some x else some y) none).map (·.2)

/-- The head: the record that has been chosen, until it is placed (R306, R307). -/
def State.head (s : State) : Option Queued :=
  match s.chosen.bind s.queued with
  | some q => some q
  | none => s.best

/-- A head is chosen as soon as a record is eligible (R306). -/
def State.choose (s : State) : State :=
  if (s.chosen.bind s.queued).isSome then s else { s with chosen := s.best.map (·.seq) }

/-! ## Units (R307) -/

/-- Is an agent idle, when the launches named in `ign` are thought away? -/
def State.idleAgent (s : State) (ign : List Nat) (a : Nat) : Bool :=
  match (s.front a).launch with
  | none => true
  | some l => ign.contains l

/-- The sum of LANES over the contexts placed on a core. -/
def State.lanesPlaced (s : State) (ign : List Nat) (g : Nat) : Nat :=
  ((List.range 4).map fun q =>
    if s.idleAgent ign (4 * g + q) then 0 else ((s.launchOf (4 * g + q)).map fun p => p.record.lanes).getD 0).sum

/-- The lane groups that core b of cluster a needs: LANES for each context, or the larger number that it held at its
stop (R307, R324). -/
def Queued.demand (q : Queued) (a b : Nat) : Nat :=
  match q.saved with
  | none => q.record.contexts * q.record.lanes
  | some v =>
    ((List.range q.record.contexts).map fun k =>
      max q.record.lanes (v.grants.getD ((a * q.record.cores + b) * q.record.contexts + k) 0)).sum

/-- The contexts that a record takes on one cluster as its ordinal a, the first that qualify (R307). -/
def State.pickCores (s : State) (ign : List Nat) (q : Queued) (a c : Nat) : Option (List Nat) :=
  let r := q.record
  let pick := (List.range 4).foldl
    (fun (st : List Nat × Nat) x =>
      let g := 4 * c + x
      let idle := ((List.range 4).map fun k => 4 * g + k).filter (s.idleAgent ign)
      if st.2 < r.cores ∧ r.contexts ≤ idle.length ∧ s.lanesPlaced ign g + q.demand a st.2 ≤ (s.core g).unretired then
        (st.1 ++ idle.take r.contexts, st.2 + 1)
      else st) ([], 0)
  if pick.2 = r.cores && (s.cluster c).ready then
    (if r.dentry = 0 || s.idleAgent ign (droneOf c) then some pick.1 else none)
  else none

/-- The members and clusters that a record would take, when the launches in `ign` are thought away; none when units for
all of it are not idle (R307, R399). -/
def State.fits (s : State) (q : Queued) (ign : List Nat) : Option (List Nat × List Nat) :=
  let pick := (List.range 64).foldl
    (fun (st : List Nat × List Nat) c =>
      if q.record.clusters ≤ st.2.length then st
      else
        match s.pickCores ign q st.2.length c with
        | some l => (st.1 ++ l, st.2 ++ [c])
        | none => st) ([], [])
  if pick.2.length = q.record.clusters then some pick else none

/-! ## Placement (R25, R307) -/

/-- The agents of a launch: its contexts, then its drones, in placement order. -/
def Placed.agents (p : Placed) : List Nat := p.members ++ (if p.record.dentry = 0 then [] else p.clusters.map droneOf)

/-- An agent takes the reset values of kernel lifetime, with the values of the record (R25, R302). TVEC is kept (R26). -/
def Front.place (old : Front) (base : Front) (r : LaunchRec) (pc : W64) (gen : BitVec 2) (seq m : Nat) : Front :=
  { base with
    x := base.x.set 3 r.arg, pc := pc, aspace := r.aspace, curgen := gen, tvec := old.tvec,
    status := base.status ||| (BitVec.ofBool r.sup).zeroExtend 5, run := .running, launch := some seq, member := m }

/-- A context is placed (R25). -/
def State.placeContext (s : State) (r : LaunchRec) (seq : Nat) (k m : Nat) : State :=
  (s.setFront k ((s.front k).place Front.reset r r.entry s.live seq m)).setVec k Vec.reset

/-- A drone is placed; the slots, quarters, tiles and bellows of its cluster are emptied (R25, R218). -/
def State.placeDrone (s : State) (r : LaunchRec) (seq : Nat) (c m : Nat) : State :=
  let a := droneOf c
  let s := s.setFront a ((s.front a).place Front.resetDrone r r.dentry s.live seq m)
  let s := s.dropLocators c fun l => locKind l ≠ 0
  s.setCluster c { s.cluster c with
    fd := Vector.replicate 4 { Slot.reset with gen := s.live }, ac := Vector.replicate 2 { Tile.reset with gen := s.live }
    belfull := false, queue := [], mma := none, stalled := false }

/-- The agents of a resumed launch do not issue before its restart; those that had halted stay so (R324, log 23). -/
def State.holdForRestart (s : State) (p : Placed) (v : Saved) : State :=
  p.agents.zipIdx.foldl (fun (s : State) x =>
    let f := s.front x.1
    let s := s.setFront x.1 { f with stopped := true, run := if v.halted.getD x.2 false then .halted else f.run }
    if isDrone x.1 || v.halted.getD x.2 false then s
    else
      let g := s.core (coreOf x.1)
      s.setCore (coreOf x.1) { g with restart := g.restart.put (ctxOf x.1) (v.grants.getD x.2 0) }) s

/-- A record is placed on its units (R307): its agents start under R25, and the arbiter writes LANEPART before any of
them issues (R334). -/
def State.place (s : State) (q : Queued) (members clusters : List Nat) : State :=
  let r := q.record
  let p : Placed :=
    { seq := q.seq, record := r, eligible := q.eligible.getD s.time, members := members, clusters := clusters,
      fatal := (q.saved.map (·.fatal)).getD false, gang := none, stopping := false, savePos := 0, saved := none,
      restoring := q.saved, last := none }
  let s := ({ (s.unqueue q.seq) with placed := s.placed ++ [p], chosen := none }).countDevice 0x48 1
  let s := members.zipIdx.foldl (fun (s : State) x => s.placeContext r q.seq x.1 x.2) s
  let s := if r.dentry = 0 then s else clusters.zipIdx.foldl (fun (s : State) x => s.placeDrone r q.seq x.1 x.2) s
  let s := match q.saved with | some v => s.holdForRestart p v | none => s
  ((members.map coreOf).eraseDups).foldl (fun (s : State) g => s.arbitrate g) s

/-- LAUNCH_PLACE (R307): the head is placed when units for all of it are idle. -/
def execLaunchPlace (s : State) : Out :=
  match s.head with
  | none => .next s
  | some q =>
    match s.fits q [] with
    | none => .next s
    | some (ms, cs) => .next (s.place q ms cs)

/-! ## The end of a launch (R310) -/

/-- The placed launch with a sequence number. -/
def State.placedBy (s : State) (seq : Nat) : Option Placed := s.placed.find? fun p => p.seq = seq

/-- Have all agents of a launch halted? -/
def State.allHalted (s : State) (p : Placed) : Bool := p.agents.all fun a => decide ((s.front a).run = .halted)

/-- The launch's units become idle (R310, R317). -/
def State.release (s : State) (p : Placed) : State :=
  let s := s.dropArrived (.device p.seq)
  let s := p.agents.foldl (fun (s : State) a =>
    s.setFront a { s.front a with
      run := .idle, launch := none, preempt := false, stopped := false, frozen := false, freezing := false }) s
  { s with placed := s.placed.filter fun x => x.seq ≠ p.seq }

/-- The launch ends: its units become idle and its fences are lifted (R310, R311). -/
def State.endLaunch (s : State) (p : Placed) : State :=
  let s := s.release p
  { s with cores := s.cores.map fun (x : Nat × Core) =>
      if x.2.fence.contains p.seq then (x.1, { x.2 with fence := x.2.fence.filter (· ≠ p.seq) }) else x }

/-- Does an answer carry an error (R342, R347)? -/
def NgReplyBad : NgReply → Bool
  | .status n => n ≠ 0
  | .data _ => false

/-- The answer of another device to the write of the gang fault word; none when there is none (R310, R311). -/
def State.gangAnswer (s : State) (p : Placed) : Option State :=
  match s.cbTarget p.record 8 with
  | none => none
  | some pa =>
    (s.arrivedFor (.device p.seq) pa 8).map fun r =>
      let s := s.dropArrived (.device p.seq)
      if NgReplyBad r then s.countDevice 0x4B 1
      else match r with
        | .data bs => if ofBytesLE bs = 0 then s.fire 3 else s
        | .status _ => s.fire 3

/-- The generation of the agent of a launch that halted last (R369); the live one where none has halted. -/
def State.lastGen (s : State) (p : Placed) : BitVec 2 := (p.last.map fun a => (s.front a).curgen).getD s.live

/-- The completion-word add (R310): here, or as a request to the device that holds the word. Its generation is that of the
launch's last agent when it performs, or newer by the first row of R369. -/
def State.completionAdd (s : State) (p : Placed) : State :=
  match s.cbTarget p.record 0 with
  | none => (s.countDevice 0x4B 1).endLaunch p
  | some pa =>
    if isDomain pa then
      match s.arrivedFor (.device p.seq) pa 8 with
      | some r => (if NgReplyBad r then s.countDevice 0x4B 1 else s).endLaunch p
      | none => s.send (deviceOf pa) (.amo pa 1 p.record.cwinc 0) (.bytes (.device p.seq) pa 8)
    else
      let sum := BitVec.ofNat 64 (s.readLE pa 8) + p.record.cwinc
      match s.write none (s.lineGen pa (s.newest (s.lastGen p) (s.genRange pa 8))) pa (bytesLE 8 sum.toNat) with
      | some t => (t.noteBytes pa 8 true).endLaunch p
      | none => s

/-- LAUNCH_END (R310): when every agent has halted and the gang fault word stands, CWINC is added to the completion
word, and the units become idle. -/
def execLaunchEnd (seq : Nat) (s : State) : Out :=
  match s.placedBy seq with
  | none => .next s
  | some p =>
    if p.stopping || !s.allHalted p || s.devWaits seq then .next s
    else
      match p.gang with
      | some w => .next (s.writeGang p w)
      | none =>
        match s.gangAnswer p with
        | some t => .next t
        | none => .next (s.completionAdd p)

end Sys2Proof.Machine
end

