-- ==== Sys2Proof/Machine/Fab.lean ====
section
/-! DEFINITION. Class `fab`: enqueue, anchored add and notify (R346 to R350). -/
namespace Sys2Proof.Machine

/-! ## `fab.enq` (R348) -/

/-- Has an earlier access of an agent not performed at domain scope (R132, R276, R348)? -/
def State.domainBusy (s : State) (a : Nat) : Bool :=
  !(s.front a).acc.isEmpty || (s.requests.any fun q => q.storeOf a || q.entryBy a) || s.fenceWaitsSide a (fun _ => true)

/-- DEV of a `fab.enq` operand. -/
def enqDev (x : W64) : Nat := (x.extractLsb' 0 11).toNat
/-- QUEUE of a `fab.enq` operand. -/
def enqQueue (x : W64) : Nat := (x.extractLsb' 16 3).toNat
/-- Are the other bits of a `fab.enq` operand zero? -/
def enqOk (x : W64) : Bool := x.extractLsb' 11 5 = 0 && x.extractLsb' 19 45 = 0

/-- The status that is decided without sending a packet, in the order of R348; none when the packet is sent. -/
def State.enqLocal (s : State) (a : Nat) (x : W64) (r : LaunchRec) : Option (State × Nat) :=
  if !enqOk x || !s.issuerOk a r then some (s, 2)
  else if enqDev x = s.flash.deviceId then some (s.submit r (enqQueue x))
  else if !s.routed (enqDev x) then some (s, 5)
  else none

/-- `fab.enq` (R348). -/
def execFabEnq (d ra rb : XReg) (cls : Cls) (s : State) : Out :=
  onFront s fun a _ => scalarRead s a [ra, rb] [d] fun f =>
    readBlock s a cls (f.xr ra) fun bs t =>
      if s.domainBusy a then .next s
      else
        let x := f.xr rb
        match t.enqLocal a x (LaunchRec.ofBytes bs) with
        | some r => .next ((r.1.writeX a d (statusWord r.2)).retire a (f.pc + 4))
        | none =>
          let t := t.send (enqDev x) (.enqueue (enqQueue x) bs) (.enq a d)
          .next ((t.setFront a ((t.front a).setPend d)).retire a (f.pc + 4))

/-! ## `fab.add96` (R349) -/

/-- The operand of `fab.add96` as the 16 bytes of a slot (R52, R349). -/
def add96Operand (lo hi : W64) : BitVec 128 := hi.extractLsb' 63 1 ++ 0#21 ++ hi.extractLsb' 32 10 ++ hi.extractLsb' 0 32 ++ lo

/-- `fab.add96` (R349). -/
def execFabAdd96 (d ra rb : XReg) (cls : Cls) (s : State) : Out :=
  onFront s fun a _ => scalarRead s a [ra, rb, rb + 1] [d] fun f =>
    let va := f.xr ra
    let hi := f.xr (rb + 1)
    let trap (c : Nat) : Out := s.accessTrap a va 16 { code := c, write := true, tval := va }
    if hi.extractLsb' 42 21 ≠ 0 then .next ((s.writeX a d (statusWord 2)).retire a (f.pc + 4))
    else
      match s.checkVa a false f.aspace f.sup .store va 16 with
      | .error c => trap c
      | .ok (pa, io) =>
        let own := isDomain pa && deviceOf pa = s.flash.deviceId
        if io || slotOf pa ≠ 0 then trap 8
        else if isSp pa && s.fenced a pa then trap 11
        else if isDomain pa && !own && !s.routed (deviceOf pa) then
          .next (((s.noteLookup a va).writeX a d (statusWord 5)).retire a (f.pc + 4))
        else
          let pa := if own then dataOf pa else pa
          .next ((s.noteLookup a va).fork a (s.newThread a (.add96 d va pa (add96Operand (f.xr rb) hi)) cls) (some d))

/-- Adds an anchored value into a slot of this device under a generation, as no late write: the status n for −n (R53, R347,
R349, R369). None when the write stalls (R366). -/
def State.addSlot (s : State) (gen : BitVec 2) (pa : Nat) (v : BitVec 128) : Option (State × Nat) :=
  if !isSp pa && decide (s.dataLimit ≤ dataOf pa) then some (s, 6)
  else if s.uecc pa 16 then some (s.noteBytes pa 16 false, 4)
  else
    let old := Anchored.ofBits (BitVec.ofNat 128 (s.readLE pa 16))
    let op := Anchored.ofBits v
    if old.e ≠ op.e then some (s.noteBytes pa 16 false, 3)
    else (s.write none (s.lineGen pa gen) pa (bytesLE 16 (add96 old op).bits.toNat)).map fun s => (s.noteBytes pa 16 true, 0)

/-- ADD96_PERFORM (R349, R369): the thread updates the slot at its home, or sends the operand there. -/
def execAdd96Perform (n : Nat) (s : State) : Out :=
  match s.thread n with
  | none => .next s
  | some t =>
    match t.kind with
    | .add96 d _ pa v =>
      if !t.started || t.sent.isSome then .next s
      else if isDomain pa then
        .next ((s.setThread { t with sent := some s.rseq }).send (deviceOf pa) (.add96 pa v) (.thread t.id))
      else
        let gen := s.newest t.gen (s.genRange pa 16)
        match s.addSlot gen pa v with
        | some (u, st) => .next (u.endThread { t with gen := if st = 0 then s.lineGen pa gen else gen } (some d) (statusWord st))
        | none => .next s
    | _ => .next s

/-! ## `fab.notify` (R350) -/

/-- `fab.notify` (R350): the checks of an 8-byte store, a word without a route dropped, else a thread of its own. -/
def execFabNotify (ra rb : XReg) (cls : Cls) (s : State) : Out :=
  onFront s fun a _ => scalarRead s a [ra, rb] [] fun f =>
    let va := f.xr ra
    let trap (c : Nat) : Out := s.accessTrap a va 8 { code := c, write := true, tval := va }
    match s.checkVa a false f.aspace f.sup .store va 8 with
    | .error c => trap c
    | .ok (pa, io) =>
      if io then trap 8
      else if isDomain pa && (pa / 2 ^ 44) % 2 = 0 && deviceOf pa ≠ s.flash.deviceId && !s.routed (deviceOf pa) then
        .next (((s.noteLookup a va).countDevice 0x44 1).retire a (f.pc + 4))
      else
        match s.checkOwn a .store va 8 with
        | .error c => trap c
        | .ok (pa, _) => .next ((s.noteLookup a va).fork a (s.newThread a (.notify va pa (f.xr rb)) cls) none)

end Sys2Proof.Machine
end

