-- ==== Sys2Proof/Machine/Fabric.lean ====
section
/-! DEFINITION. Packets of the Ngurid fabric that arrive, their replies, replay and lost routes (R339 to R345, R351,
R353, R399). -/
namespace Sys2Proof.Machine

/-! ## Replies (R342) -/

/-- A reply leaves, in packets of at most five flits (R340). -/
def State.reply (s : State) (src rseq : Nat) : NgReply → State
  | .data bs =>
    if bs.length ≤ 256 then s.post src rseq (.response (.data bs))
    else (packetParts bs.length bs).foldl (fun (s : State) l => s.post src rseq (.response (.data l))) s
  | r => s.post src rseq (.response r)

/-- Replies to a request and keeps the reply among the last 1,024 of its source. -/
def State.respond (s : State) (src rseq : Nat) (reply : NgReply) : State :=
  let kept := Store.get [] s.responses src
  { (s.reply src rseq reply) with responses := s.responses.put src ((kept ++ [(rseq, reply)]).drop (kept.length - 1023)) }

/-- A request packet arrives (R342): a duplicate is answered from the kept replies; otherwise it performs once, unless
it stalls. A device in reset answers nothing. -/
def ngRequest (s : State) (src rseq : Nat) (run : Option (State × NgReply)) : Out :=
  if s.inReset then .next s
  else
    match (Store.get [] s.responses src).find? fun p => p.1 = rseq with
    | some p => .next (s.reply src rseq p.2)
    | none =>
      match run with
      | some (t, r) => .next (t.respond src rseq r)
      | none => .next s

/-- The status of a request to n bytes of main memory, before its data is looked at: memory that is not ready, or not
backed (R267, R347, R399). -/
def State.homeStatus (s : State) (data n : Nat) : Nat :=
  if !s.ready.getLsbD 3 then 4 else if s.dataLimit < data + n then 6 else 0

/-! ## Requests that arrive (R344, R349 to R351, R356) -/

/-- The status of a request to several runs of bytes: that of the first that has one. -/
def State.runsStatus (s : State) (runs : List (Nat × Nat)) : Nat :=
  ((runs.map fun q => s.homeStatus (dataOf q.1) q.2).find? (· ≠ 0)).getD 0

/-- NG_READ_REQUEST (R344): a read of bytes from an address on, or of the runs of one MX segment, which are read together (R284). -/
def execNgReadRequest (src rseq : Nat) (run : Nat × Nat) (more : List (Nat × Nat)) (s : State) : Out :=
  let runs := run :: more
  ngRequest s src rseq <|
    if s.runsStatus runs ≠ 0 then some (s, .status (s.runsStatus runs))
    else
      let t := runs.foldl (fun (s : State) q => s.noteBytes (dataOf q.1) q.2 false) s
      some (t, if runs.any fun q => s.uecc (dataOf q.1) q.2 then .status 4
        else .data (runs.flatMap fun q => bytesLE q.2 (s.readLE (dataOf q.1) q.2)))

/-- A write performs with the live generation, the bytes of an MX segment together (R284, R356). None when it stalls. -/
def State.ngWritten (s : State) (addr : Nat) : NgWritten → Option State
  | .run bytes => (s.write none s.live (dataOf addr) bytes).map fun t => t.noteBytes (dataOf addr) bytes.length true
  | .segment l =>
    (s.writePatches none s.live (l.map fun q => ⟨dataOf (addr + q.1), q.2.1, q.2.2⟩)).map fun t =>
      ((l.map fun q => dataOf (addr + q.1) / 64).eraseDups).foldl (fun (t : State) n => t.noteBytes (64 * n)
        (if (l.filter fun q => dataOf (addr + q.1) / 64 = n && decide (q.2.2 = 0xFF)).length = 64 then 64 else 1) true) t

/-- The runs of bytes that a write covers. -/
def ngRuns (addr : Nat) : NgWritten → List (Nat × Nat)
  | .run bytes => [(addr, bytes.length)]
  | .segment l => l.map fun q => (addr + q.1, 1)

/-- NG_WRITE (R344, R356): the packets of a write have arrived, and it performs. -/
def execNgWrite (src rseq addr : Nat) (what : NgWritten) (s : State) : Out :=
  ngRequest s src rseq <|
    if s.runsStatus (ngRuns addr what) ≠ 0 then some (s, .status (s.runsStatus (ngRuns addr what)))
    else (s.ngWritten addr what).map fun t => (t, .status 0)

/-- NG_AMO (R124, R344): the reply holds the old bytes. -/
def execNgAmo (src rseq addr : Nat) (aop : BitVec 5) (op expect : W64) (s : State) : Out :=
  let a := dataOf addr
  let n := if aop.getLsbD 4 then 4 else 8
  ngRequest s src rseq <|
    if s.homeStatus a n ≠ 0 then some (s, .status (s.homeStatus a n))
    else if s.uecc a n then some (s.noteBytes a n false, .status 4)
    else
      let old := s.readLE a n
      match amoNew aop old op expect with
      | none => some (s.noteBytes a n false, .data (bytesLE n old))
      | some new => (s.write none s.live a (bytesLE n new)).map fun t => (t.noteBytes a n true, .data (bytesLE n old))

/-- NG_ADD96 (R349). -/
def execNgAdd96 (src rseq addr : Nat) (v : BitVec 128) (s : State) : Out :=
  ngRequest s src rseq <|
    if s.homeStatus (dataOf addr) 16 ≠ 0 then some (s, .status (s.homeStatus (dataOf addr) 16))
    else (s.addSlot s.live (dataOf addr) v).map fun r => (r.1, .status r.2)

/-- NG_NOTIFY (R350): the word is written, or dropped and counted. -/
def execNgNotify (src rseq addr : Nat) (v : W64) (s : State) : Out :=
  let a := dataOf addr
  ngRequest s src rseq <|
    if s.homeStatus a 8 ≠ 0 then some (s.countDevice 0x44 1, .status (s.homeStatus a 8))
    else if s.uecc a 8 then some (s.countDevice 0x44 1, .status 4)
    else (s.write none s.live a (bytesLE 8 v.toNat)).map fun t => (t.noteBytes a 8 true, .status 0)

/-- NG_ENQUEUE (R301, R302, R348, R351): a SUP record from a host needs a managing host; a device has tested the issuer of
its `fab.enq`. -/
def execNgEnqueue (src rseq : Nat) (host : Bool) (queue : Nat) (bytes : List Byte) (s : State) : Out :=
  ngRequest s src rseq <|
    let r := LaunchRec.ofBytes bytes
    let res := s.submit r queue
    if s.ready.getLsbD 6 && host && r.sup && !s.flash.hosts.contains src then some (s, .status 2)
    else some (res.1, .status res.2)

/-! ## Responses (R342, R344) -/

/-- Delivers a reply to a scalar access that waits (R344): a value, or the trap of the destination's error. None while
the trap waits for older vector instructions (R135). -/
def State.answerAccess (s : State) (a rseq : Nat) (reply : NgReply) : Option State :=
  let f := s.front a
  match f.acc.findIdx? fun x => x.sent = some rseq with
  | none => some s
  | some i =>
    match f.acc[i]?, reply with
    | none, _ => some s
    | some x, .data bs =>
      let s := (s.adoptAccess a x s.live).moveMonitor a x.pa
      let f := s.front a
      let f := { f with acc := f.acc.eraseIdx i, instret := f.instret + 1 }
      let sign : Bool := match x.kind with | .load _ sign _ => sign | _ => true
      match x.kind.dest with
      | some d => some (s.setFront a (f.deliver d (loadValue x.kind.size sign (ofBytesLE bs))))
      | none => some (s.setFront a f)
    | some x, .status n =>
      if s.vecBusy a then none
      else
        let write : Bool := match x.kind with | .load .. => false | _ => true
        match s.lateTrap a i x { code := remoteCode n, write := write, tval := x.va } with
        | .next t => some t
        | _ => none

/-- The arrivals that the reply to a request for the runs of a segment makes (R284). -/
def segArrivals (o : Owner) : List (Nat × Nat) → NgReply → List Arrival
  | [], _ => []
  | (a, n) :: rest, .data bs => ⟨o, a, n, .data (bs.take n)⟩ :: segArrivals o rest (.data (bs.drop n))
  | (a, n) :: rest, .status c => ⟨o, a, n, .status c⟩ :: segArrivals o rest (.status c)

/-- Delivers a reply to whoever waits for it. None while it cannot be taken. -/
def State.answer (s : State) (r : Request) (reply : NgReply) : Option State :=
  let st := match reply with | .status n => n | .data _ => 0
  match r.waiter with
  | .access a => s.answerAccess a r.rseq reply
  | .thread n =>
    match s.thread n with
    | some t => (match t.kind with
      | .add96 d _ _ _ => some (s.endThread { t with gen := s.live } (some d) (statusWord st))
      | _ => some s)
    | none => some s
  | .enq a d => some (s.setFront a ((s.front a).deliver d (statusWord st)))
  | .store .. | .entry .. => some (if NgReplyBad reply then s.countDevice 0x44 1 else s)
  | .bytes o addr size => some { s with arrived := s.arrived ++ [⟨o, addr, size, reply⟩] }
  | .segment o runs => some { s with arrived := s.arrived ++ segArrivals o runs reply }
  | .none => some s

/-- NG_RESPONSE (R342, R344): the packets of a response have arrived. -/
def execNgResponse (rseq : Nat) (reply : NgReply) (s : State) : Out :=
  match s.requests.find? fun r => r.rseq = rseq with
  | none => .next s
  | some r =>
    match ({ s with requests := s.requests.filter fun x => x.rseq ≠ rseq } : State).answer r reply with
    | some t => .next t
    | none => .next s

/-! ## The link (R340, R341) -/

/-- NG_ACK (R341): the replay buffer of a port drops the packets of which every flit is acknowledged. -/
def execNgAck (port upTo : Nat) (s : State) : Out :=
  .next { s with packets := s.packets.filter fun (p : Packet) => p.port ≠ port || decide (upTo + 1 < p.seq + p.replays.length) }

/-- The replays of a packet's flits from a link sequence number on. -/
def Packet.replay (p : Packet) (fromSeq : Nat) : Packet :=
  { p with replays := p.replays.mapIdx fun i n => if fromSeq ≤ p.seq + i then n + 1 else n }

/-- The flits of a packet from a link sequence number on. -/
def Packet.flitsFrom (p : Packet) (fromSeq : Nat) : Nat := p.replays.length - (fromSeq - p.seq)

/-- NG_CRC_REPLAY (R341, R345): the port sends its flits again from a sequence number. -/
def execNgCrcReplay (port fromSeq : Nat) (s : State) : Out :=
  let n := ((s.packets.filter fun (p : Packet) => p.port = port).map fun p => p.flitsFrom fromSeq).sum
  .next (({ s with packets := s.packets.map fun (p : Packet) => if p.port = port then p.replay fromSeq else p }).countDevice 0x43 n)

/-- A packet leaves by another port of the routing table. -/
def State.resend (s : State) (p : Packet) : State :=
  match (s.flash.routes.find? fun r => r.1 = p.dst).bind fun r => r.2.find? fun q => !s.portsDown.contains q with
  | some port =>
    let n := Store.get 0 s.portSeq port
    { s with
      packets := s.packets ++ [{ p with port := port, seq := n, replays := p.replays.map fun _ => 0 }]
      portSeq := s.portSeq.put port (n + p.replays.length) }
  | none => { s with packets := s.packets ++ [p] }

/-- NG_PORT_DOWN (R341): after 32 replays of one flit the port is taken down, and its packets leave by another. -/
def execNgPortDown (port : Nat) (s : State) : Out :=
  if s.packets.any fun (p : Packet) => p.port = port && p.replays.any fun n => decide (32 ≤ n) then
    let mine := s.packets.filter fun (p : Packet) => p.port = port
    let s := { s with portsDown := (port :: s.portsDown).eraseDups, packets := s.packets.filter fun (p : Packet) => p.port ≠ port }
    .next (mine.foldl State.resend s)
  else .next s

/-! ## Routes (R342, R353) -/

/-- Leads no port to a device any longer? -/
def State.portless (s : State) (dev : Nat) : Bool :=
  !(s.flash.routes.any fun r => r.1 = dev && r.2.any fun p => !s.portsDown.contains p)

/-- What a request that loses its route ends with: −5 for class `fab`, an uncorrectable error for the others (R342). -/
def lostReply : Waiter → NgReply
  | .thread _ | .enq .. => .status 5
  | _ => .status 4

/-- A request in flight to a lost device ends (R342); one whose trap must wait stays. -/
def State.loseRequest (s : State) (r : Request) : State :=
  (({ s with requests := s.requests.filter fun x => x.rseq ≠ r.rseq } : State).answer r (lostReply r.waiter)).getD s

/-- NG_ROUTE_LOST (R342): requests in flight end with errors; stores and notify words are lost and counted. -/
def execNgRouteLost (dev : Nat) (s : State) : Out :=
  if !s.portless dev then .next s
  else
    let words := (s.packets.filter fun (p : Packet) => p.dst = dev && (match p.what with | .notify .. => true | _ => false)).length
    let s := ({ s with routesLost := (dev :: s.routesLost).eraseDups, packets := s.packets.filter fun (p : Packet) => p.dst ≠ dev }).countDevice
      0x44 words
    .next ((s.requests.filter fun (r : Request) => r.dst = dev).foldl State.loseRequest s)

/-- NG_ROUTE_RETURN (R353): the ports that lead to a device work again, and its route is used again. -/
def execNgRouteReturn (dev : Nat) (s : State) : Out :=
  let back := s.flash.routes.flatMap fun r => if r.1 = dev then r.2 else []
  .next { s with
    portsDown := s.portsDown.filter fun p => !back.contains p
    routesLost := s.routesLost.filter fun d => d ≠ dev }

/-! ## Domain time (R353) -/

/-- TIME_SYNC_TIMER (R353): a timing packet leaves for the time master. -/
def execTimeSyncTimer (s : State) : Out :=
  if s.flash.timeMaster ≠ s.flash.deviceId && s.routed s.flash.timeMaster then .next (s.send s.flash.timeMaster .timing .none)
  else .next s

/-- A request for TIME arrives from another device; the time master answers with its own (R353). -/
def State.answerTime (s : State) (src rseq : Nat) : State :=
  if s.inReset || s.flash.timeMaster ≠ s.flash.deviceId || !s.routed src then s else s.post src rseq (.timed s.time)

/-- TIMING_PACKET (R353): the first one sets TIME to the master's value with half the round trip and sets READY.CLOCK; later
ones correct the rate only (log 10). -/
def execTimingPacket (master rtt : W64) (s : State) : Out :=
  if s.inReset || s.ready.getLsbD 2 then .next s
  else .next { s with time := master + rtt >>> 1, ready := s.ready ||| 4 }

end Sys2Proof.Machine
end

