-- ==== Sys2Proof/Machine/SaveArea.lean ====
section
/-! DEFINITION. The save area of a pre-empted agent (R319 to R323): what is written, and what a restart reads back. -/
namespace Sys2Proof.Machine

/-! ## Where the areas lie (R319) -/

/-- The address of the area of agent n in placement order: contexts first, then drones. -/
def areaVa (base : W64) (contexts n : Nat) : W64 :=
  if n < contexts then base + BitVec.ofNat 64 (n * 0x5700)
  else base + BitVec.ofNat 64 (contexts * 0x5700 + (n - contexts) * 0x110500)

/-! ## Entries of a queue (R247) -/

/-- A head entry as two words. -/
def headWords (w : InstrWord) (vl : BitVec 13) (vt : VType) (started ffv : Bool) (nops : Nat) (pix : BitVec 13)
    (keep : BitVec 32) : List W64 :=
  [vt.extractLsb' 0 16 ++ (0#3 ++ vl) ++ w,
   keep ++ (0#3 ++ pix) ++ (BitVec.ofBool started ++ BitVec.ofBool ffv ++ 0#4 ++ BitVec.ofNat 2 nops) ++ vt.extractLsb' 16 8]

/-- Operand entries: two values each, an unused second one 0. -/
def opWords (l : List W64) : List W64 := l ++ List.replicate (l.length % 2) 0

/-- A VIQ entry and its operand entries. -/
def Entry.words (e : Entry) : List W64 :=
  headWords e.word e.vl e.vtype e.started e.ffv e.ops.length e.pix e.keep ++ opWords e.ops

/-- Does a word capture x(A) in the array queue (R323)? -/
def anchorWord (w : InstrWord) : Bool := match decodeWord w with | .ok (.matAnchor ..) => true | _ => false

/-- An entry of the array queue (R323). -/
def QEntry.words (e : QEntry) : List W64 :=
  headWords e.word 0 0 false false (if anchorWord e.word then 1 else 0) 0 0 ++ (if anchorWord e.word then [e.op, 0] else [])

/-! ## The scalar and CSR block (R321) -/

/-- The type tags as one number (R321). -/
def tagStream (v : Vec) : Nat := v.tag.toList.zipIdx.foldl (fun n p => n + p.1.code * 2 ^ (5 * p.2)) 0

/-- Does the save meet an unreadable entry (R379)? -/
def unreadable (f : Front) (v : Vec) : Bool := f.bad ≠ 0 || !v.bad.isEmpty

/-- The 64 words of the block of a context (R321). -/
def contextBlock (f : Front) (v : Vec) (viqn : Nat) : List W64 :=
  let t := tagStream v
  (List.range 32).map (fun j => if j = 0 || f.bad.getLsbD j then 0 else f.x.getD j 0) ++
  [f.spc, f.vcp, v.vtype.zeroExtend 64, v.vl.zeroExtend 64, v.vstart.zeroExtend 64, BitVec.ofNat 64 (lanesOf v.grant / 8),
   v.lanereq.zeroExtend 64, v.scalebase.zeroExtend 64, v.flags.zeroExtend 64, v.ftrap.zeroExtend 64, f.curgen.zeroExtend 64,
   f.instret ||| (if unreadable f v then 1#64 <<< 63 else 0), f.status.zeroExtend 64, f.cause.zeroExtend 64, f.epc, f.tval,
   f.scratch, f.aspace, f.shVtype.zeroExtend 64, f.shVl.zeroExtend 64, BitVec.ofNat 64 t, BitVec.ofNat 64 (t / 2 ^ 64),
   BitVec.ofNat 64 (t / 2 ^ 128), BitVec.ofNat 64 viqn, 1#64 <<< 63] ++ List.replicate 7 0

/-- The 64 words of the block of a drone (R321). -/
def droneBlock (f : Front) (qn : Nat) : List W64 :=
  (List.range 32).map (fun j => if j = 0 || f.bad.getLsbD j then 0 else f.x.getD j 0) ++
  [f.spc, f.vcp, 0, 0, 0, 0, 0, 0, 0, 0, f.curgen.zeroExtend 64, f.instret ||| (if f.bad ≠ 0 then 1#64 <<< 63 else 0),
   f.status.zeroExtend 64, f.cause.zeroExtend 64, f.epc, f.tval, f.scratch, f.aspace, 0, 0, 0, 0, 0, BitVec.ofNat 64 qn,
   (1#64 <<< 63) ||| 1] ++ List.replicate 7 0

/-! ## The rest of a context area (R320, R322) -/

/-- Three coordinates as in element 2 of a shape record (R192). -/
def packDims (d : Vector (BitVec 21) 3) : W64 := 0#1 ++ d.getD 2 0 ++ d.getD 1 0 ++ d.getD 0 0

/-- A stream record (R322). -/
def streamWords : Option Stream → List W64
  | none => List.replicate 8 0
  | some t =>
    [t.base, t.stride.getD 0 0, t.stride.getD 1 0, t.stride.getD 2 0, packDims t.ext, packDims t.start, t.idx,
     1#1 ++ BitVec.ofBool t.out ++ 0#48 ++ t.word1]

/-- The words of a number of n bytes. -/
def wordsOf (n : Nat) (x : Nat) : List W64 := (List.range (n / 8)).map fun j => BitVec.ofNat 64 (x / 2 ^ (64 * j))

/-- The image of a register: element i, of its tag's width w, at bit w × i; an unreadable element gives 0 (R320,
R379). -/
def registerImage (v : Vec) (j : Nat) : Nat :=
  let w := (v.tagOf (BitVec.ofNat 5 j)).width
  let b : VReg := BitVec.ofNat 5 j
  (List.range (perReg v.lanes w)).foldl
    (fun n i => if v.elemBad v.lanes w b i then n else n + v.elem v.lanes w b i * 2 ^ (w * i)) 0

/-- Little-endian words from bytes. -/
def packBytes (l : List Byte) : List W64 := wordsOf l.length (ofBytesLE l)

/-- What the save of a context writes: pieces of words at offsets of its area (R320). -/
def contextArea (f : Front) (v : Vec) : List (Nat × List W64) :=
  let viq := v.viq.flatMap Entry.words
  let bytes := 8 * v.lanes
  [(0, contextBlock f v (viq.length / 2)), (0x200, viq), (0x400, packBytes v.e.toList),
   (0x500, v.s.toList.flatMap streamWords)] ++
  ((List.range 8).drop 1).map (fun j => (0x700 + 512 * j, wordsOf bytes (v.m.getD j 0).toNat)) ++
  (List.range 32).map fun j => (0x1700 + 512 * j, wordsOf bytes (registerImage v j))

/-! ## A drone area (R323) -/

/-- The header of a slot. -/
def slotWords (x : Slot) : List W64 :=
  packBytes ([(BitVec.ofBool x.full).zeroExtend 8, x.code.zeroExtend 8] ++ x.scales.toList ++ [x.gen.zeroExtend 8] ++
    List.replicate 5 0)

/-- The header of a tile. -/
def tileWords (t : Tile) : List W64 :=
  packBytes ([(BitVec.ofBool t.opened).zeroExtend 8, t.ready.zeroExtend 8] ++ bytesLE 2 t.anchor.toNat ++
    bytesLE 2 t.anc.toNat ++ bytesLE 1 t.f ++ [t.gen.zeroExtend 8] ++ List.replicate 24 0)

/-- The counts of the bellows entries that hold a total (R233). -/
def splitCount : Nat → Int → List Int
  | 0, _ => []
  | n + 1, c => if c = 0 then [] else if 32767 < c then 32767 :: splitCount n (c - 32767)
    else if c < -32767 then -32767 :: splitCount n (c + 32767) else [c]

/-- The bellows entries of a tile. -/
def bellowsWords (t : Tile) (n : Nat) : List W64 :=
  t.cells.flatMap fun p => (splitCount (belEntries p.2.c) p.2.c).map fun c =>
    0#30 ++ BitVec.ofNat 1 n ++ BitVec.ofNat 5 (p.1 / 4096) ++ BitVec.ofNat 12 (p.1 % 4096) ++ BitVec.ofInt 16 c

/-- A cell of a tile as its four bytes give it. -/
def cellCode (c : TileCell) : BitVec 32 := 0#2 ++ BitVec.ofBool c.inv ++ BitVec.ofBool c.x ++ c.v

/-- The cells of an open tile, two in a word. -/
def cellWords (t : Tile) : List W64 :=
  if t.opened then (List.range 65536).map fun j =>
    cellCode (Store.get TileCell.zero t.cells (2 * j + 1)) ++ cellCode (Store.get TileCell.zero t.cells (2 * j))
  else []

/-- The elements of a slot, eight in a word. -/
def elemWords (x : Slot) : List W64 := (List.range 1024).map fun j =>
  BitVec.ofNat 64 (ofBytesLE ((List.range 8).map fun b => x.elems.read (8 * j + b)))

/-- What the save of a drone writes (R323). -/
def droneArea (f : Front) (q : Cluster) : List (Nat × List W64) :=
  let image := q.queue.flatMap QEntry.words
  let slot (n : Nat) := q.fd.getD n Slot.reset
  let tile (n : Nat) := q.ac.getD n Tile.reset
  let bel := bellowsWords (tile 0) 0 ++ bellowsWords (tile 1) 1
  [(0, droneBlock f (image.length / 2)), (0x200, image)] ++ (List.range 4).map (fun n => (0x400 + 16 * n, slotWords (slot n))) ++
  (List.range 2).map (fun n => (0x440 + 32 * n, tileWords (tile n))) ++
  [(0x480, [q.belstat]), (0x488, [BitVec.ofNat 64 bel.length])] ++
  (List.range 4).map (fun n => (0x500 + 8192 * n, elemWords (slot n))) ++ [(0x8500, bel)] ++
  (List.range 2).map fun n => (0x10500 + 0x80000 * n, cellWords (tile n))

/-- What the save of an agent writes. -/
def State.areaOf (s : State) (a : Nat) : List (Nat × List W64) :=
  if isDrone a then droneArea (s.front a) (s.cluster (clusterOf a)) else contextArea (s.front a) (s.vec a)

/-! ## Reading an area back (R324)

`w` gives the 8-byte word at an offset of the area. -/

/-- The number in n bytes at an offset. -/
def areaNumber (w : Nat → W64) (off n : Nat) : Nat :=
  (List.range (n / 8)).foldl (fun x j => x + (w (off + 8 * j)).toNat * 2 ^ (64 * j)) 0

/-- The entries of a VIQ image of n words; `addrs` are their addresses (log 23). -/
def parseViq (grant : BitVec 8) : Nat → List W64 → List W64 → Nat → List Entry
  | 0, _, _, _ => []
  | fuel + 1, ws, addrs, po =>
    match ws with
    | h :: g :: rest =>
      let nops := (g.extractLsb' 8 2).toNat
      let e : Entry :=
        { word := h.extractLsb' 0 32, addr := addrs.headD 0, vl := h.extractLsb' 32 13,
          vtype := g.extractLsb' 0 8 ++ h.extractLsb' 48 16, ops := rest.take nops, keep := g.extractLsb' 32 32, gnew := grant,
          started := g.getLsbD 15, ffv := g.getLsbD 14, pix := g.extractLsb' 16 13, pix0 := g.extractLsb' 16 13, po := po,
          done := g.getLsbD 15 && decide (h.extractLsb' 32 13 ≤ g.extractLsb' 16 13), resumed := g.getLsbD 15, flags := 0, fpx := none, undo := Undo.empty, tally := Tally.empty }
      e :: parseViq grant fuel (rest.drop (nops + nops % 2)) addrs.tail (po + 1)
    | _ => []

/-- The entries of an array-queue image. -/
def parseQueue : Nat → List W64 → List W64 → Nat → List QEntry
  | 0, _, _, _ => []
  | fuel + 1, ws, addrs, po =>
    match ws with
    | h :: g :: rest =>
      let nops := (g.extractLsb' 8 2).toNat
      ⟨h.extractLsb' 0 32, addrs.headD 0, if nops = 0 then 0 else rest.headD 0, po⟩ ::
        parseQueue fuel (rest.drop (nops + nops % 2)) addrs.tail (po + 1)
    | _ => []

/-- The words of a queue image. -/
def imageWords (w : Nat → W64) (limit : Nat) : List W64 :=
  (List.range (2 * min limit (w 0x1B8).toNat)).map fun j => w (0x200 + 8 * j)

/-- x registers that unstarted entries write become pending (R324). -/
def Front.pendFor (f : Front) (ws : List InstrWord) : Front :=
  ws.foldl (fun f w => match pendingDest w with | some d => f.setPend d | none => f) f

/-- The front of a resumed agent (R321, R324, R325): CURGEN is the live generation, the event bit is set for whatever line a
`sys.wfe` names, and TVEC is that of the unit. A request to stop stays. -/
def restoreFront (f : Front) (w : Nat → W64) (live : BitVec 2) (entries : List InstrWord) : Front :=
  Front.pendFor
    { f with
      x := Vector.ofFn fun j : Fin 32 => if j.val = 0 then 0 else w (8 * j.val)
      pend := 0, bad := 0, pc := w 0x100, spc := w 0x100, vcp := w 0x108, curgen := live,
      instret := w 0x158 &&& ~~~(1#64 <<< 63)
      status := f.status.extractLsb' 4 1 ++ (w 0x160).extractLsb' 0 4
      cause := (w 0x168).extractLsb' 0 29, epc := w 0x170, tval := w 0x178, scratch := w 0x180, aspace := w 0x188
      shVtype := (w 0x190).extractLsb' 0 24, shVl := (w 0x198).extractLsb' 0 13, monLine := anyLine, monEvent := true, run := .running, entering := false
      freezing := false, frozen := false, held := false, tokens := [], acc := [], po := entries.length, stopped := false }
    entries

/-- A stream of a resumed context; its mode is that of the context, and it fetches again (R322, R324; log 23). -/
def restoreStream (f : Front) (w : Nat → W64) (j seq : Nat) : Option Stream :=
  let o := 0x500 + 64 * j
  let flags := w (o + 0x38)
  if !flags.getLsbD 63 then none
  else
    some
      { out := flags.getLsbD 62, base := w o, stride := Vector.ofFn fun k : Fin 3 => w (o + 8 + 8 * k.val)
        ext := Vector.ofFn fun k : Fin 3 => (w (o + 0x20)).extractLsb' (21 * k.val) 21
        start := Vector.ofFn fun k : Fin 3 => (w (o + 0x28)).extractLsb' (21 * k.val) 21
        word1 := flags.extractLsb' 0 14, idx := w (o + 0x30), aspace := f.aspace, sup := f.sup, gen := f.curgen, po := 0,
        seq := seq, buf := [], fault := none, told := false }

/-- Writes the image of a register under its tag. -/
def restoreRegister (lanes j : Nat) (image : Nat) (v : Vec) : Vec :=
  let w := (v.tagOf (BitVec.ofNat 5 j)).width
  (List.range (perReg lanes w)).foldl (fun v i => v.setElem lanes w (BitVec.ofNat 5 j) i (image / 2 ^ (w * i) % 2 ^ w)) v

/-- The vector side of a resumed context on its new lane groups (R320, R324). -/
def restoreVec (f : Front) (w : Nat → W64) (grant : BitVec 8) (addrs : List W64) (seq : Nat) : Vec :=
  let lanes := lanesOf grant
  let tags := areaNumber w 0x1A0 24
  let vt : VType := (w 0x110).extractLsb' 0 24
  let v : Vec :=
    { Vec.reset with
      tag := Vector.ofFn fun j : Fin 32 => (Tag.ofCode (tags / 2 ^ (5 * j.val) % 32)).getD .int32
      m := Vector.ofFn fun j : Fin 8 =>
        if j.val = 0 then BitVec.allOnes 4096 else BitVec.ofNat 4096 (areaNumber w (0x700 + 512 * j.val) (8 * lanes))
      e := Vector.ofFn fun j : Fin 256 => (w (0x400 + 8 * (j.val / 8))).extractLsb' (8 * (j.val % 8)) 8
      s := Vector.ofFn fun j : Fin 8 => restoreStream f w j.val (seq + j.val)
      vtype := vt, vl := (w 0x118).extractLsb' 0 13, vlmax := BitVec.ofNat 13 (vlmaxOf lanes vt)
      vstart := (w 0x120).extractLsb' 0 13, grant := grant, fgrant := grant, lanereq := (w 0x130).extractLsb' 0 4
      scalebase := (w 0x138).extractLsb' 0 8, flags := (w 0x140).extractLsb' 0 7, ftrap := (w 0x148).extractLsb' 0 7
      viq := parseViq grant 32 (imageWords w 32) addrs 0 }
  (List.range 32).foldl (fun v j => restoreRegister lanes j (areaNumber w (0x1700 + 512 * j) (8 * lanes)) v) v

/-- A slot of a resumed drone (R323). -/
def restoreSlot (w : Nat → W64) (n : Nat) : Slot :=
  let h := BitVec.ofNat 128 (areaNumber w (0x400 + 16 * n) 16)
  { full := h.getLsbD 0, code := h.extractLsb' 8 5, scales := Vector.ofFn fun j : Fin 8 => h.extractLsb' (16 + 8 * j.val) 8
    gen := h.extractLsb' 80 2
    elems := ((List.range 8192).map fun j => ((j, (w (0x500 + 8192 * n + 8 * (j / 8))).extractLsb' (8 * (j % 8)) 8) : Host.Cell)).filter
      fun p => p.2 ≠ unlisted }

/-- A cell from its four bytes, without a bellows count. -/
def cellOfCode (x : BitVec 32) : TileCell := { v := x.extractLsb' 0 28, x := x.getLsbD 28, inv := x.getLsbD 29, c := 0 }

/-- The cells of a resumed tile; a closed one is 0 (R323, R324). -/
def restoreCells (w : Nat → W64) (n : Nat) (opened : Bool) : Store TileCell :=
  if opened then
    ((List.range 131072).map fun j =>
      (j, cellOfCode ((w (0x10500 + 0x80000 * n + 8 * (j / 2))).extractLsb' (32 * (j % 2)) 32))).filter fun p => p.2 ≠ TileCell.zero
  else []

/-- Adds a bellows entry to the tile that it names. -/
def addBellows (t : Store TileCell) (x : W64) : Store TileCell :=
  let key := 4096 * (x.extractLsb' 28 5).toNat + (x.extractLsb' 16 12).toNat
  let c := Store.get TileCell.zero t key
  t.put key { c with c := c.c + (x.extractLsb' 0 16).toInt }

/-- A tile of a resumed drone with its bellows entries (R323). -/
def restoreTile (w : Nat → W64) (n : Nat) : Tile :=
  let h := BitVec.ofNat 256 (areaNumber w (0x440 + 32 * n) 32)
  let opened := h.getLsbD 0
  let bel := ((List.range (min 4096 (w 0x488).toNat)).map fun j => w (0x8500 + 8 * j)).filter fun x =>
    (x.extractLsb' 33 1).toNat = n
  { opened := opened, ready := h.extractLsb' 8 4, anchor := h.extractLsb' 16 9, anc := h.extractLsb' 32 9
    f := (h.extractLsb' 48 8).toNat, gen := h.extractLsb' 56 2
    cells := if opened then bel.foldl addBellows (restoreCells w n opened) else [] }

/-- The array of a resumed drone (R323, R324). -/
def restoreArray (q : Cluster) (w : Nat → W64) (addrs : List W64) : Cluster :=
  { q with
    fd := Vector.ofFn fun n : Fin 4 => restoreSlot w n.val
    ac := Vector.ofFn fun n : Fin 2 => restoreTile w n.val
    belfull := (w 0x480).getLsbD 31
    queue := parseQueue 16 (imageWords w 16) addrs 0 }

end Sys2Proof.Machine
end

