-- ==== Sys2Proof/Machine/Preempt.lean ====
section
/-! DEFINITION. Yield, pre-emption, and the stop and restart of a launch (R141, R312, R316 to R318, R324, R325). -/
namespace Sys2Proof.Machine

/-! ## Victims (R312) -/

/-- A stop of a launch is requested of all its agents (R317 step 1). -/
def State.requestStop (s : State) (p : Placed) : State :=
  p.agents.foldl (fun (s : State) a => s.setFront a { s.front a with preempt := true }) (s.setPlaced { p with stopping := true })

/-- The launches being stopped. -/
def State.stoppingSeqs (s : State) : List Nat := (s.placed.filter (·.stopping)).map (·.seq)

/-- The launches that a head may take off their units, lowest PRIO first and then the most recently placed (R312). One that
is still restarting stops after its restart. -/
def State.candidates (s : State) (prio : Nat) : List Placed :=
  let l := s.placed.filter fun p =>
    p.record.pre && decide (p.record.prio < prio) && !p.stopping && !s.allHalted p
  (List.range 8).flatMap fun n => (l.filter fun p => p.record.prio = n).reverse

/-- Takes candidates one at a time until the head fits; none when even all of them make no room (R312). -/
def State.chooseVictims (s : State) (q : Queued) : List Placed → List Placed → Option (List Placed)
  | [], _ => none
  | p :: rest, taken =>
    let l := taken ++ [p]
    if (s.fits q (l.map (·.seq) ++ s.stoppingSeqs)).isSome then some l else State.chooseVictims s q rest l

/-- PREEMPT_BY_PRIORITY (R312). -/
def execPreemptByPriority (s : State) : Out :=
  match s.head with
  | none => .next s
  | some q =>
    if (s.fits q s.stoppingSeqs).isSome then .next s
    else
      match s.chooseVictims q (s.candidates q.record.prio) [] with
      | none => .next s
      | some l => .next (l.foldl State.requestStop s)

/-- Do the units that a head would take include a place that an agent holds: its drone, or a context of its core? -/
def usesPlace (q : Queued) (a : Nat) : Option (List Nat × List Nat) → Bool
  | some (ms, cs) => if isDrone a then q.record.dentry ≠ 0 && cs.contains (clusterOf a) else ms.any fun m => coreOf m = coreOf a
  | none => false

/-- Does the head, of PRIO no lower, wait for a place that an agent of the launch holds (R141; log 25)? It may need the
places of other launches that could yield, or of any other launches, too. -/
def State.yieldsTo (s : State) (a : Nat) (p : Placed) : Bool :=
  match s.head with
  | some q =>
    let others := (s.placed.filter fun x => x.record.pre && decide (x.record.prio ≤ q.record.prio)).map (·.seq)
    decide (p.record.prio ≤ q.record.prio) && (s.fits q s.stoppingSeqs).isNone &&
      ([p.seq :: s.stoppingSeqs, others ++ s.stoppingSeqs, s.placed.map (·.seq)].any fun away => usesPlace q a (s.fits q away))
  | none => false

/-- `sys.yield` (R141): the agent's launch is stopped, or its front idles. -/
def execSysYield (s : State) : Out :=
  onFront s fun a _ =>
    let t := s.retire a ((s.front a).pc + 4)
    match s.launchOf a with
    | some p =>
      if p.record.pre && !p.stopping && s.yieldsTo a p then .next (t.requestStop p)
      else .next (t.setFront a { t.front a with run := .yielding })
    | none => .next (t.setFront a { t.front a with run := .yielding })

/-! ## The stop of an agent (R257, R316, R317) -/

/-- Have the copies, streams and accesses of an agent ended that its save waits for (R317 step 3)? -/
def State.stopDrained (s : State) (a : Nat) : Bool :=
  s.agentDrained a && !(s.requests.any fun r => match r.waiter with | .enq b _ => decide (b = a) | _ => false) &&
    (isDrone a || (s.vec a).s.toList.all fun o => match o with | some t => !t.out || t.buf.isEmpty | none => true)

/-- Has an agent entries that have not completed? -/
def State.hasEntries (s : State) (a : Nat) : Bool :=
  if isDrone a then !(s.cluster (clusterOf a)).queue.isEmpty else !(s.vec a).open_.isEmpty

/-- Is an agent at a point where it takes a request (R137, R317; log 23)? A waiting front wakes first (R139); a kernel
that halts goes on to halt unless its entries cannot complete. -/
def State.stopsNow (s : State) (a : Nat) : Bool :=
  let f := s.front a
  f.preempt && f.ie && !f.stopped &&
    (match f.run with
     | .running | .yielding => true
     | .halting => s.hasEntries a
     | _ => false)

/-- Completion values that have not been read reach their registers, since the restart takes the live generation (R317,
R325). -/
def State.deliverTokens (s : State) (a : Nat) : State :=
  let f := s.front a
  s.setFront a (f.tokens.foldl (fun f t => f.deliver t.d t.v) { f with tokens := [] })

/-- The pair and the mark of a stopped agent (R316). -/
def State.markStopped (s : State) (a : Nat) : State :=
  let s := (s.deliverTokens a).forget (.front a)
  let f := s.front a
  s.setFront a { f with stopped := true, spc := f.pc, vcp := s.vcpOf a, run := if f.run = .yielding then .running else f.run }

/-- The instructions of a context stop, each with its index (R257, R258). -/
def State.pullBack (s : State) (k : Nat) : State := (s.setVec k (s.vec k).pullBack).forget (.vector k)

/-- An agent stops, when it can (R317 steps 2 to 5). A fault that an output stream holds is taken first, as a trap at
VCP. -/
def State.stopAgent (s : State) (a : Nat) : State :=
  if !s.stopsNow a || !s.atStop a then s
  else if isDrone a then (if s.stopDrained a then s.markStopped a else s)
  else
    let v := s.vec a
    if v.infl.head?.any (·.done) then s
    else
      match v.outFault with
      | some x =>
        let s := s.pullBack a
        (s.setVec a (s.vec a).tellOutFaults).takeTrap a true (s.vcpOf a) { code := x.code, write := true, tval := x.va }
      | none => if s.stopDrained a then ((s.pullBack a).dropPrefetch a).markStopped a else s

/-- Has an agent stopped, or halted? -/
def State.isStopped (s : State) (a : Nat) : Bool := (s.front a).stopped || decide ((s.front a).run = .halted)

/-! ## The save (R317 step 6, R318) -/

/-- Is a stalled write a word of the save of a launch? -/
def Stuck.ofSave (seq : Nat) (x : Stuck) : Bool := match x.by_ with | .save q _ => q = seq | _ => false

/-- The launch ends at once: each of its agents counts as having taken a fatal trap with PREEMPT (R318). -/
def State.failAll (s : State) (p : Placed) : State :=
  let s := { s with stuck := s.stuck.filter fun x => !x.ofSave p.seq }
  let s := s.setPlaced { p with stopping := false, savePos := 0, saved := none, restoring := none }
  p.agents.foldl (fun (s : State) a =>
    if (s.front a).run = .halted then s
    else (s.setFront a { s.front a with stopped := false, preempt := false, freezing := false, frozen := false }).fatal a 15 false) s

/-- What the save-area base in the completion block reads as (R303, R318). -/
def State.saveBase (s : State) (p : Placed) : Found :=
  s.devRead p.seq p.record.aspace p.record.sup (p.record.cbaddr + 16) 8

/-- The words that the save of a launch writes: the agent, the virtual address, the word (R319). -/
def State.savePlan (s : State) (p : Placed) (base : W64) : List (Nat × W64 × W64) :=
  p.agents.zipIdx.flatMap fun x =>
    (s.areaOf x.1).flatMap fun piece => piece.2.zipIdx.map fun y =>
      (x.1, areaVa base p.members.length x.2 + BitVec.ofNat 64 (piece.1 + 8 * y.2), y.1)

/-- A word of a save that can be written: its agent, address, physical address and value. -/
structure SaveWord where
  a : Nat
  va : W64
  pa : Nat
  x : W64
  deriving DecidableEq, Repr

/-- The words of a plan up to the first that fails its checks as a store of the launch (R318), and whether one does. The checks use the
mode of the launch record (DESIGN CHOICE: R318 names its ASPACE only; log 65). -/
def State.saveChecks (s : State) (p : Placed) : List (Nat × W64 × W64) → List SaveWord × Bool
  | [] => ([], false)
  | (a, va, x) :: rest =>
    match s.check a true p.record.aspace p.record.sup .store va 8 with
    | .ok (pa, false) => let r := State.saveChecks s p rest; (⟨a, va, pa, x⟩ :: r.1, r.2)
    | _ => ([], true)

/-- Writes words of a save with the CURGEN that each agent had at its stop (R318, R369). A word whose write stalls is kept and holds
back no other (R366). With the state it gives the words that have been written. -/
def State.saveWords (s : State) (p : Placed) (l : List SaveWord) : State × List SaveWord :=
  l.foldl (fun (st : State × List SaveWord) w =>
    let bytes := bytesLE 8 w.x.toNat
    if isDomain w.pa then (st.1.send (deviceOf w.pa) (.write w.pa bytes) (.bytes (.device p.seq) w.pa 8), st.2)
    else
      let u := st.1.writeOr (.save p.seq w.a) (st.1.front w.a).curgen w.pa bytes
      let u := if w.pa % 64 = 0 then u.noteFar w.a p.record.aspace w.va w.pa 64 true else u
      (u, if u.stuck.length = st.1.stuck.length then st.2 ++ [w] else st.2)) (s, [])

/-- The lines that words of a save have written whole lose their errors (R380). -/
def State.healSave (s : State) (l : List SaveWord) : State :=
  ((l.map (·.a)).eraseDups).foldl (fun (s : State) a =>
    s.healWhole (s.front a).curgen fun b => l.any fun w => w.a = a && decide (w.pa ≤ b) && decide (b < w.pa + 8)) s

/-- What the device keeps of a stopped launch (log 23). -/
def State.savedOf (s : State) (p : Placed) : Saved :=
  { grants := p.members.map fun k => lanesOf (s.vec k).grant / 8
    addrs := p.agents.map fun a =>
      if isDrone a then (s.cluster (clusterOf a)).queue.map (·.addr) else (s.vec a).viq.map (·.addr)
    halted := p.agents.map fun a => decide ((s.front a).run = .halted)
    fatal := p.fatal }

/-- Up to n words of the areas of a launch are written, from where the save has come to, and the rest for n = 0; a word that
fails its checks ends the launch (R318; log 23). A base that is no multiple of 64 is used as it is (DESIGN CHOICE: R319 calls it
aligned; log 65). -/
def State.saveMove (s : State) (p : Placed) (n : Nat) : State :=
  match s.saveBase p with
  | .ask pa => s.askFor (.device p.seq) pa 8
  | .fault _ | .zero => s.failAll p
  | f =>
    let base := BitVec.ofNat 64 (s.foundValue 8 f)
    if base = 0 then s.failAll p
    else
      let left := (s.savePlan p base).drop p.savePos
      let todo := s.saveChecks p (if n = 0 then left else left.take n)
      let s := match p.savePos, f with | 0, .at_ pa => s.noteBytes pa 8 false | _, _ => s
      let r := s.saveWords p todo.1
      let t := r.1.healSave r.2
      if todo.2 then t.failAll p
      else
        let p' := { p with savePos := p.savePos + todo.1.length }
        t.setPlaced (if todo.1.length = left.length then { p' with saved := some (t.savedOf p) } else p')

/-- LAUNCH_STOP (R317): the agents of a victim stop, each when it can, and when all have stopped n words of the areas are
written. A launch whose agents have all halted ends instead, and one that restarts does so first. -/
def State.stopLaunch (s : State) (seq n : Nat) : State :=
  match s.placedBy seq with
  | none => s
  | some p =>
    if !p.stopping || p.saved.isSome || p.restoring.isSome then s
    else if s.allHalted p then s.setPlaced { p with stopping := false }
    else
      let t := p.agents.foldl State.stopAgent s
      match t.placedBy seq with
      | some p => if p.agents.all t.isStopped then t.saveMove p n else t
      | none => t

/-- LAUNCH_STOP (R317). -/
def execLaunchStop (seq : Nat) (s : State) : Out := .next (s.stopLaunch seq 0)

/-- The units of a stopped launch become idle, and its record returns ahead of the records of its PRIO (R312, R317
step 7). -/
def State.requeue (s : State) (p : Placed) (v : Saved) : State :=
  let s := p.agents.foldl (fun (s : State) a =>
    if isDrone a then
      s.setCluster (clusterOf a) { s.cluster (clusterOf a) with queue := [], stalled := false }
    else
      let s := s.forgetInputs a
      (s.setVec a { s.vec a with viq := [], infl := [], s := Vector.replicate 8 none }).freeLanes a) s
  let s := s.release p
  let s := s.setQueue p.record.prio (⟨p.seq, p.record, some p.eligible, some v, none, false⟩ :: s.queue p.record.prio)
  ((p.members.map coreOf).eraseDups.foldl (fun (s : State) g => s.promptArbiter g) s).countDevice 0x49 1

/-- SAVE_AREA_WRITTEN (R317 step 7, R318): every write of every area has performed; an area on another device that
answered with an error ends the launch. -/
def execSaveAreaWritten (seq : Nat) (s : State) : Out :=
  match s.placedBy seq with
  | none => .next s
  | some p =>
    match p.saved with
    | none => .next s
    | some v =>
      if s.devWaits seq || s.stuck.any (Stuck.ofSave seq) then .next s
      else if s.arrived.any fun r => decide (r.owner = .device seq) && NgReplyBad r.reply then
        .next ((s.dropArrived (.device seq)).failAll p)
      else .next (s.requeue p v)

/-! ## The restart (R324, R325) -/

/-- The offsets of n words of an area. -/
def wordOffsets (off n : Nat) : List Nat := (List.range n).map fun j => off + 8 * j

/-- The offsets of the words that a restart reads of an agent's area for a number of lanes, whose words that are at hand `w` gives: the parts
that a save has written (R320, R323). -/
def areaOffsets (a lanes : Nat) (w : Nat → W64) : List Nat :=
  let image := wordOffsets 0x200 (2 * min (if isDrone a then 16 else 32) (w 0x1B8).toNat)
  wordOffsets 0 64 ++ image ++
    (if isDrone a then
      wordOffsets 0x400 18 ++ wordOffsets 0x500 4096 ++ wordOffsets 0x8500 (min 4096 (w 0x488).toNat) ++
        (List.range 2).flatMap fun n => if (w (0x440 + 32 * n)).getLsbD 0 then wordOffsets (0x10500 + 0x80000 * n) 65536 else []
    else wordOffsets 0x400 96 ++ ((List.range 40).drop 1).flatMap fun j => wordOffsets (0x700 + 512 * j) lanes)

/-- The word at an offset of an area, as a restart finds it. -/
def State.areaWord (s : State) (p : Placed) (base : W64) (n off : Nat) : Found :=
  s.devRead p.seq p.record.aspace p.record.sup (areaVa base p.members.length n + BitVec.ofNat 64 off) 8

/-- Has a resumed context its lane groups, released by their holders (R249, R324)? -/
def State.lanesBack (s : State) (k n : Nat) : Bool :=
  decide (lanesOf (s.grantNow k) = 8 * n) && s.lanesReleased k (s.grantNow k)

/-- One agent takes back its area (R324 steps 2 to 5). A drone that had halted stays so, with the array state of its cluster. -/
def State.restoreAgent (s : State) (p : Placed) (v : Saved) (base : W64) (a n : Nat) : State :=
  let w (off : Nat) : W64 := BitVec.ofNat 64 (s.foundValue 8 (s.areaWord p base n off))
  let addrs := v.addrs.getD n []
  if isDrone a then
    let c := clusterOf a
    let q := restoreArray (s.cluster c) w addrs
    let f := restoreFront (s.front a) w s.live (q.queue.map (·.word))
    (s.setCluster c q).setFront a (if v.halted.getD n false then { f with run := .halted } else f)
  else
    let grant := s.grantNow a
    let u := restoreVec (restoreFront (s.front a) w s.live []) w grant addrs s.threadSeq
    { ((s.setVec a u).setFront a (restoreFront (s.front a) w s.live (u.viq.map (·.word)))) with threadSeq := s.threadSeq + 8 }

/-- The agents of a launch, each with its number and its lane groups. -/
def Placed.areas (p : Placed) (v : Saved) : List (Nat × Nat × Nat) := p.agents.zipIdx.map fun x => (x.1, x.2, v.grants.getD x.2 0)

/-- Those that have something to take back: all but a context that had halted. -/
def Placed.resumed (p : Placed) (v : Saved) : List (Nat × Nat × Nat) := (p.areas v).filter fun x => isDrone x.1 || !v.halted.getD x.2.1 false

/-- Notes the words that a restart has read, one read for each line (R272, R324; log 62). -/
def State.noteAreas (s : State) (l : List Found) : State :=
  l.foldl (fun (s : State) x => match x with
    | .at_ pa => if pa % 64 < 8 then s.noteBytes (pa / 64 * 64) 64 false else s
    | _ => s) s

/-- LAUNCH_RESTART (R324, R325): when every context has its lane groups, every area is read, those of halted agents too, and the
agents are restored and resume together. -/
def execLaunchRestart (seq : Nat) (s : State) : Out :=
  match s.placedBy seq with
  | none => .next s
  | some p =>
    match p.restoring with
    | none => .next s
    | some v =>
      let l := p.resumed v
      if s.devWaits seq || l.any fun x => !isDrone x.1 && !s.lanesBack x.1 x.2.2 then .next s
      else
        match s.saveBase p with
        | .ask pa => .next (s.askFor (.device seq) pa 8)
        | .fault _ | .zero => .next (s.failAll p)
        | f =>
          let base := BitVec.ofNat 64 (s.foundValue 8 f)
          let word (n off : Nat) : W64 := BitVec.ofNat 64 (s.foundValue 8 (s.areaWord p base n off))
          let found := (p.areas v).flatMap fun x => (areaOffsets x.1 (8 * x.2.2) (word x.2.1)).map (s.areaWord p base x.2.1)
          let asks := found.filterMap fun (x : Found) => (match x with | .ask pa => some pa | _ => none)
          let valid := (p.areas v).all fun x => (word x.2.1 0x1C0).getLsbD 63
          if base = 0 || found.any fun (x : Found) => (match x with | .fault _ => true | _ => false) then .next (s.failAll p)
          else if !asks.isEmpty then .next (asks.foldl (fun (s : State) pa => s.askFor (.device seq) pa 8) s)
          else if !valid then .next (s.failAll p)
          else
            let t := l.foldl (fun (t : State) x => t.restoreAgent p v base x.1 x.2.1) s
            .next (((t.noteAreas (f :: found)).dropArrived (.device seq)).setPlaced { p with restoring := none })

end Sys2Proof.Machine
end

