-- ==== Sys2Proof/Machine/Scalar.lean ====
section
/-! DEFINITION. Integer register operations: `sop`, `sopi`, `lui`, `auipc` (R117 to R119). -/
namespace Sys2Proof.Machine

/-- The shift amount x(B)[5:0] (R117). -/
def shAmt (b : W64) : Nat := (b.extractLsb' 0 6).toNat

/-- 1 or 0 (R117). -/
def boolX (c : Bool) : W64 := if c then 1 else 0

/-- Signed division truncated towards zero; all ones for a zero divisor; the overflow gives −2^63 (R117). -/
def divS (a b : W64) : W64 := if b = 0 then BitVec.allOnes 64 else BitVec.ofInt 64 (a.toInt.tdiv b.toInt)

/-- Unsigned division; all ones for a zero divisor (R117). -/
def divU (a b : W64) : W64 := if b = 0 then BitVec.allOnes 64 else BitVec.ofNat 64 (a.toNat / b.toNat)

/-- Leading zero bits: 64 for 0 (R117). -/
def clz64 (a : W64) : Nat := if a = 0 then 64 else 63 - Nat.log2 a.toNat

/-- Trailing zero bits: 64 for 0 (R117). -/
def ctz64 (a : W64) : Nat := ((List.range 64).find? fun j => a.getLsbD j).getD 64

/-- Set bits (R117). -/
def popc64 (a : W64) : Nat := (List.range 64).foldl (fun n j => if a.getLsbD j then n + 1 else n) 0

/-- The effect of a two-operand `sop` function f (R117). -/
def sop2 (f : W64 → W64 → W64) (d a b : XReg) (s : State) : Out := aluOp d [a, b] (fun fr => f (fr.xr a) (fr.xr b)) s

/-- The effect of a one-operand `sop` function f (R117). -/
def sop1 (f : W64 → W64) (d a : XReg) (s : State) : Out := aluOp d [a] (fun fr => f (fr.xr a)) s

/-- The effect of a `sopi` function f of x(A) and sext(I14) (R118). -/
def sopI (f : W64 → W64 → W64) (d a : XReg) (imm : BitVec 14) (s : State) : Out :=
  aluOp d [a] (fun fr => f (fr.xr a) (imm.signExtend 64)) s

/-- The effect of a `shi` shift f (R118). -/
def sopSh (f : W64 → Nat → W64) (d a : XReg) (sh : BitVec 6) (s : State) : Out :=
  aluOp d [a] (fun fr => f (fr.xr a) sh.toNat) s

/-- `sop.add`: the sum modulo 2^64 (R117). -/
def execSopAdd (d a b : XReg) (s : State) : Out := sop2 (fun a b => a + b) d a b s
/-- `sop.sub`: the difference (R117). -/
def execSopSub (d a b : XReg) (s : State) : Out := sop2 (fun a b => a - b) d a b s
/-- `sop.and`: bitwise and (R117). -/
def execSopAnd (d a b : XReg) (s : State) : Out := sop2 (fun a b => a &&& b) d a b s
/-- `sop.or`: bitwise or (R117). -/
def execSopOr (d a b : XReg) (s : State) : Out := sop2 (fun a b => a ||| b) d a b s
/-- `sop.xor`: bitwise exclusive or (R117). -/
def execSopXor (d a b : XReg) (s : State) : Out := sop2 (fun a b => a ^^^ b) d a b s
/-- `sop.sll`: left shift by x(B)[5:0] (R117). -/
def execSopSll (d a b : XReg) (s : State) : Out := sop2 (fun a b => a <<< shAmt b) d a b s
/-- `sop.srl`: logical right shift (R117). -/
def execSopSrl (d a b : XReg) (s : State) : Out := sop2 (fun a b => a >>> shAmt b) d a b s
/-- `sop.sra`: arithmetic right shift (R117). -/
def execSopSra (d a b : XReg) (s : State) : Out := sop2 (fun a b => a.sshiftRight (shAmt b)) d a b s
/-- `sop.slt`: signed less-than (R117). -/
def execSopSlt (d a b : XReg) (s : State) : Out := sop2 (fun a b => boolX (a.slt b)) d a b s
/-- `sop.sltu`: unsigned less-than (R117). -/
def execSopSltu (d a b : XReg) (s : State) : Out := sop2 (fun a b => boolX (a.ult b)) d a b s
/-- `sop.min`: signed minimum (R117). -/
def execSopMin (d a b : XReg) (s : State) : Out := sop2 (fun a b => if a.slt b then a else b) d a b s
/-- `sop.max`: signed maximum (R117). -/
def execSopMax (d a b : XReg) (s : State) : Out := sop2 (fun a b => if a.slt b then b else a) d a b s
/-- `sop.minu`: unsigned minimum (R117). -/
def execSopMinu (d a b : XReg) (s : State) : Out := sop2 (fun a b => if a.ult b then a else b) d a b s
/-- `sop.maxu`: unsigned maximum (R117). -/
def execSopMaxu (d a b : XReg) (s : State) : Out := sop2 (fun a b => if a.ult b then b else a) d a b s
/-- `sop.mul`: low half of the product (R117). -/
def execSopMul (d a b : XReg) (s : State) : Out := sop2 (fun a b => a * b) d a b s
/-- `sop.mulh`: high half of the signed product (R117). -/
def execSopMulh (d a b : XReg) (s : State) : Out := sop2 (fun a b => BitVec.ofInt 64 (a.toInt * b.toInt / 2 ^ 64)) d a b s
/-- `sop.mulhu`: high half of the unsigned product (R117). -/
def execSopMulhu (d a b : XReg) (s : State) : Out := sop2 (fun a b => BitVec.ofNat 64 (a.toNat * b.toNat / 2 ^ 64)) d a b s
/-- `sop.div`: signed division with its fixed results (R117). -/
def execSopDiv (d a b : XReg) (s : State) : Out := sop2 (fun a b => divS a b) d a b s
/-- `sop.divu`: unsigned division (R117). -/
def execSopDivu (d a b : XReg) (s : State) : Out := sop2 (fun a b => divU a b) d a b s
/-- `sop.rem`: signed remainder (R117). -/
def execSopRem (d a b : XReg) (s : State) : Out := sop2 (fun a b => a - b * divS a b) d a b s
/-- `sop.remu`: unsigned remainder (R117). -/
def execSopRemu (d a b : XReg) (s : State) : Out := sop2 (fun a b => a - b * divU a b) d a b s
/-- `sop` Clz: leading zeros (R117). -/
def execSopClz (d a : XReg) (s : State) : Out := sop1 (fun a => BitVec.ofNat 64 (clz64 a)) d a s
/-- `sop` Ctz: trailing zeros (R117). -/
def execSopCtz (d a : XReg) (s : State) : Out := sop1 (fun a => BitVec.ofNat 64 (ctz64 a)) d a s
/-- `sop` Popc: set bits (R117). -/
def execSopPopc (d a : XReg) (s : State) : Out := sop1 (fun a => BitVec.ofNat 64 (popc64 a)) d a s
/-- `sop` Brev: reversed bits (R117). -/
def execSopBrev (d a : XReg) (s : State) : Out := sop1 (fun a => a.reverse) d a s
/-- `sop` SextB: sign-extended byte (R117). -/
def execSopSextB (d a : XReg) (s : State) : Out := sop1 (fun a => (a.setWidth 8).signExtend 64) d a s
/-- `sop` SextH: sign-extended halfword (R117). -/
def execSopSextH (d a : XReg) (s : State) : Out := sop1 (fun a => (a.setWidth 16).signExtend 64) d a s
/-- `sop` SextW: sign-extended word (R117). -/
def execSopSextW (d a : XReg) (s : State) : Out := sop1 (fun a => (a.setWidth 32).signExtend 64) d a s
/-- `sop` ZextB: zero-extended byte (R117). -/
def execSopZextB (d a : XReg) (s : State) : Out := sop1 (fun a => (a.setWidth 8).setWidth 64) d a s
/-- `sop` ZextH: zero-extended halfword (R117). -/
def execSopZextH (d a : XReg) (s : State) : Out := sop1 (fun a => (a.setWidth 16).setWidth 64) d a s
/-- `sop` ZextW: zero-extended word (R117). -/
def execSopZextW (d a : XReg) (s : State) : Out := sop1 (fun a => (a.setWidth 32).setWidth 64) d a s
/-- `sop` Mod383: scratchpad bank of a word index (R117). -/
def execSopMod383 (d a : XReg) (s : State) : Out := sop1 (fun a => BitVec.ofNat 64 (a.toNat % 383)) d a s
/-- `sop` Div383: scratchpad row of a word index (R117). -/
def execSopDiv383 (d a : XReg) (s : State) : Out := sop1 (fun a => BitVec.ofNat 64 (a.toNat / 383)) d a s
/-- `sopi.addi`: addition of the immediate (R118). -/
def execSopiAddi (d a : XReg) (imm : BitVec 14) (s : State) : Out := sopI (fun a i => a + i) d a imm s
/-- `sopi.andi`: and with the immediate (R118). -/
def execSopiAndi (d a : XReg) (imm : BitVec 14) (s : State) : Out := sopI (fun a i => a &&& i) d a imm s
/-- `sopi.ori`: or with the immediate (R118). -/
def execSopiOri (d a : XReg) (imm : BitVec 14) (s : State) : Out := sopI (fun a i => a ||| i) d a imm s
/-- `sopi.xori`: exclusive or with the immediate (R118). -/
def execSopiXori (d a : XReg) (imm : BitVec 14) (s : State) : Out := sopI (fun a i => a ^^^ i) d a imm s
/-- `sopi.slti`: signed comparison with the immediate (R118). -/
def execSopiSlti (d a : XReg) (imm : BitVec 14) (s : State) : Out := sopI (fun a i => boolX (a.slt i)) d a imm s
/-- `sopi.sltiu`: unsigned comparison with the immediate (R118). -/
def execSopiSltiu (d a : XReg) (imm : BitVec 14) (s : State) : Out := sopI (fun a i => boolX (a.ult i)) d a imm s
/-- `sopi.muli`: product with the immediate (R118). -/
def execSopiMuli (d a : XReg) (imm : BitVec 14) (s : State) : Out := sopI (fun a i => a * i) d a imm s
/-- `sopi.shi.sll` (R118). -/
def execSopiShiSll (d a : XReg) (sh : BitVec 6) (s : State) : Out := sopSh (fun a n => a <<< n) d a sh s
/-- `sopi.shi.srl` (R118). -/
def execSopiShiSrl (d a : XReg) (sh : BitVec 6) (s : State) : Out := sopSh (fun a n => a >>> n) d a sh s
/-- `sopi.shi.sra` (R118). -/
def execSopiShiSra (d a : XReg) (sh : BitVec 6) (s : State) : Out := sopSh (fun a n => a.sshiftRight n) d a sh s

/-- sext(I22 × 2^14, 36) as a doubleword (R88). -/
def imm22 (imm : BitVec 22) : W64 := (imm ++ (0 : BitVec 14)).signExtend 64

/-- `lui`: the shifted immediate (R88, R119). -/
def execLui (d : XReg) (imm : BitVec 22) (s : State) : Out := aluOp d [] (fun _ => imm22 imm) s

/-- `auipc`: PC plus the shifted immediate (R88, R119). -/
def execAuipc (d : XReg) (imm : BitVec 22) (s : State) : Out := aluOp d [] (fun fr => fr.pc + imm22 imm) s

end Sys2Proof.Machine
end

