-- ==== Sys2Proof/Machine/Snapshot.lean ====
section
/-! DEFINITION. Snapshots: freezing a generation, sealing, fulling and release (R144, R355 to R368). -/
namespace Sys2Proof.Machine

/-! ## The descriptor (R361) -/

/-- Snapshot slot j, 1 to 3. -/
def State.slot (s : State) (j : Nat) : Option SnapSlot := if j = 0 then none else s.slots.getD (j - 1) none

/-- Replaces snapshot slot j. -/
def State.setSlot (s : State) (j : Nat) (k : Option SnapSlot) : State := { s with slots := s.slots.setIfInBounds (j - 1) k }

/-- The slot that a descriptor would occupy, with the translation that its addresses use. -/
def SnapSlot.ofBytes (bs : List Byte) (f : Front) (va : W64) (gen : BitVec 2) : SnapSlot :=
  let w (j : Nat) : W64 := BitVec.ofNat 64 (ofBytesLE ((bs.drop (8 * j)).take 8))
  { gen := gen, dest := w 0, base := w 1, len := w 2, notify := w 3, hold := w 4, ctrl := w 5, aspace := f.aspace, sup := f.sup,
    descVa := va, state := 0, sealed := false, fulled := false, pos := 0, err := none, line := none, due := false, batts := [] }

/-- CTRL.INCR (R361). -/
def SnapSlot.incr (k : SnapSlot) : Bool := k.ctrl.getLsbD 1

/-- May a page of DEST be written, outside the drained range (R361)? -/
def State.destOk (s : State) (a : Nat) (k : SnapSlot) (va : W64) : Bool :=
  !inWindow va &&
    (match s.check a false k.aspace k.sup .store va 1 with
     | .error _ => false
     | .ok (pa, io) => !io && (isDomain pa || decide (dataOf pa < k.base.toNat) || decide (k.base.toNat + k.len.toNat ≤ dataOf pa)))

/-- Does an address pass its checks as an access of 8 bytes, or name nothing? -/
def State.wordOk (s : State) (a : Nat) (k : SnapSlot) (acc : Acc) (va : W64) : Bool :=
  va = 0 || (match s.check a false k.aspace k.sup acc va 8 with | .ok _ => true | .error _ => false)

/-- Is a descriptor valid (R361)? `last` is its last doubleword. -/
def State.descOk (s : State) (a : Nat) (k : SnapSlot) (last : W64) : Bool :=
  k.dest.toNat % 65536 = 0 && k.base.toNat % 65536 = 0 && k.len.toNat % 65536 = 0 && k.len ≠ 0 && k.notify.toNat % 8 = 0 &&
    k.hold.toNat % 8 = 0 && k.ctrl.extractLsb' 2 30 = 0 && !k.ctrl.getLsbD 0 && last = 0 &&
    decide (k.base.toNat + k.len.toNat ≤ s.dataLimit) && decide (k.dest.toNat + k.len.toNat ≤ 2 ^ 64) &&
    s.wordOk a k .store k.notify && s.wordOk a k .load k.hold &&
    (List.range (k.len.toNat / 4096)).all fun j => s.destOk a k (k.dest + BitVec.ofNat 64 (4096 * j))

/-! ## STATE (R364) -/

/-- The fields of STATE: flags in [63:60], ERR, SLOT, GEN and DRAINED (R364). -/
def stateWord (flags err j : Nat) (gen : BitVec 2) (drained : Nat) : W64 :=
  BitVec.ofNat 4 flags ++ 0#4 ++ BitVec.ofNat 8 err ++ 0#12 ++ BitVec.ofNat 2 j ++ gen ++ BitVec.ofNat 32 drained

/-- One STATE or notify word is written, as a store of 8 bytes of the device with the live generation (R364); a write that fails
is dropped, and a notify word is counted. None when it stalls (R366). -/
def State.writeOwed (s : State) (o : Owed) : Option State :=
  match s.check deviceAgent true o.aspace o.sup .store o.va 8 with
  | .error _ => some (if o.notify then s.countDevice 0x44 1 else s)
  | .ok (pa, _) =>
    if o.notify then s.notifyWrite s.live pa o.v
    else if isDomain pa then some (s.send (deviceOf pa) (.write pa (bytesLE 8 o.v.toNat)) .none)
    else (s.write none s.live pa (bytesLE 8 o.v.toNat)).map fun s => s.noteBytes pa 8 true

/-- A word is written, or waits for a reserve batt, behind those of its descriptor (R364, R366). -/
def State.owe (s : State) (o : Owed) : State :=
  let wait : State := { s with owed := s.owed ++ [o] }
  if s.owed.any fun x => x.desc = o.desc then wait else (s.writeOwed o).getD wait

/-- The words that stall are tried again (R366). -/
def State.payOwed (s : State) : State := s.owed.foldl State.owe { s with owed := [] }

/-- The device writes the STATE word of a descriptor (R364). -/
def State.writeState (s : State) (k : SnapSlot) : State := s.owe ⟨k.descVa, k.aspace, k.sup, k.descVa + 48, k.state, false⟩

/-! ## `sys.snap` (R360) -/

/-- The lowest free slot. -/
def State.freeSlot (s : State) : Option Nat := ([1, 2, 3] : List Nat).find? fun j => (s.slot j).isNone

/-- A new tag is live: its marks are cleared on every line, and data that still carries it from four generations ago is
older than every tag in flight (R355, R358, R280). -/
def State.makeLive (s : State) (g : BitVec 2) : State :=
  { s with
    live := g
    marks := s.marks.map fun (p : Nat × BitVec 4) => (p.1, p.2 &&& ~~~(1#4 <<< g.toNat))
    bgen := s.bgen.filter fun (p : Nat × BitVec 2) => p.2 ≠ g }

/-- The live generation is frozen into slot j (R360). -/
def State.freezeLive (s : State) (a j : Nat) (k : SnapSlot) : State :=
  let k := { k with gen := s.live, state := stateWord 8 0 j s.live 0 }
  let s := (s.setSlot j (some k)).makeLive (s.live + 1)
  ((s.setFront a { s.front a with curgen := s.live }).countDevice 0x4A 1).writeState k

/-- `sys.snap` (R144, R360). -/
def execSysSnap (d ra : XReg) (s : State) : Out :=
  onFront s fun a _ => supervisorOnly s a (.sysSnap d ra) fun _ => scalarRead s a [ra] [d] fun f =>
    if s.domainBusy a then .next s
    else
      readBlock s a 15 (f.xr ra) fun bs t =>
        let k := SnapSlot.ofBytes bs f (f.xr ra) t.live
        let now (t : State) (v : W64) : Out := .next ((t.writeX a d v).retire a (f.pc + 4))
        if !t.descOk a k (BitVec.ofNat 64 (ofBytesLE (bs.drop 56))) then now t (statusWord 3)
        else if t.occupied.any fun k => k.gen = t.live + 1 then now t (statusWord 2)
        else
          match t.freeSlot with
          | none => now t (statusWord 2)
          | some j =>
            if t.free < t.flash.thr then now t (statusWord 1)
            else now (t.freezeLive a j k) (t.live.zeroExtend 64)

/-! ## Sealing (R363) -/

/-- A generation raised to the live one when it is g or older. -/
def State.raised (s : State) (g x : BitVec 2) : BitVec 2 := if s.newer x g then x else s.live

/-- Writes its save area an agent, with the CURGEN of its stop (R318, R369)? It has no point between two accesses before the
end of its save. -/
def State.saving (s : State) (a : Nat) : Bool := (s.front a).stopped && (s.launchOf a).any (·.stopping)

/-- The sweep for generation g reaches an agent: a context or drone by its number, engine thread n as 2,048 + n, or stream j of
context k as 2^40 + 8k + j (R363). -/
def State.raise (s : State) (g : BitVec 2) (a : Nat) : State :=
  if a < 2048 then (if s.saving a then s else s.setFront a { s.front a with curgen := s.raised g (s.front a).curgen })
  else if a < 2 ^ 40 then
    { s with threads := s.threads.map fun (t : Thread) => if t.id = a - 2048 then { t with gen := s.raised g t.gen } else t }
  else
    let k := (a - 2 ^ 40) / 8
    let v := s.vec k
    match v.s.getD (a % 8) none with
    | some t => s.setVec k { v with s := v.s.setIfInBounds (a % 8) (some { t with gen := s.raised g t.gen }) }
    | none => s

/-- The agents of the device, as the sweep numbers them. -/
def State.sweepList (s : State) : List Nat :=
  s.fronts.map (·.1) ++ s.threads.map (fun t => 2048 + t.id) ++
    s.vecs.flatMap fun p => (List.range 8).filterMap fun j => if (p.2.s.getD j none).isSome then some (2 ^ 40 + 8 * p.1 + j) else none

/-- Has the sweep for a generation finished: no agent writes with it, or an older one, any more (R363)? -/
def State.swept (s : State) (g : BitVec 2) : Bool :=
  (s.fronts.all fun p => s.newer p.2.curgen g) && (s.threads.all fun t => s.newer t.gen g) &&
    s.vecs.all fun p => p.2.s.toList.all fun o => o.all fun t => s.newer t.gen g

/-- SEAL (R363): the sweep reaches every agent that it has not reached, and the slot is sealed when that is done. A write carries the
generation that its agent has when it performs (R280), so that none of the slot's generation, or of an older one, is left then. -/
def execSeal (j : Nat) (s : State) : Out :=
  match s.slot j with
  | none => .next s
  | some k =>
    if k.sealed then .next s
    else
      let s := s.sweepList.foldl (fun (s : State) a => s.raise k.gen a) s
      if !s.swept k.gen then .next s
      else
        let k := { k with sealed := true, state := stateWord 12 0 j k.gen 0 }
        .next ((s.setSlot j (some k)).writeState k)

/-! ## Fulling (R365) -/

/-- The owner number of the requests of slot j. -/
def snapOwner (j : Nat) : Nat := 2 ^ 40 + j

/-- One line of fulling, `i` lines after BASE: the new state and the code of a failure (0: none). A write that stalls is kept, and
holds back no other (R366). -/
def State.fullLine (s : State) (j : Nat) (k : SnapSlot) (i : Nat) : State × Nat :=
  let data := k.base.toNat + 64 * i
  if k.incr && !(Store.get 0 s.marks (data / 64)).getLsbD k.gen.toNat then (s, 0)
  else
    let src := j * 2 ^ 44 + data
    let t := s.noteBytes src 64 false
    if s.uecc src 64 then (t, 4)
    else
      let bytes := bytesLE 64 (s.readLE src 64)
      match s.check deviceAgent true k.aspace k.sup .store (k.dest + BitVec.ofNat 64 (64 * i)) 64 with
      | .error c => (t, threadCode c)
      | .ok (pa, io) =>
        if io then (t, 2)
        else if isDomain pa then (t.send (deviceOf pa) (.write pa bytes) (.bytes (.device (snapOwner j)) pa 64), 0)
        else (t.writeNoted (.fulling j) s.live pa bytes, 0)

/-- The code of an error that another device has answered a fulling write with (R214, R365). -/
def State.fullingError (s : State) (j : Nat) : Option Nat :=
  s.arrived.findSome? fun r =>
    if r.owner = .device (snapOwner j) then (match r.reply with
      | .status 0 => none
      | .status n => some (threadCode (remoteCode n))
      | .data _ => none)
    else none

/-- Fulling goes on by up to n lines: to a failure, or to the end of a batt whose lines on another device have still to be answered.
An answer that is an error stops it in that batt. -/
def State.fullLines (s : State) (j : Nat) : Nat → State
  | 0 => s
  | n + 1 =>
    match s.slot j with
    | none => s
    | some k =>
      match s.fullingError j with
      | some c => s.setSlot j (some { k with err := some c, pos := (k.pos - 1) / 1024 * 1024 })
      | none =>
        if k.len.toNat / 64 ≤ k.pos || (k.pos % 1024 = 0 && s.devWaits (snapOwner j)) then s
        else
          match s.fullLine j k k.pos with
          | (t, 0) => State.fullLines (t.setSlot j ((t.slot j).map fun x => { x with pos := k.pos + 1 })) j n
          | (t, c) => t.setSlot j ((t.slot j).map fun x => { x with err := some c })

/-- A move of the fulling of slot j by n lines, as far as it may go for n = 0 (R365). -/
def State.fullMove (s : State) (j n : Nat) : State :=
  match s.slot j with
  | none => s
  | some k => if !k.sealed || k.fulled || k.err.isSome then s else s.fullLines j (if n = 0 then k.len.toNat / 64 - k.pos + 1 else n)

/-- The end of fulling: STATE receives DONE, its value goes to NOTIFY, and the hold word is read (R364, R365, R367). -/
def State.endFulling (s : State) (j : Nat) (k : SnapSlot) : State :=
  let k := { k with fulled := true, due := true, state := stateWord 14 (k.err.getD 0) j k.gen (k.pos / 1024) }
  let s := ((s.dropArrived (.device (snapOwner j))).setSlot j (some k)).writeState k
  if k.notify = 0 then s else s.owe ⟨k.descVa, k.aspace, k.sup, k.notify, k.state, true⟩

/-- FULLING_END (R365): what is left to move moves, and fulling ends when every write has performed or been answered. -/
def execFullingEnd (j : Nat) (s : State) : Out :=
  let s := s.fullMove j 0
  match s.slot j with
  | none => .next s
  | some k =>
    if !k.sealed || k.fulled || s.isStuck (.fulling j) || s.devWaits (snapOwner j) || (k.err.isNone && decide (k.pos < k.len.toNat / 64)) then .next s
    else .next (s.endFulling j k)

/-! ## Release (R367) -/

/-- Slot j is released: the batts that only it used are free again, and STATE receives RELEASED (R364, R367). -/
def State.releaseSlot (s : State) (j : Nat) (k : SnapSlot) : State :=
  ((s.dropArrived (.device (snapOwner j))).setSlot j none).writeState { k with state := k.state ||| (1#64 <<< 60) }

/-- One read of a hold word (R367): the slot is released when it is 0, or when there is none. A read that fails is no 0. -/
def State.holdRead (s : State) (j : Nat) : State :=
  match s.slot j with
  | none => s
  | some k =>
    if !k.fulled then s
    else if k.hold = 0 then s.releaseSlot j k
    else
      let found := s.devRead (snapOwner j) k.aspace k.sup k.hold 8
      let seen (s : State) : State :=
        (s.dropArrived (.device (snapOwner j))).setSlot j (some { k with line := found.pa?.map lineOf, due := false })
      match found with
      | .fault _ | .zero => seen s
      | .ask pa => s.askFor (.device (snapOwner j)) pa 8
      | f =>
        let s := match f with | .at_ pa => s.noteBytes pa 8 false | _ => s
        if s.foundValue 8 f = 0 then s.releaseSlot j k else seen s

/-- The reads of hold words that are due (R367). -/
def State.holdDue (s : State) : State :=
  ([1, 2, 3] : List Nat).foldl (fun s j => match s.slot j with
    | some k => if k.due then s.holdRead j else s
    | none => s) s

/-- HOLD_WORD_READ (R367). -/
def execHoldWordRead (j : Nat) (s : State) : Out := .next (s.holdRead j)

/-- HOLD_POLL_TIMER (R367). -/
def execHoldPollTimer (j : Nat) (s : State) : Out := .next (s.holdRead j)

end Sys2Proof.Machine
end

