-- ==== Sys2Proof/Machine/Dispatch.lean ====
section
/-! DEFINITION. The meaning of every instruction and event, arm by arm. -/
namespace Sys2Proof.Machine

/-- The effect of an instruction or event. -/
def exec (i : Instr) (s : State) : Host.Outcome State Fault Refusal :=
  match i with
  | .sopAdd d a b => Sys2Proof.Machine.execSopAdd d a b s
  | .sopSub d a b => Sys2Proof.Machine.execSopSub d a b s
  | .sopAnd d a b => Sys2Proof.Machine.execSopAnd d a b s
  | .sopOr d a b => Sys2Proof.Machine.execSopOr d a b s
  | .sopXor d a b => Sys2Proof.Machine.execSopXor d a b s
  | .sopSll d a b => Sys2Proof.Machine.execSopSll d a b s
  | .sopSrl d a b => Sys2Proof.Machine.execSopSrl d a b s
  | .sopSra d a b => Sys2Proof.Machine.execSopSra d a b s
  | .sopSlt d a b => Sys2Proof.Machine.execSopSlt d a b s
  | .sopSltu d a b => Sys2Proof.Machine.execSopSltu d a b s
  | .sopMin d a b => Sys2Proof.Machine.execSopMin d a b s
  | .sopMax d a b => Sys2Proof.Machine.execSopMax d a b s
  | .sopMinu d a b => Sys2Proof.Machine.execSopMinu d a b s
  | .sopMaxu d a b => Sys2Proof.Machine.execSopMaxu d a b s
  | .sopMul d a b => Sys2Proof.Machine.execSopMul d a b s
  | .sopMulh d a b => Sys2Proof.Machine.execSopMulh d a b s
  | .sopMulhu d a b => Sys2Proof.Machine.execSopMulhu d a b s
  | .sopDiv d a b => Sys2Proof.Machine.execSopDiv d a b s
  | .sopDivu d a b => Sys2Proof.Machine.execSopDivu d a b s
  | .sopRem d a b => Sys2Proof.Machine.execSopRem d a b s
  | .sopRemu d a b => Sys2Proof.Machine.execSopRemu d a b s
  | .sopClz d a => Sys2Proof.Machine.execSopClz d a s
  | .sopCtz d a => Sys2Proof.Machine.execSopCtz d a s
  | .sopPopc d a => Sys2Proof.Machine.execSopPopc d a s
  | .sopBrev d a => Sys2Proof.Machine.execSopBrev d a s
  | .sopSextB d a => Sys2Proof.Machine.execSopSextB d a s
  | .sopSextH d a => Sys2Proof.Machine.execSopSextH d a s
  | .sopSextW d a => Sys2Proof.Machine.execSopSextW d a s
  | .sopZextB d a => Sys2Proof.Machine.execSopZextB d a s
  | .sopZextH d a => Sys2Proof.Machine.execSopZextH d a s
  | .sopZextW d a => Sys2Proof.Machine.execSopZextW d a s
  | .sopMod383 d a => Sys2Proof.Machine.execSopMod383 d a s
  | .sopDiv383 d a => Sys2Proof.Machine.execSopDiv383 d a s
  | .sopiAddi d a imm => Sys2Proof.Machine.execSopiAddi d a imm s
  | .sopiAndi d a imm => Sys2Proof.Machine.execSopiAndi d a imm s
  | .sopiOri d a imm => Sys2Proof.Machine.execSopiOri d a imm s
  | .sopiXori d a imm => Sys2Proof.Machine.execSopiXori d a imm s
  | .sopiSlti d a imm => Sys2Proof.Machine.execSopiSlti d a imm s
  | .sopiSltiu d a imm => Sys2Proof.Machine.execSopiSltiu d a imm s
  | .sopiShiSll d a sh => Sys2Proof.Machine.execSopiShiSll d a sh s
  | .sopiShiSrl d a sh => Sys2Proof.Machine.execSopiShiSrl d a sh s
  | .sopiShiSra d a sh => Sys2Proof.Machine.execSopiShiSra d a sh s
  | .sopiMuli d a imm => Sys2Proof.Machine.execSopiMuli d a imm s
  | .lui d imm => Sys2Proof.Machine.execLui d imm s
  | .auipc d imm => Sys2Proof.Machine.execAuipc d imm s
  | .ldB d a cls off => Sys2Proof.Machine.execLdB d a cls off s
  | .ldH d a cls off => Sys2Proof.Machine.execLdH d a cls off s
  | .ldW d a cls off => Sys2Proof.Machine.execLdW d a cls off s
  | .ldD d a cls off => Sys2Proof.Machine.execLdD d a cls off s
  | .ldBu d a cls off => Sys2Proof.Machine.execLdBu d a cls off s
  | .ldHu d a cls off => Sys2Proof.Machine.execLdHu d a cls off s
  | .ldWu d a cls off => Sys2Proof.Machine.execLdWu d a cls off s
  | .stB d a cls off => Sys2Proof.Machine.execStB d a cls off s
  | .stH d a cls off => Sys2Proof.Machine.execStH d a cls off s
  | .stW d a cls off => Sys2Proof.Machine.execStW d a cls off s
  | .stD d a cls off => Sys2Proof.Machine.execStD d a cls off s
  | .amoSwap d a b cls sc => Sys2Proof.Machine.execAmoSwap d a b cls sc s
  | .amoAdd d a b cls sc => Sys2Proof.Machine.execAmoAdd d a b cls sc s
  | .amoAnd d a b cls sc => Sys2Proof.Machine.execAmoAnd d a b cls sc s
  | .amoOr d a b cls sc => Sys2Proof.Machine.execAmoOr d a b cls sc s
  | .amoXor d a b cls sc => Sys2Proof.Machine.execAmoXor d a b cls sc s
  | .amoMin d a b cls sc => Sys2Proof.Machine.execAmoMin d a b cls sc s
  | .amoMax d a b cls sc => Sys2Proof.Machine.execAmoMax d a b cls sc s
  | .amoMinu d a b cls sc => Sys2Proof.Machine.execAmoMinu d a b cls sc s
  | .amoMaxu d a b cls sc => Sys2Proof.Machine.execAmoMaxu d a b cls sc s
  | .amoCas d a b cls sc => Sys2Proof.Machine.execAmoCas d a b cls sc s
  | .amoSwapW d a b cls sc => Sys2Proof.Machine.execAmoSwapW d a b cls sc s
  | .amoAddW d a b cls sc => Sys2Proof.Machine.execAmoAddW d a b cls sc s
  | .amoAndW d a b cls sc => Sys2Proof.Machine.execAmoAndW d a b cls sc s
  | .amoOrW d a b cls sc => Sys2Proof.Machine.execAmoOrW d a b cls sc s
  | .amoXorW d a b cls sc => Sys2Proof.Machine.execAmoXorW d a b cls sc s
  | .amoMinW d a b cls sc => Sys2Proof.Machine.execAmoMinW d a b cls sc s
  | .amoMaxW d a b cls sc => Sys2Proof.Machine.execAmoMaxW d a b cls sc s
  | .amoMinuW d a b cls sc => Sys2Proof.Machine.execAmoMinuW d a b cls sc s
  | .amoMaxuW d a b cls sc => Sys2Proof.Machine.execAmoMaxuW d a b cls sc s
  | .amoCasW d a b cls sc => Sys2Proof.Machine.execAmoCasW d a b cls sc s
  | .brEq a b off => Sys2Proof.Machine.execBrEq a b off s
  | .brNe a b off => Sys2Proof.Machine.execBrNe a b off s
  | .brLt a b off => Sys2Proof.Machine.execBrLt a b off s
  | .brGe a b off => Sys2Proof.Machine.execBrGe a b off s
  | .brLtu a b off => Sys2Proof.Machine.execBrLtu a b off s
  | .brGeu a b off => Sys2Proof.Machine.execBrGeu a b off s
  | .jal d off => Sys2Proof.Machine.execJal d off s
  | .jalr d a off => Sys2Proof.Machine.execJalr d a off s
  | .sysCsrRw d a n => Sys2Proof.Machine.execSysCsrRw d a n s
  | .sysCsrRs d a n => Sys2Proof.Machine.execSysCsrRs d a n s
  | .sysCsrRc d a n => Sys2Proof.Machine.execSysCsrRc d a n s
  | .sysFenceC mask => Sys2Proof.Machine.execSysFenceC mask s
  | .sysFenceS sc => Sys2Proof.Machine.execSysFenceS sc s
  | .sysTrap code => Sys2Proof.Machine.execSysTrap code s
  | .sysEret => Sys2Proof.Machine.execSysEret s
  | .sysWfe a => Sys2Proof.Machine.execSysWfe a s
  | .sysHalt => Sys2Proof.Machine.execSysHalt s
  | .sysYield => Sys2Proof.Machine.execSysYield s
  | .sysTime d => Sys2Proof.Machine.execSysTime d s
  | .sysCycle d => Sys2Proof.Machine.execSysCycle d s
  | .sysSnap d a => Sys2Proof.Machine.execSysSnap d a s
  | .sysGen d => Sys2Proof.Machine.execSysGen d s
  | .sysLaunch d a => Sys2Proof.Machine.execSysLaunch d a s
  | .sysTlbFlush a b => Sys2Proof.Machine.execSysTlbFlush a b s
  | .sysAspace d a => Sys2Proof.Machine.execSysAspace d a s
  | .vcfgSetl d a b => Sys2Proof.Machine.execVcfgSetl d a b s
  | .vcfgSettype d a => Sys2Proof.Machine.execVcfgSettype d a s
  | .vcfgTag d code => Sys2Proof.Machine.execVcfgTag d code s
  | .vcfgGetmax d a => Sys2Proof.Machine.execVcfgGetmax d a s
  | .vcfgLanereq d a => Sys2Proof.Machine.execVcfgLanereq d a s
  | .vopAdd d a src m => Sys2Proof.Machine.execVopAdd d a src m s
  | .vopSub d a src m => Sys2Proof.Machine.execVopSub d a src m s
  | .vopRsub d a src m => Sys2Proof.Machine.execVopRsub d a src m s
  | .vopMin d a src m => Sys2Proof.Machine.execVopMin d a src m s
  | .vopMax d a src m => Sys2Proof.Machine.execVopMax d a src m s
  | .vopAnd d a src m => Sys2Proof.Machine.execVopAnd d a src m s
  | .vopOr d a src m => Sys2Proof.Machine.execVopOr d a src m s
  | .vopXor d a src m => Sys2Proof.Machine.execVopXor d a src m s
  | .vopSll d a src m => Sys2Proof.Machine.execVopSll d a src m s
  | .vopSrl d a src m => Sys2Proof.Machine.execVopSrl d a src m s
  | .vopSra d a src m => Sys2Proof.Machine.execVopSra d a src m s
  | .vopNeg d a m => Sys2Proof.Machine.execVopNeg d a m s
  | .vopAbs d a m => Sys2Proof.Machine.execVopAbs d a m s
  | .vopMul d a src m => Sys2Proof.Machine.execVopMul d a src m s
  | .vopMulh d a src m => Sys2Proof.Machine.execVopMulh d a src m s
  | .vopMacc d a src m => Sys2Proof.Machine.execVopMacc d a src m s
  | .vopNmsac d a src m => Sys2Proof.Machine.execVopNmsac d a src m s
  | .vopAvg d a src m => Sys2Proof.Machine.execVopAvg d a src m s
  | .vopShrRnd d a src m => Sys2Proof.Machine.execVopShrRnd d a src m s
  | .vopCmpEq d a src m => Sys2Proof.Machine.execVopCmpEq d a src m s
  | .vopCmpNe d a src m => Sys2Proof.Machine.execVopCmpNe d a src m s
  | .vopCmpLt d a src m => Sys2Proof.Machine.execVopCmpLt d a src m s
  | .vopCmpLe d a src m => Sys2Proof.Machine.execVopCmpLe d a src m s
  | .vopMerge d a b m => Sys2Proof.Machine.execVopMerge d a b m s
  | .vopMv d src m => Sys2Proof.Machine.execVopMv d src m s
  | .vopSplat d src m => Sys2Proof.Machine.execVopSplat d src m s
  | .vopCvt form d a m => Sys2Proof.Machine.execVopCvt form d a m s
  | .vopCvtSat form d a m => Sys2Proof.Machine.execVopCvtSat form d a m s
  | .vopFclass dst a m => Sys2Proof.Machine.execVopFclass dst a m s
  | .vrotCirRot d a start n g m => Sys2Proof.Machine.execVrotCirRot d a start n g m s
  | .vrotCirVec d a start n g m => Sys2Proof.Machine.execVrotCirVec d a start n g m s
  | .vrotHypRot d a start n g m => Sys2Proof.Machine.execVrotHypRot d a start n g m s
  | .vrotHypVec d a start n g m => Sys2Proof.Machine.execVrotHypVec d a start n g m s
  | .vrotLinRot d a start n g m => Sys2Proof.Machine.execVrotLinRot d a start n g m s
  | .vrotLinVec d a start n g m => Sys2Proof.Machine.execVrotLinVec d a start n g m s
  | .vfnSinCos d a m => Sys2Proof.Machine.execVfnSinCos d a m s
  | .vfnExp d a m => Sys2Proof.Machine.execVfnExp d a m s
  | .vfnExp2 d a m => Sys2Proof.Machine.execVfnExp2 d a m s
  | .vfnLn d a m => Sys2Proof.Machine.execVfnLn d a m s
  | .vfnLog2 d a m => Sys2Proof.Machine.execVfnLog2 d a m s
  | .vfnSqrt d a m => Sys2Proof.Machine.execVfnSqrt d a m s
  | .vfnRsqrt d a m => Sys2Proof.Machine.execVfnRsqrt d a m s
  | .vfnRecip d a m => Sys2Proof.Machine.execVfnRecip d a m s
  | .vfnDiv d a src m => Sys2Proof.Machine.execVfnDiv d a src m s
  | .vfnAtan2 d a src m => Sys2Proof.Machine.execVfnAtan2 d a src m s
  | .vfnHypot d a src m => Sys2Proof.Machine.execVfnHypot d a src m s
  | .vfnTanh d a m => Sys2Proof.Machine.execVfnTanh d a m s
  | .vfnSigm d a m => Sys2Proof.Machine.execVfnSigm d a m s
  | .vfnGelu d a m => Sys2Proof.Machine.execVfnGelu d a m s
  | .vfnSoftx d a src m => Sys2Proof.Machine.execVfnSoftx d a src m s
  | .vfnUfn slot d a src m => Sys2Proof.Machine.execVfnUfn slot d a src m s
  | .vredRedsum d a src m => Sys2Proof.Machine.execVredRedsum d a src m s
  | .vredRedsumOrd d a src m => Sys2Proof.Machine.execVredRedsumOrd d a src m s
  | .vredRedsumW d a b m => Sys2Proof.Machine.execVredRedsumW d a b m s
  | .vredRedmax d a src m => Sys2Proof.Machine.execVredRedmax d a src m s
  | .vredRedmin d a src m => Sys2Proof.Machine.execVredRedmin d a src m s
  | .vredRedand d a src m => Sys2Proof.Machine.execVredRedand d a src m s
  | .vredRedor d a src m => Sys2Proof.Machine.execVredRedor d a src m s
  | .vredScanAdd d a src m => Sys2Proof.Machine.execVredScanAdd d a src m s
  | .vredScanMax d a src m => Sys2Proof.Machine.execVredScanMax d a src m s
  | .vredMaskAnd d a b m => Sys2Proof.Machine.execVredMaskAnd d a b m s
  | .vredMaskOr d a b m => Sys2Proof.Machine.execVredMaskOr d a b m s
  | .vredMaskXor d a b m => Sys2Proof.Machine.execVredMaskXor d a b m s
  | .vredMaskAndn d a b m => Sys2Proof.Machine.execVredMaskAndn d a b m s
  | .vredMaskFirst d a m => Sys2Proof.Machine.execVredMaskFirst d a m s
  | .vredMaskCount d a m => Sys2Proof.Machine.execVredMaskCount d a m s
  | .vredMaskCutoff a m => Sys2Proof.Machine.execVredMaskCutoff a m s
  | .vredMaskThru a m => Sys2Proof.Machine.execVredMaskThru a m s
  | .vredIota d m => Sys2Proof.Machine.execVredIota d m s
  | .vpermSlideup d a src m => Sys2Proof.Machine.execVpermSlideup d a src m s
  | .vpermSlidedown d a src m => Sys2Proof.Machine.execVpermSlidedown d a src m s
  | .vpermSlide1up d a b m => Sys2Proof.Machine.execVpermSlide1up d a b m s
  | .vpermSlide1down d a b m => Sys2Proof.Machine.execVpermSlide1down d a b m s
  | .vpermGather d a src m => Sys2Proof.Machine.execVpermGather d a src m s
  | .vpermCompress d a b => Sys2Proof.Machine.execVpermCompress d a b s
  | .vpermExpand d a b => Sys2Proof.Machine.execVpermExpand d a b s
  | .vpermReshape d a b => Sys2Proof.Machine.execVpermReshape d a b s
  | .vpermExtract d a b m => Sys2Proof.Machine.execVpermExtract d a b m s
  | .vpermInsert d a b m => Sys2Proof.Machine.execVpermInsert d a b m s
  | .vldUnit d a cls h m => Sys2Proof.Machine.execVldUnit d a cls h m s
  | .vldStr d a b cls h m => Sys2Proof.Machine.execVldStr d a b cls h m s
  | .vld2d d a b cls h m => Sys2Proof.Machine.execVld2d d a b cls h m s
  | .vldIdx d a b cls h m => Sys2Proof.Machine.execVldIdx d a b cls h m s
  | .vldFf d a cls h m => Sys2Proof.Machine.execVldFf d a cls h m s
  | .vldShape d a b cls h m => Sys2Proof.Machine.execVldShape d a b cls h m s
  | .vstUnit d a cls h m => Sys2Proof.Machine.execVstUnit d a cls h m s
  | .vstStr d a b cls h m => Sys2Proof.Machine.execVstStr d a b cls h m s
  | .vst2d d a b cls h m => Sys2Proof.Machine.execVst2d d a b cls h m s
  | .vstIdx d a b cls h m => Sys2Proof.Machine.execVstIdx d a b cls h m s
  | .vstMx d a cls h m => Sys2Proof.Machine.execVstMx d a cls h m s
  | .vstShape d a b cls h m => Sys2Proof.Machine.execVstShape d a b cls h m s
  | .strmBind d a => Sys2Proof.Machine.execStrmBind d a s
  | .strmBindOut d a => Sys2Proof.Machine.execStrmBindOut d a s
  | .strmFree d => Sys2Proof.Machine.execStrmFree d s
  | .strmStatus d a => Sys2Proof.Machine.execStrmStatus d a s
  | .strmSkip d a => Sys2Proof.Machine.execStrmSkip d a s
  | .sclLd a b => Sys2Proof.Machine.execSclLd a b s
  | .sclSt a b => Sys2Proof.Machine.execSclSt a b s
  | .sclTov d => Sys2Proof.Machine.execSclTov d s
  | .sclFromv a => Sys2Proof.Machine.execSclFromv a s
  | .copyCopy d a b cls => Sys2Proof.Machine.execCopyCopy d a b cls s
  | .copyCopy2d d a b cls => Sys2Proof.Machine.execCopyCopy2d d a b cls s
  | .copyFill d a b cls => Sys2Proof.Machine.execCopyFill d a b cls s
  | .matWld d a ws => Sys2Proof.Machine.execMatWld d a ws s
  | .matMma fd ac ws sp last first => Sys2Proof.Machine.execMatMma fd ac ws sp last first s
  | .matAnchor ac a => Sys2Proof.Machine.execMatAnchor ac a s
  | .matBel d clr => Sys2Proof.Machine.execMatBel d clr s
  | .matSlot d fd => Sys2Proof.Machine.execMatSlot d fd s
  | .matFeed fd a b => Sys2Proof.Machine.execMatFeed fd a b s
  | .matFeedEnd fd code => Sys2Proof.Machine.execMatFeedEnd fd code s
  | .matDrain d a ac => Sys2Proof.Machine.execMatDrain d a ac s
  | .matDrainEnd ac => Sys2Proof.Machine.execMatDrainEnd ac s
  | .fabEnq d a b cls => Sys2Proof.Machine.execFabEnq d a b cls s
  | .fabAdd96 d a b cls => Sys2Proof.Machine.execFabAdd96 d a b cls s
  | .fabNotify a b cls => Sys2Proof.Machine.execFabNotify a b cls s
  | .vectorCommit k => Sys2Proof.Machine.execVectorCommit k s
  | .memReadPerform ag ix => Sys2Proof.Machine.execMemReadPerform ag ix s
  | .memWritePerform ag ix => Sys2Proof.Machine.execMemWritePerform ag ix s
  | .wfeWake ag => Sys2Proof.Machine.execWfeWake ag s
  | .kernelHaltComplete ag => Sys2Proof.Machine.execKernelHaltComplete ag s
  | .vectorIssue k => Sys2Proof.Machine.execVectorIssue k s
  | .streamFetch k j => Sys2Proof.Machine.execStreamFetch k j s
  | .streamWriteback k j => Sys2Proof.Machine.execStreamWriteback k j s
  | .mmaComplete c => Sys2Proof.Machine.execMmaComplete c s
  | .bellowsStallResume c => Sys2Proof.Machine.execBellowsStallResume c s
  | .engineThreadStart t => Sys2Proof.Machine.execEngineThreadStart t s
  | .wldComplete t => Sys2Proof.Machine.execWldComplete t s
  | .add96Perform t => Sys2Proof.Machine.execAdd96Perform t s
  | .copyComplete t => Sys2Proof.Machine.execCopyComplete t s
  | .launchStop seq => Sys2Proof.Machine.execLaunchStop seq s
  | .launchEnd seq => Sys2Proof.Machine.execLaunchEnd seq s
  | .launchPlace => Sys2Proof.Machine.execLaunchPlace s
  | .seal slot => Sys2Proof.Machine.execSeal slot s
  | .fullingEnd slot => Sys2Proof.Machine.execFullingEnd slot s
  | .holdWordRead slot => Sys2Proof.Machine.execHoldWordRead slot s
  | .launchEligibilityRead seq => Sys2Proof.Machine.execLaunchEligibilityRead seq s
  | .saveAreaWritten seq => Sys2Proof.Machine.execSaveAreaWritten seq s
  | .launchRestart seq => Sys2Proof.Machine.execLaunchRestart seq s
  | .yieldIdleEnd ag => Sys2Proof.Machine.execYieldIdleEnd ag s
  | .setlGrantSwitch k => Sys2Proof.Machine.execSetlGrantSwitch k s
  | .cowStallResume ag ix => Sys2Proof.Machine.execCowStallResume ag ix s
  | .pageWalkComplete ag va => Sys2Proof.Machine.execPageWalkComplete ag va s
  | .mmaStart c => Sys2Proof.Machine.execMmaStart c s
  | .aftdepPollTimer seq => Sys2Proof.Machine.execAftdepPollTimer seq s
  | .preemptByPriority => Sys2Proof.Machine.execPreemptByPriority s
  | .laneArbiterRecompute g => Sys2Proof.Machine.execLaneArbiterRecompute g s
  | .holdPollTimer slot => Sys2Proof.Machine.execHoldPollTimer slot s
  | .droopAlarm c mv => Sys2Proof.Machine.execDroopAlarm c mv s
  | .stretchEnd c => Sys2Proof.Machine.execStretchEnd c s
  | .halfRateWindowEnd c => Sys2Proof.Machine.execHalfRateWindowEnd c s
  | .powerControlTick mw mdeg => Sys2Proof.Machine.execPowerControlTick mw mdeg s
  | .sensorSample sensor value => Sys2Proof.Machine.execSensorSample sensor value s
  | .notifyWindowEnd k => Sys2Proof.Machine.execNotifyWindowEnd k s
  | .laneRetire g j => Sys2Proof.Machine.execLaneRetire g j s
  | .patrolScrub line => Sys2Proof.Machine.execPatrolScrub line s
  | .weightScrub c ws row => Sys2Proof.Machine.execWeightScrub c ws row s
  | .tracePostEnd => Sys2Proof.Machine.execTracePostEnd s
  | .timeSyncTimer => Sys2Proof.Machine.execTimeSyncTimer s
  | .timingPacket master rtt => Sys2Proof.Machine.execTimingPacket master rtt s
  | .ngReadRequest src rseq run more => Sys2Proof.Machine.execNgReadRequest src rseq run more s
  | .ngWrite src rseq addr what => Sys2Proof.Machine.execNgWrite src rseq addr what s
  | .ngAmo src rseq addr aop op expect => Sys2Proof.Machine.execNgAmo src rseq addr aop op expect s
  | .ngAdd96 src rseq addr v => Sys2Proof.Machine.execNgAdd96 src rseq addr v s
  | .ngNotify src rseq addr v => Sys2Proof.Machine.execNgNotify src rseq addr v s
  | .ngEnqueue src rseq host queue bytes => Sys2Proof.Machine.execNgEnqueue src rseq host queue bytes s
  | .ngResponse rseq reply => Sys2Proof.Machine.execNgResponse rseq reply s
  | .ngAck port upTo => Sys2Proof.Machine.execNgAck port upTo s
  | .ngCrcReplay port fromSeq => Sys2Proof.Machine.execNgCrcReplay port fromSeq s
  | .ngPortDown port => Sys2Proof.Machine.execNgPortDown port s
  | .ngRouteLost dev => Sys2Proof.Machine.execNgRouteLost dev s
  | .powerGoodBoot => Sys2Proof.Machine.execPowerGoodBoot s
  | .bringupFunctionReady fn => Sys2Proof.Machine.execBringupFunctionReady fn s
  | .vtypeCsrWrite v => Sys2Proof.Machine.execVtypeCsrWrite v s
  | .aspaceCsrWrite v => Sys2Proof.Machine.execAspaceCsrWrite v s
  | .lanepartWrite v => Sys2Proof.Machine.execLanepartWrite v s
  | .lanereqCsrWrite v => Sys2Proof.Machine.execLanereqCsrWrite v s
  | .belstatFullClear v => Sys2Proof.Machine.execBelstatFullClear v s
  | .ufndataAccess wr => Sys2Proof.Machine.execUfndataAccess wr s
  | .ufnvalidWrite v => Sys2Proof.Machine.execUfnvalidWrite v s
  | .notifybaseWrite v => Sys2Proof.Machine.execNotifybaseWrite v s
  | .evsWrite n v => Sys2Proof.Machine.execEvsWrite n v s
  | .bprun v => Sys2Proof.Machine.execBprun v s
  | .trgctlFire v => Sys2Proof.Machine.execTrgctlFire v s
  | .smpctlWrite v => Sys2Proof.Machine.execSmpctlWrite v s
  | .trcctlWrite v => Sys2Proof.Machine.execTrcctlWrite v s
  | .trcdataRead => Sys2Proof.Machine.execTrcdataRead s
  | .csrWriteGeneric n v => Sys2Proof.Machine.execCsrWriteGeneric n v s
  | .smbReadReady => Sys2Proof.Machine.execSmbReadReady s
  | .smbPowerLimit setTo => Sys2Proof.Machine.execSmbPowerLimit setTo s
  | .smbSensorRead code => Sys2Proof.Machine.execSmbSensorRead code s
  | .smbReset value => Sys2Proof.Machine.execSmbReset value s
  | .smbFireSoft => Sys2Proof.Machine.execSmbFireSoft s
  | .smbFlashImage image signed => Sys2Proof.Machine.execSmbFlashImage image signed s
  | .jtagBypass => Sys2Proof.Machine.execJtagBypass s
  | .jtagIdcode => Sys2Proof.Machine.execJtagIdcode s
  | .jtagSamplePreload => Sys2Proof.Machine.execJtagSamplePreload s
  | .jtagExtest => Sys2Proof.Machine.execJtagExtest s
  | .ngRouteReturn dev => Sys2Proof.Machine.execNgRouteReturn dev s

end Sys2Proof.Machine
end

