-- ==== Sys2Proof/Machine/Schedule.lean ====
section
/-! DEFINITION. What moves next (log 2): the head of State.sched, or one of the units that have work. -/
namespace Sys2Proof.Machine

/-- The work that a front may have: its next instruction, its pending accesses, its wait, its halt. A wait ends for the
monitor, a pre-emption request, or when `due` says so (R139). -/
def Front.work (a : Nat) (f : Front) (due : Bool) : List Choice :=
  (if f.run = .running && !f.frozen && !f.stopped then [.front a false] else []) ++
  (f.acc.zipIdx.map fun p => match p.1.kind with
    | .load .. => .event (.memReadPerform a p.2)
    | _ => .event (.memWritePerform a p.2)) ++
  (match f.run with
    | .waiting => if f.monEvent || f.preempt || due then [.event (.wfeWake a)] else []
    | .yielding => [.idleEnd a]
    | .halting => [.event (.kernelHaltComplete a)]
    | _ => [])

/-- The work of a vector side: issue, the entries in flight, commit, streams. -/
def Vec.work (k : Nat) (v : Vec) : List Choice :=
  (if v.viq.isEmpty then [] else [.event (.vectorIssue k)]) ++
  (if v.infl.head?.any (·.done) then [.event (.vectorCommit k)] else []) ++
  (v.infl.zipIdx.filterMap fun p => if p.1.done then none else some (.vector k p.2 0)) ++
  (v.s.toList.zipIdx.flatMap fun p => match p.1 with
    | some t => [.event (if t.out then .streamWriteback k (BitVec.ofNat 3 p.2) else .streamFetch k (BitVec.ofNat 3 p.2))]
    | none => [])

/-- The work of a cluster's array. -/
def Cluster.work (c : Nat) (x : Cluster) : List Choice :=
  (if x.queue.isEmpty && x.mma.isNone then [] else [.array c]) ++ (if x.mma.isSome then [.event (.mmaComplete c)] else []) ++
  (if x.stalled then [.event (.bellowsStallResume c)] else [])

/-- The work of an engine thread. -/
def Thread.work (t : Thread) : List Choice :=
  if !t.started then [.event (.engineThreadStart t.id)]
  else
    match t.kind with
    | .wld .. => [.event (.wldComplete t.id)]
    | .add96 .. => [.event (.add96Perform t.id)]
    | _ => [.event (.copyComplete t.id)]

/-- The work of a placed launch. -/
def Placed.work (p : Placed) : List Choice :=
  [.event (if p.saved.isSome then .saveAreaWritten p.seq else if p.restoring.isSome then .launchRestart p.seq
    else if p.stopping then .launchStop p.seq else .launchEnd p.seq)]

/-- The work of a record in a queue: its after-dependency is read until it is eligible. -/
def Queued.work (q : Queued) : List Choice := if q.eligible.isSome then [] else [.event (.launchEligibilityRead q.seq)]

/-- The work of a core: its arbiter. -/
def Core.work (g : Nat) (c : Core) : List Choice := if c.arb then [.arbiter g] else []

/-- The work of a snapshot slot. -/
def SnapSlot.work (j : Nat) (k : SnapSlot) : List Choice :=
  [.event (if !k.sealed then .seal j else if !k.fulled then .fullingEnd j else .holdWordRead j)]

/-- May a wait end for another cause (R139, R311; log 36)? The launch has faulted, or a TIME boundary comes: in this
order, 64 of every 1,024 steps. -/
def State.waitDue (s : State) (a : Nat) : Bool := s.peerFatal a || s.freeCtr / 64 % 16 = 15

/-- Everything that may move when the schedule is empty. -/
def State.work (s : State) : List Choice :=
  (s.fronts.flatMap fun p => p.2.work p.1 (s.waitDue p.1)) ++ (s.vecs.flatMap fun p => p.2.work p.1) ++
  (s.clusters.flatMap fun p => p.2.work p.1) ++ (s.threads.flatMap Thread.work) ++
  (s.placed.flatMap Placed.work) ++
  (s.cores.flatMap fun p => p.2.work p.1) ++ (s.queues.toList.flatMap fun l => l.flatMap Queued.work) ++
  (if s.queues.toList.any (fun q => !q.isEmpty) then [.event .launchPlace, .event .preemptByPriority] else []) ++
  (if s.traceEnded then [.event .tracePostEnd] else []) ++
  (s.slots.toList.zipIdx.flatMap fun p => match p.1 with
    | some k => SnapSlot.work (p.2 + 1) k
    | none => [])

/-- What moves next: the head of the schedule, or the work in turn by the step's number; none when nothing has
work and time just passes. -/
def State.nextChoice (s : State) : Option (Choice × State) :=
  match s.sched with
  | c :: rest => some (c, { s with sched := rest })
  | [] => (s.work[s.freeCtr % s.work.length]?).map fun c => (c, s)

/-- The cluster whose clock a choice shows. -/
def State.clusterAt (s : State) : Choice → Nat
  | .front a _ | .idleEnd a => clusterOf a
  | .vector k _ _ => clusterOf k
  | .array c => c
  | .arbiter g => g / 4
  | .thread t _ => ((s.thread t).map fun t => clusterOf t.agent).getD 0
  | .event (.vectorIssue k) | .event (.vectorCommit k) | .event (.setlGrantSwitch k) => clusterOf k
  | .event (.mmaStart c) | .event (.mmaComplete c) | .event (.bellowsStallResume c) => c
  | .save .. | .fulling .. | .raise .. | .timing .. | .event _ => 0

/-- The clock edges that pass before a choice at the least: one when the scalar front, or the vector issue of the context, has
issued since the last edge (R246, R248, R315). -/
def State.edgesBefore (s : State) : Choice → Nat
  | .front a _ =>
    if isDrone a then (if (s.cluster (clusterOf a)).dshown.isSome then 1 else 0)
    else if (s.core (coreOf a)).shown.isSome then 1 else 0
  | .event (.vectorIssue k) => if (s.core (coreOf k)).vshown.any fun p => p.1 = ctxOf k then 1 else 0
  | _ => 0

/-- The contexts of a core that come before an agent in the order that begins after the context that issued last (R315). -/
def State.frontsBefore (s : State) (a : Nat) : List Nat :=
  if isDrone a then []
  else
    let last := (s.core (coreOf a)).lastIssue.toNat
    (((List.range 4).map fun i => 4 * coreOf a + (last + 1 + i) % 4).takeWhile (· ≠ a))

/-- The entry at position j in flight begins a move of n element groups (R251). -/
def State.beginVector (s : State) (k j n : Nat) : Begin :=
  match (s.vec k).infl[j]? with
  | none => .done s
  | some e =>
    if e.done || s.vectorRests k then .done s
    else
      match s.moveLimit k j n, decodeWord e.word with
      | some hi, .ok i => .run i { s with actor := .vector k j hi }
      | _, _ => .done s

/-- The array of a cluster goes on with its MMA, or begins the head of its queue. -/
def State.beginArray (s : State) (c : Nat) : Begin :=
  if (s.cluster c).mma.isSome then .done (s.mmaMove c)
  else
    match ((s.cluster c).queue.head?).map fun e => decodeWord e.word with
    | some (.ok i) => if s.arrayMayStart c then .run i { s with actor := .array c } else .done s
    | _ => .done s

/-- How a choice begins: the instruction that it runs, or a move that is done already. -/
def State.begin (s : State) : Choice → Begin
  | .front a d => State.beginFront { s with actor := .front a d } a
  | .vector k j n => s.beginVector k j n
  | .array c => s.beginArray c
  | .arbiter g => .done (if (s.core g).arb then s.arbitrate g else s)
  | .idleEnd a => .done (s.endIdle a)
  | .thread t n => .done (s.moveThread t n)
  | .save q n => .done (s.stopLaunch q n)
  | .fulling j n => .done (s.fullMove j n)
  | .raise j a =>
    .done (match s.slot j with
      | some k => if k.sealed then s else s.raise k.gen a
      | none => s)
  | .timing src rseq => .done (s.answerTime src rseq)
  | .event i => .run i { s with actor := .device }

/-! ## After a move of a vector side -/

/-- Has a move changed the tag of a register that an older instruction in flight, not complete, names, or that the instruction
itself goes on to read (R149)? Such a move waits; the second kind waits until it can be the last one. -/
def tagClash (before after : Vec) (e : Entry) : Bool :=
  let changed := (List.range 32).filter fun r => before.tag.getD r .int32 ≠ after.tag.getD r .int32
  let meets (l : List (Nat × Nat)) : Bool := changed.any fun r => l.any (spansMeet (r, 1))
  !changed.isEmpty && (
    (before.infl.any fun x => !x.done && decide (x.po < e.po) && (match decodeWord x.word with
      | .ok i => meets (namedSpans x.vtype i)
      | .error _ => false)) ||
    (match decodeWord e.word with
      | .ok i => meets ((sourceGroups i).map (groupSpan e.vtype)) && after.infl.any fun x => x.po = e.po && !x.done
      | .error _ => false))

/-- Does an instruction process element groups (R178)? -/
def groupWord (w : InstrWord) (i : Instr) : Bool :=
  !([12, 20, 21] : List Nat).contains (w.extractLsb' 27 5).toNat &&
    (match i with | .matFeedEnd .. | .matSlot .. | .matDrainEnd _ => false | _ => true)

/-- The element that an entry has come to; a `vld.ff` that has trimmed VL has come to the new VL. -/
def Vec.reached (v : Vec) (e : Entry) : Nat :=
  match (v.infl ++ v.viq).find? fun x => x.po = e.po with
  | some x => if x.done && !isFf x.word then x.vl.toNat else x.pix.toNat
  | none => e.pix.toNat

/-- The element groups that a move has processed (R392). -/
def groupsDone (before after : Vec) (e : Entry) : Nat :=
  match decodeWord e.word with
  | .ok i =>
    let g := stepLen before.lanes e.vtype i
    if groupWord e.word i && decide (0 < g) then (after.reached e + g - 1) / g - (e.pix.toNat + g - 1) / g else 0
  | .error _ => 0

/-- Keeps what a move has changed, for the unwinding of its instruction (R253); nothing is unwound while FTRAP is 0. -/
def Vec.keepUndo (before after : Vec) (e : Entry) : Vec :=
  if before.ftrap = 0 then after
  else
    { after with infl := after.infl.map fun x =>
        if x.po = e.po then { x with undo := x.undo.add (Undo.between before after) } else x }

/-- What a step adds after a meaning of a vector side. -/
def finishVector (before : State) (k j : Nat) : Out → Out
  | .next s =>
    match (before.vec k).infl[j]? with
    | none => .next s
    | some e =>
      if tagClash (before.vec k) (s.vec k) e then .next before
      else
        .next ((s.setVec k ((before.vec k).keepUndo (s.vec k) e)).countCore (coreOf k) 3 (groupsDone (before.vec k) (s.vec k) e))
  | o => o

/-- What a step adds after the meaning that a choice ran. -/
def Choice.finish (before : State) : Choice → Out → Out
  | .front a _, o => finishFront before a o
  | .vector k j _, o => finishVector before k j o
  | _, o => o

/-! ## The end of a step -/

/-- A write that stalls is tried again, with the generation that its writer has now, or stays behind those of its writer (R280,
R366). -/
def State.retry (s : State) (x : Stuck) : State :=
  let wait : State := { s with stuck := s.stuck ++ [x] }
  match x.by_ with
  | .thread t => (s.thread t).elim s fun t => s.writeNoted x.by_ t.gen x.pa x.bytes
  | .save _ a => s.writeOr x.by_ (s.front a).curgen x.pa x.bytes
  | .sample g => if s.isStuck x.by_ then wait else ((s.write none s.live x.pa x.bytes).map fun u => u.sampled g x.pa).getD wait
  | .fulling _ | .device => s.writeNoted x.by_ s.live x.pa x.bytes

/-- The writes of the device that stall are tried again, oldest first (R366). -/
def State.unstick (s : State) : State := s.stuck.foldl State.retry { s with stuck := [] }

/-- What follows at once from the move of a step: its accesses are accounted for, words that stalled are written where they can be,
words that the device watches are read again, a head is chosen, freezes are taken, and what has fired makes one trigger (R268,
R305, R306, R366, R367, R393, R397). -/
def State.settle (s : State) : State :=
  let s := s.unstick.payOwed.holdDue.readDue.choose
  let s := (s.fronts.filter fun p => p.2.freezing).foldl (fun (s : State) p => s.tryFreeze p.1) s
  s.account.trigger

/-- Settles an outcome. -/
def settleOut : Out → Out
  | .next s => .next s.settle
  | o => o

end Sys2Proof.Machine
end

