-- ==== Sys2Proof/Machine/Step.lean ====
section
/-! DEFINITION. One step of the machine, and how a word is put where the next step runs it (log 2, log 5). -/
namespace Sys2Proof.Machine

/-- Does the next move of an agent's front issue its instruction, or take a trap: is the context ready (R315)? -/
def State.ready? (s : State) (a : Nat) : Bool :=
  match State.beginFront { s with actor := .front a false } a with
  | .done t => t.hasMoved s a
  | .run i t =>
    match exec i t with
    | .next u => u.hasMoved s a
    | _ => false

/-- The scalar front of a core takes the first ready context in the order that begins after the one that issued last (R315). -/
def State.turn (s : State) : Choice → Choice
  | .front a d => .front (((s.frontsBefore a).find? s.ready?).getD a) d
  | c => c

/-- One step: time passes, one unit is chosen and moves. -/
def step (s : State) : Host.Outcome State Fault Refusal :=
  match s.nextChoice with
  | none => .next (s.tick 0 0).settle
  | some (c, s1) =>
    let s2 := s1.tick (s1.clusterAt c) (s1.edgesBefore c)
    let c := s2.turn c
    match s2.begin c with
    | .done t => .next t.settle
    | .run i t => settleOut (c.finish s2 (exec i t))

/-- The agent that `withFetchWord` uses: drone 0 for the words that only a drone executes, else context 0. -/
def fetchAgent (w : Nat) : Nat := if droneWord (BitVec.ofNat 32 w) then droneOf 0 else 0

/-- s with an instruction word in main memory at 0x1000 where agent 0 or drone 0 fetches next, through one page of
256 TiB that maps addresses to themselves (R328), and that agent's front as the next to move (log 5). -/
def State.withFetchWord (s : State) (nbits w : Nat) : State :=
  let w := w % 2 ^ nbits
  let a := fetchAgent w
  let put (m : Memory) (p : Nat) (bytes : List Byte) : Memory :=
    bytes.zipIdx.foldl (fun m q => m.write (p + q.2) q.1) m
  let f := s.front a
  let s := s.setFront a
    { f with
      run := .running, freezing := false, frozen := false, stopped := false, preempt := false, held := false, pc := 0x1000
      aspace := 0x200 }
  let s := s.setCore 0 { s.core 0 with utlb := [], lastIssue := 3 }
  let s := s.setCluster 0 { s.cluster 0 with tlb := [] }
  { s with mem := put (put s.mem 0x1000 (bytesLE 4 w)) 0x200000 (bytesLE 8 0xDF), sched := [.front a false] }

end Sys2Proof.Machine
end

