-- ==== Sys2Proof/Safety.lean ====
section
/-! DEFINITION. The terms in which the claims are stated: the forms that states keep, the conditions under which an
instruction runs, and what it may change. -/
namespace Sys2Proof.Machine

/-! ## Forms that states keep -/

/-- The memory keeps its canonical form. -/
def State.MemOk (s : State) : Prop := s.mem.wf = true

/-- The reserve is no larger than a device can hold, and the batts in use are of it, so that no two places share a memory
key (R267, R359; log 1). -/
def State.KeysOk (s : State) : Prop := s.flash.resv ≤ 2 ^ 43 ∧ ∀ r ∈ s.usedBatts, r < 2 ^ 43

/-! ## What an answer leaves unchanged -/

/-- Nothing but the front of one agent has changed. -/
def State.OnlyFront (s t : State) (a : Nat) : Prop :=
  (∀ b, b ≠ a → t.front b = s.front b) ∧ { t with fronts := s.fronts } = s

/-- Nothing but the vector side of one context has changed. -/
def State.OnlyVec (s t : State) (k : Nat) : Prop :=
  (∀ j, j ≠ k → t.vec j = s.vec j) ∧ { t with vecs := s.vecs } = s

/-- Nothing but the front and the vector side of one context has changed. -/
def State.OnlyContext (s t : State) (k : Nat) : Prop :=
  (∀ b, b ≠ k → t.front b = s.front b) ∧ (∀ j, j ≠ k → t.vec j = s.vec j) ∧
    { t with fronts := s.fronts, vecs := s.vecs } = s

/-- Nothing but one core has changed. -/
def State.OnlyCore (s t : State) (g : Nat) : Prop :=
  (∀ h, h ≠ g → t.core h = s.core h) ∧ { t with cores := s.cores } = s

/-- Nothing but one cluster has changed. -/
def State.OnlyCluster (s t : State) (c : Nat) : Prop :=
  (∀ d, d ≠ c → t.cluster d = s.cluster d) ∧ { t with clusters := s.clusters } = s

/-! ## Scalar instructions -/

/-- No register that an instruction reads or writes is pending (R215, R246), and none that it reads is unreadable (R379). -/
def State.RegsReady (s : State) (a : Nat) (reads writes : List XReg) : Prop :=
  (∀ r ∈ reads ++ writes, (s.front a).isPend r = false) ∧ ∀ r ∈ reads, (s.front a).isBad r = false

/-- The front of an agent moves, and the registers of its instruction are ready. -/
def State.Issues (s : State) (a : Nat) (reads writes : List XReg) : Prop :=
  (∃ defer, s.actor = .front a defer) ∧ s.RegsReady a reads writes

/-- What a scalar instruction leaves that writes x(d) alone: v in x(d) (nowhere for d = 0), the pc at npc, INSTRET and the
place in program order advanced by one, and nothing else changed in the whole machine. -/
structure ScalarResult (s t : State) (a : Nat) (d : XReg) (v npc : W64) : Prop where
  value : ∀ r, (t.front a).xr r = if r = d ∧ r ≠ 0 then v else (s.front a).xr r
  pc : (t.front a).pc = npc
  instret : (t.front a).instret = (s.front a).instret + 1
  order : (t.front a).po = (s.front a).po + 1
  front : { t.front a with
      x := (s.front a).x, bad := (s.front a).bad, pc := (s.front a).pc, instret := (s.front a).instret,
      po := (s.front a).po } = s.front a
  rest : s.OnlyFront t a

/-- An instruction answers a next state: x(d) receives v and the front goes on at npc. -/
def State.Computes (s : State) (a : Nat) (i : Instr) (d : XReg) (v npc : W64) : Prop :=
  ∃ t, exec i s = .next t ∧ ScalarResult s t a d v npc

/-- No older access, no store on its way to another device and no older vector instruction of the agent waits, so that an access
performs at once (R122). -/
def State.NothingOlder (s : State) (a : Nat) : Prop :=
  (s.front a).acc = [] ∧ (∀ q ∈ s.requests, q.storeOf a = false) ∧
    (isDrone a = true ∨ (s.front a).held = true ∨ (s.vec a).open_ = [])

/-- An agent's access of n bytes passes the checks of R121 at a byte of this device that no launch fence closes. -/
def State.Reaches (s : State) (a : Nat) (k : Acc) (va : W64) (n pa : Nat) : Prop :=
  (∃ io, s.checkOwn a k va n = .ok (pa, io)) ∧ isDomain pa = false ∧ (isSp pa && s.fenced a pa) = false

/-- What the memory side of a write may change: the bytes and what belongs to them (generations, marks, images, error
locators), the count of copies on write, the event bits of other agents' monitors, the words that the device watches as due to
be read, and the account of what the step touches (R138, R305, R362, R367, R380). -/
structure MemStep (s t : State) (a : Nat) : Prop where
  rest : { t with
      fronts := s.fronts, mem := s.mem, bgen := s.bgen, marks := s.marks, slots := s.slots, uncor := s.uncor,
      cor := s.cor, queues := s.queues, dvc := s.dvc, touches := s.touches } = s
  queues : (t.queues.map fun l => l.map fun q => { q with due := false }) = s.queues.map fun l => l.map fun q => { q with due := false }
  slots : (t.slots.map fun o => o.map fun k => { k with due := false, batts := [] }) =
    s.slots.map fun o => o.map fun k => { k with due := false, batts := [] }
  others : ∀ b, b ≠ a → { t.front b with monEvent := (s.front b).monEvent } = s.front b

/-- A state but for the generations that a read raises (R280, R287): those of the threads and streams that the agent has
forked, and the account of what the step touches. -/
def State.sameBut (s t : State) (a : Nat) : Prop :=
  { t with fronts := s.fronts, vecs := s.vecs, threads := s.threads, touches := s.touches } = s ∧
    (t.threads.map fun x => { x with gen := 0 }) = s.threads.map (fun x => { x with gen := 0 }) ∧
    (∀ k, k ≠ a → t.vec k = s.vec k) ∧ { t.vec a with s := (s.vec a).s } = s.vec a ∧
    ((t.vec a).s.map fun o => o.map fun x => { x with gen := 0 }) = (s.vec a).s.map fun o => o.map fun x => { x with gen := 0 }

/-- What a read changes beside the agent's front. -/
structure ReadStep (s t : State) (a : Nat) : Prop where
  same : s.sameBut t a
  others : ∀ b, b ≠ a → t.front b = s.front b

/-- What a read and a write in one step change beside the agent's front. -/
def ReadWriteStep (s t : State) (a : Nat) : Prop := ∃ r, s.sameBut r a ∧ r.fronts = s.fronts ∧ MemStep r t a

/-- The front of an agent after an instruction that has read memory: x(d) holds v; the pc, INSTRET, CURGEN and the monitor
may have changed, and nothing else. -/
structure FrontAfterAccess (f g : Front) (d : XReg) (v npc : W64) : Prop where
  value : ∀ r, g.xr r = if r = d ∧ r ≠ 0 then v else f.xr r
  pending : ∀ r, g.isPend r = f.isPend r
  pc : g.pc = npc
  instret : g.instret = f.instret + 1
  front : { g with
      x := f.x, bad := f.bad, pend := f.pend, pc := f.pc, po := f.po, instret := f.instret, curgen := f.curgen,
      monLine := f.monLine, monEvent := f.monEvent } = f

/-- What taking a trap saves and where the front goes on (R134, R135): CAUSE, EPC and TVAL of the trap, the mode and the
interrupt enable saved, supervisor mode with STATUS.IE clear, and the pc at TVEC. -/
structure TrapTaken (s t : State) (a : Nat) (vec : Bool) (epc : W64) (x : Trap) : Prop where
  code : (t.front a).cause.extractLsb' 0 8 = BitVec.ofNat 8 x.code
  write : (t.front a).cause.getLsbD 8 = x.write
  vector : (t.front a).cause.getLsbD 9 = vec
  lane : (t.front a).cause.extractLsb' 10 6 = BitVec.ofNat 6 x.lane
  element : (t.front a).cause.extractLsb' 16 13 = BitVec.ofNat 13 x.elem
  savedPc : (t.front a).epc = epc
  savedValue : (t.front a).tval = x.tval
  sup : (t.front a).status.getLsbD 0 = true
  psup : (t.front a).status.getLsbD 1 = (s.front a).status.getLsbD 0
  ie : (t.front a).status.getLsbD 2 = false
  pie : (t.front a).status.getLsbD 3 = (s.front a).status.getLsbD 2
  drone : (t.front a).status.getLsbD 4 = (s.front a).status.getLsbD 4
  pc : (t.front a).pc = (s.front a).tvec
  running : (t.front a).run = .running
  nextPc : (t.front a).spc = if vec = true ∨ (s.front a).held = false then (s.front a).pc else (s.front a).spc
  vectorPc : (t.front a).vcp = if vec then epc else if (s.front a).held then (s.front a).vcp else s.vcpOf a
  entering : (t.front a).entering = true
  regs : (t.front a).x = (s.front a).x ∧ (t.front a).scratch = (s.front a).scratch ∧
    (t.front a).aspace = (s.front a).aspace ∧ (t.front a).tvec = (s.front a).tvec ∧
    (t.front a).instret = (s.front a).instret
  shadow : isDrone a = false → (t.front a).shVtype = (s.vec a).vtype ∧ (t.front a).shVl = (s.vec a).vl

/-- The handler can be entered: TVEC is not 0 and its word can be fetched in supervisor mode; otherwise the trap is fatal
(R134, R311). -/
def State.HandlerOk (s : State) (a : Nat) : Prop :=
  (s.front a).tvec.extractLsb' 2 62 ≠ 0 ∧ s.fetchable a (s.front a).tvec = true

/-- A scalar instruction takes a trap as its only effect: the handler runs next, and all else stays; UECC fires the trigger of
R397, and an access may have looked up its address. -/
def State.Traps (s : State) (a : Nat) (i : Instr) (x : Trap) : Prop :=
  ∃ t, exec i s = .next t ∧ TrapTaken s t a false (s.front a).pc x ∧ (∀ b, b ≠ a → t.front b = s.front b) ∧
    { t with fronts := s.fronts, touches := s.touches, fired := s.fired } = s ∧ (x.code ≠ 10 → t.fired = s.fired)

/-! ## Vector instructions -/

/-- The entry at position j in flight of a context moves up to element `hi` (R248, R251): it has not completed, and no other
entry has its place in program order. -/
structure State.Moves (s : State) (k j hi : Nat) (e : Entry) : Prop where
  actor : s.actor = .vector k j hi
  entry : (s.vec k).infl[j]? = some e
  isOpen : e.done = false
  alone : ∀ i x, (s.vec k).infl[i]? = some x → x.po = e.po → i = j

/-- An entry executes to its end in one move: as an instruction does that is no element-wise one (R251). -/
def State.Executes (s : State) (k : Nat) (e : Entry) : Prop := ∃ j hi, s.Moves k j hi e ∧ e.vl.toNat ≤ hi

/-- The all-ones code of an element of a tag at a width (R37, R148). -/
def onesCode (t : Tag) (w : Nat) : Nat := 2 ^ codeBits t w - 1

/-- Where the kinds of R148 start, body and end: the first index of a move, its vl, and the element at which the move ends
(R251). -/
structure Kinds where
  vt : VType
  lanes : Nat
  start : Nat
  vl : Nat
  hi : Nat
  mask : Nat → Bool

/-- The kinds of the elements that an entry's move up to `hi` takes in, under a mask; the classes that ignore VSTART start at 0
and run in one move (R171, R197). -/
def Kinds.of (v : Vec) (e : Entry) (whole : Bool) (hi : Nat) (m : MReg) : Kinds :=
  { vt := e.vtype, lanes := v.lanes, start := if whole then 0 else e.pix.toNat, vl := e.vl.toNat
    hi := if whole then e.vl.toNat else min hi e.vl.toNat, mask := v.maskBit m }

/-- Does the move end the instruction? One with its first index at or above vl has nothing to process and ends (R148). -/
def Kinds.ends (q : Kinds) : Bool := decide (q.vl ≤ q.start) || decide (q.vl ≤ q.hi)

/-- Is element i active, and taken in by the move (R148)? -/
def Kinds.active (q : Kinds) (i : Nat) : Bool := decide (q.start ≤ i) && decide (i < q.hi) && q.mask i

/-- What R148 leaves in element i: the old code before the first index and wherever the result is none, ones or the old
code in the tail and in inactive elements, and the result in active ones. The tail is written with the last move, and the
elements from `hi` on with later ones. -/
def Kinds.value (q : Kinds) (ones old : Nat) (res : Option Nat) (i : Nat) : Nat :=
  if i < q.start then old
  else if q.vl ≤ i then (if q.ends && q.vt.ta then ones else old)
  else if q.hi ≤ i then old
  else if q.mask i then res.getD old
  else if q.vt.ma then ones else old

/-- The elements of a register group as R148 leaves them: every element of the group at d of width w, whose codes are of tag
t. `res` gives the code of each active element, none where it stays as it was. -/
def GroupHolds (v u : Vec) (q : Kinds) (d : VReg) (w : Nat) (t : Tag) (res : Nat → Option Nat) : Prop :=
  ∀ i, i < vlmaxOf q.lanes q.vt →
    u.elem q.lanes w d i = q.value (onesCode t w) (v.elem q.lanes w d i) ((res i).map (· % 2 ^ codeBits t w)) i

/-- Is register n one of the group at d of elements of width w? -/
def Kinds.inGroup (q : Kinds) (d : VReg) (w n : Nat) : Bool :=
  decide (d.toNat ≤ n) && decide (n < d.toNat + q.vt.lmul * w / q.vt.sew)

/-- A register group has been written by R148, and no register outside it. -/
structure GroupData (v u : Vec) (q : Kinds) (d : VReg) (w : Nat) (t : Tag) (res : Nat → Option Nat) : Prop where
  elements : GroupHolds v u q d w t res
  outside : ∀ n, q.inGroup d w n = false → u.v.getD n 0 = v.v.getD n 0

/-- A register group has been written and has taken the tag of the result (R79). -/
structure GroupWritten (v u : Vec) (q : Kinds) (d : VReg) (w : Nat) (t : Tag) (res : Nat → Option Nat) : Prop extends
    GroupData v u q d w t res where
  tags : ∀ n, n < 32 → u.tag.getD n .int32 = if q.inGroup d w n then t else v.tag.getD n .int32

/-- What the entries of a context become with a move: the moved one has completed, with VSTART 0, or stands at its new index
(R148, R257); and FLAGS takes the flags of the completed entries that no older one can unwind (R253). `raised` are the flags of
the moved entry so far. -/
def Vec.after (v : Vec) (e : Entry) (ends : Bool) (hi : Nat) (raised : Flags) : Vec :=
  if ends then v.complete { e with flags := raised }
  else v.setEntry { e with flags := raised, pix := BitVec.ofNat 13 hi, started := true }

/-- The flags of the elements have reached FLAGS, at once where FTRAP is clear and else with the completion, and, where VTYPE
routes them, the mask m(XM) (R45, R253); `bit` is what the masks hold before that. -/
structure FlagsRouted (v u : Vec) (e : Entry) (q : Kinds) (fl : Nat → Flags) (bit : MReg → Nat → Bool) : Prop where
  raised : ∃ raised : Flags,
    (∀ j, j < 7 → (raised.getLsbD j = true ↔ e.flags.getLsbD j = true ∨ ∃ i, q.active i = true ∧ (fl i).getLsbD j = true)) ∧
    u.infl = (v.after e q.ends q.hi raised).infl ∧
    ∀ j, j < 7 → (u.flags.getLsbD j = true ↔ (v.after e q.ends q.hi raised).flags.getLsbD j = true ∨
      (v.ftrap = 0 ∧ ∃ i, q.active i = true ∧ (fl i).getLsbD j = true))
  masks : ∀ n i, i < 4096 → n ≠ 0 →
    u.maskBit n i = (bit n i || (decide (n.toNat = q.vt.xm) && q.active i && Flags.routed q.vt (fl i)))

/-- What a move of a vector instruction leaves of the machine: VSTART is 0 with its completion (R148), its stream has advanced,
CURGEN may have been raised by a stream, and beside the entries in flight, the register, tag and mask files, FLAGS and the marks
of R379 and R382 nothing has changed. -/
structure VecMoves (s t : State) (k : Nat) (ends : Bool) (strm : Option SReg) (n : Nat) : Prop where
  vstart : (t.vec k).vstart = if ends then 0 else (s.vec k).vstart
  others : ∀ j, j ≠ k → t.vec j = s.vec j
  fronts : ∀ b, b ≠ k → t.front b = s.front b
  front : { t.front k with curgen := (s.front k).curgen } = s.front k
  generation : strm = none → t.front k = s.front k
  rest : { t with fronts := s.fronts, vecs := s.vecs } = s
  vec : { t.vec k with
      v := (s.vec k).v, tag := (s.vec k).tag, bad := (s.vec k).bad, told := (s.vec k).told, m := (s.vec k).m, s := (s.vec k).s,
      flags := (s.vec k).flags, infl := (s.vec k).infl, vstart := (s.vec k).vstart } = s.vec k
  streams : ∀ j, some j ≠ strm → (t.vec k).stream j = (s.vec k).stream j
  advanced : ∀ j, some j = strm → (t.vec k).stream j = ((s.vec k).stream j).map fun x => x.consume n

/-- The register, tag and mask files and FLAGS are unchanged. -/
def Vec.SameFiles (v u : Vec) : Prop := u.v = v.v ∧ u.tag = v.tag ∧ u.bad = v.bad ∧ u.m = v.m ∧ u.flags = v.flags

/-- A vector instruction has completed without processing an element. -/
def Vec.Ended (v u : Vec) (e : Entry) : Prop :=
  u.v = v.v ∧ u.tag = v.tag ∧ u.bad = v.bad ∧ u.m = v.m ∧ u.infl = (v.complete e).infl ∧ u.flags = (v.complete e).flags

/-- No flag of an active element is one that FTRAP traps on (R45), in this move or before. -/
def Kinds.quiet (q : Kinds) (v : Vec) (e : Entry) (fl : Nat → Flags) : Prop :=
  e.fpx = none ∧ ∀ i, q.active i = true → fl i &&& v.ftrap = 0

/-- A vector instruction with one destination group moves (R148 to R151, R257): when its first index is below vl the group and
the flags are as said, otherwise nothing is written. -/
def State.WritesGroup (s : State) (k : Nat) (e : Entry) (i : Instr) (q : Kinds) (strm : Option SReg) (d : VReg) (w : Nat)
    (t : Tag) (res : Nat → Option Nat) (fl : Nat → Flags) : Prop :=
  ∃ u, exec i s = .next u ∧ VecMoves s u k q.ends (if q.start < q.vl then strm else none) (q.hi - q.start) ∧
    if q.start < q.vl then
      GroupWritten (s.vec k) (u.vec k) q d w t res ∧ FlagsRouted (s.vec k) (u.vec k) e q fl (s.vec k).maskBit
    else (s.vec k).Ended (u.vec k) e

/-- A vector instruction with the mask destination m(d) moves (R148, R162, R257): registers and tags stay. -/
def State.WritesMask (s : State) (k : Nat) (e : Entry) (i : Instr) (q : Kinds) (strm : Option SReg) (d : MReg) (res : Nat → Bool)
    (fl : Nat → Flags) : Prop :=
  ∃ u, exec i s = .next u ∧ VecMoves s u k q.ends (if q.start < q.vl then strm else none) (q.hi - q.start) ∧
    (u.vec k).v = (s.vec k).v ∧ (u.vec k).tag = (s.vec k).tag ∧
    if q.start < q.vl then
      FlagsRouted (s.vec k) (u.vec k) e q fl fun n j =>
        if n = d ∧ j < vlmaxOf q.lanes q.vt then
          q.value 1 (s.vec k |>.maskBit d j |>.toNat) (some (res j).toNat) j = 1
        else (s.vec k).maskBit n j
    else (s.vec k).Ended (u.vec k) e

/-- A permute completes (R197, R198): the group is written by the kinds of q, whatever its first index; no mask changes. -/
def State.Permutes (s : State) (k : Nat) (e : Entry) (i : Instr) (q : Kinds) (d : VReg) (w : Nat) (t : Tag)
    (res : Nat → Option Nat) : Prop :=
  ∃ u, exec i s = .next u ∧ VecMoves s u k true none 0 ∧ GroupWritten (s.vec k) (u.vec k) q d w t res ∧
    (u.vec k).infl = ((s.vec k).complete e).infl ∧ (u.vec k).flags = ((s.vec k).complete e).flags ∧ (u.vec k).m = (s.vec k).m

/-- A vector instruction completes without writing a register or a mask. -/
def State.Idles (s : State) (k : Nat) (e : Entry) (i : Instr) : Prop :=
  ∃ u, exec i s = .next u ∧ VecMoves s u k true none 0 ∧ (s.vec k).Ended (u.vec k) e

/-- What a move of a vector load leaves: CURGEN and the generations of what the agent orders after the load, the bytes that had
arrived from other devices, the account of what the step touches and the counters of held-back cycles may have changed, and of
the vector side only the register, tag and scale files and the entries. -/
structure VecMemMoves (s t : State) (k : Nat) (ends : Bool) : Prop where
  vstart : (t.vec k).vstart = if ends then 0 else (s.vec k).vstart
  others : ∀ j, j ≠ k → t.vec j = s.vec j
  fronts : ∀ b, b ≠ k → t.front b = s.front b
  front : { t.front k with curgen := (s.front k).curgen } = s.front k
  forked : (t.threads.map fun x => { x with gen := 0 }) = s.threads.map fun x => { x with gen := 0 }
  cores : ∀ g, { t.core g with evc := (s.core g).evc } = s.core g
  rest : { t with
      fronts := s.fronts, vecs := s.vecs, cores := s.cores, threads := s.threads, arrived := s.arrived,
      touches := s.touches } = s
  vec : { t.vec k with
      v := (s.vec k).v, tag := (s.vec k).tag, bad := (s.vec k).bad, told := (s.vec k).told, e := (s.vec k).e, s := (s.vec k).s,
      flags := (s.vec k).flags, infl := (s.vec k).infl, vstart := (s.vec k).vstart } = s.vec k
  streams : ((t.vec k).s.map fun o => o.map fun x => { x with gen := 0 }) =
    (s.vec k).s.map fun o => o.map fun x => { x with gen := 0 }

/-- The entries of a context and FLAGS after a move of a vector access, whose record has gathered something (R257, R394). -/
def Vec.Gathered (v u : Vec) (e : Entry) (ends : Bool) (hi : Nat) : Prop :=
  ∃ y, u.infl = (v.after { e with tally := y } ends hi e.flags).infl ∧ u.flags = (v.after { e with tally := y } ends hi e.flags).flags

/-- What a move of a vector store leaves beside memory: the entry has moved; elements that stall have joined the pending
accesses of the context (R366), elements of other devices have left as packets (R344), the writes may have set the event
bits of other agents' monitors and made words due that the device watches (R138, R305, R367), and the threads and streams that
the store orders may carry the agent's generation (R287). -/
structure VecStored (s t : State) (k : Nat) (e : Entry) (ends : Bool) (hi : Nat) : Prop where
  vec : ∃ y, { t.vec k with s := (s.vec k).s } = (s.vec k).after { e with tally := y } ends hi e.flags
  streams : ((t.vec k).s.map fun o => o.map fun x => { x with gen := 0 }) =
    (s.vec k).s.map fun o => o.map fun x => { x with gen := 0 }
  forked : (t.threads.map fun x => { x with gen := 0 }) = s.threads.map fun x => { x with gen := 0 }
  others : ∀ j, j ≠ k → t.vec j = s.vec j
  fronts : ∀ b, b ≠ k → { t.front b with monEvent := (s.front b).monEvent } = s.front b
  front : { t.front k with acc := (s.front k).acc } = s.front k
  waiting : ∀ x ∈ (t.front k).acc, x ∈ (s.front k).acc ∨ (x.vector = true ∧ x.po = e.po)
  cores : ∀ g, { t.core g with evc := (s.core g).evc } = s.core g
  rest : { t with
      fronts := s.fronts, vecs := s.vecs, cores := s.cores, threads := s.threads, mem := s.mem, bgen := s.bgen, marks := s.marks, slots := s.slots,
      uncor := s.uncor, cor := s.cor, queues := s.queues, dvc := s.dvc, requests := s.requests, packets := s.packets,
      portSeq := s.portSeq, rseq := s.rseq, arrived := s.arrived, touches := s.touches } = s

end Sys2Proof.Machine
end

