-- ==== Sys2Proof/Certificates/Slice0/Obligations.lean ====
section
/-! DEFINITION. The statements for the provers. Each docstring names the rules of the spec that a statement formalises, and
says where a clause is the model's own choice. -/
open Sys2Proof Sys2Proof.Machine

/-! ## Steps, decoding, reset -/

/-- A step of a front runs the instruction that it fetches: where the word at the pc passes its fetch checks on this device
and decodes to i, the step is exec of i after time has passed, and then the account, the counters and the comparators of an issue
(R88, R128, R246, R393), and what follows at once from any step. The word's own first tests are that its class belongs to the
agent (R20) and that no handler of a held trap issues vector or array words (R135, R241). A ready context that comes before in
the order after the context that issued last moves instead (R315). -/
def Obligations.StepRunsFetchedInstruction : Prop :=
  ∀ (s : State) (a : Nat) (df : Bool) (rest : List Choice), s.sched = .front a df :: rest →
    let s1 : State := { s with sched := rest }
    let before := s1.tick (clusterOf a) (s1.edgesBefore (.front a df))
    let u := { before with actor := .front a df }
    let f := u.front a
    (∀ b, (before.frontsBefore a).find? before.ready? = some b → step s = step { s with sched := .front b df :: rest }) ∧
    ∀ (pa : Nat) (io : Bool) (i : Instr), (∀ b ∈ before.frontsBefore a, before.ready? b = false) →
      f.run = .running → f.freezing = false → f.frozen = false → f.stopped = false → (f.preempt && f.ie) = false →
      u.checkOwn a .fetch f.pc 4 = .ok (pa, io) → isDomain pa = false → u.uecc pa 4 = false →
      let w := wordOfBytes (u.readByte pa) (u.readByte (pa + 1)) (u.readByte (pa + 2)) (u.readByte (pa + 3))
      (if isDrone a then contextWord w else droneWord w) = false →
      (f.held && (viqWord w || arrayWord w)) = false →
      decodeWord w = .ok i →
        (∀ t, exec i u = .next t → step s = .next (t.finishIssue before a).settle) ∧
        (∀ r, exec i u = .fault r → step s = .fault r) ∧ ∀ r, exec i u = .refused r → step s = .refused r

/-- A step of a front that has no instruction to run takes a trap (R98, R128, R135): a fetch that fails traps at the pc with
TVAL the pc, with IFAULT, or BADADDR for an address that is not canonical, or the code of an uncorrectable error or of a fenced
slice (log 57); a word that belongs to the other kind of agent, that the handler of a held trap may not issue, or that is no
instruction traps with TVAL the word. Words of the classes of the VIQ are tested at vector issue instead (R98,
VectorIssueAndCommit), but for `vcfg.setl`. A fetch that fails as the first of a handler is fatal (R134). -/
def Obligations.StepTrapsBadWords : Prop :=
  ∀ (s : State) (a : Nat) (df : Bool) (rest : List Choice), s.sched = .front a df :: rest →
    let s1 : State := { s with sched := rest }
    let before := s1.tick (clusterOf a) (s1.edgesBefore (.front a df))
    let u := { before with actor := .front a df }
    let f := u.front a
    (∀ b ∈ before.frontsBefore a, before.ready? b = false) →
    f.run = .running → f.freezing = false → f.frozen = false → f.stopped = false → (f.preempt && f.ie) = false →
    let traps (x : Trap) : Prop := ∃ t, step s = .next t.settle ∧ TrapTaken u t a false f.pc x ∧
      (∀ b, b ≠ a → t.front b = u.front b) ∧ t.vecs = u.vecs ∧ t.mem = u.mem
    (∀ c, u.checkOwn a .fetch f.pc 4 = .error c → u.arrived = [] → u.requests = [] →
      let x := if c = 10 ∨ c = 11 ∨ (c = 14 ∧ f.pc.toNat / 2 ^ 57 ≠ (if f.pc.getLsbD 56 then 127 else 0)) then c else 9
      (f.entering = true →
        step s = .next (((u.dropArrived (.front a)).noteFault a false f.aspace f.pc 4 x).fatal a f.cause true).settle) ∧
      (f.entering = false → u.vecBusy a = false → u.HandlerOk a → traps { code := x, tval := f.pc })) ∧
    ∀ (pa : Nat) (io : Bool), u.checkOwn a .fetch f.pc 4 = .ok (pa, io) → isDomain pa = false → u.vecBusy a = false →
      u.HandlerOk a →
      (u.uecc pa 4 = true → f.entering = false → traps { code := 10, tval := f.pc }) ∧
      (u.uecc pa 4 = false →
        let w := wordOfBytes (u.readByte pa) (u.readByte (pa + 1)) (u.readByte (pa + 2)) (u.readByte (pa + 3))
        let foreign := if isDrone a then contextWord w else droneWord w
        let barred := f.held && (viqWord w || arrayWord w)
        ((foreign || barred) = true → traps { code := 1, tval := w.zeroExtend 64 }) ∧
        (foreign = false → barred = false → (isDrone a = true ∨ viqWord w = false ∨ setlWord w = true) →
          (decodeWord w = .error .illop → traps { code := 1, tval := w.zeroExtend 64 }) ∧
          (decodeWord w = .error .illfld → traps { code := 2, tval := w.zeroExtend 64 })))

/-- A step of a vector side moves the entry that it names by the instruction that it decodes to, as far as the older ones let it
(R248, R251); a step of an array begins the head of its queue, or goes on with its MMA (R219, R242); and a step of the device runs
the event (log 2). -/
def Obligations.StepRunsEntriesAndEvents : Prop :=
  (∀ (s : State) (k j n hi : Nat) (rest : List Choice) (e : Entry) (i : Instr),
    s.sched = .vector k j n :: rest →
    let s1 : State := { s with sched := rest }
    let before := s1.tick (clusterOf k) 0
    (s.vec k).infl[j]? = some e → e.done = false → before.vectorRests k = false → before.moveLimit k j n = some hi →
    decodeWord e.word = .ok i →
      step s = settleOut (finishVector before k j (exec i { before with actor := .vector k j hi }))) ∧
  (∀ (s : State) (c : Nat) (rest : List Choice), s.sched = .array c :: rest →
    let s1 : State := { s with sched := rest }
    let before := s1.tick c 0
    ((s.cluster c).mma ≠ none → step s = .next (before.mmaMove c).settle) ∧
    ∀ (e : QEntry) (l : List QEntry) (i : Instr), (s.cluster c).mma = none → (s.cluster c).queue = e :: l →
      decodeWord e.word = .ok i → before.arrayMayStart c = true →
        step s = settleOut (exec i { before with actor := .array c })) ∧
  ∀ (s : State) (rest : List Choice) (i : Instr), s.sched = .event i :: rest →
    let s1 : State := { s with sched := rest }
    step s = settleOut (exec i { s1.tick (s1.clusterAt (.event i)) (s1.edgesBefore (.event i)) with actor := .device })

/-- Words written out bit by bit from the encodings of R88 to R97 decode to their instructions. -/
def Obligations.DecodeSampleWords : Prop :=
  -- sop.add x5, x6, x7: MAJ 1, D, A, B, FN 0, Z
  decodeWord (0b00001_00101_00110_00111_000000_000000#32) = .ok (.sopAdd 5 6 7) ∧
  -- ld.w x3, -2(x4), class 9: MAJ 5, D, A, CLS, SIZE 2, OFF -2
  decodeWord (0b00101_00011_00100_1001_010_1111111110#32) = .ok (.ldW 3 4 9 (-2)) ∧
  -- br.lt x1, x2, -3: MAJ 8, A, B, CND 2, I14 -3
  decodeWord (0b01000_00001_00010_010_11111111111101#32) = .ok (.brLt 1 2 (-3)) ∧
  -- vop.add v8, v16, s3, m2: MAJ 13, D, A, B, FN 0, OPF 3, M 2
  decodeWord (0b01101_01000_10000_00011_000000_011_010#32) = .ok (.vopAdd 8 16 (.vs 3) 2) ∧
  -- mat.wld with FN 0 in MAJ 23: D, A, B names the weight set
  decodeWord (0b10111_00101_00110_00111_000000_000000#32) = .ok (.matWld 5 6 7)

/-- Decoding reads back what encoding wrote: for every well-formed instruction that a word encodes, with every operand at
every value (R88 to R98). -/
def Obligations.DecodeEncode : Prop :=
  ∀ (i : Instr) (w : InstrWord), WellFormed i = true → encode i = some w → decodeWord w = .ok i

/-- Every word that decodes is the word of the instruction it decodes to, which is well formed: no bit of an accepted word is
ignored, and no reserved encoding falls through (R89, R98). -/
def Obligations.EncodeDecode : Prop :=
  ∀ (w : InstrWord) (i : Instr), decodeWord w = .ok i → encode i = some w ∧ WellFormed i = true

/-- Every step keeps the memory in its canonical form: addresses rising and no entry equal to what an unlisted address reads
as. The form is the model's (log 1). -/
def Obligations.StepKeepsMemoryForm : Prop :=
  ∀ s t : State, s.MemOk → step s = .next t → t.MemOk

/-- The reset memory has the canonical form, and an unlisted byte reads 0 (log 1). -/
def Obligations.ResetMemoryForm : Prop :=
  State.reset.MemOk ∧ State.reset.KeysOk ∧ ∀ pa, State.reset.readByte pa = 0

/-- The reset values that R78 and R85 to R87 give: the registers of a context and a drone, of a core and of a cluster. The
fields that no rule gives a value (pc, ASPACE, monitor) are the model's choice (log 7) and no part of this. -/
def Obligations.ResetValues : Prop :=
  (∀ k, k < 1024 →
    (∀ r, (State.reset.front k).xr r = 0) ∧ (State.reset.front k).status = 0b00100 ∧ (State.reset.front k).cause = 0 ∧
    (State.reset.front k).epc = 0 ∧ (State.reset.front k).tval = 0 ∧ (State.reset.front k).instret = 0 ∧
    (∀ n i, (State.reset.vec k).maskBit n i = decide (n = 0)) ∧ (∀ n, (State.reset.vec k).e.getD n 0x7F = 0x7F) ∧
    (∀ n, (State.reset.vec k).v.getD n 0 = 0) ∧ (∀ r, (State.reset.vec k).tagOf r = .int32) ∧
    (∀ j, (State.reset.vec k).stream j = none) ∧
    csrRead State.reset k 0x000 = some 0x050002 ∧ csrRead State.reset k 0x001 = some 0 ∧
    csrRead State.reset k 0x003 = some 0 ∧ csrRead State.reset k 0x005 = some 8 ∧
    csrRead State.reset k 0x006 = some 0 ∧ csrRead State.reset k 0x007 = some 0 ∧ csrRead State.reset k 0x008 = some 0) ∧
  (∀ c, c < 64 → (State.reset.front (droneOf c)).status = 0b10100 ∧
    csrRead State.reset (droneOf c) 0x300 = some 1 ∧ csrRead State.reset (droneOf c) 0x302 = some 40 ∧
    ∀ j, ((State.reset.cluster c).ac.getD j Tile.reset).anchor = 254) ∧
  csrRead State.reset 0 0x200 = some 0x924924

/-! ## Integer instructions -/

/-- `sop` (R117): the two words that R117 writes out, and the zero B field of the one-operand functions; each function's value
of a = x(A) and b = x(B), the pc at the next word, and nothing else changed.
The one-operand functions of `sop` (R117): counts, reversal, extensions, and the scratchpad bank and row. -/
def SopResults : Prop :=
  (decodeWord 0x094C7000 = .ok (.sopAdd 5 6 7) ∧ decodeWord 0x0A5407C0 = .ok (.sopMod383 9 10) ∧
   (∀ w : InstrWord, w.extractLsb' 27 5 = 1 → 21 ≤ (w.extractLsb' 6 6).toNat → (w.extractLsb' 6 6).toNat ≤ 32 →
     w.extractLsb' 12 5 ≠ 0 → decodeWord w = .error .illfld) ∧
   ∀ (s : State) (ag : Nat) (d x y : XReg), s.Issues ag [x, y] [d] →
     let a := (s.front ag).xr x
     let b := (s.front ag).xr y
     let n := b.toNat % 64
     let gives (i : Instr) (v : W64) : Prop := s.Computes ag i d v ((s.front ag).pc + 4)
     gives (.sopAdd d x y) (BitVec.ofNat 64 (a.toNat + b.toNat)) ∧
     gives (.sopSub d x y) (BitVec.ofInt 64 (a.toInt - b.toInt)) ∧
     gives (.sopAnd d x y) (a &&& b) ∧ gives (.sopOr d x y) (a ||| b) ∧ gives (.sopXor d x y) (a ^^^ b) ∧
     gives (.sopSll d x y) (BitVec.ofNat 64 (a.toNat * 2 ^ n)) ∧
     gives (.sopSrl d x y) (BitVec.ofNat 64 (a.toNat / 2 ^ n)) ∧
     gives (.sopSra d x y) (BitVec.ofInt 64 (a.toInt / 2 ^ n)) ∧
     gives (.sopSlt d x y) (if a.toInt < b.toInt then 1 else 0) ∧
     gives (.sopSltu d x y) (if a.toNat < b.toNat then 1 else 0) ∧
     gives (.sopMin d x y) (BitVec.ofInt 64 (min a.toInt b.toInt)) ∧
     gives (.sopMax d x y) (BitVec.ofInt 64 (max a.toInt b.toInt)) ∧
     gives (.sopMinu d x y) (BitVec.ofNat 64 (min a.toNat b.toNat)) ∧
     gives (.sopMaxu d x y) (BitVec.ofNat 64 (max a.toNat b.toNat)) ∧
     gives (.sopMul d x y) (BitVec.ofNat 64 (a.toNat * b.toNat)) ∧
     gives (.sopMulh d x y) (BitVec.ofInt 64 (a.toInt * b.toInt / 2 ^ 64)) ∧
     gives (.sopMulhu d x y) (BitVec.ofNat 64 (a.toNat * b.toNat / 2 ^ 64)) ∧
     gives (.sopDiv d x y) (if b = 0 then BitVec.allOnes 64 else BitVec.ofInt 64 (a.toInt.tdiv b.toInt)) ∧
     gives (.sopDivu d x y) (if b = 0 then BitVec.allOnes 64 else BitVec.ofNat 64 (a.toNat / b.toNat)) ∧
     gives (.sopRem d x y) (if b = 0 then a else BitVec.ofInt 64 (a.toInt.tmod b.toInt)) ∧
     gives (.sopRemu d x y) (if b = 0 then a else BitVec.ofNat 64 (a.toNat % b.toNat))) ∧
  ∀ (s : State) (ag : Nat) (d x : XReg), s.Issues ag [x] [d] →
    let a := (s.front ag).xr x
    let gives (i : Instr) (v : W64) : Prop := s.Computes ag i d v ((s.front ag).pc + 4)
    (∃ n, n ≤ 64 ∧ (∀ j, 64 - n ≤ j → a.getLsbD j = false) ∧ (n < 64 → a.getLsbD (63 - n) = true) ∧
      gives (.sopClz d x) (BitVec.ofNat 64 n)) ∧
    (∃ n, n ≤ 64 ∧ (∀ j, j < n → a.getLsbD j = false) ∧ (n < 64 → a.getLsbD n = true) ∧
      gives (.sopCtz d x) (BitVec.ofNat 64 n)) ∧
    gives (.sopPopc d x) (BitVec.ofNat 64 ((List.range 64).countP fun j => a.getLsbD j)) ∧
    (∃ v : W64, (∀ j, j < 64 → v.getLsbD j = a.getLsbD (63 - j)) ∧ gives (.sopBrev d x) v) ∧
    gives (.sopSextB d x) (BitVec.ofInt 64 (a.setWidth 8).toInt) ∧
    gives (.sopSextH d x) (BitVec.ofInt 64 (a.setWidth 16).toInt) ∧
    gives (.sopSextW d x) (BitVec.ofInt 64 (a.setWidth 32).toInt) ∧
    gives (.sopZextB d x) (BitVec.ofNat 64 (a.toNat % 2 ^ 8)) ∧
    gives (.sopZextH d x) (BitVec.ofNat 64 (a.toNat % 2 ^ 16)) ∧
    gives (.sopZextW d x) (BitVec.ofNat 64 (a.toNat % 2 ^ 32)) ∧
    gives (.sopMod383 d x) (BitVec.ofNat 64 (a.toNat % 383)) ∧
    gives (.sopDiv383 d x) (BitVec.ofNat 64 (a.toNat / 383))

/-- `sopi`, `lui` and `auipc` (R118, R119): the immediate is sign-extended, and U22 immediates are shifted by 14. The word that
R118 writes out decodes as it says, and a reserved selector of `shi` or a bit above its amount is refused. -/
def ImmediateResults : Prop :=
  decodeWord 0x114DA003 = .ok (.sopiShiSra 5 6 3) ∧
  (∀ w : InstrWord, w.extractLsb' 27 5 = 2 → w.extractLsb' 14 3 = 6 →
    (w.extractLsb' 12 2 = 3 → decodeWord w = .error .illop) ∧
    (w.extractLsb' 12 2 ≠ 3 → w.extractLsb' 6 6 ≠ 0 → decodeWord w = .error .illfld)) ∧
  ∀ (s : State) (ag : Nat) (d x : XReg) (imm : BitVec 14) (sh : BitVec 6) (up : BitVec 22), s.Issues ag [x] [d] →
    let a := (s.front ag).xr x
    let n := sh.toNat
    let gives (i : Instr) (v : W64) : Prop := s.Computes ag i d v ((s.front ag).pc + 4)
    gives (.sopiAddi d x imm) (BitVec.ofInt 64 (a.toInt + imm.toInt)) ∧
    gives (.sopiAndi d x imm) (a &&& BitVec.ofInt 64 imm.toInt) ∧
    gives (.sopiOri d x imm) (a ||| BitVec.ofInt 64 imm.toInt) ∧
    gives (.sopiXori d x imm) (a ^^^ BitVec.ofInt 64 imm.toInt) ∧
    gives (.sopiSlti d x imm) (if a.toInt < imm.toInt then 1 else 0) ∧
    gives (.sopiSltiu d x imm) (if a.toNat < (BitVec.ofInt 64 imm.toInt).toNat then 1 else 0) ∧
    gives (.sopiMuli d x imm) (BitVec.ofInt 64 (a.toInt * imm.toInt)) ∧
    gives (.sopiShiSll d x sh) (BitVec.ofNat 64 (a.toNat * 2 ^ n)) ∧
    gives (.sopiShiSrl d x sh) (BitVec.ofNat 64 (a.toNat / 2 ^ n)) ∧
    gives (.sopiShiSra d x sh) (BitVec.ofInt 64 (a.toInt / 2 ^ n)) ∧
    gives (.lui d up) (BitVec.ofInt 64 (up.toInt * 2 ^ 14)) ∧
    gives (.auipc d up) ((s.front ag).pc + BitVec.ofInt 64 (up.toInt * 2 ^ 14))

/-- The integer instructions without memory, `sop`, `sopi`, `lui` and `auipc` (R117 to R119). -/
def Obligations.IntegerResults : Prop := SopResults ∧ ImmediateResults

/-! ## Branches -/

/-- `br` (R127): taken or not, no register is written; the pc moves by words from the branch itself. The word that R127 writes
out decodes as it says, and conditions 6 and 7 are refused.
`jal` and `jalr` (R128): the link in x(D), the target of `jalr` from x(A) as it was before the link, with bits [1:0]
clear. -/
def Obligations.BranchAndJumpResults : Prop :=
  (decodeWord 0x41407FFE = .ok (.brNe 5 0 (-2)) ∧
   (∀ w : InstrWord, w.extractLsb' 27 5 = 8 → 6 ≤ (w.extractLsb' 14 3).toNat → decodeWord w = .error .illop) ∧
   ∀ (s : State) (ag : Nat) (x y : XReg) (off : BitVec 14), s.Issues ag [x, y] [] →
     let a := (s.front ag).xr x
     let b := (s.front ag).xr y
     let gives (i : Instr) (taken : Prop) [Decidable taken] : Prop :=
       s.Computes ag i 0 0 ((s.front ag).pc + if taken then BitVec.ofInt 64 (4 * off.toInt) else 4)
     gives (.brEq x y off) (a = b) ∧ gives (.brNe x y off) (a ≠ b) ∧
     gives (.brLt x y off) (a.toInt < b.toInt) ∧ gives (.brGe x y off) (b.toInt ≤ a.toInt) ∧
     gives (.brLtu x y off) (a.toNat < b.toNat) ∧ gives (.brGeu x y off) (b.toNat ≤ a.toNat)) ∧
  ∀ (s : State) (ag : Nat) (d x : XReg) (off : BitVec 22) (small : BitVec 14), s.Issues ag [x] [d] →
    let pc := (s.front ag).pc
    let target := BitVec.ofInt 64 ((s.front ag).xr x |>.toInt) + BitVec.ofInt 64 (4 * small.toInt)
    s.Computes ag (.jal d off) d (pc + 4) (pc + BitVec.ofInt 64 (4 * off.toInt)) ∧
    s.Computes ag (.jalr d x small) d (pc + 4) (BitVec.ofNat 64 (4 * (target.toNat / 4)))

/-! ## Loads, stores and atomics -/

/-- The loads by size and extension (R120). -/
def loadInstr (n : Nat) (sign : Bool) (d x : XReg) (cls : Cls) (off : BitVec 10) : Option Instr :=
  match n, sign with
  | 1, true => some (.ldB d x cls off) | 2, true => some (.ldH d x cls off) | 4, true => some (.ldW d x cls off)
  | 8, true => some (.ldD d x cls off) | 1, false => some (.ldBu d x cls off) | 2, false => some (.ldHu d x cls off)
  | 4, false => some (.ldWu d x cls off) | _, _ => none

/-- The stores by size (R120). -/
def storeInstr (n : Nat) (d x : XReg) (cls : Cls) (off : BitVec 10) : Option Instr :=
  match n with
  | 1 => some (.stB d x cls off) | 2 => some (.stH d x cls off) | 4 => some (.stW d x cls off) | 8 => some (.stD d x cls off)
  | _ => none

/-- The atomics by function and width, with the registers that they read (R124): `cas` also reads x(D). -/
def amoInstr (f n : Nat) (d x y : XReg) (cls : Cls) (sc : BitVec 2) : Option (Instr × List XReg) :=
  match f, n with
  | 0, 8 => some (.amoSwap d x y cls sc, [x, y]) | 1, 8 => some (.amoAdd d x y cls sc, [x, y])
  | 2, 8 => some (.amoAnd d x y cls sc, [x, y]) | 3, 8 => some (.amoOr d x y cls sc, [x, y])
  | 4, 8 => some (.amoXor d x y cls sc, [x, y]) | 5, 8 => some (.amoMin d x y cls sc, [x, y])
  | 6, 8 => some (.amoMax d x y cls sc, [x, y]) | 7, 8 => some (.amoMinu d x y cls sc, [x, y])
  | 8, 8 => some (.amoMaxu d x y cls sc, [x, y]) | 9, 8 => some (.amoCas d x y cls sc, [x, y, d])
  | 0, 4 => some (.amoSwapW d x y cls sc, [x, y]) | 1, 4 => some (.amoAddW d x y cls sc, [x, y])
  | 2, 4 => some (.amoAndW d x y cls sc, [x, y]) | 3, 4 => some (.amoOrW d x y cls sc, [x, y])
  | 4, 4 => some (.amoXorW d x y cls sc, [x, y]) | 5, 4 => some (.amoMinW d x y cls sc, [x, y])
  | 6, 4 => some (.amoMaxW d x y cls sc, [x, y]) | 7, 4 => some (.amoMinuW d x y cls sc, [x, y])
  | 8, 4 => some (.amoMaxuW d x y cls sc, [x, y]) | 9, 4 => some (.amoCasW d x y cls sc, [x, y, d])
  | _, _ => none

/-- The two's-complement reading of the low 8n bits of a number. -/
def signedOf (n v : Nat) : Int := (BitVec.ofNat (8 * n) v).toInt

/-- The table of R124 on codes of n bytes: the new code, none where a `cas` leaves the location. -/
def amoTable (f n old op expect : Nat) : Option Nat :=
  let m := 2 ^ (8 * n)
  match f with
  | 0 => some (op % m)
  | 1 => some ((old + op) % m)
  | 2 => some (Nat.land old (op % m))
  | 3 => some (Nat.lor old (op % m))
  | 4 => some (Nat.xor old (op % m))
  | 5 => some (if signedOf n old < signedOf n op then old else op % m)
  | 6 => some (if signedOf n old < signedOf n op then op % m else old)
  | 7 => some (min old (op % m))
  | 8 => some (max old (op % m))
  | 9 => if old = expect % m then some (op % m) else none
  | _ => none

/-- `ld` (R120, R138, R280): the bytes at x(A) + I10 × size, little-endian, sign- or zero-extended into x(D); CURGEN takes a
newer generation of the bytes, and the monitor moves to their line; memory and every other unit stay, but for the generation of
what the agent has forked and that has not started (R287). -/
def Obligations.LoadResults : Prop :=
  ∀ (s : State) (a : Nat) (n pa : Nat) (sign : Bool) (d x : XReg) (cls : Cls) (off : BitVec 10) (i : Instr),
    loadInstr n sign d x cls off = some i → s.actor = .front a false → s.RegsReady a [x] [d] → s.NothingOlder a →
    let va := (s.front a).xr x + BitVec.ofInt 64 (off.toInt * n)
    s.Reaches a .load va n pa → s.uecc pa n = false →
    ∃ t, exec i s = .next t ∧ ReadStep s t a ∧
      FrontAfterAccess (s.front a) (t.front a) d
        (if sign then BitVec.ofInt 64 (signedOf n (s.readLE pa n)) else BitVec.ofNat 64 (s.readLE pa n)) ((s.front a).pc + 4) ∧
      (t.front a).curgen = s.newest (s.front a).curgen (s.genRange pa n) ∧
      (t.front a).monLine = pa / 64 ∧ (t.front a).monEvent = false

/-- `st` (R120, R362): the write of the low bytes of x(S), little-endian, at x(A) + I10 × size, in the agent's generation. The
new memory is that of `State.write`, whose bytes and frame `WriteResults` states; of the agent only the pc and INSTRET
change, and what it has forked and has waited for the store may carry its generation (R287). -/
def Obligations.StoreResults : Prop :=
  ∀ (s u : State) (a : Nat) (n pa : Nat) (d x : XReg) (cls : Cls) (off : BitVec 10) (i : Instr),
    storeInstr n d x cls off = some i → s.actor = .front a false → s.RegsReady a [x, d] [] → s.NothingOlder a →
    let va := (s.front a).xr x + BitVec.ofInt 64 (off.toInt * n)
    s.Reaches a .store va n pa →
    s.write (some a) (s.front a).curgen pa (bytesLE n ((s.front a).xr d).toNat) = some u →
    ∃ t, exec i s = .next t ∧ ReadWriteStep s t a ∧ t.mem = u.mem ∧ t.bgen = u.bgen ∧ t.slots = u.slots ∧
      { t.front a with pc := (s.front a).pc, po := (s.front a).po, instret := (s.front a).instret } = s.front a ∧
      (t.front a).pc = (s.front a).pc + 4 ∧ (t.front a).instret = (s.front a).instret + 1

/-- What a write does to memory (R31, R120, R266, R281, R362): in main memory under the live generation, and in the scratchpad,
each byte reads back; every live byte and scratchpad byte outside the range reads as before; and a write of the live
generation, or of the scratchpad, changes no snapshot's image at all. A write sets the event bit of every other agent's
monitor on one of its lines, and of no other monitor (R138). It never stalls while no snapshot is in flight, and a write of the
scratchpad never stalls (R362, R366). -/
def Obligations.WriteResults : Prop :=
  ∀ (s : State) (who : Option Nat) (g : BitVec 2) (pa : Nat) (bytes : List Byte),
    ((s.occupied = [] ∨ spBase ≤ pa) → ∃ u, s.write who g pa bytes = some u) ∧
    ∀ u, s.write who g pa bytes = some u →
      (∀ b f, (b, f) ∈ s.fronts →
        (b, if pa / 64 ≤ f.monLine ∧ 64 * f.monLine < pa + bytes.length ∧ bytes ≠ [] ∧ who ≠ some b then { f with monEvent := true }
          else f) ∈ u.fronts) ∧
      (s.MemOk → s.KeysOk → (pa + bytes.length ≤ 2 ^ 44 ∨ spBase ≤ pa) →
        ((g = s.live ∨ spBase ≤ pa) → ∀ j, (h : j < bytes.length) → u.readByte (pa + j) = bytes[j]) ∧
        (∀ q, spBase ≤ q → (q < pa ∨ pa + bytes.length ≤ q) → u.readByte q = s.readByte q) ∧
        (∀ q, q < 2 ^ 44 → (q < pa ∨ pa + bytes.length ≤ q) → u.readByte q = s.readByte q) ∧
        ∀ (j : Fin 3) q, (s.slots.get j).isSome → q < 2 ^ 44 → (g = s.live ∨ spBase ≤ pa) →
          u.readByte ((j.val + 1) * 2 ^ 44 + q) = s.readByte ((j.val + 1) * 2 ^ 44 + q))

/-- `amo` (R124, R125, R138, R369): the old value, sign-extended, in x(D); the new one by the table of R124 at the location, in
the newest generation of the agent, of the data and of the writes that have reached the line, which the agent adopts; a `cas`
that finds another value writes nothing. The word that R124 writes out decodes as it says. -/
def Obligations.AmoResults : Prop :=
  decodeWord 0x3A06940A = .ok (.amoAdd 8 3 9 4 2) ∧
  ∀ (s : State) (a : Nat) (f n pa : Nat) (d x y : XReg) (cls : Cls) (sc : BitVec 2) (i : Instr) (reads : List XReg),
    amoInstr f n d x y cls sc = some (i, reads) → s.actor = .front a false → s.RegsReady a reads [d] → s.NothingOlder a →
    s.Reaches a .store ((s.front a).xr x) n pa → s.uecc pa n = false →
    let old := s.readLE pa n
    let gen := s.newest (s.front a).curgen (s.genRange pa n)
    let after (t : State) (g : BitVec 2) : Prop :=
      FrontAfterAccess (s.front a) (t.front a) d (BitVec.ofInt 64 (signedOf n old)) ((s.front a).pc + 4) ∧
      (t.front a).curgen = g ∧ (t.front a).monLine = pa / 64
    (amoTable f n old ((s.front a).xr y).toNat ((s.front a).xr d).toNat = none →
      ∃ t, exec i s = .next t ∧ after t gen ∧ ReadStep s t a) ∧
    ∀ new, amoTable f n old ((s.front a).xr y).toNat ((s.front a).xr d).toNat = some new →
      ∀ u, s.write (some a) (s.lineGen pa gen) pa (bytesLE n new) = some u →
      ∃ t, exec i s = .next t ∧ after t (s.lineGen pa gen) ∧ ReadWriteStep s t a ∧ t.mem = u.mem ∧ t.bgen = u.bgen ∧
        t.slots = u.slots

/-- A load, store or `amo` that cannot perform at once, because an older access is ordered before it or its location is on
another device, joins the pending accesses with its checked addresses: the pc advances, the register waits on the scoreboard,
and memory is untouched (R122, R123).
A front may also let an access wait that it could perform (log 9). A scalar access whose first failing check has code c traps with it: TVAL holds the address, and CAUSE.WRITE tells writes
(R121, R125). Older vector instructions complete first (R135). -/
def Obligations.AccessWaitsAndTraps : Prop :=
  (∀ (s : State) (a : Nat) (kind : AccessKind) (reads : List XReg) (x : XReg) (cls : Cls) (sc : BitVec 2) (off : BitVec 10)
     (i : Instr) (va : W64) (pa : Nat) (io : Bool),
     ((∃ n sign d, kind = .load n sign d ∧ loadInstr n sign d x cls off = some i ∧ sc = 0 ∧ reads = [x] ∧
         va = (s.front a).xr x + BitVec.ofInt 64 (off.toInt * n)) ∨
       (∃ n d, kind = .store n ((s.front a).xr d) ∧ storeInstr n d x cls off = some i ∧ sc = 0 ∧ reads = [x, d] ∧
         va = (s.front a).xr x + BitVec.ofInt 64 (off.toInt * n)) ∨
       (∃ f n d y, kind = .amo (BitVec.ofNat 5 (if n = 4 then 16 + f else f)) d ((s.front a).xr y) ((s.front a).xr d) ∧
         amoInstr f n d x y cls sc = some (i, reads) ∧ va = (s.front a).xr x)) →
     ∀ df, s.actor = .front a df → s.RegsReady a reads kind.dest.toList →
     s.checkOwn a (match kind with | .load .. => .load | _ => .store) va kind.size = .ok (pa, io) →
     let acc : Access := ⟨kind, (s.front a).po, (s.front a).pc, va, pa, cls, sc, none, false⟩
     (df = true ∨ isDomain pa = true ∨ s.accBlocked a (s.front a).acc acc = true) →
     ∃ t, exec i s = .next t ∧ s.OnlyFront t a ∧ (t.front a).acc = (s.front a).acc ++ [acc] ∧
       (t.front a).pc = (s.front a).pc + 4 ∧ (∀ r, (t.front a).xr r = (s.front a).xr r) ∧
       ∀ r, (t.front a).isPend r = ((s.front a).isPend r || (decide (kind.dest = some r) && decide (r ≠ 0)))) ∧
  ∀ (s : State) (a c : Nat) (x : XReg) (cls : Cls) (off : BitVec 10) (df : Bool),
    s.actor = .front a df → s.vecBusy a = false → s.HandlerOk a →
    (∀ n sign d i, loadInstr n sign d x cls off = some i → s.RegsReady a [x] [d] →
      let va := (s.front a).xr x + BitVec.ofInt 64 (off.toInt * n)
      s.checkOwn a .load va n = .error c → s.Traps a i { code := c, tval := va }) ∧
    (∀ n d i, storeInstr n d x cls off = some i → s.RegsReady a [x, d] [] →
      let va := (s.front a).xr x + BitVec.ofInt 64 (off.toInt * n)
      s.checkOwn a .store va n = .error c → s.Traps a i { code := c, write := true, tval := va }) ∧
    ∀ f n d y sc i reads, amoInstr f n d x y cls sc = some (i, reads) → s.RegsReady a reads [d] →
      s.checkOwn a .store ((s.front a).xr x) n = .error c →
      s.Traps a i { code := c, write := true, tval := (s.front a).xr x }

/-- The order of the checks on an address (R121, R260, R328): first canonical form or a usable byte of a slice (BADADDR), then
alignment (MISALIGN), then translation with its permissions, then the physical address: the reserve and the end of memory,
the route of a domain address, a write to a slot and a read of a free one, and the fence of a faulted launch's slice. A domain
address of this device is the local one with SLOT 0 (R339). That bit 44 of a domain address gives BADADDR is log 34's choice (R266 is
silent), and that a fetch at a slot is read as a load is log 63's. -/
def Obligations.CheckOrder : Prop :=
  ∀ (s : State) (a : Nat) (thread : Bool) (aspace : W64) (sup : Bool) (k : Acc) (va : W64) (size : Nat),
    let ans := s.check a thread aspace sup k va size
    let window : Bool := decide (0xFFFFF00000000000 ≤ va.toNat ∧ va.toNat < 0xFFFFF00000000000 + 256 * 2 ^ 21)
    (window = true → 1568768 ≤ va.toNat % 2 ^ 21 → ans = .error 14) ∧
    (window = false → va.toNat / 2 ^ 57 ≠ (if va.getLsbD 56 then 127 else 0) → ans = .error 14) ∧
    (window = true → va.toNat % 2 ^ 21 < 1568768 → va.toNat % size ≠ 0 → ans = .error 6) ∧
    (window = false → va.toNat / 2 ^ 57 = (if va.getLsbD 56 then 127 else 0) → va.toNat % size ≠ 0 → ans = .error 6) ∧
    (window = true → va.toNat % 2 ^ 21 < 1568768 → va.toNat % size = 0 →
      ans = if s.fenced a (spBase + va.toNat % 2 ^ 29) then .error 11 else .ok (spBase + va.toNat % 2 ^ 29, false)) ∧
    (window = false → va.toNat / 2 ^ 57 = (if va.getLsbD 56 then 127 else 0) → va.toNat % size = 0 →
      (∀ c, s.translate a thread aspace sup k va = .error c → ans = .error c) ∧
      ∀ pa io, s.translate a thread aspace sup k va = .ok (pa, io) →
        (pa < 2 ^ 46 →
          (s.dataLimit ≤ pa % 2 ^ 44 → ans = .error 14) ∧
          (pa % 2 ^ 44 < s.dataLimit →
            (pa < 2 ^ 44 → ans = .ok (pa, io)) ∧ (2 ^ 44 ≤ pa → k = .store → ans = .error 8) ∧
            (2 ^ 44 ≤ pa → k ≠ .store →
              ans = if (s.slots.getD (pa / 2 ^ 44 - 1) none).isSome then .ok (pa, io) else .error 7))) ∧
        (2 ^ 46 ≤ pa → pa < spBase →
          (pa / 2 ^ 44 % 2 = 1 → ans = .error 14) ∧
          (pa / 2 ^ 44 % 2 = 0 → pa / 2 ^ 45 ≠ s.flash.deviceId →
            ans = if s.routed (pa / 2 ^ 45) then .ok (pa, io) else .error 14) ∧
          (pa / 2 ^ 44 % 2 = 0 → pa / 2 ^ 45 = s.flash.deviceId →
            ans = if s.dataLimit ≤ pa % 2 ^ 44 then .error 14 else .ok (pa % 2 ^ 44, io))))

/-- A pending access performs when nothing older holds it back, or is sent to the device that owns its location
(R122, R123, R280, R285, R344, R362): a load or `amo` delivers its value and leaves the pending accesses; a store or the bytes of
an MX segment, also one that stalled for a reserve batt (R366), writes with the generation that the agent has now. A load whose slot has been released since
takes LDFAULT (R368). A store that is sent leaves the pending accesses, and its request stands for it until the answer. -/
def Obligations.PendingPerforms : Prop :=
  ∀ (s : State) (a i : Nat) (x : Access),
    (s.front a).acc[i]? = some x → s.accBlocked a ((s.front a).acc.take i) x = false →
    (isSp x.pa && s.fenced a x.pa) = false →
    let gone (t : State) : Prop := (t.front a).acc = (s.front a).acc.eraseIdx i
    let delivered (t : State) (d : XReg) (v : W64) : Prop :=
      (t.front a).xr d = (if d = 0 then 0 else v) ∧ (∀ r, r ≠ d → (t.front a).xr r = (s.front a).xr r) ∧
      (t.front a).isPend d = false ∧ gone t ∧ (t.front a).pc = (s.front a).pc ∧
      (t.front a).instret = (s.front a).instret + 1
    (∀ n sign d, x.kind = .load n sign d → isDomain x.pa = false → s.slotGone x.pa = false → s.uecc x.pa n = false →
      ∃ t, exec (.memReadPerform a i) s = .next t ∧ ReadStep s t a ∧ delivered t d (loadValue n sign (s.readLE x.pa n))) ∧
    (∀ n sign d, x.kind = .load n sign d → isDomain x.pa = false → s.slotGone x.pa = true → s.vecBusy a = false →
      s.HandlerOk a → ∃ t, exec (.memReadPerform a i) s = .next t ∧
        TrapTaken s t a false x.pc { code := 7, tval := x.va } ∧ (t.front a).acc = (s.front a).acc.eraseIdx i ∧
        (t.front a).isPend d = false ∧ t.mem = s.mem) ∧
    (∀ op d v expect, x.kind = .amo op d v expect → isDomain x.pa = false → s.uecc x.pa x.kind.size = false →
      let n := x.kind.size
      let old := s.readLE x.pa n
      let gen := s.newest (s.front a).curgen (s.genRange x.pa n)
      (amoNew op old v expect = none →
        ∃ t, exec (.memWritePerform a i) s = .next t ∧ ReadStep s t a ∧ delivered t d (loadValue n true old)) ∧
      ∀ new u, amoNew op old v expect = some new →
        s.write (some a) (s.lineGen x.pa gen) x.pa (bytesLE n new) = some u →
        ∃ t, exec (.memWritePerform a i) s = .next t ∧ ReadWriteStep s t a ∧ delivered t d (loadValue n true old) ∧
          t.mem = u.mem ∧ t.slots = u.slots) ∧
    (∀ o : Option State, isDomain x.pa = false →
      ((∃ n v, x.kind = .store n v ∧ o = s.write (some a) (s.front a).curgen x.pa (bytesLE n v.toNat)) ∨
        ∃ l, x.kind = .segment l ∧ o = s.writePatches (some a) (s.front a).curgen l) →
      ∀ e, e = .memWritePerform a i ∨ e = .cowStallResume a i →
      (o = none → exec e s = .next s) ∧
      ∀ u, o = some u → ∃ t, exec e s = .next t ∧ ReadWriteStep s t a ∧ t.mem = u.mem ∧ t.bgen = u.bgen ∧ t.slots = u.slots ∧
        { t.front a with acc := (s.front a).acc } = s.front a ∧ gone t) ∧
    (isDomain x.pa = true → x.sent = none →
      ∀ e, e = (match x.kind with | .load .. => Instr.memReadPerform a i | _ => .memWritePerform a i) →
      ∃ t, exec e s = .next t ∧ t.mem = s.mem ∧ t.rseq = s.rseq + 1 ∧
        (∃ p, t.packets = s.packets ++ [p] ∧ p.dst = x.pa / 2 ^ 45 ∧ p.rseq = s.rseq ∧ p.what = x.packet) ∧
        t.requests = s.requests ++ [⟨s.rseq, x.pa / 2 ^ 45, match x.kind with
          | .store .. => .store a x.po x.cls [(x.pa, x.kind.size)]
          | _ => .access a⟩] ∧
        { t.front a with acc := (s.front a).acc } = s.front a ∧
        (t.front a).acc = (match x.kind with
          | .store .. => (s.front a).acc.eraseIdx i
          | _ => (s.front a).acc.set i { x with sent := some s.rseq }) ∧
        ∀ b, b ≠ a → t.front b = s.front b)

/-! ## CSRs -/

/-- The value that a CSR instruction writes, none where it only reads (R130). -/
def csrNew (fn : Nat) (x : XReg) (old v : W64) : Option W64 :=
  match fn with
  | 0 => some v
  | 1 => if x = 0 then none else some (old ||| v)
  | _ => if x = 0 then none else some (old &&& ~~~v)

/-- The three CSR instructions (R130). -/
def csrInstr (fn : Nat) (d x : XReg) (n : CsrNum) : Instr :=
  match fn with
  | 0 => .sysCsrRw d x n | 1 => .sysCsrRs d x n | _ => .sysCsrRc d x n

/-- CSR instructions that pass the tests of R81 and R82 and need no wait (R84): the old value in x(D), the next pc, and the
effect of the write as `csrWrite` gives it, on everything but the front's own pc, INSTRET and destination. A read changes
nothing else, except TRCDATA and UFNDATA, whose address registers advance (R76, R391). -/
def Obligations.CsrAccess : Prop :=
  ∀ (s : State) (a fn : Nat) (d x : XReg) (n : CsrNum) (old : W64),
    s.Issues a [x] [d] → csrRead s a n = some old →
    let new := csrNew fn x old ((s.front a).xr x)
    csrPriv n (s.front a).sup new.isSome = false → csrWaits s a n new = false →
    (new = none → n ≠ 0x543 → n ≠ 0x203 → s.Computes a (csrInstr fn d x n) d old ((s.front a).pc + 4)) ∧
    (new = none → n = 0x543 → (s.front a).sup = true → ∃ t, exec (csrInstr fn d x n) s = .next t ∧
      (t.front a).xr d = (if d = 0 then 0 else old) ∧ t.trcaddr = s.trcaddr + 1 ∧
      { t with fronts := s.fronts, trcaddr := s.trcaddr } = s) ∧
    (new = none → n = 0x203 → ∃ t, exec (csrInstr fn d x n) s = .next t ∧ (t.front a).xr d = (if d = 0 then 0 else old) ∧
      (t.core (coreOf a)).ufnaddr = BitVec.ofNat 10 ((s.core (coreOf a)).ufnaddr.toNat / 64 * 64 +
        ((s.core (coreOf a)).ufnaddr.toNat + 1) % 64) ∧
      { t with fronts := s.fronts, cores := s.cores } = s) ∧
    ∀ v u, new = some v → n ≠ 0x543 → csrWrite s a n v = some u →
      ∃ t, exec (csrInstr fn d x n) s = .next t ∧ ScalarResult u t a d old ((s.front a).pc + 4)

/-- A register of plain bits reads back what was written to it: the value goes in whole, with the read-only bit of STATUS kept
(R82, R85 to R87, R391 to R394).
Which CSR numbers are assigned, and to whom (R83, R86, R391): a drone has no context registers of the user block beyond
CURGEN, TIME, CYCLE and INSTRET; the numbers of blocks 6 and 7 are assigned to nobody. -/
def Obligations.CsrNumbers : Prop :=
  (∀ (s t : State) (a : Nat) (n : CsrNum) (v : W64), csrWrite s a n v = some t →
     (n = 0x000 ∨ n = 0x003 ∨ n = 0x006 ∨ n = 0x007 ∨ n = 0x008 ∨ n = 0x101 ∨ n = 0x102 ∨ n = 0x103 ∨ n = 0x104 ∨ n = 0x105 ∨
       n = 0x106 ∨ n = 0x200 ∨ n = 0x202 ∨ n = 0x204 ∨ n = 0x300 ∨ n = 0x302 ∨ n = 0x400 ∨ n = 0x542 ∨ n = 0x551 ∨ n = 0x552 ∨
       (0x500 ≤ n.toNat ∧ n.toNat ≤ 0x53F) ∨ (0x548 ≤ n.toNat ∧ n.toNat ≤ 0x54F) →
       csrRead t a n = some v) ∧
     (n = 0x100 → csrRead t a n = some ((v &&& 0xF) ||| ((s.front a).status.zeroExtend 64 &&& 0x10)))) ∧
  ∀ (s : State) (a : Nat) (n : CsrNum), (csrRead s a n).isSome = decide (
    (n.toNat < 9 ∧ isDrone a = false) ∨ (9 ≤ n.toNat ∧ n.toNat ≤ 0xC) ∨ (0x100 ≤ n.toNat ∧ n.toNat ≤ 0x108) ∨
    (0x200 ≤ n.toNat ∧ n.toNat ≤ 0x204) ∨ (0x300 ≤ n.toNat ∧ n.toNat ≤ 0x302) ∨ n = 0x400 ∨ n = 0x401 ∨
    (0x500 ≤ n.toNat ∧ n.toNat ≤ 0x546) ∨ (0x548 ≤ n.toNat ∧ n.toNat ≤ 0x553) ∨ (0x560 ≤ n.toNat ∧ n.toNat ≤ 0x568) ∨
    (0x570 ≤ n.toNat ∧ n.toNat ≤ 0x572) ∨ n = 0x57E ∨ n = 0x57F)

/-- What stops a CSR instruction before any effect (R81, R82, R98, R391): an unassigned number or a refused write traps ILLFLD
first; then a register of blocks 1 to 4, or a write in block 5, traps PRIV in user mode. In block 5 a write of user mode to a
register that supervisor mode may write traps PRIV whatever its value (R391). TVAL holds the word. -/
def Obligations.CsrTraps : Prop :=
  ∀ (s : State) (a fn : Nat) (d x : XReg) (n : CsrNum), s.Issues a [x] [d] → s.vecBusy a = false → s.HandlerOk a →
    let i := csrInstr fn d x n
    let word : W64 := ((encode i).getD 0).zeroExtend 64
    (csrRead s a n = none → s.Traps a i { code := 2, tval := word }) ∧
    ∀ old, csrRead s a n = some old →
      let new := csrNew fn x old ((s.front a).xr x)
      let refused := ∃ v, new = some v ∧ csrWrite s a n v = none
      let user := (s.front a).status.getLsbD 0 = false
      let readOnly := n = 0x541 ∨ n = 0x543 ∨ n = 0x545 ∨ n = 0x546 ∨ n = 0x553 ∨ 0x560 ≤ n.toNat
      let block5 := 1280 ≤ n.toNat ∧ n.toNat < 1536
      (refused → (user → block5 → readOnly) → s.Traps a i { code := 2, tval := word }) ∧
      (user → block5 → new.isSome = true → ¬ readOnly → s.Traps a i { code := 4, tval := word }) ∧
      (¬ refused → user → ((256 ≤ n.toNat ∧ n.toNat < 1280) ∨ (block5 ∧ new.isSome)) →
        s.Traps a i { code := 4, tval := word })

/-- The effects of CSR writes as operations of the moving front (R76, R85 to R87, R130, R146, R386, R391 to R395, R397): each
answers the state with its register written, and a value that R82 refuses changes nothing. -/
def Obligations.CsrWriteEffects : Prop :=
  ∀ (s : State) (a : Nat) (v : W64), (∃ df, s.actor = .front a df) →
    let gives (i : Instr) (t : State) : Prop := exec i s = .next t
    let c := s.core (coreOf a)
    -- VTYPE: VLMAX follows the grant and VL is clamped
    (isDrone a = false → vtypeValid v = true → ∃ t, gives (.vtypeCsrWrite v) t ∧ s.OnlyVec t a ∧
      (t.vec a).vtype = v.setWidth 24 ∧
      (t.vec a).vlmax.toNat = 64 * lanesOf (s.vec a).fgrant * (VType.lmul (v.setWidth 24)) / VType.sew (v.setWidth 24) ∧
      (t.vec a).vl.toNat = min (s.vec a).vl.toNat (t.vec a).vlmax.toNat) ∧
    (vtypeValid v = false → gives (.vtypeCsrWrite v) s) ∧
    -- ASPACE: bound input streams translate under the new value and drop their prefetch, and what is on its way to them
    (s.quiet a = true → v.extractLsb' 32 16 = 0 → ∃ t, gives (.aspaceCsrWrite v) t ∧
      (∀ b, b ≠ a → t.front b = s.front b) ∧ (∀ j, j ≠ a → t.vec j = s.vec j) ∧
      { t with fronts := s.fronts, vecs := s.vecs, requests := s.requests, arrived := s.arrived } = s ∧
      t.front a = { s.front a with aspace := v } ∧
      (isDrone a = false → ∀ j x, (s.vec a).stream j = some x →
        (t.vec a).stream j = some (if x.out then x else { x with aspace := v, buf := [], fault := none, told := false }))) ∧
    (s.quiet a = false → gives (.aspaceCsrWrite v) s) ∧
    -- LANEPART: retired groups stay as they are and no group becomes retired or reserved
    (v.extractLsb' 24 40 = 0 →
      (∀ j, j < 8 → if c.lanemap.getLsbD j then v.extractLsb' (3 * j) 3 = c.lanepart.extractLsb' (3 * j) 3
        else (v.extractLsb' (3 * j) 3).toNat < 6) →
      ∃ t, gives (.lanepartWrite v) t ∧ s.OnlyCore t (coreOf a) ∧ t.core (coreOf a) = { c with lanepart := v.setWidth 24 }) ∧
    ((∃ j, j < 8 ∧ c.lanemap.getLsbD j = false ∧ 6 ≤ (v.extractLsb' (3 * j) 3).toNat) → gives (.lanepartWrite v) s) ∧
    -- LANEREQ: 0 to 8, and the arbiter is prompted
    (isDrone a = false → v.toNat ≤ 8 → ∃ t, gives (.lanereqCsrWrite v) t ∧ (t.vec a) = { s.vec a with lanereq := v.setWidth 4 } ∧
      (t.core (coreOf a)).arb = true ∧ { t with vecs := s.vecs, cores := s.cores } = s) ∧
    (8 < v.toNat → gives (.lanereqCsrWrite v) s) ∧
    -- BELSTAT: a one in FULL clears it
    (v = 1 <<< 31 → ∃ t, gives (.belstatFullClear v) t ∧ s.OnlyCluster t (clusterOf a) ∧
      t.cluster (clusterOf a) = { s.cluster (clusterOf a) with belfull := false }) ∧
    (v = 0 → gives (.belstatFullClear v) s) ∧
    -- UFNDATA: the micro-op goes to UFNADDR's slot and index, and INDEX advances within the slot
    (v.extractLsb' 32 32 = 0 → uopValid (v.setWidth 32) = true → c.ufnvalid.getLsbD (c.ufnaddr.toNat / 64) = false →
      ∃ t, gives (.ufndataAccess (some v)) t ∧ s.OnlyCore t (coreOf a) ∧
        (∀ m, (t.core (coreOf a)).micro m = if m = c.ufnaddr.toNat then v.setWidth 32 else c.micro m) ∧
        (t.core (coreOf a)).ufnaddr.toNat = c.ufnaddr.toNat / 64 * 64 + (c.ufnaddr.toNat + 1) % 64) ∧
    (c.ufnvalid.getLsbD (c.ufnaddr.toNat / 64) = true → gives (.ufndataAccess (some v)) s) ∧
    -- UFNVALID: a slot becomes valid only with an end in it
    (s.ufnRunning (coreOf a) v = false → v.extractLsb' 16 48 = 0 →
      (∀ j, j < 16 → v.getLsbD j = true → c.ufnvalid.getLsbD j = true ∨ ∃ m, m < 64 ∧ (c.micro (64 * j + m)).extractLsb' 27 5 = 0) →
      ∃ t, gives (.ufnvalidWrite v) t ∧ s.OnlyCore t (coreOf a) ∧ t.core (coreOf a) = { c with ufnvalid := v.setWidth 16 }) ∧
    (s.ufnRunning (coreOf a) v = true → gives (.ufnvalidWrite v) s) ∧
    -- NOTIFYBASE: the address field, each subscription whose bit is 0 is disarmed, and a bit that rises reads its record and arms it
    -- where it is valid (R386); that a record beyond the memory or with an uncorrectable error counts as invalid is log 65's choice
    (∃ t, gives (.notifybaseWrite v) t ∧ t.notifybase.extractLsb' 8 56 = v.extractLsb' 8 56 ∧
      (∀ k, k < 8 → v.getLsbD k = false → t.notifybase.getLsbD k = false ∧ t.subs.getD k none = none) ∧
      (∀ k, k < 8 → v.getLsbD k = true → s.notifybase.getLsbD k = true →
        t.notifybase.getLsbD k = true ∧ t.subs.getD k none = s.subs.getD k none) ∧
      (∀ k, k < 8 → v.getLsbD k = true → s.notifybase.getLsbD k = false →
        let pa := v.toNat / 256 * 256 + 32 * k
        let valid := pa + 32 ≤ s.dataLimit ∧ s.uecc pa 32 = false ∧ (s.readByte (pa + 8)).toNat ≤ 10 ∧ s.readLE pa 8 % 8 = 0 ∧
          1 ≤ (s.readByte (pa + 9)).toNat ∧ (s.readByte (pa + 9)).toNat ≤ 3 ∧ ∀ j, j < 6 → s.readByte (pa + 10 + j) = 0
        (¬ valid → t.notifybase.getLsbD k = false ∧ t.subs.getD k none = none) ∧
        (valid → t.notifybase.getLsbD k = true ∧ t.subs.getD k none = some
          { addr := s.readLE pa 8, sensor := (s.readByte (pa + 8)).toNat, up := (s.readByte (pa + 9)).getLsbD 0,
            down := (s.readByte (pa + 9)).getLsbD 1, thresh := s.readLE (pa + 16) 8, hyst := s.readLE (pa + 24) 8,
            above := decide (s.readLE (pa + 16) 8 ≤ s.sensor (s.readByte (pa + 8)).toNat), last := none, window := false,
            latest := 0 })) ∧
      { t with notifybase := s.notifybase, subs := s.subs, touches := s.touches } = s)

/-- The effects of CSR writes on counters, comparators, sampling, the trace and the trigger (R391 to R397). -/
def Obligations.DebugWriteEffects : Prop :=
  ∀ (s : State) (a : Nat) (v : W64) (n : CsrNum), (∃ df, s.actor = .front a df) →
    let gives (i : Instr) (t : State) : Prop := exec i s = .next t
    let c := s.core (coreOf a)
    -- a selector with a listed code, of the core, the cluster or the device, and its counter counts again
    (let q := s.cluster (clusterOf a)
     let code := v.toNat % 256
     let listed := if n.toNat < 0x510 then code ≤ 0x05 ∨ (0x10 ≤ code ∧ code ≤ 0x15)
       else if n.toNat < 0x520 then 0x20 ≤ code ∧ code ≤ 0x2A else 0x40 ≤ code ∧ code ≤ 0x4B
     (v.extractLsb' 10 54 = 0 → (v.getLsbD 8 = true → listed) → ∃ t, (0x508 ≤ n.toNat → gives (.evsWrite n v) t) ∧
       (∀ j, j < 8 → n.toNat = 0x508 + j → s.OnlyCore t (coreOf a) ∧ t.core (coreOf a) =
         { c with evs := c.evs.setIfInBounds j (v.setWidth 10), evfrz := c.evfrz &&& ~~~(1#8 <<< j) }) ∧
       (∀ j, j < 8 → n.toNat = 0x518 + j → s.OnlyCluster t (clusterOf a) ∧ t.cluster (clusterOf a) =
         { q with kvs := q.kvs.setIfInBounds j (v.setWidth 10), kvfrz := q.kvfrz &&& ~~~(1#8 <<< j) }) ∧
       ∀ j, j < 16 → n.toNat = 0x530 + j →
         t = { s with dvs := s.dvs.setIfInBounds j (v.setWidth 10), dvfrz := s.dvfrz &&& ~~~(1#16 <<< j) }) ∧
     (v.extractLsb' 10 54 ≠ 0 ∨ (v.getLsbD 8 = true ∧ ¬ listed) → gives (.evsWrite n v) s)) ∧
    -- BPRUN releases the frozen contexts named and the drone, those that are about to freeze among them
    (∃ t, gives (.bprun v) t ∧ { t with fronts := s.fronts } = s ∧
      (∀ k, k < 4 → t.front (4 * coreOf a + k) = if v.getLsbD k
        then { s.front (4 * coreOf a + k) with frozen := false, freezing := false }
        else s.front (4 * coreOf a + k)) ∧
      (t.front (droneOf (clusterOf a)) = if v.getLsbD 4
        then { s.front (droneOf (clusterOf a)) with frozen := false, freezing := false }
        else s.front (droneOf (clusterOf a))) ∧
      ∀ b, b / 4 ≠ coreOf a → b ≠ droneOf (clusterOf a) → t.front b = s.front b) ∧
    -- TRGCTL: the enables and ARMED go in
    (v.extractLsb' 21 43 = 0 → v.extractLsb' 10 6 = 0 → v.extractLsb' 5 3 = 0 → v.getLsbD 9 = false →
      ∃ t, gives (.trgctlFire v) t ∧ { t with trgctl := s.trgctl } = s ∧ t.trgctl.extractLsb' 0 9 = v.extractLsb' 0 9 ∧
        t.trgctl.extractLsb' 16 5 = s.trgctl.extractLsb' 16 5) ∧
    -- FIRE with SOFT enabled and ARMED set: the trigger at the end of the step counts, latches TIME and disarms
    (v = 0x310 → s.trig.getLsbD 0 = false → ∃ t, gives (.trgctlFire v) t ∧ { t with trgctl := s.trgctl, fired := s.fired } = s ∧
      t.trigger.trgcount = s.trgcount + 1 ∧ t.trigger.trgtime = s.time ∧ t.trigger.fired = 0 ∧
      t.trigger.trgctl.getLsbD 8 = false ∧ t.trigger.trgctl.getLsbD 20 = true ∧ t.trigger.mem = s.mem) ∧
    -- several sources of one cycle are one trigger: those of one step, and those of a later step before the next clock edge, which
    -- join WHY where the first one has latched it
    (∀ j l, j < 5 → l < 5 → s.trgctl.getLsbD j = true → s.trgctl.getLsbD l = true →
      (s.trig.getLsbD 0 = false → ((s.fire j).fire l).trigger.trgcount = s.trgcount + 1) ∧
      (s.trig.getLsbD 0 = true → (s.fire j).trigger.trgcount = s.trgcount ∧ (s.fire j).trigger.trgtime = s.trgtime ∧
        (s.fire j).trigger.trgctl.getLsbD 8 = s.trgctl.getLsbD 8 ∧
        (s.trig.getLsbD 1 = true → (s.fire j).trigger.trgctl.getLsbD (16 + j) = true))) ∧
    -- SMPCTL: a rising EN clears COUNT and FULL
    (v.extractLsb' 32 32 = 0 → v.extractLsb' 13 3 = 0 → v.extractLsb' 2 6 = 0 → (v.extractLsb' 8 5).toNat ≤ 16 →
      ∃ t, gives (.smpctlWrite v) t ∧ s.OnlyCore t (coreOf a) ∧ (t.core (coreOf a)).smpctl = v.setWidth 32 ∧
        (v.getLsbD 0 = true → c.smpctl.getLsbD 0 = false →
          (t.core (coreOf a)).smpcount = 0 ∧ (t.core (coreOf a)).smpfull = false ∧
          (t.core (coreOf a)).smpleft = (v.extractLsb' 16 16).toNat + 1)) ∧
    -- TRCCTL: a rising RUN starts a fresh trace
    (v.extractLsb' 48 16 = 0 → v.extractLsb' 14 18 = 0 → v.extractLsb' 6 6 = 0 → v.getLsbD 12 = true → s.trcctl.getLsbD 12 = false →
      ∃ t, gives (.trcctlWrite v) t ∧ t.trcctl = v &&& ~~~(1#64 <<< 13) ∧ t.trcnext = 0 ∧ t.trcwrap = false ∧ t.trcpost = none ∧
        { t with trcctl := s.trcctl, trcnext := s.trcnext, trcwrap := s.trcwrap, trcpost := s.trcpost } = s) ∧
    (v.getLsbD 6 = true → gives (.trcctlWrite v) s) ∧
    -- TRCDATA read in supervisor mode advances TRCADDR
    ((s.front a).status.getLsbD 0 = true → gives .trcdataRead { s with trcaddr := s.trcaddr + 1 }) ∧
    ((s.front a).status.getLsbD 0 = false → gives .trcdataRead s) ∧
    -- a register without behaviour of its own: SCRATCH here, every plain one in CsrNumbers
    gives (.csrWriteGeneric 0x105 v) (s.setFront a { s.front a with scratch := v }) ∧
    (∀ t, plainWrite s a n v = some t → gives (.csrWriteGeneric n v) t) ∧
    (plainWrite s a n v = none → gives (.csrWriteGeneric n v) s)

/-! ## Traps, waiting, fences, counts -/

/-- `sys.trap` takes the trap TRAPI with its code in TVAL, by the entry of R134 (R137): mode and enable are saved, the front
runs in supervisor mode with STATUS.IE clear at TVEC, and the shadow holds VTYPE and VL.
A vector instruction's trap (R134, R135, R185): SPC is the front's next instruction, VCP and EPC the trapping one; it and
the younger entries are held in the VIQ in their order, each with its index (a completed one, with nothing left to do, keeps its
place), and VSTART is the index that it resumes from. -/
def Obligations.TrapEntry : Prop :=
  (∀ (s : State) (a : Nat) (code : BitVec 16), (∃ df, s.actor = .front a df) → s.vecBusy a = false → s.HandlerOk a →
     s.Traps a (.sysTrap code) { code := 13, tval := code.zeroExtend 64 }) ∧
  ∀ (s : State) (k j : Nat) (e : Entry) (x : Trap), isDrone k = false → s.HandlerOk k → x.code ≠ 10 → x.reg = none →
    (s.vec k).fromVcp.head? = some e → e.done = false → ((s.vec k).infl ++ (s.vec k).viq).Pairwise (fun y z => y.po ≠ z.po) →
    (∀ y ∈ (s.vec k).infl, y.done = false → y.flags &&& (s.vec k).ftrap = 0) →
    let v := s.vec k
    let t := s.vectorTrap k e j x
    let u := t.vec k
    TrapTaken s t k true e.addr x ∧ (t.front k).held = true ∧ u.vstart = BitVec.ofNat 13 j ∧
      (∃ e', u.viq = e' :: (v.fromVcp.drop 1).map Entry.stopped ∧ e'.word = e.word ∧ e'.addr = e.addr ∧ e'.ops = e.ops ∧
        e'.vl = e.vl ∧ e'.vtype = e.vtype ∧ e'.pix = BitVec.ofNat 13 j) ∧
      (∀ y, (Entry.stopped y).word = y.word ∧ (Entry.stopped y).ops = y.ops ∧ (Entry.stopped y).vl = y.vl ∧
        (Entry.stopped y).pix = (if y.done then y.vl else y.pix) ∧ (Entry.stopped y).done = y.done ∧
        (Entry.stopped y).started = y.started) ∧
      (∀ b, b ≠ k → t.front b = s.front b) ∧ (∀ b, b ≠ k → t.vec b = s.vec b) ∧ t.mem = s.mem ∧
      u.v = v.v ∧ u.tag = v.tag ∧ u.bad = v.bad ∧ u.m = v.m ∧ u.s = v.s ∧
      ∀ n, n < 7 → (u.flags.getLsbD n = true ↔ v.flags.getLsbD n = true ∨ ∃ y ∈ v.infl, y.flags.getLsbD n = true)

/-- `sys.eret` (R136): the mode and enable come back, VTYPE and VL come from the shadow; with CAUSE.VEC the oldest held entry
resumes from VSTART and the front goes on at SPC, otherwise held entries are discarded and it goes on at EPC. A stream whose fault
has been delivered goes on after it (R208). In user mode it traps PRIV. -/
def Obligations.TrapReturn : Prop :=
  ∀ (s : State) (a : Nat), (∃ df, s.actor = .front a df) →
    ((s.front a).status.getLsbD 0 = true → ∃ t, exec .sysEret s = .next t ∧
      (t.front a).status.getLsbD 0 = (s.front a).status.getLsbD 1 ∧ (t.front a).status.getLsbD 2 = (s.front a).status.getLsbD 3 ∧
      (t.front a).status.getLsbD 1 = (s.front a).status.getLsbD 1 ∧ (t.front a).status.getLsbD 3 = (s.front a).status.getLsbD 3 ∧
      (t.front a).held = false ∧ (t.front a).instret = (s.front a).instret + 1 ∧
      (t.front a).pc = (if (s.front a).cause.getLsbD 9 then (s.front a).spc else (s.front a).epc) ∧
      (isDrone a = false → (t.vec a).vtype = (s.front a).shVtype ∧ (t.vec a).vl = (s.front a).shVl) ∧
      (isDrone a = false → (s.front a).held = true → (s.front a).cause.getLsbD 9 = true →
        (t.vec a).viq = (match (s.vec a).viq with | [] => [] | e :: l => { e with pix := (s.vec a).vstart } :: l) ∧
        ∀ r, (t.front a).xr r = (s.front a).xr r) ∧
      (isDrone a = false → (s.front a).held = true → (s.front a).cause.getLsbD 9 = false →
        (t.vec a).viq = [] ∧ (t.vec a).vstart = 0 ∧
        ∀ e ∈ (s.vec a).viq, e.done = false → ∀ r, pendingDest e.word = some r →
          (t.front a).xr r = 0 ∧ (t.front a).isPend r = false) ∧
      (isDrone a = false → ∀ j, (t.vec a).stream j =
        ((s.vec a).stream j).map fun x => if x.told then { x with fault := none, told := false } else x) ∧
      (∀ b, b ≠ a → t.front b = s.front b) ∧ (∀ b, b ≠ a → t.vec b = s.vec b) ∧ t.mem = s.mem) ∧
    ((s.front a).status.getLsbD 0 = false → s.vecBusy a = false → s.HandlerOk a →
      s.Traps a .sysEret { code := 4, tval := ((encode .sysEret).getD 0).zeroExtend 64 })

/-- The fences (R131, R132): with every named earlier access performed the front goes on, whatever other access is pending, and it
waits while a named one is, or a vector or array instruction whose access the fence names (R276).
`sys.fence.c` names its mask's classes and class 15 on this device; `sys.fence.s` names every class, and at domain scope also
other devices, whose answers it waits for. -/
def Obligations.Fences : Prop :=
  ∀ (s : State) (a : Nat), (∃ df, s.actor = .front a df) →
    (∀ mask : BitVec 16,
      ((∀ x ∈ (s.front a).acc, isDomain x.pa = true ∨ (x.cls ≠ 15 ∧ mask.getLsbD x.cls.toNat = false)) →
        s.fenceWaitsSide a (fun c => c = 15 || mask.getLsbD c.toNat) = false →
        s.Computes a (.sysFenceC mask) 0 0 ((s.front a).pc + 4)) ∧
      (s.fenceWaitsSide a (fun c => c = 15 || mask.getLsbD c.toNat) = true → exec (.sysFenceC mask) s = .next s) ∧
      (∀ x ∈ (s.front a).acc, isDomain x.pa = false → (x.cls = 15 ∨ mask.getLsbD x.cls.toNat = true) →
        exec (.sysFenceC mask) s = .next s)) ∧
    (∀ sc : BitVec 2,
      ((∀ x ∈ (s.front a).acc, isDomain x.pa = true ∧ sc ≠ 3) → s.fenceWaitsSide a (fun _ => true) = false →
        (sc = 3 → ∀ r ∈ s.requests, r.storeOf a = false) → s.Computes a (.sysFenceS sc) 0 0 ((s.front a).pc + 4)) ∧
      (s.fenceWaitsSide a (fun _ => true) = true → exec (.sysFenceS sc) s = .next s) ∧
      (∀ x ∈ (s.front a).acc, (isDomain x.pa = false ∨ sc = 3) → exec (.sysFenceS sc) s = .next s) ∧
      (sc = 3 → (∃ r ∈ s.requests, ∃ po cls runs, r.waiter = .store a po cls runs) → exec (.sysFenceS sc) s = .next s))

/-- `sys.wfe` (R138, R139, R311, R325): an event that the monitor already holds for the line, or for any line after a restart, is
consumed at once; otherwise the monitor stands on the line of x(A) and the agent waits, issuing nothing; a member of a launch that
has faulted takes PEERFAULT instead of the wait. WFE_WAKE ends the wait: the event bit is clear and the front goes on after the
`sys.wfe`. -/
def Obligations.WaitForEvent : Prop :=
  ∀ (s : State) (a : Nat) (x : XReg) (pa : Nat),
    (s.Issues a [x] [] → s.Reaches a .load ((s.front a).xr x) 8 pa → s.uecc pa 8 = false →
      let event := (s.front a).monEvent = true ∧ ((s.front a).monLine = pa / 64 ∨ (s.front a).monLine = anyLine)
      (event → ∃ t, exec (.sysWfe x) s = .next t ∧ s.OnlyFront { t with touches := s.touches } a ∧
        t.front a = { s.front a with monEvent := false, monLine := pa / 64, pc := (s.front a).pc + 4, po := (s.front a).po + 1,
                                     instret := (s.front a).instret + 1 }) ∧
      (¬ event → s.peerFatal a = false → ∃ t, exec (.sysWfe x) s = .next t ∧ s.OnlyFront { t with touches := s.touches } a ∧
        t.front a = { s.front a with monEvent := false, monLine := pa / 64, run := .waiting, po := (s.front a).po + 1 }) ∧
      (¬ event → s.peerFatal a = true → s.vecBusy a = false → s.HandlerOk a → s.Traps a (.sysWfe x) { code := 11 })) ∧
    ((s.front a).run = .waiting → s.peerFatal a = false → ∃ t, exec (.wfeWake a) s = .next t ∧ s.OnlyFront t a ∧
      t.front a = { s.front a with run := .running, monEvent := false, pc := (s.front a).pc + 4,
                                   instret := (s.front a).instret + 1 }) ∧
    ((s.front a).run ≠ .waiting → exec (.wfeWake a) s = .next s)

/-- `sys.yield` with no launch that waits for this agent's place (R141): the front idles until YIELD_IDLE_END. With a waiting
head of no lower PRIO that would take a place that the agent holds, the launch's stop is requested of all its agents instead
(R312; the test by the head is the model's, log 25).
`sys.halt` and the end of a kernel (R140, R334, R336): the front issues no more; a kernel with nothing outstanding counts as
halted, a context frees its lane groups, the arbiter gives them anew, its GRANT stays and its streams are gone. While an entry, a
stream's output, a thread or an access is outstanding it stays halting; entries that a trap holds count for nothing (R135). A fault
that an output stream holds is taken first, as a trap of the `sys.halt` (R140, R208). That a stream whose fault has been delivered
goes on with `sys.halt` too, and that held entries are discarded with the halt, is the model's choice (log 65). -/
def Obligations.YieldAndHalt : Prop :=
  (∀ (s : State) (a : Nat), (∃ df, s.actor = .front a df) →
     ((∀ p, s.launchOf a = some p → p.record.pre = false ∨ p.stopping = true ∨ s.yieldsTo a p = false) →
       ∃ t, exec .sysYield s = .next t ∧ s.OnlyFront t a ∧
         t.front a = { s.front a with run := .yielding, pc := (s.front a).pc + 4, po := (s.front a).po + 1,
                                      instret := (s.front a).instret + 1 }) ∧
     (∀ p, s.launchOf a = some p → p.record.pre = true → p.stopping = false → s.yieldsTo a p = true →
       ∃ t, exec .sysYield s = .next t ∧ t.mem = s.mem ∧ (t.front a).pc = (s.front a).pc + 4 ∧
         (∀ b ∈ p.agents, (t.front b).preempt = true) ∧ (∀ q ∈ t.placed, q.seq = p.seq → q.stopping = true)) ∧
     ∀ b, ((s.front b).run = .yielding → exec (.yieldIdleEnd b) s = .next (s.setFront b { s.front b with run := .running })) ∧
       ((s.front b).run ≠ .yielding → exec (.yieldIdleEnd b) s = .next s)) ∧
  ∀ (s : State) (a : Nat),
    let left (t : State) : Prop := (∀ p, s.launchOf a = some p → ∀ q ∈ t.placed, q.seq = p.seq → q.last = some a) ∧
      (t.front a).run = .halted ∧ (t.front a).preempt = false ∧
      ((s.front a).held = false → t.front a = { s.front a with run := .halted, preempt := false })
    let trapped (t : State) (x : StreamFault) : Prop :=
      TrapTaken s t a false (s.front a).pc { code := x.code, write := true, tval := x.va } ∧
      (∀ b, b ≠ a → t.front b = s.front b) ∧ (∀ j, j ≠ a → t.vec j = s.vec j) ∧
      { t with fronts := s.fronts, vecs := s.vecs, fired := s.fired } = s
    ((∃ df, s.actor = .front a df) →
      (isDrone a = true ∨ (s.vec a).retry.outFault = none → ∃ t, exec .sysHalt s = .next t ∧ s.OnlyContext t a ∧
        t.vec a = (if isDrone a then s.vec a else (s.vec a).retry) ∧
        t.front a = { s.front a with run := .halting, po := (s.front a).po + 1 }) ∧
      ∀ x, isDrone a = false → (s.vec a).retry.outFault = some x → s.vecBusy a = false → s.HandlerOk a →
        ∃ t, exec .sysHalt s = .next t ∧ trapped t x ∧ t.vec a = (s.vec a).retry.tellOutFaults) ∧
    (∀ x, (s.front a).run = .halting → isDrone a = false → (s.vec a).outFault = some x → s.vecBusy a = false → s.HandlerOk a →
      ∃ t, exec (.kernelHaltComplete a) s = .next t ∧ trapped t x ∧ t.vec a = (s.vec a).tellOutFaults) ∧
    ((s.front a).run = .halting → isDrone a = true → ((s.cluster (clusterOf a)).queue = [] ∨ (s.front a).held = true) →
      (s.cluster (clusterOf a)).mma = none → s.agentDrained a = true → ∃ t, exec (.kernelHaltComplete a) s = .next t ∧ left t ∧
        (∀ b, b ≠ a → t.front b = s.front b) ∧ (t.cluster (clusterOf a)).queue = [] ∧
        (∀ c, c ≠ clusterOf a → t.cluster c = s.cluster c) ∧
        { t.cluster (clusterOf a) with queue := (s.cluster (clusterOf a)).queue, stalled := (s.cluster (clusterOf a)).stalled } =
          s.cluster (clusterOf a) ∧
        { t with fronts := s.fronts, placed := s.placed, clusters := s.clusters } = s) ∧
    ((s.front a).run = .halting → isDrone a = false → ((s.vec a).open_ = [] ∨ (s.front a).held = true) →
      (s.vec a).infl = [] → s.agentDrained a = true → (s.vec a).outFault = none →
      (∀ j x, (s.vec a).stream j = some x → x.out = true → x.buf = []) →
      ∃ t, exec (.kernelHaltComplete a) s = .next t ∧ (∀ b, b ≠ a → t.front b = s.front b) ∧ left t ∧
        ((s.front a).held = true → (t.vec a).viq = [] ∧ ∀ e ∈ (s.vec a).viq, e.done = false → ∀ r,
          pendingDest e.word = some r → (t.front a).xr r = 0 ∧ (t.front a).isPend r = false) ∧
        (∀ j, (t.vec a).stream j = none) ∧ (t.vec a).grant = (s.vec a).grant ∧ t.mem = s.mem ∧
        (∀ j, j < 8 → laneHolder (t.core (coreOf a)).lanepart j ≠ ctxOf a)) ∧
    ((s.front a).run = .halting → s.agentDrained a = false → (isDrone a = true ∨ (s.vec a).outFault = none) →
      ∃ t, exec (.kernelHaltComplete a) s = .next t ∧ (t.front a).run = .halting) ∧
    ((s.front a).run ≠ .halting → exec (.kernelHaltComplete a) s = .next s)

/-- x0 reads 0 and discards what is written to it, in every state (R78); and `sys.time`, `sys.cycle` and `sys.gen` (R142): TIME, the
CYCLE of the agent's cluster, CURGEN zero-extended. -/
def Obligations.XZeroAndCounts : Prop :=
  (∀ (s : State) (a : Nat) (v : W64), (s.front a).xr 0 = 0 ∧ (s.writeX a 0 v).front a = s.front a) ∧
  ∀ (s : State) (a : Nat) (d : XReg), s.Issues a [] [d] →
    s.Computes a (.sysTime d) d s.time ((s.front a).pc + 4) ∧
    s.Computes a (.sysCycle d) d (s.cluster (clusterOf a)).cycle ((s.front a).pc + 4) ∧
    s.Computes a (.sysGen d) d (BitVec.ofNat 64 (s.front a).curgen.toNat) ((s.front a).pc + 4)

/-- `sys.tlb.flush` and `sys.aspace` (R145, R146): in supervisor mode, with no access in the way, the named translations leave
every TLB and the others stay, and a flush waits while an access may not have performed that has looked up a named one (R330): a
request on its way, a kept write, a `fab.add96` or `fab.notify` that has not ended; ASPACE takes x(A) and x(D) its old value. In user mode both trap PRIV. A page walk fills the
TLBs with the entry that it finds (R329), and one that fails leaves them. -/
def Obligations.Translations : Prop :=
  ∀ (s : State) (a : Nat) (x y d : XReg),
    (s.Issues a [x, y] [] → (s.front a).status.getLsbD 0 = true → (∀ p ∈ s.fronts, p.2.acc = []) →
      (∀ q ∈ s.requests, q.translated = false) → s.stuck = [] →
      (∀ h ∈ s.threads, match h.kind with | .add96 .. | .notify .. => False | _ => True) →
      let names (t : TlbEntry) : Bool :=
        (y = 0 || decide (t.asid.toNat = ((s.front a).xr y).toNat % 2 ^ 16)) &&
        (x = 0 || decide (t.vfn = ((s.front a).xr x).toNat % 2 ^ 57 / (if t.big then 2 ^ 21 else 2 ^ 12)))
      ∃ t, exec (.sysTlbFlush x y) s = .next t ∧ (t.front a).pc = (s.front a).pc + 4 ∧
        (∀ g e, e ∈ (t.core g).utlb ↔ e ∈ (s.core g).utlb ∧ names e = false) ∧
        (∀ c e, e ∈ (t.cluster c).tlb ↔ e ∈ (s.cluster c).tlb ∧ names e = false) ∧
        { t with fronts := s.fronts, cores := s.cores, clusters := s.clusters } = s) ∧
    (s.Issues a [x, y] [] → (s.front a).status.getLsbD 0 = true →
      (s.stuck ≠ [] ∨ (∃ q ∈ s.requests, q.translated = true) ∨
        (x = 0 ∧ y = 0 ∧ ((∃ p ∈ s.fronts, ∃ z ∈ p.2.acc, inWindow z.va = false) ∨
          ∃ h ∈ s.threads, match h.kind with | .add96 _ va _ _ | .notify va _ _ => inWindow va = false | _ => False))) →
      exec (.sysTlbFlush x y) s = .next s) ∧
    (s.Issues a [x] [d] → (s.front a).status.getLsbD 0 = true → ((s.front a).xr x).extractLsb' 32 16 = 0 → s.quiet a = true →
      ∃ t, exec (.sysAspace d x) s = .next t ∧ (t.front a).aspace = (s.front a).xr x ∧
        (t.front a).xr d = (if d = 0 then 0 else (s.front a).aspace) ∧ (t.front a).pc = (s.front a).pc + 4 ∧
        (∀ r, r ≠ d → (t.front a).xr r = (s.front a).xr r) ∧
        (∀ b, b ≠ a → t.front b = s.front b) ∧ (∀ j, j ≠ a → t.vec j = s.vec j) ∧
        { t with fronts := s.fronts, vecs := s.vecs, requests := s.requests, arrived := s.arrived } = s) ∧
    (s.Issues a [x, y] [] → (s.front a).status.getLsbD 0 = false → s.vecBusy a = false → s.HandlerOk a →
      s.Traps a (.sysTlbFlush x y) { code := 4, tval := ((encode (.sysTlbFlush x y)).getD 0).zeroExtend 64 }) ∧
    (s.Issues a [x] [d] → (s.front a).status.getLsbD 0 = false → ((s.front a).xr x).extractLsb' 32 16 = 0 → s.vecBusy a = false →
      s.HandlerOk a → s.Traps a (.sysAspace d x) { code := 4, tval := ((encode (.sysAspace d x)).getD 0).zeroExtend 64 }) ∧
    (∀ va l, inWindow va = false → canonical va = true → s.walk ((s.front a).aspace.toNat % 2 ^ 32 * 4096) va 4 = .ok l →
      ∃ t, exec (.pageWalkComplete a va) s = .next t ∧
        (∃ e ∈ (t.cluster (clusterOf a)).tlb, e.asid = (s.front a).aspace.extractLsb' 48 16 ∧ e.perm = l.perm ∧
          e.pbmt = l.pbmt ∧ e.hits e.asid va = true ∧
          e.base + va.toNat % (if e.big then 2 ^ 21 else 2 ^ 12) = l.pa + va.toNat % 2 ^ (12 + 9 * l.level)) ∧
        { t with clusters := s.clusters, cores := s.cores, dvc := s.dvc } = s) ∧
    (∀ va c, inWindow va = false → canonical va = true →
      s.walk ((s.front a).aspace.toNat % 2 ^ 32 * 4096) va 4 = .error c → ∃ t, exec (.pageWalkComplete a va) s = .next t ∧
        (∀ g, (t.core g).utlb = (s.core g).utlb) ∧ (∀ n, (t.cluster n).tlb = (s.cluster n).tlb) ∧
        { t with clusters := s.clusters, cores := s.cores, dvc := s.dvc } = s) ∧
    (∀ va, (inWindow va = true ∨ canonical va = false) → exec (.pageWalkComplete a va) s = .next s)

/-! ## Vector configuration and issue -/

/-- VLMAX in elements for lane groups and a VTYPE (R85): 64 bits a lane, LMUL registers. -/
def vlmaxFor (grant : BitVec 8) (vt : VType) : Nat :=
  64 * (8 * ((List.range 8).countP fun j => grant.getLsbD j)) * vt.lmul / vt.sew

/-- `vcfg.settype`, `vcfg.getmax` and `vcfg.lanereq` (R154, R156, R157): the new VTYPE with its VLMAX and the clamped VL, the
VLMAX that a VTYPE would have, and the new request with the old one in x(D), which prompts the arbiter (R313). A value that
is not allowed traps ILLFLD. -/
def Obligations.VectorConfiguration : Prop :=
  ∀ (s : State) (k : Nat) (d a : XReg), s.Issues k [a] [d] →
    let x := (s.front k).xr a
    let v := s.vec k
    let npc := (s.front k).pc + 4
    let word (i : Instr) : W64 := ((encode i).getD 0).zeroExtend 64
    (vtypeValid x = true →
      ∃ u : Vec, u.vtype = x.setWidth 24 ∧ u.vlmax.toNat = vlmaxFor v.fgrant (x.setWidth 24) ∧
        u.vl.toNat = min v.vl.toNat (vlmaxFor v.fgrant (x.setWidth 24)) ∧
        { u with vtype := v.vtype, vlmax := v.vlmax, vl := v.vl } = v ∧
        ∃ t, exec (.vcfgSettype d a) s = .next t ∧
          ScalarResult (s.setVec k u) t k d (BitVec.ofNat 64 (vlmaxFor v.fgrant (x.setWidth 24))) npc) ∧
    (vtypeValid x = true →
      s.Computes k (.vcfgGetmax d a) d (BitVec.ofNat 64 (vlmaxFor v.fgrant (x.setWidth 24))) npc) ∧
    (x.toNat ≤ 8 → ∃ t, exec (.vcfgLanereq d a) s = .next t ∧
      ScalarResult ((s.setVec k { v with lanereq := x.setWidth 4 }).setCore (coreOf k) { s.core (coreOf k) with arb := true }) t k d
        (BitVec.ofNat 64 v.lanereq.toNat) npc) ∧
    (s.vecBusy k = false → s.HandlerOk k →
      (vtypeValid x = false →
        s.Traps k (.vcfgSettype d a) { code := 2, tval := word (.vcfgSettype d a) } ∧
        s.Traps k (.vcfgGetmax d a) { code := 2, tval := word (.vcfgGetmax d a) }) ∧
      (8 < x.toNat → s.Traps k (.vcfgLanereq d a) { code := 2, tval := word (.vcfgLanereq d a) }))

/-- `vcfg.setl` at the front (R152): it waits while it wants lanes and has none; otherwise it samples the lane groups that
LANEPART gives the context, sets VLMAX and VL, writes VL to x(D) and enters the VIQ with the grant and the keep mask.
The vector half of `vcfg.setl`, in its place in the VIQ or as SETL_GRANT_SWITCH (R153, R249): from its first step on the groups
that leave the grant are released, and it waits until every lane group that enters it has been released, by such a step, a switch
or the halt of its holder (R140); then the kept groups stand in the
new lanes as far as both grants reach, all other register bits are 0, tags stay, and masks keep the bits below both VLMAX. -/
def Obligations.SetVectorLength : Prop :=
  (∀ (s : State) (k : Nat) (d a b : XReg) (g : BitVec 8), isDrone k = false → s.Issues k [a, b] [d] →
     (∀ j, j < 8 → g.getLsbD j = decide ((((s.core (coreOf k)).lanepart.extractLsb' (3 * j) 3).toNat = k % 4))) →
     let avl := ((s.front k).xr a).toNat
     let v := s.vec k
     let vm := vlmaxFor g v.vtype
     (0 < avl → v.lanereq ≠ 0 → g = 0 → s.peerFatal k = false → exec (.vcfgSetl d a b) s = .next s) ∧
     ((avl = 0 ∨ v.lanereq = 0 ∨ g ≠ 0) → 0 < v.room → ∃ t, exec (.vcfgSetl d a b) s = .next t ∧
       (t.vec k).fgrant = g ∧ (t.vec k).vlmax.toNat = vm ∧ (t.vec k).vl.toNat = min avl vm ∧
       (∃ e, (t.vec k).viq = v.viq ++ [e] ∧ decodeWord e.word = .ok (.vcfgSetl d a b) ∧ e.addr = (s.front k).pc ∧
         e.vl = v.vl ∧ e.vtype = v.vtype ∧ e.gnew = g ∧ e.keep = ((s.front k).xr b).setWidth 32) ∧
       { t.vec k with fgrant := v.fgrant, vlmax := v.vlmax, vl := v.vl, viq := v.viq } = v ∧
       (∀ r, (t.front k).xr r = if r = d ∧ r ≠ 0 then BitVec.ofNat 64 (min avl vm) else (s.front k).xr r) ∧
       (t.front k).pc = (s.front k).pc + 4 ∧ (t.front k).po = (s.front k).po + 1 ∧
       (∀ r, (t.front k).isPend r = (s.front k).isPend r) ∧
       (∀ b, b ≠ k → t.front b = s.front b) ∧ (∀ j, j ≠ k → t.vec j = s.vec j) ∧
       { t with fronts := s.fronts, vecs := s.vecs, cores := s.cores } = s)) ∧
  ∀ (s : State) (k : Nat) (e : Entry) (d a b : XReg) (i : Instr),
    (s.vec k).infl.find? (fun e => !e.done) = some e → decodeWord e.word = .ok (.vcfgSetl d a b) →
    ((i = .vcfgSetl d a b ∧ ∃ j hi, s.actor = .vector k j hi ∧ (s.vec k).infl[j]? = some e) ∨ i = .setlGrantSwitch k) →
    let v := s.vec k
    let old := 8 * ((List.range 8).countP fun j => v.grant.getLsbD j)
    let new := 8 * ((List.range 8).countP fun j => e.gnew.getLsbD j)
    let leaving (b : Nat) : BitVec 8 :=
      match (s.vec b).infl.find? fun x => !x.done && x.started && isSetl x.word with | some x => ~~~x.gnew | none => 0
    let uses (b : Nat) : BitVec 8 :=
      if (s.front b).run = .halted ∨ (s.front b).run = .idle then 0 else (s.vec b).grant &&& ~~~leaving b
    let held (q : Nat) : Prop := 4 * coreOf k + q ≠ k ∧ uses (4 * coreOf k + q) &&& e.gnew &&& ~~~v.grant ≠ 0
    ((∃ q, q < 4 ∧ held q) → exec i s = .next (s.setVec k (v.setEntry { e with started := true }))) ∧
    ((∀ q, q < 4 → ¬ held q) → ∃ t, exec i s = .next t ∧ s.OnlyVec t k ∧
      let u := t.vec k
      u.grant = e.gnew ∧ u.infl = (v.complete e).infl ∧ u.flags = (v.complete e).flags ∧ u.vstart = 0 ∧ u.tag = v.tag ∧
      { u with v := v.v, bad := v.bad, told := v.told, m := v.m, grant := v.grant, infl := v.infl, flags := v.flags,
               vstart := v.vstart } = v ∧
      (∀ base : VReg, base.toNat % e.vtype.lmul = 0 → e.keep.getLsbD base.toNat = true →
        let w := (v.tagOf base).width
        ∀ j, j < 64 * new * e.vtype.lmul / w →
          u.elem new w base j = if j < 64 * old * e.vtype.lmul / w then v.elem old w base j else 0) ∧
      (∀ n, n < 32 → e.keep.getLsbD (n / e.vtype.lmul * e.vtype.lmul) = false → u.v.getD n 0 = 0) ∧
      ∀ n j, n ≠ 0 → j < 4096 →
        u.maskBit n j = (v.maskBit n j && decide (j < min (64 * old * e.vtype.lmul / e.vtype.sew)
          (64 * new * e.vtype.lmul / e.vtype.sew))))

/-- The x registers that a vector word captures at its issue, and the one that waits for its result (R247): x(A), x(B) and,
for the 2-D forms, x(B + 1). None for words that do not enter the VIQ by this way. -/
def captured : Instr → Option (List XReg × Option XReg)
  | .vcfgTag .. | .vopNeg .. | .vopAbs .. | .vopMerge .. | .vopMv .. | .vopCvt .. | .vopCvtSat .. | .vopSplat _ (.vi _) _
  | .vopFclass (.vec _) _ _ | .vrotCirRot .. | .vrotCirVec .. | .vrotHypRot .. | .vrotHypVec .. | .vrotLinRot .. | .vrotLinVec ..
  | .vfnSinCos .. | .vfnExp .. | .vfnExp2 .. | .vfnLn .. | .vfnLog2 .. | .vfnSqrt .. | .vfnRsqrt .. | .vfnRecip .. | .vfnTanh ..
  | .vfnSigm .. | .vfnGelu .. | .vredRedsumW .. | .vredMaskAnd .. | .vredMaskOr .. | .vredMaskXor .. | .vredMaskAndn ..
  | .vredMaskCutoff .. | .vredMaskThru .. | .vredIota .. | .vpermCompress .. | .vpermExpand .. | .strmBind .. | .strmBindOut ..
  | .strmFree _ | .sclTov _ | .sclFromv _ | .matFeedEnd .. | .matDrainEnd _ => some ([], none)
  | .vopAdd _ _ b _ | .vopSub _ _ b _ | .vopRsub _ _ b _ | .vopMin _ _ b _ | .vopMax _ _ b _ | .vopAnd _ _ b _ | .vopOr _ _ b _
  | .vopXor _ _ b _ | .vopSll _ _ b _ | .vopSrl _ _ b _ | .vopSra _ _ b _ | .vopMul _ _ b _ | .vopMulh _ _ b _ | .vopMacc _ _ b _
  | .vopNmsac _ _ b _ | .vopAvg _ _ b _ | .vopShrRnd _ _ b _ | .vopCmpEq _ _ b _ | .vopCmpNe _ _ b _ | .vopCmpLt _ _ b _
  | .vopCmpLe _ _ b _ | .vfnDiv _ _ b _ | .vfnAtan2 _ _ b _ | .vfnHypot _ _ b _ | .vfnSoftx _ _ b _ | .vfnUfn _ _ _ b _
  | .vredRedsum _ _ b _ | .vredRedsumOrd _ _ b _ | .vredRedmax _ _ b _ | .vredRedmin _ _ b _ | .vredRedand _ _ b _
  | .vredRedor _ _ b _ | .vredScanAdd _ _ b _ | .vredScanMax _ _ b _ | .vpermSlideup _ _ b _ | .vpermSlidedown _ _ b _
  | .vpermGather _ _ b _ => some (match b with | .vx r => [r] | _ => [], none)
  | .vopSplat _ (.vx b) _ | .vopFclass (.mask _ b) _ _ | .vpermSlide1up _ _ b _ | .vpermSlide1down _ _ b _ | .vpermReshape _ _ b
  | .vpermExtract _ _ b _ | .vpermInsert _ _ b _ | .strmSkip _ b | .matFeed _ _ b => some ([b], none)
  | .vldUnit _ a _ _ _ | .vldIdx _ a _ _ _ _ | .vldFf _ a _ _ _ | .vldShape _ a _ _ _ _ | .vstUnit _ a _ _ _ | .vstIdx _ a _ _ _ _
  | .vstMx _ a _ _ _ | .vstShape _ a _ _ _ _ | .matDrain _ a _ => some ([a], none)
  | .vldStr _ a b _ _ _ | .vstStr _ a b _ _ _ | .sclLd a b | .sclSt a b => some ([a, b], none)
  | .vld2d _ a b _ _ _ | .vst2d _ a b _ _ _ => some ([a, b, b + 1], none)
  | .vredMaskFirst d _ _ | .vredMaskCount d _ _ | .strmStatus d _ | .matSlot d _ => some ([], some d)
  | _ => none

/-- A vector word at the front (R246, R247): with its registers ready and room in the VIQ it enters at the end, with the word,
VL, VTYPE and the captured values of its issue; the pc and the place in program order advance, and its x result waits on the
scoreboard. -/
def VectorEntry : Prop :=
  ∀ (s : State) (k : Nat) (i : Instr) (regs : List XReg) (dest : Option XReg),
    captured i = some (regs, dest) → WellFormed i = true → isDrone k = false → s.Issues k regs dest.toList →
    1 + (regs.length + 1) / 2 ≤ (s.vec k).room →
    let v := s.vec k
    ∃ t, exec i s = .next t ∧ s.OnlyContext t k ∧
      (∃ e, (t.vec k).viq = v.viq ++ [e] ∧ decodeWord e.word = .ok i ∧ e.addr = (s.front k).pc ∧
        e.ops = regs.map (s.front k).xr ∧ e.vl = v.vl ∧ e.vtype = v.vtype ∧ e.done = false ∧ e.po = (s.front k).po ∧
        e.started = false ∧ e.flags = 0 ∧ e.fpx = none ∧
        (v.viq = [] → v.infl = [] → e.pix = v.vstart) ∧ (v.viq ≠ [] → e.pix = 0)) ∧
      { t.vec k with viq := v.viq } = v ∧
      (∀ r, (t.front k).xr r = (s.front k).xr r) ∧
      (∀ r, (t.front k).isPend r = ((s.front k).isPend r || (decide (dest = some r) && decide (r ≠ 0)))) ∧
      (t.front k).pc = (s.front k).pc + 4 ∧ (t.front k).po = (s.front k).po + 1 ∧
      (t.front k).instret = (s.front k).instret

/-- VECTOR_ISSUE and VECTOR_COMMIT (R98, R135, R248): the head of the VIQ that passes its tests leaves it and joins those in
flight, while fewer than 16 have not committed and every lane has physical entries for its destinations; one that fails traps
with its word in TVAL, as the oldest that has not completed and before it has any effect; one that waits for a slot or a quarter of
a tile, or for entries that a stream has still to write, stays in the VIQ (R225, R237, R203, R207), and the wait on a slot or
quarter of a launch that has faulted takes PEERFAULT (R311); one that had completed before a stop issues again (R257). A completed
instruction commits in order and counts in INSTRET. That the tests wait for the older instructions that they depend on is the
model's (log 8). -/
def Obligations.VectorIssueAndCommit : Prop :=
  ∀ (s : State) (k : Nat) (e : Entry) (l : List Entry),
    let v := s.vec k
    let waits := match decodeWord e.word with
      | .ok i => v.testsPending e i || !v.entriesFree e
      | .error _ => false
    let absent (f : Instr → Bool) : Bool := match decodeWord e.word with | .ok i => f i | .error _ => false
    (v.viq = e :: l →
      (s.vectorRests k = true ∨ 16 ≤ v.infl.length ∨ (e.done = false ∧ waits = true) → exec (.vectorIssue k) s = .next s) ∧
      (s.vectorRests k = false → v.infl.length < 16 → waits = false → e.done = false → issueTest s k e = none →
        (absent (s.presencePending k) = true → s.peerFatal k = false → exec (.vectorIssue k) s = .next s) ∧
        (absent (s.presencePending k) = true → s.peerFatal k = true → (∀ x ∈ v.infl, x.done = true) →
          s.elementsDone k = true → s.HandlerOk k → (∀ x ∈ l, x.po ≠ e.po) → (∀ x ∈ v.infl, x.po ≠ e.po) →
          ∃ t, exec (.vectorIssue k) s = .next t ∧ TrapTaken s t k true e.addr { code := 11 } ∧ t.mem = s.mem) ∧
        (absent (s.presencePending k) = false → absent (s.streamPending k) = true → exec (.vectorIssue k) s = .next s)) ∧
      (s.vectorRests k = false → v.infl.length < 16 → (e.done = true ∨ waits = false) →
        ((e.done = true ∨ (issueTest s k e = none ∧ absent (s.presencePending k) = false ∧ absent (s.streamPending k) = false)) →
          ∃ t, exec (.vectorIssue k) s = .next t ∧
          (∀ j, j ≠ k → t.vec j = s.vec j) ∧ (∀ g, { t.core g with vshown := (s.core g).vshown } = s.core g) ∧
          { t with vecs := s.vecs, cores := s.cores } = s ∧ (t.vec k).viq = l ∧
          (∃ e', (t.vec k).infl = v.infl ++ [e'] ∧ e'.pix0 = e.pix ∧ e'.flags = 0 ∧ e'.fpx = none ∧
            { e' with pix0 := e.pix0, flags := e.flags, fpx := e.fpx, undo := e.undo, tally := e.tally } = e) ∧
          { t.vec k with viq := v.viq, infl := v.infl } = v) ∧
        (∀ c, e.done = false → issueTest s k e = some c →
          ((∃ x ∈ v.infl, x.done = false ∧ x.po ≠ e.po ∧ v.open_.head? = some x) → exec (.vectorIssue k) s = .next s) ∧
          ((∀ x ∈ v.infl, x.done = true) → s.elementsDone k = true → s.HandlerOk k →
            (∀ x ∈ l, x.po ≠ e.po) → (∀ x ∈ v.infl, x.po ≠ e.po) →
            ∃ t, exec (.vectorIssue k) s = .next t ∧
              TrapTaken s t k true e.addr { code := c, tval := e.word.zeroExtend 64 } ∧ (t.front k).held = true ∧
              (t.vec k).viq.length = l.length + 1 ∧ (t.vec k).v = v.v ∧ (t.vec k).tag = v.tag ∧ (t.vec k).m = v.m ∧
              (t.vec k).s = v.s ∧ t.mem = s.mem)))) ∧
    (v.infl = e :: l → e.done = true → (s.core (coreOf k)).smpctl.getLsbD 0 = false →
      (∀ n, ((s.core (coreOf k)).bpctl.getD n 0).getLsbD 0 = false) →
      ∃ t, exec (.vectorCommit k) s = .next t ∧ (t.vec k).infl = l ∧ (t.front k).instret = (s.front k).instret + 1 ∧
        { t.vec k with infl := v.infl } = v ∧ (∀ r, (t.front k).xr r = (s.front k).xr r) ∧
        (t.front k).pc = (s.front k).pc ∧ t.mem = s.mem) ∧
    (v.infl = e :: l → e.done = false → exec (.vectorCommit k) s = .next s)

/-! ## Element-wise arithmetic -/

/-- The two-operand functions of `vop` with a register destination (R158). -/
def vopInstr (f : VopFn) (d a : VReg) (b : VSrc) (m : MReg) : Option Instr :=
  match f with
  | .add => some (.vopAdd d a b m) | .sub => some (.vopSub d a b m) | .rsub => some (.vopRsub d a b m)
  | .min => some (.vopMin d a b m) | .max => some (.vopMax d a b m) | .and => some (.vopAnd d a b m)
  | .or => some (.vopOr d a b m) | .xor => some (.vopXor d a b m) | .sll => some (.vopSll d a b m)
  | .srl => some (.vopSrl d a b m) | .sra => some (.vopSra d a b m) | .mul => some (.vopMul d a b m)
  | .mulh => some (.vopMulh d a b m) | .macc => some (.vopMacc d a b m) | .nmsac => some (.vopNmsac d a b m)
  | .avg => some (.vopAvg d a b m) | .shrRnd => some (.vopShrRnd d a b m)
  | .neg | .abs | .cmpEq | .cmpNe | .cmpLt | .cmpLe => none

/-- The one-operand functions of `vop`. -/
def vopInstr1 (f : VopFn) (d a : VReg) (m : MReg) : Option Instr :=
  match f with | .neg => some (.vopNeg d a m) | .abs => some (.vopAbs d a m) | _ => none

/-- The compares of `vop` (R162). -/
def cmpInstr (f : VopFn) (d : MReg) (a : VReg) (b : VSrc) (m : MReg) : Option Instr :=
  match f with
  | .cmpEq => some (.vopCmpEq d a b m) | .cmpNe => some (.vopCmpNe d a b m) | .cmpLt => some (.vopCmpLt d a b m)
  | .cmpLe => some (.vopCmpLe d a b m) | _ => none

/-- The element-wise functions of `vop` (R148 to R151, R160, R161): a move with allowed tags and groups, the entries of a
stream operand at hand, no unreadable register entry and no flag that traps leaves each active element that it takes in with the
function's result of the elements as they stood before, in the tag of R46 or R47, and all else as R148 says. What one element's
function gives is `vopElement`; `IntegerElements` and `ElementValues` state it. -/
def VopResults : Prop :=
  ∀ (s : State) (k j hi : Nat) (e : Entry) (f : VopFn) (d a : VReg) (m : MReg) (t : Tag), s.Moves k j hi e → (s.vec k).bad = [] →
    let v := s.vec k
    let vt := e.vtype
    let q := Kinds.of v e false hi m
    (∀ (b : VSrc) (i : Instr), vopInstr f d a b m = some i → WellFormed i = true → (groupsV3 d a b).all (groupOk vt) = true →
      vopTag f v vt d a b = some t →
      let r := VRun.of v e false hi
      let wa := if srcNarrow b then 2 * vt.sew else vt.sew
      let wd := if srcWide b then 2 * vt.sew else vt.sew
      let second := r.src (v.tagOf a) b
      let x (n : Nat) := vopElement f vt vt.sew (v.tagOf a) second.tag (v.tagOf d) t
        (v.elem q.lanes wa a n) (second.get n) (v.elem q.lanes wd d n)
      r.streamRead wd d (srcStream b) = .upTo r.hi → q.quiet v e (fun n => (x n).2) →
      s.WritesGroup k e i q (srcStream b) d wd t (fun n => some (x n).1) (fun n => (x n).2)) ∧
    ∀ i, vopInstr1 f d a m = some i → groupOk vt (d, .one) = true → vopTag1 f v vt a = some t →
      let x (n : Nat) := vopElement f vt vt.sew t t t t (v.elem q.lanes vt.sew a n) 0 0
      q.quiet v e (fun n => (x n).2) →
      s.WritesGroup k e i q none d vt.sew t (fun n => some (x n).1) (fun n => (x n).2)

/-- The exact value of an integer code (R32). -/
def intValue (t : Tag) (c : Nat) : Int :=
  if t.signed then (if c % 2 ^ t.width < 2 ^ (t.width - 1) then (c % 2 ^ t.width : Nat) else (c % 2 ^ t.width : Nat) - (2 ^ t.width : Nat))
  else (c % 2 ^ t.width : Nat)

/-- The least and the greatest value of an integer tag (R32). -/
def intLo (t : Tag) : Int := if t.signed then -(2 ^ (t.width - 1) : Nat) else 0
/-- The greatest value of an integer tag (R32). -/
def intHi (t : Tag) : Int := if t.signed then (2 ^ (t.width - 1) : Nat) - 1 else (2 ^ t.width : Nat) - 1

/-- The residue of an integer modulo 2 to the width of a tag. -/
def residue (t : Tag) (x : Int) : Nat := (x % (2 ^ t.width : Nat)).toNat

/-- An integer narrowed into a tag (R33): wrapped, or with VTYPE.SAT set held to the range of the tag with SA. -/
def intResult (vt : VType) (t : Tag) (x : Int) : Nat × Flags :=
  if vt.sat then (residue t (max (intLo t) (min (intHi t) x)), if intLo t ≤ x ∧ x ≤ intHi t then 0 else 32)
  else (residue t x, 0)

/-- The functions of `vop` on integer elements of one tag, in plain arithmetic (R32, R33, R160, R162): the exact result of a, b
and the old element d, wrapped or saturated with SA; shifts by the second operand modulo the width; comparisons of exact
values. -/
def Obligations.IntegerElements : Prop :=
  ∀ (vt : VType) (t : Tag) (ca cb cd : Nat), t.cls = .integer → ca < 2 ^ t.width → cb < 2 ^ t.width → cd < 2 ^ t.width →
    let a := intValue t ca
    let b := intValue t cb
    let d := intValue t cd
    let n := cb % t.width
    let gives (f : VopFn) (r : Nat × Flags) : Prop := vopElement f vt t.width t t t t ca cb cd = r
    let holds (f : VopFn) (p : Prop) [Decidable p] : Prop := cmpElement f vt t t t ca cb = (decide p, 0)
    gives .add (intResult vt t (a + b)) ∧ gives .sub (intResult vt t (a - b)) ∧ gives .rsub (intResult vt t (b - a)) ∧
    gives .min (residue t (min a b), 0) ∧ gives .max (residue t (max a b), 0) ∧
    gives .and (Nat.land ca cb, 0) ∧ gives .or (Nat.lor ca cb, 0) ∧ gives .xor (Nat.xor ca cb, 0) ∧
    gives .sll (intResult vt t (a * 2 ^ n)) ∧ gives .srl (intResult vt t (ca / 2 ^ n : Nat)) ∧
    gives .sra (intResult vt t ((BitVec.ofNat t.width ca).toInt / 2 ^ n)) ∧
    gives .neg (intResult vt t (-a)) ∧ gives .abs (intResult vt t a.natAbs) ∧
    gives .mul (intResult vt t (a * b)) ∧ gives .mulh (residue t (a * b / 2 ^ t.width), 0) ∧
    gives .macc (intResult vt t (d + a * b)) ∧ gives .nmsac (intResult vt t (d - a * b)) ∧
    holds .cmpEq (a = b) ∧ holds .cmpNe (a ≠ b) ∧ holds .cmpLt (a < b) ∧ holds .cmpLe (a ≤ b)

/-! ### Values as rational numbers -/

/-- The rational number that a finite value stands for. -/
def Sys2Proof.Machine.Val.rat : Val → ℚ
  | .fin m e => (m : ℚ) * (2 : ℚ) ^ e
  | _ => 0

/-- A value stands for a rational number: as +0, or as a finite value. -/
def Stands (v : Val) (x : ℚ) : Prop := (x = 0 → v = .zero false) ∧ (x ≠ 0 → ∃ m e, v = .fin m e ∧ v.rat = x)

/-- A row of the table of R35: the widths of exponent and significand, the bias, the largest finite code and value, the code of
infinity and the canonical NaN, without signs. -/
structure FloatRow where
  eb : Nat
  p : Nat
  bias : ℤ
  maxCode : Nat
  maxValue : ℚ
  inf : Option Nat
  nan : Option Nat

/-- The table of R35. -/
def floatRow : Tag → Option FloatRow
  | .fp32 => some ⟨8, 23, 127, 0x7F7FFFFF, (2 - 1 / 2 ^ 23) * 2 ^ 127, some 0x7F800000, some 0x7FC00000⟩
  | .fp16 => some ⟨5, 10, 15, 0x7BFF, 65504, some 0x7C00, some 0x7E00⟩
  | .bf16 => some ⟨8, 7, 127, 0x7F7F, (2 - 1 / 2 ^ 7) * 2 ^ 127, some 0x7F80, some 0x7FC0⟩
  | .e5m2 => some ⟨5, 2, 15, 0x7B, 57344, some 0x7C, some 0x7E⟩
  | .e4m3 => some ⟨4, 3, 7, 0x7E, 448, none, some 0x7F⟩
  | .e3m2 => some ⟨3, 2, 3, 0x1F, 28, none, none⟩
  | .e2m3 => some ⟨2, 3, 1, 0x1F, 15 / 2, none, none⟩
  | .e2m1 => some ⟨2, 1, 1, 0x7, 6, none, none⟩
  | _ => none

/-- A code with a sign. -/
def FloatRow.code (f : FloatRow) (neg : Prop) [Decidable neg] (c : Nat) : Nat := if neg then 2 ^ (f.eb + f.p) + c else c

/-- The value of a finite code (R35). -/
def FloatRow.rat (f : FloatRow) (c : Nat) : ℚ :=
  let E := c / 2 ^ f.p % 2 ^ f.eb
  let M : ℚ := (c % 2 ^ f.p : Nat)
  (if c / 2 ^ (f.eb + f.p) % 2 = 1 then -1 else 1) *
    if E = 0 then (2 : ℚ) ^ (1 - f.bias) * (M / 2 ^ f.p) else (2 : ℚ) ^ ((E : ℤ) - f.bias) * (1 + M / 2 ^ f.p)

/-- The fraction bits of the grid of a tag that is not a float (R32). -/
def gridBits : Tag → Nat
  | .q6 => 6 | .q14 => 14 | .q15 => 15 | .q30 => 30 | .q31 => 31 | .q63 => 63 | .ang16 => 16 | .ang32 => 32 | _ => 0

/-- What the code of an element is read as (R32, R35 to R37, R43): a float by its fields, signed zeros, infinities and NaNs apart,
whose NaN is signalling when the leading significand bit is 0, and a subnormal as a zero of its sign where inputs are flushed;
any other tag as a count of its grid. -/
def ReadAs (vt : VType) (t : Tag) (c : Nat) (v : Val) : Prop :=
  match floatRow t with
  | some f =>
    let mag := c % 2 ^ (f.eb + f.p)
    let neg := decide (c / 2 ^ (f.eb + f.p) % 2 = 1)
    if mag = 0 ∨ (vt.getLsbD 12 = true ∧ t.cls = .float ∧ mag < 2 ^ f.p) then v = .zero neg
    else if f.inf = some mag then v = .inf neg
    else if f.maxCode < mag then v = .nan (decide (mag % 2 ^ f.p < 2 ^ (f.p - 1)))
    else Stands v (f.rat c)
  | none => Stands v ((intValue t c : ℚ) / 2 ^ gridBits t)

/-! ### Rounding and writing -/

/-- An exact value in units of its grid, rounded under RM (R39). -/
def rounded (rm : Nat) (x : ℚ) : ℤ :=
  let lo : ℤ := ⌊x⌋
  let d : ℚ := x - lo
  if d = 0 then lo
  else
    match rm with
    | 1 => if x < 0 then lo + 1 else lo
    | 2 => lo
    | 3 => lo + 1
    | 4 => if d < 1 / 2 ∨ (d = 1 / 2 ∧ x < 0) then lo else lo + 1
    | 5 => if lo % 2 = 1 then lo else lo + 1
    | _ => if d < 1 / 2 ∨ (d = 1 / 2 ∧ lo % 2 = 0) then lo else lo + 1

/-- The rounding mode of VTYPE (R85). -/
def rmOf (vt : VType) : Nat := (vt.extractLsb' 8 3).toNat

/-- A flag that is raised under a condition. -/
def flagIf (p : Prop) [Decidable p] (f : Flags) : Flags := if p then f else 0

/-- What is written for an exact value x that is not 0, in a float tag (R39 to R41, R43). `top` is the exponent of x. -/
def FloatWritten (vt : VType) (t : Tag) (f : FloatRow) (x : ℚ) (r : Nat × Flags) : Prop :=
  ∃ top : ℤ, (2 : ℚ) ^ top ≤ |x| ∧ |x| < (2 : ℚ) ^ (top + 1) ∧
    let onGrid (g : ℤ) : ℚ := rounded (rmOf vt) (x / (2 : ℚ) ^ g) * (2 : ℚ) ^ g
    let tiny := |onGrid (top - f.p)| < (2 : ℚ) ^ (1 - f.bias)
    let u := onGrid (max (top - f.p) (1 - f.bias - f.p))
    if vt.getLsbD 11 = true ∧ t.cls = .float ∧ tiny then r = (f.code (x < 0) 0, 8 ||| 16)
    else if f.maxValue < |u| then
      r = (f.code (x < 0) (match f.inf with
        | none => f.maxCode
        | some inf => match rmOf vt with
          | 1 | 5 => f.maxCode
          | 2 => if x < 0 then inf else f.maxCode
          | 3 => if x < 0 then f.maxCode else inf
          | _ => inf), 4 ||| 16)
    else r.1 < 2 ^ (f.eb + f.p + 1) ∧ (2 ^ (f.eb + f.p) ≤ r.1 ↔ x < 0) ∧ r.1 % 2 ^ (f.eb + f.p) ≤ f.maxCode ∧ f.rat r.1 = u ∧
      r.2 = flagIf (u ≠ x) 16 ||| flagIf (tiny ∧ u ≠ x) 8

/-- What is written for an exact value x, in a tag that is no float: rounded to the grid with NX, then wrapped, or held to the range
with SA for a fixed tag and for an integer under SAT (R33, R34). -/
def GridWritten (vt : VType) (t : Tag) (x : ℚ) (r : Nat × Flags) : Prop :=
  let y := x * 2 ^ gridBits t
  let n := rounded (rmOf vt) y
  let held := if t.cls = .fixed ∨ (t.cls = .integer ∧ vt.getLsbD 19 = true) then max (intLo t) (min (intHi t) n) else n
  r = (residue t held, flagIf (held ≠ n) 32 ||| flagIf ((n : ℚ) ≠ y) 16)

/-- A conversion of a value to an integer or fixed tag (R42). -/
def GridConverted (vt : VType) (t : Tag) (v : Val) (r : Nat × Flags) : Prop :=
  let y := v.rat * 2 ^ gridBits t
  let n := rounded (rmOf vt) y
  match v with
  | .nan _ => r = (0, 1)
  | .inf neg => r = (residue t (if neg then intLo t else intHi t), 1)
  | _ =>
    if intLo t ≤ n ∧ n ≤ intHi t then r = (residue t n, flagIf ((n : ℚ) ≠ y) 16)
    else r = (residue t (max (intLo t) (min (intHi t) n)), 1)

/-- What is written for a value in a tag (R33 to R36, R39 to R43): the code and the flags. -/
def Written (vt : VType) (t : Tag) (v : Val) (r : Nat × Flags) : Prop :=
  match floatRow t, v with
  | some f, .nan _ => r = match f.nan with | some c => (c, 0) | none => (0, 1)
  | some f, .inf s => r = match f.inf with | some c => (f.code (s = true) c, 0) | none => (f.code (s = true) f.maxCode, 4)
  | some f, .zero s => r = (f.code (s = true) 0, 0)
  | some f, v => FloatWritten vt t f v.rat r
  | none, .fin .. => GridWritten vt t v.rat r
  | none, v => GridConverted vt t v r

/-- A function gives the value v, with the flags fl that forming it has raised. -/
def Gives (vt : VType) (t : Tag) (v : Val) (fl : Flags) (r : Nat × Flags) : Prop := ∃ q, Written vt t v q ∧ r = (q.1, q.2 ||| fl)

/-! ### Exact results -/

/-- The sum of two values and its flag (R36, R403): a NaN of a NaN, or of infinities of two signs with NV; an infinity; the exact sum,
whose zero keeps the sign of two zeros of one sign, and else is −0 under RDN and +0 otherwise. -/
def SumIs (rm : Nat) (a b v : Val) (fl : Flags) : Prop :=
  match a, b with
  | .nan _, _ | _, .nan _ => v.isNan = true ∧ fl = 0
  | .inf s, .inf z => if s = z then v = .inf s ∧ fl = 0 else v.isNan = true ∧ fl = 1
  | .inf s, _ | _, .inf s => v = .inf s ∧ fl = 0
  | .zero s, .zero z => v = .zero (if s = z then s else decide (rm = 2)) ∧ fl = 0
  | _, _ => fl = 0 ∧ if a.rat + b.rat = 0 then v = .zero (decide (rm = 2)) else Stands v (a.rat + b.rat)

/-- The product of two values and its flag (R36): a NaN of a NaN, or of 0 × ∞ with NV; else the exact product with its sign. -/
def ProductIs (a b v : Val) (fl : Flags) : Prop :=
  let neg := a.neg? != b.neg?
  match a, b with
  | .nan _, _ | _, .nan _ => v.isNan = true ∧ fl = 0
  | .inf _, .zero _ | .zero _, .inf _ => v.isNan = true ∧ fl = 1
  | .inf _, _ | _, .inf _ => v = .inf neg ∧ fl = 0
  | .zero _, _ | _, .zero _ => v = .zero neg ∧ fl = 0
  | _, _ => fl = 0 ∧ Stands v (a.rat * b.rat)

/-- A value times a power of two. -/
def ScaledBy (k : ℤ) (v u : Val) : Prop :=
  match v with
  | .fin m e => Stands u ((Val.fin m e).rat * (2 : ℚ) ^ k)
  | _ => u = v

/-- Is a below b, with −0 equal to +0 (R162)? -/
def Below (a b : Val) : Prop :=
  match a, b with
  | .nan _, _ | _, .nan _ => False
  | .inf s, b => s = true ∧ b ≠ .inf true
  | _, .inf s => s = false
  | a, b => a.rat < b.rat

/-- Are two values equal, with −0 equal to +0 (R162)? -/
def Alike (a b : Val) : Prop := a.isNan = false ∧ b.isNan = false ∧ ¬ Below a b ∧ ¬ Below b a

/-- The smaller of two values, or the larger (R161): −0 is less than +0, one NaN gives the other operand, and two give a NaN. -/
def PickIs (larger : Bool) (a b v : Val) : Prop :=
  let less (x y : Val) : Prop := Below x y ∨ (Alike x y ∧ x = .zero true ∧ y = .zero false)
  if a.isNan then (if b.isNan then v.isNan = true else v = b)
  else if b.isNan then v = a
  else (v = a ∨ v = b) ∧ ∀ w, w = a ∨ w = b → if larger then ¬ less v w else ¬ less w v

/-- NV for a signalling NaN operand (R36). -/
def sigOf (l : List Val) : Flags := flagIf (Val.nan true ∈ l) 1

/-- How elements are read, rounded and written (R32 to R37, R39 to R43): every code is read as its tag says, and every value that is
not a finite 0 is written as the rounding of R39, the narrowing of R33, the overflow of R40 and the flushes of R43 leave it. -/
def ReadingAndWriting : Prop :=
  (∀ vt t c, ReadAs vt t c (readVal vt t c)) ∧
  ∀ vt t v, rmOf vt ≤ 5 → (∀ e, v ≠ .fin 0 e) → Written vt t v (Sys2Proof.Machine.encode vt t v)

/-- The functions of `vop` on operands of any two tags whose result is no angle (R36, R46, R160, R161, R403), and the compares
(R162): the exact values of the operands, one exact result, and one narrowing into the result tag. That `macc` and `nmsac` raise NV
for 0 × ∞ whatever d holds is log 63's choice. -/
def MixedElements : Prop :=
  ∀ (vt : VType) (w : Nat) (ta tb td tR : Tag) (ca cb cd : Nat), rmOf vt ≤ 5 → tR.cls ≠ .angle →
    let a := readVal vt ta ca
    let b := readVal vt tb cb
    let d := readVal vt td cd
    let sig := sigOf [a, b]
    let x (f : VopFn) := vopElement f vt w ta tb td tR ca cb cd
    (∃ v fl, SumIs (rmOf vt) a b v fl ∧ Gives vt tR v (fl ||| sig) (x .add)) ∧
    (∃ v fl, SumIs (rmOf vt) a b.negate v fl ∧ Gives vt tR v (fl ||| sig) (x .sub)) ∧
    (∃ v fl, SumIs (rmOf vt) b a.negate v fl ∧ Gives vt tR v (fl ||| sig) (x .rsub)) ∧
    (∃ v fl, ProductIs a b v fl ∧ Gives vt tR v (fl ||| sig) (x .mul)) ∧
    (∃ p pf v fl, ProductIs a b p pf ∧ SumIs (rmOf vt) d p v fl ∧ Gives vt tR v (fl ||| pf ||| sigOf [a, b, d]) (x .macc)) ∧
    (∃ p pf v fl, ProductIs a b p pf ∧ SumIs (rmOf vt) d p.negate v fl ∧ Gives vt tR v (fl ||| pf ||| sigOf [a, b, d]) (x .nmsac)) ∧
    (∃ v u fl, SumIs (rmOf vt) a b v fl ∧ ScaledBy (-1) v u ∧ Gives vt tR u (fl ||| sig) (x .avg)) ∧
    (∃ v, PickIs false a b v ∧ Gives vt tR v sig (x .min)) ∧ (∃ v, PickIs true a b v ∧ Gives vt tR v sig (x .max)) ∧
    (ta.cls = .integer ∨ ta.cls = .fixed → ∃ v, ScaledBy (-((cb % ta.width : Nat) : ℤ)) a v ∧ Gives vt tR v 0 (x .shrRnd)) ∧
    (ta.cls = .integer ∨ ta.cls = .fixed → tb = ta → tR = ta →
      (∃ v, Stands v (-a.rat) ∧ Gives vt tR v 0 (x .neg)) ∧ ∃ v, Stands v |a.rat| ∧ Gives vt tR v 0 (x .abs)) ∧
    (∀ f, floatRow ta = some f → ta.cls = .float → (a.isNan = true → x .neg = (f.nan.getD 0, sigOf [a]) ∧ x .abs = (f.nan.getD 0, sigOf [a])) ∧
      (a.isNan = false →
        let mag := if a.isZero then 0 else ca % 2 ^ (f.eb + f.p)
        x .neg = (f.code (a.neg? = false) mag, 0) ∧ x .abs = (mag, 0))) ∧
    (ta.cls = .integer ∨ ta.cls = .fixed → tR.cls = .integer ∨ tR.cls = .fixed → ca < 2 ^ ta.width →
      let n := cb % ta.width
      let grid (y : ℤ) : ℚ := (y : ℚ) / 2 ^ gridBits tR
      (∃ v, ScaledBy n a v ∧ Gives vt tR v 0 (x .sll)) ∧ GridWritten vt tR (grid ((ca / 2 ^ n : Nat) : ℤ)) (x .srl) ∧
      GridWritten vt tR (grid ((BitVec.ofNat ta.width ca).toInt / 2 ^ n)) (x .sra)) ∧
    (ta.cls = .integer → tb.cls = .integer → ca < 2 ^ ta.width → cb < 2 ^ tb.width →
      x .mulh = (((intValue ta ca * intValue tb cb / 2 ^ w) % 2 ^ w).toNat, 0)) ∧
    x .and = (Nat.land ca cb % 2 ^ w, 0) ∧ x .or = (Nat.lor ca cb % 2 ^ w, 0) ∧ x .xor = (Nat.xor ca cb % 2 ^ w, 0) ∧
    let holds (f : VopFn) (p : Prop) (quiet : Bool) : Prop :=
      ((cmpElement f vt ta tb tR ca cb).1 = true ↔ p) ∧
      (cmpElement f vt ta tb tR ca cb).2 = sig ||| (if quiet then 0 else flagIf (a.isNan = true ∨ b.isNan = true) 1)
    holds .cmpEq (Alike a b) true ∧ holds .cmpNe (¬ Alike a b) true ∧ holds .cmpLt (Below a b) false ∧
    holds .cmpLe (Below a b ∨ Alike a b) false

/-- Angles (R33, R46, R160, R162): sums, differences and negations modulo one turn, an integer counting as angle units, the product of
an angle and an integer, and comparison on the bits; no flag is raised. -/
def AngleElements : Prop :=
  ∀ (vt : VType) (ta tb td tR : Tag) (ca cb cd : Nat), rmOf vt ≤ 5 → tR.cls = .angle →
    (ta = tR ∨ (ta.cls = .integer ∧ ta.width = tR.width)) → (tb = tR ∨ (tb.cls = .integer ∧ tb.width = tR.width)) →
    ca < 2 ^ tR.width → cb < 2 ^ tR.width →
    let gives (f : VopFn) (n : ℤ) : Prop := vopElement f vt tR.width ta tb td tR ca cb cd = (residue tR n, 0)
    gives .add (ca + cb) ∧ gives .sub (ca - cb) ∧ gives .rsub (cb - ca) ∧ (ta = tR → gives .neg (-ca)) ∧
    (ta = tR → tb ≠ tR → gives .mul (ca * intValue tb cb)) ∧ (ta ≠ tR → tb = tR → gives .mul (intValue ta ca * cb)) ∧
    cmpElement .cmpEq vt ta tb tR ca cb = (decide (ca = cb), 0) ∧ cmpElement .cmpNe vt ta tb tR ca cb = (decide (ca ≠ cb), 0)

/-- Element values in every tag (R32 to R37, R39 to R43, R46, R160 to R162, R403). -/
def Obligations.ElementValues : Prop := ReadingAndWriting ∧ MixedElements ∧ AngleElements

/-- The compares and the mask form of `vop.fclass` (R148, R162, R165): each active bit of the mask that a move takes in tells the
comparison of the elements, or whether the element's class is one that x(B) selects; the mask's other bits are as R148 says,
and no register changes. -/
def CompareResults : Prop :=
  ∀ (s : State) (k j hi : Nat) (e : Entry) (f : VopFn) (d : MReg) (a : VReg) (m : MReg), s.Moves k j hi e → (s.vec k).bad = [] →
    let v := s.vec k
    let vt := e.vtype
    let q := Kinds.of v e false hi m
    (∀ (b : VSrc) (i : Instr) (t : Tag), cmpInstr f d a b m = some i → vopTag f v vt a a b = some t →
      let r := VRun.of v e false hi
      let second := r.src (v.tagOf a) b
      let x (n : Nat) := cmpElement f vt (v.tagOf a) second.tag t (v.elem q.lanes vt.sew a n) (second.get n)
      r.streamRead vt.sew a (srcStream b) = .upTo r.hi → q.quiet v e (fun n => (x n).2) →
      s.WritesMask k e i q (srcStream b) d (fun n => (x n).1) (fun n => (x n).2)) ∧
    ∀ b : XReg, e.fpx = none → s.WritesMask k e (.vopFclass (.mask d b) a m) q none d
      (fun n => (List.range 10).any fun j => (e.ops.getD 0 0).getLsbD j &&
        (fclassBits (v.tagOf a) (v.elem q.lanes vt.sew a n)).testBit j) (fun _ => 0)

/-- The element-wise functions and compares of `vop` (R148 to R151, R158, R160 to R162, R165). That the tag of a group is set wherever
VSTART lies below vl, also where no element is written, is log 63's reading of R149. -/
def Obligations.VopAndCompareResults : Prop := VopResults ∧ CompareResults

/-- Copies, conversions and tags (R42, R148, R155, R163 to R165): `vop.merge` takes A's element where m(B) is set; `vop.mv`
copies a group or the entries of an input stream, with their tag; `vop.splat` writes x(B) or the immediate in D's tag;
`vop.cvt` and `vop.cvt.sat` convert A's value into D's tag; `vop.fclass` writes the class bits in an unsigned tag; `vcfg.tag`
sets the tags of a group and no bit of it. That a tag is set where VSTART lies below vl, also with no element written, is log 63's
reading of R149. -/
def Obligations.CopyAndConvertResults : Prop :=
  ∀ (s : State) (k j hi : Nat) (e : Entry) (d a : VReg) (m : MReg), s.Moves k j hi e → e.fpx = none → (s.vec k).bad = [] →
    let v := s.vec k
    let vt := e.vtype
    let w := vt.sew
    let q := Kinds.of v e false hi m
    let elem (w : Nat) (n : Nat) : Nat := v.elem q.lanes w a n
    (groupOk vt (d, .one) = true →
      (∀ b, s.WritesGroup k e (.vopMerge d a b m) q none d w (v.tagOf d)
        (fun n => if v.maskBit b n then some (elem w n) else none) (fun _ => 0)) ∧
      s.WritesGroup k e (.vopMv d (.reg a) m) q none d w (v.tagOf a) (fun n => some (elem w n)) (fun _ => 0) ∧
      (∀ j x t, v.stream j = some x → x.out = false → x.tag? = some t → (VRun.of v e false hi).streamRead w d (some j) = .upTo (VRun.of v e false hi).hi →
        s.WritesGroup k e (.vopMv d (.strm j) m) q (some j) d w t
          (fun n => some (((x.entryAt (x.idx.toNat + (n - q.start))).map (·.bits)).getD 0)) (fun _ => 0)) ∧
      (∀ b, s.WritesGroup k e (.vopSplat d (.vx b) m) q none d w (v.tagOf d)
        (fun _ => some ((e.ops.getD 0 0).toNat % 2 ^ w)) (fun _ => 0)) ∧
      (∀ imm : BitVec 5,
        let x := if (v.tagOf d).cls = .angle then ((imm.toInt % (2 ^ w : Nat)).toNat, 0)
          else Sys2Proof.Machine.encode vt (v.tagOf d) (Val.mk imm.toInt 0)
        q.quiet v e (fun _ => x.2) →
        s.WritesGroup k e (.vopSplat d (.vi imm) m) q none d w (v.tagOf d) (fun _ => some x.1) (fun _ => x.2)) ∧
      s.WritesGroup k e (.vopFclass (.vec d) a m) q none d w (Tag.uintOf w) (fun n => some (fclassBits (v.tagOf a) (elem w n)))
        (fun _ => 0)) ∧
    (∀ (form : CvtForm) (sat : Bool),
      let i := if sat then Instr.vopCvtSat form d a m else .vopCvt form d a m
      let kinds := match form with | .same => (GroupKind.one, GroupKind.one) | .wide => (.wide, .one) | .narrow => (.one, .wide)
      let wa := match form with | .narrow => 2 * w | _ => w
      let wd := match form with | .wide => 2 * w | _ => w
      groupOk vt (d, kinds.1) = true → groupOk vt (a, kinds.2) = true → cvtOk sat v vt form d a = true →
      let x (n : Nat) := if sat then cvtSatElement v vt (v.tagOf a) (v.tagOf d) n (elem wa n)
        else cvtElement v vt (v.tagOf a) (v.tagOf d) n (elem wa n)
      q.quiet v e (fun n => (x n).2) →
      s.WritesGroup k e i q none d wd (v.tagOf d) (fun n => some (x n).1) (fun n => (x n).2)) ∧
    (∀ (code : BitVec 5) (t : Tag), Tag.ofCode code.toNat = some t → ∃ u, exec (.vcfgTag d code) s = .next u ∧
      VecMoves s u k true none 0 ∧ (u.vec k).v = v.v ∧ (u.vec k).bad = v.bad ∧ (u.vec k).m = v.m ∧
      (u.vec k).infl = (v.complete e).infl ∧ (u.vec k).flags = (v.complete e).flags ∧
      ∀ n, n < 32 → (u.vec k).tag.getD n .int32 =
        if d.toNat ≤ n ∧ n < d.toNat + vt.lmul then t else v.tag.getD n .int32)

/-- The MX element tags (R48, R164). -/
def isMxTag (t : Tag) : Bool := [.e5m2, .e4m3, .e3m2, .e2m3, .e2m1, .q6].contains t

/-- Conversions of one element and the class bits (R42, R48, R49, R164, R165): the value under its scale, if exactly one of the
tags is an MX tag, converted by R42 from a float to a grid, else written by R33, R34 and R39 to R43; `vop.cvt.sat` saturates
instead; pointers copy bits; and `vop.fclass` sets the one bit of the class that the code is read as, subnormals kept. -/
def ConvertedElements : Prop :=
  ∀ (v : Vec) (vt : VType) (ts td : Tag) (i c : Nat), rmOf vt ≤ 5 →
    let a := readVal vt ts c
    let sig := sigOf [a]
    let code := (v.e.getD ((i / 2 ^ (vt.extractLsb' 16 3).toNat + v.scalebase.toNat) % 256) 0).toNat
    let scaled (x : Val) : Prop :=
      if isMxTag ts = isMxTag td then x = a
      else if code = 255 then x.isNan = true
      else ScaledBy (if isMxTag ts then (code : ℤ) - 127 else 127 - (code : ℤ)) a x
    let float (t : Tag) : Prop := t.cls = .float ∨ t.cls = .smallFloat
    let grid (t : Tag) : Prop := t.cls = .integer ∨ t.cls = .fixed
    (ts.cls = .pointer ∨ td.cls = .pointer → cvtElement v vt ts td i c = (c, 0)) ∧
    (ts.cls ≠ .pointer → td.cls ≠ .pointer → ∃ x q, scaled x ∧ cvtElement v vt ts td i c = (q.1, q.2 ||| sig) ∧
      (float ts → grid td → GridConverted vt td x q) ∧ (¬ (float ts ∧ grid td) → Written vt td x q)) ∧
    (∃ x, scaled x ∧
      (grid td →
        let n := rounded (rmOf vt) (x.rat * 2 ^ gridBits td)
        let held := max (intLo td) (min (intHi td) n)
        cvtSatElement v vt ts td i c = match x with
          | .nan _ => (0, 1)
          | .inf neg => (residue td (if neg then intLo td else intHi td), 32 ||| sig)
          | _ => (residue td held, flagIf (held ≠ n) 32 ||| flagIf ((n : ℚ) ≠ x.rat * 2 ^ gridBits td) 16 ||| sig)) ∧
      ∀ f, floatRow td = some f → ∃ q, Written vt td x q ∧
        cvtSatElement v vt ts td i c =
          if x.isInf then (f.code (x.neg? = true) f.maxCode, 4 ||| sig)
          else if q.2.getLsbD 2 then (f.code (x.neg? = true) f.maxCode, 4 ||| 16 ||| sig) else (q.1, q.2 ||| sig)) ∧
    ∀ f, floatRow ts = some f →
      let mag := c % 2 ^ (f.eb + f.p)
      let neg := decide (c / 2 ^ (f.eb + f.p) % 2 = 1)
      fclassBits ts c = 2 ^ (
        if f.inf = some mag then (if neg then 0 else 7)
        else if f.maxCode < mag then (if mag % 2 ^ f.p < 2 ^ (f.p - 1) then 8 else 9)
        else if mag = 0 then (if neg then 3 else 4)
        else if mag < 2 ^ f.p then (if neg then 2 else 5) else if neg then 1 else 6)

/-- Conversions of elements and the class bits (R42, R48, R49, R164, R165). -/
def Obligations.ConversionValues : Prop := ConvertedElements

/-! ## Rotations, functions, reductions, masks and permutes -/

/-- The rotations (R166). -/
def rotInstr (mode : RotMode) (vec : Bool) (d a : VReg) (start n : BitVec 5) (g : Bool) (m : MReg) : Instr :=
  match mode, vec with
  | .cir, false => .vrotCirRot d a start n g m | .cir, true => .vrotCirVec d a start n g m
  | .hyp, false => .vrotHypRot d a start n g m | .hyp, true => .vrotHypVec d a start n g m
  | .lin, false => .vrotLinRot d a start n g m | .lin, true => .vrotLinVec d a start n g m

/-- The functions of one argument with one result (R167). -/
def fnInstr1 (f : Fn) (d a : VReg) (m : MReg) : Option Instr :=
  match f with
  | .exp => some (.vfnExp d a m) | .exp2 => some (.vfnExp2 d a m) | .ln => some (.vfnLn d a m) | .log2 => some (.vfnLog2 d a m)
  | .sqrt => some (.vfnSqrt d a m) | .rsqrt => some (.vfnRsqrt d a m) | .recip => some (.vfnRecip d a m)
  | .tanh => some (.vfnTanh d a m) | .sigm => some (.vfnSigm d a m) | .gelu => some (.vfnGelu d a m)
  | .sinCos | .div | .atan2 | .hypot | .softx => none

/-- The functions of two arguments (R167, R169). -/
def fnInstr2 (f : Fn) (d a : VReg) (b : VSrc) (m : MReg) : Option Instr :=
  match f with
  | .div => some (.vfnDiv d a b m) | .atan2 => some (.vfnAtan2 d a b m) | .hypot => some (.vfnHypot d a b m)
  | .softx => some (.vfnSoftx d a b m) | _ => none

/-- `vrot`, `vfn` and `vfn.ufn` (R148, R166, R167, R170), in a move: a rotation writes x to D's group, y to the group after it and z
to A's, all from the values before it, and z prevails where A names one of the pair; a function writes D's group in A's tag,
and `vfn.sin.cos` the cosine to D's group and the sine to the one after it. The value of one element is `rotElement`,
`compositeElement` (a free value within the bounds of R71 to R73 and R168, log 3) or the user program's; `FunctionValues` states
them. That tags are set with no element written, and the corners of int32 in `vrot`, are log 63's choices. -/
def Obligations.RotationsAndFunctions : Prop :=
  ∀ (s : State) (k p hi : Nat) (e : Entry) (d a : VReg) (m : MReg), s.Moves k p hi e → (s.vec k).bad = [] →
    let v := s.vec k
    let vt := e.vtype
    let w := vt.sew
    let q := Kinds.of v e false hi m
    let y := d + BitVec.ofNat 5 vt.lmul
    let t := v.tagOf a
    let elem (r : VReg) (n : Nat) : Nat := v.elem q.lanes w r n
    (∀ (mode : RotMode) (vec : Bool) (start n : BitVec 5) (g : Bool), vrotOk mode vec v vt d a = true →
      groupOk vt (d, .pair) = true → groupOk vt (a, .one) = true →
      let x (j : Nat) := rotElement vt (v.tagOf d) t mode vec start.toNat (n.toNat + 1) g (elem d j) (elem y j) (elem a j)
      q.quiet v e (fun j => (x j).2) →
      ∃ u, exec (rotInstr mode vec d a start n g m) s = .next u ∧ VecMoves s u k q.ends none 0 ∧
        if q.start < q.vl then
          GroupHolds v (u.vec k) q a w t (fun j => some (x j).1.2.2) ∧
          (a ≠ d → GroupHolds v (u.vec k) q d w (v.tagOf d) (fun j => some (x j).1.1)) ∧
          (a ≠ y → GroupHolds v (u.vec k) q y w (v.tagOf d) (fun j => some (x j).1.2.1)) ∧
          (∀ n, q.inGroup d w n = false → q.inGroup y w n = false → q.inGroup a w n = false →
            (u.vec k).v.getD n 0 = v.v.getD n 0) ∧
          (∀ n, n < 32 → (u.vec k).tag.getD n .int32 =
            if q.inGroup a w n then t else if q.inGroup d w n || q.inGroup y w n then v.tagOf d else v.tag.getD n .int32) ∧
          FlagsRouted v (u.vec k) e q (fun j => (x j).2) v.maskBit
        else v.Ended (u.vec k) e) ∧
    (fnOk Tag.composite v vt a none = true → groupOk vt (d, .pair) = true →
      let x (sine : Bool) (j : Nat) := compositeElement vt t .sinCos sine (elem a j) 0
      q.quiet v e (fun j => (x false j).2 ||| (x true j).2) →
      ∃ u, exec (.vfnSinCos d a m) s = .next u ∧ VecMoves s u k q.ends none 0 ∧
        if q.start < q.vl then
          GroupHolds v (u.vec k) q d w t (fun j => some (x false j).1) ∧ GroupHolds v (u.vec k) q y w t (fun j => some (x true j).1) ∧
          (∀ n, q.inGroup d w n = false → q.inGroup y w n = false → (u.vec k).v.getD n 0 = v.v.getD n 0) ∧
          (∀ n, n < 32 → (u.vec k).tag.getD n .int32 =
            if q.inGroup d w n || q.inGroup y w n then t else v.tag.getD n .int32) ∧
          FlagsRouted v (u.vec k) e q (fun j => (x false j).2 ||| (x true j).2) v.maskBit
        else v.Ended (u.vec k) e) ∧
    (groupOk vt (d, .one) = true →
      (∀ (f : Fn) (i : Instr), fnInstr1 f d a m = some i → fnOk Tag.composite v vt a none = true →
        let x (j : Nat) := compositeElement vt t f false (elem a j) 0
        q.quiet v e (fun j => (x j).2) →
        s.WritesGroup k e i q none d w t (fun j => some (x j).1) (fun j => (x j).2)) ∧
      (∀ (f : Fn) (b : VSrc) (i : Instr), fnInstr2 f d a b m = some i → fnOk Tag.composite v vt a (some b) = true →
        let r := VRun.of v e false hi
        let x (j : Nat) := compositeElement vt t f false (elem a j) ((r.src t b).get j)
        r.streamRead w d (srcStream b) = .upTo r.hi → q.quiet v e (fun j => (x j).2) →
        s.WritesGroup k e i q (srcStream b) d w t (fun j => some (x j).1) (fun j => (x j).2)) ∧
      ∀ (slot : BitVec 4) (b : VSrc), fnOk Tag.user v vt a (some b) = true →
        let r := VRun.of v e false hi
        let x (j : Nat) := ufnElement vt t ((s.core (coreOf k)).program slot.toNat) (elem a j) ((r.src t b).get j)
        r.streamRead w d (srcStream b) = .upTo r.hi → q.quiet v e (fun j => (x j).2) →
        s.WritesGroup k e (.vfnUfn slot d a b m) q (srcStream b) d w t (fun j => some (x j).1) (fun j => (x j).2))

/-- The shift at a step index (R58). -/
def shiftAt (mode : RotMode) (i : Nat) : Nat :=
  match mode with
  | .hyp => [1, 2, 3, 4, 4, 5, 6, 7, 8, 9, 10, 11, 12, 13, 13, 14, 15, 16, 17, 18, 19, 20, 21, 22, 23, 24, 25, 26, 27, 28, 29, 30].getD i 0
  | _ => i

/-- The table entry at a shift (R58 to R60). -/
def angleAt (sew : Nat) (mode : RotMode) (k : Nat) : ℤ :=
  let t : ℤ := match mode with
    | .lin => 2 ^ (34 - k)
    | .cir => [2147483648, 1267733622, 669835629, 340019024, 170669324, 85417861, 42719353, 21360980, 10680653, 5340347, 2670176,
        1335088, 667544, 333772, 166886, 83443, 41722, 20861, 10430, 5215, 2608, 1304, 652, 326, 163, 81, 41, 20, 10, 5, 3, 1].getD k 0
    | .hyp => if 12 ≤ k then 2 ^ (34 - k) else [0, 9437007702, 4387958696, 2158774501, 1075143211, 537045777, 268457305, 134220459,
        67109205, 33554475, 16777221, 8388609].getD k 0
  if sew = 32 then t else if sew = 16 then (t + 2 ^ 17) / 2 ^ 18 else (t + 2 ^ 26) / 2 ^ 27

/-- A word wrapped to its width (R55). -/
def wrapWord (n : Nat) (v : ℤ) : ℤ := (v + 2 ^ (n - 1)) % 2 ^ n - 2 ^ (n - 1)

/-- The widths of X and Y and of Z, and the fraction bits of Z (R56). -/
def wordWidths (sew : Nat) : Nat × Nat × Nat := if sew = 32 then (42, 36, 34) else if sew = 16 then (21, 18, 16) else (10, 9, 7)

/-- The steps of a rotation (R57 to R64): one step with its direction, and the wrap of a word that leaves its range, with NC; the
pre-reduction of circular mode; the test of convergence; the compensation; and their order. -/
def RotationSteps : Prop :=
  ∀ (sew : Nat) (mode : RotMode) (vec : Bool) (r : RotWords), sew ∈ [8, 16, 32] → (mode = .cir → sew ≠ 8) →
    let w := rotWidth sew
    let xw := (wordWidths sew).1
    let zw := (wordWidths sew).2.1
    let fz := (wordWidths sew).2.2
    let m : ℤ := match mode with | .cir => 1 | .lin => 0 | .hyp => -1
    let dir : ℤ := match mode, vec with
      | .lin, false => r.z.sign | .lin, true => -r.y.sign
      | _, false => if 0 ≤ r.z then 1 else -1 | _, true => if 0 ≤ r.y then -1 else 1
    let next (u : RotWords) (x y z : ℤ) : Prop := u.x = wrapWord xw x ∧ u.y = wrapWord xw y ∧ u.z = wrapWord zw z ∧
      u.nc = (r.nc || decide (u.x ≠ x ∨ u.y ≠ y ∨ u.z ≠ z))
    let quarter : ℤ := 2 ^ (fz - 2)
    let j := (r.z + quarter / 2) / quarter
    let gain (n : Nat) : ℤ := if mode = .cir
      then [11863283, 10610843, 10294030, 10214538, 10194646, 10189672, 10188428, 10188117, 10188040, 10188020, 10188015].getD (n - 1) 10188014
      else [19372660, 20007998, 20166166, 20205669, 20245249, 20255142, 20257615, 20258233, 20258387, 20258426, 20258436, 20258438].getD
        (n - 1) 20258439
    (∀ i, i < 32 →
      let k := shiftAt mode i
      next (rotStep w mode vec i r) (r.x - m * dir * (r.y / 2 ^ k)) (r.y + dir * (r.x / 2 ^ k)) (r.z - dir * angleAt sew mode k)) ∧
    (mode = .cir →
      (vec = false → next (prereduce w false r) (if j % 4 = 0 then r.x else if j % 4 = 1 then -r.y else if j % 4 = 2 then -r.x else r.y)
        (if j % 4 = 0 then r.y else if j % 4 = 1 then r.x else if j % 4 = 2 then -r.y else -r.x) (r.z - j * quarter)) ∧
      (vec = true → (0 ≤ r.x → prereduce w true r = r) ∧
        (r.x < 0 → 0 ≤ r.y → next (prereduce w true r) r.y (-r.x) (r.z + quarter)) ∧
        (r.x < 0 → r.y < 0 → next (prereduce w true r) (-r.y) r.x (r.z - quarter)))) ∧
    ∀ (s n : Nat), 1 ≤ n → s + n ≤ 32 →
      (rotOutOfRange w mode vec s n r = true ↔ match mode, vec with
        | .cir, false => s ≠ 0 ∧ ∑ i ∈ Finset.range n, angleAt sew .cir (s + i) < |r.z|
        | .cir, true => s ≠ 0 ∧ (r.x < 0 ∨ (r.x : ℚ) * 2 ^ (1 - (s : ℤ)) ≤ |r.y|)
        | .hyp, false => ⌊(11182 / 10000 : ℚ) * 2 ^ fz⌋ < |r.z|
        | .hyp, true => r.x ≤ 0 ∨ 806 * r.x ≤ 1000 * |r.y|
        | .lin, false => (2 - 2 ^ (1 - (n : ℤ)) : ℚ) * 2 ^ fz ≤ |r.z|
        | .lin, true => r.x ≤ 0 ∨ 2 * r.x ≤ |r.y|) ∧
      (mode ≠ .lin →
        next (rotCompensate w mode n r) (rounded 0 ((r.x * gain n : ℤ) / 2 ^ 24)) (rounded 0 ((r.y * gain n : ℤ) / 2 ^ 24)) r.z) ∧
      ∀ g : Bool,
        let start := if mode = .cir ∧ s = 0 then prereduce w vec r else r
        let marked := { start with nc := start.nc || rotOutOfRange w mode vec s n start }
        let turned := (List.range n).foldl (fun x i => rotStep w mode vec (s + i) x) marked
        rotCore w mode vec s n g r = if g then rotCompensate w mode n turned else turned

/-- One element of `vrot` (R65 to R68): special operands resolve without a step; the operands enter their words exactly, floats over
the common exponent of the pair, and the words of the rotation are written into the tags of the results; and linear rotation of int32
from step 0 on multiplies exactly where its operands fit, and else writes what its steps give. -/
def RotatedElements : Prop :=
  ∀ (vt : VType) (txy tz : Tag) (mode : RotMode) (vec g : Bool) (s n cx cy cz : Nat), rmOf vt ≤ 5 → rotTagsOk mode vec txy tz = true →
    1 ≤ n → s + n ≤ 32 →
    let x := readVal vt txy cx
    let y := readVal vt txy cy
    let z := readVal vt tz cz
    let nv (l : List Val) : Flags := flagIf (∃ v ∈ l, v.isInf = true ∨ v = .nan true) 1
    let nan (t : Tag) : Nat := ((floatRow t).bind (·.nan)).getD 0
    let special (v : Val) : Prop := v.isNan = true ∨ v.isInf = true
    let zw := (wordWidths txy.width).2.1
    let fz := (wordWidths txy.width).2.2
    let f : ℤ := (wordWidths txy.width).1 - 3
    let r := rotElement vt txy tz mode vec s n g cx cy cz
    (special x ∨ special y → r = ((nan txy, nan txy, if tz.cls = .float then nan tz else cz), nv [x, y, z])) ∧
    (¬ special x → ¬ special y → special z → r = ((nan txy, nan txy, nan tz), nv [z] ||| flagIf (txy.cls ≠ .float) 1)) ∧
    (txy.cls ≠ .integer → ¬ special x → ¬ special y → ¬ special z → ∃ e : ℤ,
      (txy.cls = .fixed ∨ (x.rat = 0 ∧ y.rat = 0) → e = 0) ∧
      (txy.cls = .float → x.rat ≠ 0 ∨ y.rat ≠ 0 → (2 : ℚ) ^ e ≤ max |x.rat| |y.rat| ∧ max |x.rat| |y.rat| < (2 : ℚ) ^ (e + 1)) ∧
      let big := tz.cls = .float ∧ 2 ≤ |z.rat|
      let u := rotCore (rotWidth txy.width) mode vec s n g ⟨⌊x.rat * (2 : ℚ) ^ (f - e)⌋, ⌊y.rat * (2 : ℚ) ^ (f - e)⌋,
        if big then (if z.rat < 0 then -2 ^ (zw - 1) else 2 ^ (zw - 1) - 1) else ⌊z.rat * 2 ^ fz⌋, decide big⟩
      ∃ vx vy vz fx fy fz', Stands vx (u.x * (2 : ℚ) ^ (e - f)) ∧ Stands vy (u.y * (2 : ℚ) ^ (e - f)) ∧ Stands vz ((u.z : ℚ) / 2 ^ fz) ∧
        Written vt txy vx (r.1.1, fx) ∧ Written vt txy vy (r.1.2.1, fy) ∧ Written vt tz vz (r.1.2.2, fz') ∧
        r.2 = fx ||| fy ||| fz' ||| flagIf (u.nc = true) 64) ∧
    (txy = .int32 →
      let a := intValue .int32 cx
      let c := intValue .int32 cy
      let b := intValue .int32 cz
      let fits := s = 0 ∧ |a| < 2 ^ (42 - n) ∧ |b| < 2 ^ n - 1
      let u := rotCore (rotWidth 32) .lin false s n g
        ⟨wrapWord 42 (a * 2 ^ (n - 1)), c, b * 2 ^ (35 - n), decide ((2 : ℤ) ^ (42 - n) ≤ |a|)⟩
      (fits → r.1 = (cx, (intResult vt .int32 (c + a * b)).1, 0)) ∧
      (¬ fits → g = false → -2 ^ n ≤ b → b < 2 ^ n → ∃ fz', r.1 = (cx, (intResult vt .int32 u.y).1, r.1.2.2) ∧
        GridWritten vt .int32 (u.z * (2 : ℚ) ^ ((n : ℤ) - 35)) (r.1.2.2, fz') ∧
        r.2 = (intResult vt .int32 u.y).2 ||| fz' ||| flagIf (u.nc = true) 64))

/-- The special and exact results of the composite functions (R71, R168, R169): on the float tags, a NaN operand gives the canonical
NaN with NV where it is signalling, and each row gives its result with its flag, the exact results without CPX; on q15, a NaN is
0 with NV, an infinity the extreme value of its sign with SA, and a half-turn −1. -/
def SpecialResults : Prop :=
  (∀ (vt : VType) (ca cb : Nat), rmOf vt ≤ 5 →
    let a := intValue .q15 ca
    let b := intValue .q15 cb
    let r (fn : Fn) := compositeElement vt .q15 fn false ca cb
    (a < 0 → ∀ fn ∈ [Fn.ln, .log2, .sqrt, .rsqrt], r fn = (0, 1)) ∧
    (a = 0 → r .ln = (0x8000, 2 ||| 32) ∧ r .log2 = (0x8000, 2 ||| 32) ∧ r .rsqrt = (0x7FFF, 2 ||| 32) ∧ r .recip = (0x7FFF, 2 ||| 32)) ∧
    (b = 0 → r .div = if a = 0 then (0, 1) else (if a < 0 then 0x8000 else 0x7FFF, 2 ||| 32)) ∧
    (a = 0 → b < 0 → r .atan2 = (0x8000, 0))) ∧
  ∀ (vt : VType) (t : Tag) (f : FloatRow) (ca cb : Nat), rmOf vt ≤ 5 → floatRow t = some f → t.cls = .float →
    let a := readVal vt t ca
    let b := readVal vt t cb
    let r (fn : Fn) (sine : Bool) := compositeElement vt t fn sine ca cb
    let gives (fn : Fn) (sine : Bool) (v : Val) (fl : Flags) : Prop := (r fn sine).2 = fl ∧ ReadAs (vt &&& ~~~0x1000) t (r fn sine).1 v
    let number (fn : Fn) (sine : Bool) (x : ℚ) : Prop := (r fn sine).2 = 0 ∧ (r fn sine).1 < 2 ^ (f.eb + f.p + 1) ∧
      (r fn sine).1 % 2 ^ (f.eb + f.p) ≤ f.maxCode ∧ f.rat (r fn sine).1 = x
    let canon (fn : Fn) (sine : Bool) (fl : Flags) : Prop := r fn sine = (f.nan.getD 0, fl)
    let sgn (s : Bool) : ℚ := if s then -1 else 1
    let below (v : Val) : Prop := v = .inf true ∨ ∃ m e, v = .fin m e ∧ m < 0
    let finite (v : Val) : Prop := v.isNan = false ∧ v.isInf = false
    (∀ fn, fn ∈ [Fn.sinCos, .exp, .exp2, .ln, .log2, .sqrt, .rsqrt, .recip, .tanh, .sigm, .gelu] → a.isNan = true →
      ∀ sine, canon fn sine (sigOf [a])) ∧
    (∀ fn, fn ∈ [Fn.div, .atan2, .softx] → a.isNan = true ∨ b.isNan = true → canon fn false (sigOf [a, b])) ∧
    (a.isInf = true ∨ b.isInf = true → gives .hypot false (.inf false) (sigOf [a, b])) ∧
    (a.isInf = false → b.isInf = false → a.isNan = true ∨ b.isNan = true → canon .hypot false (sigOf [a, b])) ∧
    (∀ s, a = .zero s → number .sinCos false 1 ∧ gives .sinCos true (.zero s) 0 ∧
      gives .ln false (.inf true) 2 ∧ gives .log2 false (.inf true) 2 ∧ gives .sqrt false (.zero s) 0 ∧ gives .rsqrt false (.inf s) 2 ∧
      gives .recip false (.inf s) 2) ∧
    (∀ s, a = .inf s → canon .sinCos false 1 ∧ canon .sinCos true 1 ∧ gives .exp false (if s then .zero false else .inf false) 0 ∧
      gives .exp2 false (if s then .zero false else .inf false) 0 ∧ gives .recip false (.zero s) 0 ∧ number .tanh false (sgn s) ∧
      (s = false → gives .ln false (.inf false) 0 ∧ gives .log2 false (.inf false) 0 ∧ gives .sqrt false (.inf false) 0 ∧
        gives .rsqrt false (.zero false) 0 ∧ number .sigm false 1 ∧ gives .gelu false (.inf false) 0) ∧
      (s = true → gives .sigm false (.zero false) 0 ∧ gives .gelu false (.zero true) 0)) ∧
    (below a → canon .ln false 1 ∧ canon .log2 false 1 ∧ canon .sqrt false 1 ∧ canon .rsqrt false 1) ∧
    (∀ s z, (a = .zero s → b = .zero z → canon .div false 1) ∧ (a = .inf s → b = .inf z → canon .div false 1) ∧
      (a = .inf s → finite b → b.neg? = z → gives .div false (.inf (s != z)) 0) ∧
      (finite a → a.neg? = s → b = .inf z → gives .div false (.zero (s != z)) 0) ∧
      (∀ m e, a = .fin m e → a.neg? = s → b = .zero z → gives .div false (.inf (s != z)) 2)) ∧
    (∀ s z, a.neg? = s → b.neg? = z →
      (a = .zero s → finite b → if z then number .atan2 false (sgn s / 2) else gives .atan2 false (.zero s) 0) ∧
      (∀ m e, a = .fin m e → b = .zero z → number .atan2 false (sgn s / 4)) ∧
      (a = .inf s → b = .inf z → number .atan2 false (sgn s * if z then 3 / 8 else 1 / 8)) ∧
      (a = .inf s → finite b → number .atan2 false (sgn s / 4)) ∧
      (finite a → b = .inf z → if z then number .atan2 false (sgn s / 2) else gives .atan2 false (.zero s) 0)) ∧
    (a.isNan = false → b = .inf false → if a = .inf false then number .softx false 1 else gives .softx false (.zero false) 0) ∧
    (a.isNan = false → b = .inf true → gives .softx false (.zero false) 1) ∧
    (finite b → (a = .inf false → gives .softx false (.inf false) 0) ∧ (a = .inf true → gives .softx false (.zero false) 0)) ∧
    (vt.getLsbD 20 = false →
      let low : ℤ := 1 - f.bias
      (∀ s, a = .zero s → number .exp false 1 ∧ number .exp2 false 1) ∧
      (∀ j : ℤ, low ≤ j → j ≤ f.bias → a.rat = j → finite a → number .exp2 false ((2 : ℚ) ^ j)) ∧
      (a.rat = 1 → ∃ s, gives .ln false (.zero s) 0 ∧ ∃ s, gives .log2 false (.zero s) 0) ∧
      (∀ j : ℤ, a.rat = (2 : ℚ) ^ j → j ≠ 0 → number .log2 false j) ∧
      (∀ (c : Nat) (m e : ℤ), ReadAs vt t c (.fin m e) → 0 < m → a.rat = (Val.fin m e).rat ^ 2 → number .sqrt false (Val.fin m e).rat) ∧
      (∀ j : ℤ, low ≤ -j → -j ≤ f.bias → a.rat = (2 : ℚ) ^ j → number .recip false ((2 : ℚ) ^ (-j))) ∧
      ∀ j : ℤ, a.rat = j / 4 → finite a → (r .sinCos false).2 = 0 ∧ (r .sinCos true).2 = 0 ∧
        (j % 4 = 0 → number .sinCos false 1 ∧ number .sinCos true 0) ∧ (j % 4 = 1 → number .sinCos false 0 ∧ number .sinCos true 1) ∧
        (j % 4 = 2 → number .sinCos false (-1) ∧ number .sinCos true 0) ∧ (j % 4 = 3 → number .sinCos false 0 ∧ number .sinCos true (-1)))

/-- User microprograms (R74, R75): a special operand gives the canonical NaN; otherwise the program runs on the words of its operands
to its first `end`, and h0 × 2^h7 is written; each arithmetic micro-op writes its exact result, wrapped to its register with NC.
Which value `norm` scales in h2 and h7 is log 63's choice. -/
def UserPrograms : Prop :=
  (∀ (vt : VType) (t : Tag) (prog : List (BitVec 32)) (ca cb : Nat), rmOf vt ≤ 5 → t.user = true →
    let a := readVal vt t ca
    let b := readVal vt t cb
    let special (v : Val) : Prop := v.isNan = true ∨ v.isInf = true
    (special a ∨ special b → ufnElement vt t prog ca cb =
      ((((floatRow t).bind (·.nan)).getD 0), flagIf (∃ v ∈ [a, b], v.isInf = true ∨ v = .nan true) 1)) ∧
    (¬ special a → ¬ special b → ∃ e : ℤ, (t.cls ≠ .float ∨ (a.rat = 0 ∧ b.rat = 0) → e = 0) ∧
      (t.cls = .float → a.rat ≠ 0 ∨ b.rat ≠ 0 → (2 : ℚ) ^ e ≤ max |a.rat| |b.rat| ∧ max |a.rat| |b.rat| < (2 : ℚ) ^ (e + 1)) ∧
      let f : ℤ := (wordWidths t.width).1 - 3
      let m := microRun (rotWidth t.width) prog
        ⟨[⌊a.rat * (2 : ℚ) ^ (f - e)⌋, ⌊b.rat * (2 : ℚ) ^ (f - e)⌋, 0, 0, 0, 0, 0, e], false⟩
      ∃ v fl, Stands v ((m.h.getD 0 0 : ℚ) * (2 : ℚ) ^ (m.h.getD 7 0 - f)) ∧ Written vt t v ((ufnElement vt t prog ca cb).1, fl) ∧
        (ufnElement vt t prog ca cb).2 = fl ||| flagIf (m.nc = true) 64)) ∧
  (∀ (w : RotWidth) (u : BitVec 32) (us : List (BitVec 32)) (m : Micro),
    microRun w [] m = m ∧ (u.extractLsb' 27 5 = 0 → microRun w (u :: us) m = m) ∧
    (u.extractLsb' 27 5 ≠ 0 → microRun w (u :: us) m = microRun w us (microStep w u m))) ∧
  ∀ (sew : Nat) (u : BitVec 32) (m : Micro), sew ∈ [8, 16, 32] → m.h.length = 8 →
    let w := rotWidth sew
    let xw := (wordWidths sew).1
    let zw := (wordWidths sew).2.1
    let f := xw - 3
    let op := (u.extractLsb' 27 5).toNat
    let d := (u.extractLsb' 24 3).toNat
    let a := (u.extractLsb' 21 3).toNat
    let b := (u.extractLsb' 18 3).toNat
    let n := (u.extractLsb' 0 18).toNat
    let ha := m.h.getD a 0
    let hb := m.h.getD b 0
    let wrap (r : Nat) (v : ℤ) : ℤ := wrapWord (if r = 2 then zw else if r = 7 then 16 else xw) v
    let sets (v : ℤ) : Prop := microStep w u m = ⟨m.h.set d (wrap d v), m.nc || decide (wrap d v ≠ v)⟩
    (op = 1 →
      let mode : RotMode := match (u.extractLsb' 16 2).toNat with | 0 => .cir | 1 => .hyp | _ => .lin
      let r := rotCore w mode (u.getLsbD 15) (u.extractLsb' 9 5).toNat ((u.extractLsb' 4 5).toNat + 1) (u.getLsbD 14)
        ⟨m.h.getD 0 0, m.h.getD 1 0, m.h.getD 2 0, m.nc⟩
      microStep w u m = ⟨((m.h.set 0 r.x).set 1 r.y).set 2 r.z, r.nc⟩) ∧
    (op = 11 →
      let x := m.h.getD 0 0
      let y := m.h.getD 1 0
      let x' := if ha % 4 = 0 then x else if ha % 4 = 1 then -y else if ha % 4 = 2 then -x else y
      let y' := if ha % 4 = 0 then y else if ha % 4 = 1 then x else if ha % 4 = 2 then -y else -x
      microStep w u m = ⟨(m.h.set 0 (wrap 0 x')).set 1 (wrap 1 y'), m.nc || decide (wrap 0 x' ≠ x' ∨ wrap 1 y' ≠ y')⟩) ∧
    (op = 2 → sets ((u.extractLsb' 0 18).toInt * 2 ^ (6 * a))) ∧ (op = 3 → sets (ha + hb)) ∧ (op = 4 → sets (ha - hb)) ∧
    (op = 5 → n < 64 → sets (ha / 2 ^ n)) ∧ (op = 6 → n < 64 → sets (ha * 2 ^ n)) ∧
    (op = 7 → sets (rounded 0 ((ha * (u.extractLsb' 0 18).toInt : ℤ) / 2 ^ 16))) ∧
    (op = 8 → sets (rounded 0 ((ha * hb : ℤ) / 2 ^ f))) ∧
    (op = 9 → (ha = 0 → microStep w u m = m) ∧
      ∀ c : ℤ, (2 : ℚ) ^ (c + f) ≤ |(ha : ℚ)| → |(ha : ℚ)| < (2 : ℚ) ^ (c + f + 1) →
        let v : ℤ := ⌊(ha : ℚ) * (2 : ℚ) ^ (-c)⌋
        let h := m.h.set d (wrap d v)
        let e := h.getD 7 0 + c
        microStep w u m = ⟨h.set 7 (wrap 7 e), m.nc || decide (wrap d v ≠ v) || decide (wrap 7 e ≠ e)⟩) ∧
    (op = 10 → 1 ≤ n → n ≤ 40 →
      let j := (ha + 2 ^ (n - 1)) / 2 ^ n
      let v := ha - j * 2 ^ n
      microStep w u m = ⟨(m.h.set d (wrap d v)).set b (wrap b j), m.nc || decide (wrap d v ≠ v) || decide (wrap b j ≠ j)⟩) ∧
    (op = 12 → if hb < 0 then sets ha else microStep w u m = m) ∧ (op = 13 → sets |ha|) ∧ (op = 14 → sets (min ha hb)) ∧
    (op = 15 → sets (max ha hb)) ∧
    (op = 16 → (0 ≤ hb → |ha| < 2 ^ 63 → sets (ha / 2 ^ hb.toNat)) ∧ (hb < 0 → sets (ha * 2 ^ (-hb).toNat)))

/-- The values of rotations, composite functions and user microprograms (R57 to R68, R71, R74, R75, R168, R169). -/
def Obligations.FunctionValues : Prop := RotationSteps ∧ RotatedElements ∧ SpecialResults ∧ UserPrograms

/-- The folds of `vred` with an initial value from the second operand (R172). -/
def redInstr (f : RedFn) (d a : VReg) (b : VSrc) (m : MReg) : Instr :=
  match f with
  | .sum => .vredRedsum d a b m | .sumOrd => .vredRedsumOrd d a b m | .max => .vredRedmax d a b m | .min => .vredRedmin d a b m
  | .and => .vredRedand d a b m | .or => .vredRedor d a b m

/-- Reductions complete (R171 to R173): element 0 of D's group receives the fold of the initial value and A's active elements,
the other elements are tail, and the flags fall on element 0; with vl = 0 nothing is written. On integers of one tag the sum
is the exact sum narrowed once, in any order (R33).
Scans, mask functions and `vred.iota` complete (R171, R174 to R177): each active element of a scan holds the fold up to
itself; the logical functions combine two masks; `first` and `count` deliver the lowest active set bit of m(A), or all ones, and
their number to x(D); `cutoff` and `thru` keep the bits below it, and up to it; iota writes the index in an unsigned tag. That tags
are set with no element written, and that iota at SEW 8 writes an index of 256 or more modulo 256 without SA, is log 63's choice. -/
def Obligations.FoldScanAndMaskResults : Prop :=
  ((∀ (s : State) (k p hi : Nat) (e : Entry) (d a : VReg) (m : MReg), s.Moves k p hi e → (s.vec k).bad = [] →
     let v := s.vec k
     let vt := e.vtype
     let w := vt.sew
     let r := VRun.of v e true hi
     let first : Kinds := { vt := vt, lanes := v.lanes, start := 0, vl := 1, hi := 1, mask := fun _ => true }
     let holds (i : Instr) (w : Nat) (t : Tag) (x : Nat × Flags) : Prop :=
       (e.vl = 0 → s.Idles k e i) ∧
       (e.vl ≠ 0 → x.2 &&& v.ftrap = 0 → ∃ u, exec i s = .next u ∧ VecMoves s u k true none 0 ∧
         GroupWritten v (u.vec k) first d w t (fun _ => some x.1) ∧ FlagsRouted v (u.vec k) e first (fun _ => x.2) v.maskBit)
     (∀ (f : RedFn) (b : VSrc) (t : Tag), groupOk vt (d, .one) = true → WellFormed (redInstr f d a b m) = true →
       redTag f v vt a b = some t →
       let second := r.src (v.tagOf a) b
       holds (redInstr f d a b m) w t
         (foldResult f vt w t (operandVal vt false t second.tag (second.get 0)) (second.get 0)
           (r.terms m w a (operandVal vt false t (v.tagOf a))))) ∧
     ∀ (b : VReg) (t : Tag), groupOk vt (d, .wide) = true → redWTag v vt a b = some t →
       holds (.vredRedsumW d a b m) (2 * w) t
         (foldResult .sum vt (2 * w) t (readVal vt t (v.elem v.lanes (2 * w) b 0)) (v.elem v.lanes (2 * w) b 0)
           (r.terms m w a (readVal vt (v.tagOf a))))) ∧
   ∀ (vt : VType) (t : Tag) (c : Nat) (l : List (Option Nat)), t.cls = .integer → c < 2 ^ t.width →
     (∀ x ∈ l, ∀ n, x = some n → n < 2 ^ t.width) →
     let gives (f : RedFn) (x : Nat × Flags) : Prop :=
       foldResult f vt t.width t (readVal vt t c) c (l.map fun o => o.map fun n => (readVal vt t n, n)) = x
     let vals := (l.filterMap id).map (intValue t)
     gives .sum (intResult vt t (intValue t c + vals.sum)) ∧ gives .sumOrd (intResult vt t (intValue t c + vals.sum)) ∧
     gives .max (residue t (vals.foldl max (intValue t c)), 0) ∧ gives .min (residue t (vals.foldl min (intValue t c)), 0) ∧
     gives .and ((l.filterMap id).foldl Nat.land c, 0) ∧ gives .or ((l.filterMap id).foldl Nat.lor c, 0)) ∧
  ∀ (s : State) (k p hi : Nat) (e : Entry) (a : VReg) (m : MReg), s.Moves k p hi e → e.fpx = none → (s.vec k).bad = [] →
    let v := s.vec k
    let vt := e.vtype
    let w := vt.sew
    let r := VRun.of v e true hi
    let q := Kinds.of v e true hi m
    let act := (List.range q.vl).filter q.active
    (∀ (d : VReg) (b : VSrc) (f : RedFn) (i : Instr) (t : Tag), groupOk vt (d, .one) = true → WellFormed i = true →
      redTag f v vt a b = some t → (f = .sum ∧ i = .vredScanAdd d a b m ∨ f = .max ∧ i = .vredScanMax d a b m) →
      let second := r.src (v.tagOf a) b
      let init := operandVal vt false t second.tag (second.get 0)
      let l := scanList f vt t (Term.of init).1 (act.map fun n => (n, operandVal vt false t (v.tagOf a) (v.elem v.lanes w a n)))
      let fl (n : Nat) : Flags := (scanAt l n).2 ||| (if act.head? = some n then init.sigFlag else 0)
      (q.quiet v e fl → s.WritesGroup k e i q none d w t (fun n => some (scanAt l n).1) fl) ∧
      (t.cls = .integer → v.tagOf a = t → second.tag = t → ∀ n, q.active n = true →
        let vals := (act.filter (· ≤ n)).map fun j => intValue t (v.elem v.lanes w a j)
        scanAt l n =
          if f = .sum then intResult vt t (intValue t (second.get 0) + vals.sum)
          else (residue t (vals.foldl max (intValue t (second.get 0))), 0))) ∧
    (∀ d x y : MReg,
      s.WritesMask k e (.vredMaskAnd d x y m) q none d (fun n => v.maskBit x n && v.maskBit y n) (fun _ => 0) ∧
      s.WritesMask k e (.vredMaskOr d x y m) q none d (fun n => v.maskBit x n || v.maskBit y n) (fun _ => 0) ∧
      s.WritesMask k e (.vredMaskXor d x y m) q none d (fun n => v.maskBit x n != v.maskBit y n) (fun _ => 0) ∧
      s.WritesMask k e (.vredMaskAndn d x y m) q none d (fun n => v.maskBit x n && !v.maskBit y n) (fun _ => 0)) ∧
    (∀ x : MReg,
      let set := act.filter (v.maskBit x)
      let f := (set.head?).getD q.vl
      s.WritesMask k e (.vredMaskCutoff x m) q none x (fun n => decide (n < f)) (fun _ => 0) ∧
      s.WritesMask k e (.vredMaskThru x m) q none x (fun n => decide (n ≤ f)) (fun _ => 0) ∧
      ∀ d : XReg,
        let gives (i : Instr) (c : W64) : Prop := ∃ u, exec i s = .next u ∧ s.OnlyContext u k ∧ u.vec k = v.complete e ∧
          (∀ r, (u.front k).xr r = if r = d ∧ r ≠ 0 then c else (s.front k).xr r) ∧
          (∀ r, (u.front k).isPend r = ((s.front k).isPend r && decide (r ≠ d))) ∧
          { u.front k with x := (s.front k).x, bad := (s.front k).bad, pend := (s.front k).pend } = s.front k
        gives (.vredMaskFirst d x m) (match set.head? with | some n => BitVec.ofNat 64 n | none => -1) ∧
        gives (.vredMaskCount d x m) (BitVec.ofNat 64 set.length)) ∧
    ∀ d : VReg, groupOk vt (d, .one) = true →
      s.WritesGroup k e (.vredIota d m) q none d w (Tag.uintOf w) (fun n => some n) (fun _ => 0)

/-- Permutes complete (R197 to R200): D's group takes A's tag and, at each element that the form writes, an element of A as it
stood before, x(B), or 0; what the form leaves follows R148. With vl = 0 nothing is written; `vperm.insert` writes one element,
and none beyond VLMAX. `vperm.slideup` below its offset, `vperm.insert` beyond vl and the case vl = 0 are log 39's reading; tags set with
no element written are log 63's. -/
def Obligations.PermuteResults : Prop :=
  ∀ (s : State) (k p hi : Nat) (e : Entry) (d a : VReg) (src : VSrc) (b : XReg) (x m : MReg), s.Moves k p hi e →
    (s.vec k).bad = [] → groupOk e.vtype (d, .one) = true →
    let v := s.vec k
    let vt := e.vtype
    let w := vt.sew
    let vl := e.vl.toNat
    let top := vlmaxOf v.lanes vt
    let t := v.tagOf a
    let q := Kinds.of v e true hi m
    let elem (n : Nat) : Nat := v.elem v.lanes w a n
    let xb := (e.ops.getD 0 0).toNat
    let off := match src with | .vi imm => imm.toNat | _ => xb
    let idx (n : Nat) : Nat := match src with | .vv g => v.elem v.lanes w g n | _ => off
    let sel := (List.range vl).filter (v.maskBit x)
    let c := max 1 (min xb vl)
    let rows := (vl + c - 1) / c
    (vl ≠ 0 →
      s.Permutes k e (.vpermSlideup d a src m) { q with start := min off vl } d w t (fun n => some (elem (n - off))) ∧
      s.Permutes k e (.vpermSlidedown d a src m) q d w t (fun n => some (if n + off < top then elem (n + off) else 0)) ∧
      s.Permutes k e (.vpermSlide1up d a b m) q d w t (fun n => some (if n = 0 then xb % 2 ^ w else elem (n - 1))) ∧
      s.Permutes k e (.vpermSlide1down d a b m) q d w t (fun n => some (if n + 1 < vl then elem (n + 1) else xb % 2 ^ w)) ∧
      s.Permutes k e (.vpermGather d a src m) q d w t (fun n => some (if idx n < top then elem (idx n) else 0)) ∧
      s.Permutes k e (.vpermCompress d a x) { q with vl := sel.length, mask := fun _ => true } d w t
        (fun n => some (elem (sel.getD n 0))) ∧
      s.Permutes k e (.vpermExpand d a x) { q with mask := v.maskBit x } d w t
        (fun n => some (elem ((List.range n).filter (v.maskBit x)).length)) ∧
      s.Permutes k e (.vpermReshape d a b) { q with mask := fun _ => true } d w t
        (fun n => some (if n / rows < c ∧ n % rows * c + n / rows < vl then elem (n % rows * c + n / rows) else 0)) ∧
      s.Permutes k e (.vpermExtract d a b m) { q with vl := 1 } d w t (fun _ => some (if xb < top then elem xb else 0)) ∧
      (xb < top → ∃ u, exec (.vpermInsert d a b m) s = .next u ∧ VecMoves s u k true none 0 ∧
        (∀ n, n < top → (u.vec k).elem v.lanes w d n =
          if n ≠ xb then v.elem v.lanes w d n
          else if v.maskBit m xb then elem 0 % 2 ^ codeBits (v.tagOf d) w
          else if vt.ma then onesCode (v.tagOf d) w else v.elem v.lanes w d n) ∧
        (∀ n, q.inGroup d w n = false → (u.vec k).v.getD n 0 = v.v.getD n 0) ∧
        (∀ n, n < 32 → (u.vec k).tag.getD n .int32 = if q.inGroup d w n then v.tagOf d else v.tag.getD n .int32) ∧
        (u.vec k).m = v.m ∧ (u.vec k).infl = (v.complete e).infl ∧
        (u.vec k).flags = (v.complete e).flags) ∧
      (top ≤ xb → s.Idles k e (.vpermInsert d a b m))) ∧
    (vl = 0 → ∀ i ∈ [Instr.vpermSlideup d a src m, .vpermSlidedown d a src m, .vpermSlide1up d a b m, .vpermSlide1down d a b m,
      .vpermGather d a src m, .vpermCompress d a x, .vpermExpand d a x, .vpermReshape d a b, .vpermExtract d a b m,
      .vpermInsert d a b m], s.Idles k e i)

/-! ## Vector loads and stores -/

/-- An element of a vector load finds the number c: the bytes at its address on this device, or those that another device has
sent (R121, R184, R344); an address out of a walk's range gives 0 (R194). `far` is the look-up of an `idx` form, which only the
cluster TLB serves (R329). -/
def ElemLoads (s : State) (k : Nat) (far : Bool) (z : Nat) (ea : Option W64) (c : Nat) : Prop :=
  match ea with
  | none => c = 0
  | some va => ∃ pa,
    if isDomain pa then
      deviceOf pa ≠ s.flash.deviceId ∧ s.checkVa k far (s.front k).aspace (s.front k).sup .load va z = .ok (pa, false) ∧
        ∃ bs, s.arrivedFor (.vector k) pa z = some (.data bs) ∧ c = ofBytesLE bs
    else s.check k far (s.front k).aspace (s.front k).sup .load va z = .ok (pa, false) ∧ s.uecc pa z = false ∧ c = s.readLE pa z

/-- The kinds of R148 up to an index where the instruction stopped; what follows stays as it was (R185, R186). -/
def GroupUpTo (v u : Vec) (q : Kinds) (stop : Nat) (d : VReg) (w : Nat) (t : Tag) (res : Nat → Nat) : Prop :=
  (∀ i, i < vlmaxOf q.lanes q.vt → u.elem q.lanes w d i =
    if i < stop then q.value (onesCode t w) (v.elem q.lanes w d i) (some (res i % 2 ^ codeBits t w)) i
    else v.elem q.lanes w d i) ∧
  ∀ n, q.inGroup d w n = false → u.v.getD n 0 = v.v.getD n 0

/-- The vector side after `vld.ff` has settled VL on n (R186): the younger entries up to the next `vcfg.setl` run with the smaller
VL, and VL itself is trimmed when none is there. One that stands behind another `vld.ff` still waits for that one (R247). -/
def vecSettled (v : Vec) (e : Entry) (n : Nat) : Vec :=
  let cut (x : BitVec 13) : BitVec 13 := BitVec.ofNat 13 (min x.toNat n)
  let younger := (v.infl ++ v.viq).filter fun x => decide (e.po < x.po)
  let setl := younger.find? fun x => match decodeWord x.word with | .ok (.vcfgSetl ..) => true | _ => false
  let other (x : Entry) : Bool := younger.any fun y => decide (y.po < x.po) && !y.done &&
    (match decodeWord y.word with | .ok (.vldFf ..) => true | _ => false)
  let trimmed (x : Entry) : Entry :=
    if e.po < x.po ∧ x.ffv = true ∧ (∀ y, setl = some y → x.po < y.po) then { x with vl := cut x.vl, ffv := other x } else x
  { v with infl := v.infl.map trimmed, viq := v.viq.map trimmed, vl := if setl.isSome then v.vl else cut v.vl }

/-- Vector loads (R79, R148, R180 to R186, R194, R195), in a move: each active element holds the bytes at its address, and the
group keeps its tag; `vld.shape` walks a record and sets the record's tag, and over MX segments unpacks the elements and writes
the scale registers. A later element of `vld.ff` that fails by LDFAULT or BADADDR ends it there and trims VL. An element that
fails otherwise, by whatever code, traps after those below it have loaded, once no older instruction waits (R185, R254); for UECC the
trap names the lane of the element. The context adopts the newest generation read (R280). That `vld.shape` sets its tag also with no
element written is log 63's choice. -/
def Obligations.VectorLoads : Prop :=
  ∀ (s : State) (k p hi : Nat) (e : Entry) (d : VReg) (a b : XReg) (g : VReg) (c : Cls) (h : BitVec 2) (m : MReg)
    (code : Nat → Nat), s.Moves k p hi e → e.fpx = none → (s.vec k).bad = [] → groupOk e.vtype (d, .one) = true →
    (∀ spots, s.vecHeld k e c spots = false) →
    let v := s.vec k
    let vt := e.vtype
    let w := vt.sew
    let z := w / 8
    let q := Kinds.of v e false hi m
    let td := v.tagOf d
    let op (n : Nat) : W64 := e.ops.getD n 0
    let unit (n : Nat) : Option W64 := some (op 0 + BitVec.ofNat 64 (n * z))
    let pair (n : Nat) : W64 :=
      op 0 + BitVec.ofNat 64 (n / ((op 2).extractLsb' 0 32).toNat) * op 1 +
        BitVec.ofNat 64 (n % ((op 2).extractLsb' 0 32).toNat) * ((op 2).extractLsb' 32 32).signExtend 64
    let offset (n : Nat) : W64 :=
      let x := v.elem v.lanes w g n
      if (v.tagOf g).signed then BitVec.ofInt 64 (BitVec.ofNat w x).toInt else BitVec.ofNat 64 x
    let lane (x n : Nat) : Nat := if x = 10 then laneNumber v.grant (n % perReg v.lanes w % v.lanes) else 0
    let faults (i : Instr) (far : Bool) (ea : Nat → Option W64) (tag : Tag) (n : Nat) (taken : Nat → Prop) : Prop :=
      ∀ (va : W64) (x : Nat), s.HandlerOk k → s.mayTrap k e = true → (∀ y ∈ v.infl, y.flags &&& v.ftrap = 0) → q.active n = true →
        ea n = some va → s.findElem k far .load va z = .fault x → taken x →
        (∀ j, j < n → q.active j = true → ElemLoads s k far z (ea j) (code j)) →
        ∃ u, exec i s = .next u ∧ TrapTaken s u k true e.addr { code := x, elem := n, lane := lane x n, tval := va } ∧
          (u.vec k).vstart = BitVec.ofNat 13 n ∧ (u.vec k).infl = (v.infl.takeWhile (fun y => y.done)).map (fun y => { y with flags := 0 }) ∧
          (∃ y l, (u.vec k).viq = y :: l ∧ y.word = e.word ∧ y.pix = BitVec.ofNat 13 n) ∧ GroupUpTo v (u.vec k) q n d w tag code
    let runs (i : Instr) (far : Bool) (ea : Nat → Option W64) (tag : Tag) : Prop :=
      ((∀ n, q.active n = true → ElemLoads s k far z (ea n) (code n)) → ∃ u, exec i s = .next u ∧ VecMemMoves s u k q.ends ∧
        v.Gathered (u.vec k) e q.ends q.hi ∧ (u.vec k).e = v.e ∧
        (∀ n va pa, q.active n = true → ea n = some va → s.findElem k far .load va z = .at_ pa →
          s.newer (s.genRange pa z) (u.front k).curgen = false) ∧
        if q.start < q.vl then GroupWritten v (u.vec k) q d w tag (fun n => some (code n))
        else (u.vec k).v = v.v ∧ (u.vec k).tag = v.tag) ∧
      ∀ n, faults i far ea tag n fun _ => True
    runs (.vldUnit d a c h m) false unit td ∧
    runs (.vldStr d a b c h m) false (fun n => some (op 0 + BitVec.ofNat 64 n * op 1)) td ∧
    runs (.vld2d d a b c h m) false (fun n => some (pair n)) td ∧
    (offsetsOk v vt g = true → runs (.vldIdx d a g c h m) true (fun n => some (op 0 + offset n)) td) ∧
    (q.hi = q.vl →
      (∀ n, (∀ j, j < n → q.active j = false) → faults (.vldFf d a c h m) false unit td n fun _ => True) ∧
      (∀ n, faults (.vldFf d a c h m) false unit td n fun x => x ≠ 7 ∧ x ≠ 14) ∧
      ∀ stop, (∀ n, n < stop → q.active n = true → ElemLoads s k false z (unit n) (code n)) →
        (stop = q.vl ∨ (q.active stop = true ∧ (∃ n, n < stop ∧ q.active n = true) ∧
          ∃ va, unit stop = some va ∧ (s.findElem k false .load va z = .fault 7 ∨ s.findElem k false .load va z = .fault 14))) →
        ∃ u y, exec (.vldFf d a c h m) s = .next u ∧ VecMemMoves (s.setVec k (vecSettled v e stop)) u k true ∧
          (u.vec k).infl = ((vecSettled v e stop).complete { e with pix := BitVec.ofNat 13 stop, tally := y }).infl ∧
          (u.vec k).e = v.e ∧
          if stop < q.vl then
            GroupUpTo v (u.vec k) q stop d w td code ∧
            ∀ n, n < 32 → (u.vec k).tag.getD n .int32 = if q.inGroup d w n then td else v.tag.getD n .int32
          else if q.start < q.vl then GroupWritten v (u.vec k) q d w td (fun n => some (code n))
          else (u.vec k).v = v.v ∧ (u.vec k).tag = v.tag) ∧
    (v.lanes ≠ 0 → ∀ t, readShape .load (v.recordWord g) = .ok t →
      (t.mxs = false → t.tag.width = w → runs (.vldShape d a g c h m) false (t.addr (op 0)) t.tag) ∧
      (t.mxs = true → w = 8 → ∀ bytes : Nat → List Byte,
        let pos (n : Nat) : Option Nat := walkPos t.ext t.start t.bounds n
        let segment (x : Nat) : W64 := t.base + op 0 + BitVec.ofNat 64 x * t.stride.getD 0 0
        (∀ n x, q.active n = true → pos n = some x →
          s.segLoad k (s.segCheck k .load (segment (x / 1024)) (segSize t.tag)) = .bytes (bytes (x / 1024))) →
        ∃ u, exec (.vldShape d a g c h m) s = .next u ∧ VecMemMoves s u k q.ends ∧ v.Gathered (u.vec k) e q.ends q.hi ∧
          (q.start < q.vl →
            GroupWritten v (u.vec k) q d 8 t.tag (fun n => some (match pos n with
              | some x => segElem t.tag (bytes (x / 1024)) (x % 1024)
              | none => 0)) ∧
            (u.vec k).e = ((List.range q.vl).filter q.active).foldl (fun y n => match pos n with
              | some x => y.setIfInBounds ((n / 2 ^ vt.bl + v.scalebase.toNat) % 256) ((bytes (x / 1024)).getD 0 0)
              | none => y) v.e))) ∧
    (v.lanes = 0 → exec (.vldShape d a g c h m) s =
      .next (s.setVec k (v.complete { e with tally := { e.tally with time := s.time, spc := (s.front k).pc } })))

/-- Vector stores (R37, R180 to R185, R194 to R196), in a move: the bytes of each active element's code are written at its address
in ascending order, in the context's generation, and no register changes; each write on this device is `State.write`, which
`WriteResults` states, and one that stalls waits among the context's accesses (R366). A line that the elements cover whole loses
its error (R380). Every live byte that no active element names reads as before. An element that fails traps after those below it
have been written. `vst.mx` goes segment by segment: what it writes of one on this device joins the context's pending accesses as
one access (PendingPerforms), and holds the scale of the block, zeros in the reserved bytes, and each active element in its bits,
the other bits as they were; an address that fails traps at its segment. That elements which are written one after another heal a
line together is log 58's choice; that the segments of one instruction are not ordered among each other is log 62's reading. -/
def Obligations.VectorStores : Prop :=
  ∀ (s : State) (k p hi : Nat) (e : Entry) (d : VReg) (a b : XReg) (g : VReg) (c : Cls) (h : BitVec 2) (m : MReg) (pa : Nat → Nat),
    s.Moves k p hi e → e.fpx = none → (s.vec k).bad = [] → (∀ spots, s.vecHeld k e c spots = false) →
    let v := s.vec k
    let vt := e.vtype
    let w := vt.sew
    let z := w / 8
    let q := Kinds.of v e false hi m
    let td := v.tagOf d
    let act := (List.range q.vl).filter q.active
    let bytes (n : Nat) : List Byte := bytesLE z (v.elem v.lanes w d n % 2 ^ codeBits td w)
    let op (n : Nat) : W64 := e.ops.getD n 0
    let pair (n : Nat) : W64 :=
      op 0 + BitVec.ofNat 64 (n / ((op 2).extractLsb' 0 32).toNat) * op 1 +
        BitVec.ofNat 64 (n % ((op 2).extractLsb' 0 32).toNat) * ((op 2).extractLsb' 32 32).signExtend 64
    let offset (n : Nat) : W64 :=
      let x := v.elem v.lanes w g n
      if (v.tagOf g).signed then BitVec.ofInt 64 (BitVec.ofNat w x).toInt else BitVec.ofNat 64 x
    let written (ea : Nat → Option W64) (l : List Nat) : State :=
      let x := l.foldl (fun (x : State × List Nat) n =>
        let y := x.1.storeVec k e c ((ea n).getD 0) (pa n) (bytes n)
        (y.1, if y.2 then x.2 ++ [n] else x.2)) (s, [])
      x.1.healWhole (s.front k).curgen fun b => x.2.any fun n => !isDomain (pa n) && decide (pa n ≤ b) && decide (b < pa n + z)
    let lane (x n : Nat) : Nat := if x = 10 then laneNumber v.grant (n % perReg v.lanes w % v.lanes) else 0
    let runs (i : Instr) (far : Bool) (ea : Nat → Option W64) : Prop :=
      let hit := act.filter fun n => (ea n).isSome
      ((∀ n va, n ∈ act → ea n = some va → s.findElem k far .store va z = .at_ (pa n)) →
        ∃ u, exec i s = .next u ∧ VecStored s u k e q.ends q.hi ∧
          (let t := written ea hit; { u with vecs := t.vecs, cores := t.cores, threads := t.threads, touches := t.touches } = t) ∧
          (s.MemOk → s.KeysOk → (∀ n, n ∈ hit → pa n + z ≤ 2 ^ 44 ∨ isDomain (pa n) = true ∨ spBase ≤ pa n) →
            ∀ x, (x < 2 ^ 44 ∨ spBase ≤ x) → (∀ n, n ∈ hit → x < pa n ∨ pa n + z ≤ x) → u.readByte x = s.readByte x)) ∧
      ∀ (n : Nat) (va : W64) (x : Nat), n ∈ act → ea n = some va → s.findElem k far .store va z = .fault x →
        (∀ j va, j ∈ act → j < n → ea j = some va → s.findElem k far .store va z = .at_ (pa j)) →
        let t := written ea (hit.filter (· < n))
        t.HandlerOk k → s.mayTrap k e = true → t.mayTrap k e = true → (∀ y ∈ v.infl, y.flags &&& v.ftrap = 0) →
        ∃ u, exec i s = .next u ∧ TrapTaken t u k true e.addr { code := x, write := true, elem := n, lane := lane x n, tval := va } ∧
          u.mem = t.mem ∧ (u.vec k).v = v.v ∧ (u.vec k).tag = v.tag ∧ (u.vec k).m = v.m ∧ (u.vec k).e = v.e ∧
          (u.vec k).vstart = BitVec.ofNat 13 n ∧
          ∃ y l, (u.vec k).viq = y :: l ∧ y.word = e.word ∧ y.pix = BitVec.ofNat 13 n
    runs (.vstUnit d a c h m) false (fun n => some (op 0 + BitVec.ofNat 64 (n * z))) ∧
    runs (.vstStr d a b c h m) false (fun n => some (op 0 + BitVec.ofNat 64 n * op 1)) ∧
    runs (.vst2d d a b c h m) false (fun n => some (pair n)) ∧
    (offsetsOk v vt g = true → runs (.vstIdx d a g c h m) true (fun n => some (op 0 + offset n))) ∧
    (v.lanes ≠ 0 → ∀ t, readShape .store (v.recordWord g) = .ok t → t.tag.width = w →
      runs (.vstShape d a g c h m) false (t.addr (op 0))) ∧
    (v.lanes = 0 → exec (.vstShape d a g c h m) s =
      .next (s.setVec k (v.complete { e with tally := { e.tally with time := s.time, spc := (s.front k).pc } }))) ∧
    (w = 8 → td.isMx = true → q.start % 1024 = 0 → q.start < q.vl →
      let size := segSize td
      let first := q.start / 1024
      let last := if q.ends then (q.vl + 1023) / 1024 else max (q.hi / 1024) (first + 1)
      let va (n : Nat) : W64 := op 0 + BitVec.ofNat 64 (n * size)
      let changes (n : Nat) (runs : List (Nat × Nat)) : List Patch :=
        (segPatches runs size (segWrites (VRun.of v e false hi) m d td n)).map (·.2)
      -- every segment of the move lies on this device: one access each, memory untouched until they perform
      (∀ runs : Nat → List (Nat × Nat), (∀ n, first ≤ n → n < last → s.segCheck k .store (va n) size = .ok (runs n) ∧
          ∀ r ∈ runs n, isDomain r.1 = false ∧ isDomain (r.1 + r.2) = false) →
        ∃ u y, exec (.vstMx d a c h m) s = .next u ∧ (∀ b, b ≠ k → u.front b = s.front b) ∧
          u.front k = ((List.range last).filter fun n => decide (first ≤ n)).foldl (fun (f : Front) n => f.addAccess
            ⟨.segment (changes n (runs n)), e.po, e.addr, va n, runAt (runs n) 0, c, 0, none, true⟩) (s.front k) ∧
          u.vec k = (if q.vl ≤ 1024 * last then v.complete { e with tally := y }
            else v.setEntry { e with tally := y, pix := BitVec.ofNat 13 (1024 * last), started := true }) ∧
          (∀ j, j ≠ k → u.vec j = s.vec j) ∧ (∀ g, { u.core g with evc := (s.core g).evc } = s.core g) ∧
          { u with fronts := s.fronts, vecs := s.vecs, cores := s.cores, touches := s.touches } = s) ∧
      -- what one access changes, where the segment stands in one run
      (∀ (n at_ : Nat) (u : State), s.writePatches (some k) s.live (changes n [(at_, size)]) = some u → s.MemOk → s.KeysOk →
        (at_ + size ≤ 2 ^ 44 ∨ spBase ≤ at_) →
        let held (x : State) (j : Nat) : Nat := segElem td ((List.range size).map fun y => x.readByte (at_ + y)) j
        u.readByte at_ = v.e.getD ((1024 * n / 2 ^ vt.bl + v.scalebase.toNat) % 256) 0 ∧
        (∀ j, 1 ≤ j → j < 16 → u.readByte (at_ + j) = 0) ∧
        (∀ x, (x < 2 ^ 44 ∨ spBase ≤ x) → (x < at_ ∨ at_ + size ≤ x) → u.readByte x = s.readByte x) ∧
        ∀ j, j < 1024 → held u j =
          if q.start ≤ 1024 * n + j ∧ 1024 * n + j < q.vl ∧ v.maskBit m (1024 * n + j) = true
          then v.elem v.lanes 8 d (1024 * n + j) % 2 ^ codeBits td 8 else held s j) ∧
      -- the first segment fails a check
      ∀ x : Nat, s.segCheck k .store (va first) size = .error x → s.HandlerOk k → s.mayTrap k e = true →
        (∀ y ∈ v.infl, y.flags &&& v.ftrap = 0) → ∃ u, exec (.vstMx d a c h m) s = .next u ∧
          TrapTaken s u k true e.addr { code := x, write := true, elem := q.start, lane := lane x q.start, tval := va first } ∧
          u.mem = s.mem ∧ (u.vec k).v = v.v ∧ (u.vec k).vstart = e.pix)

/-! ## Streams and scale registers -/

/-- Streams (R203 to R209, R256): binding reads the record, ends the old stream and starts one at index 0 with the context's address
space, mode and generation; binding over and freeing wait until the entries of an output stream have performed; `strm.status` tells
whether the register is bound, its direction, whether a fault is held, and the index; `strm.skip` advances the index; `vop.mv`
appends to an output stream as many whole element groups as its 4 KiB take, and waits for room for the first; an instruction that
names an output stream with a held fault takes it. The thread of an input stream fetches entry after entry and adopts what it reads;
that of an output stream writes them, in the order in which they were appended (R205 allows any order; this one is log 62's choice);
and a failing access is held as the stream's fault, until it is delivered and `sys.eret` lets the thread go on (TrapReturn). After a
fatal trap an output stream drops the entry that fails and the later ones (R311). -/
def Obligations.Streams : Prop :=
  (∀ (s : State) (k p hi : Nat) (e : Entry) (d : SReg), s.Moves k p hi e → (s.vec k).bad = [] →
    let v := s.vec k
    let f := s.front k
    let after := freeStream s k d
    let status (x : Option Stream) : Nat := match x with
      | none => 0
      | some y => 2 ^ 63 + (if y.out then 2 ^ 62 else 0) + (if y.fault.isSome ∧ y.told = false then 2 ^ 61 else 0) + y.idx.toNat % 2 ^ 32
    let sound (x : Stream) : Prop := x.out = true → x.fault = none ∨ x.told = true
    ((∀ x, v.stream d = some x → sound x) → s.unwritten k d = false →
      ((after.vec k).stream d = none ∧
        { after with vecs := s.vecs, threads := s.threads, requests := s.requests, arrived := s.arrived } = s) ∧
      (∀ (out : Bool) (a : VReg) (t : Shape), readShape (.stream out) (v.recordWord a) = .ok t →
        after.threadCount (coreOf k) < 16 →
        ∃ u, exec (if out then .strmBindOut d a else .strmBind d a) s = .next u ∧ u.threadSeq = s.threadSeq + 1 ∧
          { u with threadSeq := after.threadSeq, vecs := after.vecs } = after ∧ (∀ j, j ≠ k → u.vec j = after.vec j) ∧
          (u.vec k).stream d = some {
            out := out, base := t.base, stride := t.stride, ext := t.ext, start := t.start, word1 := t.word1, idx := 0,
            aspace := f.aspace, sup := f.sup, gen := f.curgen, po := e.po, seq := s.threadSeq, buf := [], fault := none,
            told := false } ∧
          (∀ n, n ≠ d → (u.vec k).stream n = (after.vec k).stream n) ∧
          { u.vec k with s := (after.vec k).s } = (after.vec k).complete e) ∧
      (v.stream d ≠ none → exec (.strmFree d) s = .next (after.setVec k ((after.vec k).complete e)))) ∧
    (∀ x, v.stream d = some x → sound x → s.unwritten k d = true → ∀ a : VReg,
      exec (.strmFree d) s = .next s ∧ exec (.strmBind d a) s = .next s ∧ exec (.strmBindOut d a) s = .next s) ∧
    (∀ r : XReg, ∃ u, exec (.strmStatus r d) s = .next u ∧ s.OnlyContext u k ∧ u.vec k = v.complete e ∧
      (∀ y, (u.front k).xr y = if y = r ∧ y ≠ 0 then BitVec.ofNat 64 (status (v.stream d)) else f.xr y) ∧
      (∀ y, (u.front k).isPend y = (f.isPend y && decide (y ≠ r))) ∧
      { u.front k with x := f.x, bad := f.bad, pend := f.pend } = f) ∧
    (∀ (a : XReg) (x : Stream), v.stream d = some x → sound x →
      let n := e.ops.getD 0 0
      ∃ y, exec (.strmSkip d a) s = .next (s.setVec k ((v.setStream d (some y)).complete e)) ∧ y.idx = x.idx + n ∧
        (x.out = true → { y with idx := x.idx } = x) ∧
        (x.out = false → y.buf = x.buf.filter (fun z => decide (x.idx.toNat + n.toNat ≤ z.n)) ∧
          (∀ z, y.fault = some z ↔ x.fault = some z ∧ x.idx.toNat + n.toNat ≤ z.n) ∧
          { y with idx := x.idx, buf := x.buf, fault := x.fault } = x)) ∧
    (∀ (a : XReg) (r : VReg) (m : MReg) (x : Stream) (z : StreamFault), v.stream d = some x → x.out = true → x.fault = some z →
      x.told = false → s.HandlerOk k → s.mayTrap k e = true → (∀ y ∈ v.infl, y.flags &&& v.ftrap = 0) →
      ∀ i ∈ [Instr.strmFree d, .strmSkip d a, .strmBind d r, .strmBindOut d r, .vopMv r (.strm d) m], ∃ u, exec i s = .next u ∧
        TrapTaken s u k true e.addr { code := z.code, write := true, tval := z.va } ∧
        (u.vec k).stream d = some { x with told := true } ∧ (u.vec k).vstart = e.pix) ∧
    ∀ (r : VReg) (m : MReg) (x : Stream), v.stream d = some x → x.out = true → sound x →
      let q := Kinds.of v e false hi m
      let w := e.vtype.sew
      let act := (List.range q.vl).filter q.active
      let ends (n : Nat) : Prop := q.start < n ∧ n ≤ q.hi ∧ (n = q.hi ∨ n % perReg q.lanes w = 0)
      let room (n : Nat) : Prop := (x.buf.length + (act.filter (· < n)).length) * (w / 8) ≤ 4096
      q.start < q.vl →
      (∀ n, ends n → room n → (∀ j, n < j → ends j → ¬ room j) → exec (.vopMv r (.strm d) m) s = .next (s.setVec k
        ((v.setStream d (some { x with
          buf := x.buf ++ (act.filter (· < n)).map fun j =>
            ⟨x.idx.toNat + (j - q.start), v.elem q.lanes w r j % 2 ^ codeBits (v.tagOf r) w, x.gen⟩
          idx := x.idx + BitVec.ofNat 64 (n - q.start) })).after e (decide (q.vl ≤ n)) n e.flags))) ∧
      ((∀ n, ends n → ¬ room n) → exec (.vopMv r (.strm d) m) s = .next s)) ∧
  ∀ (s : State) (k : Nat) (j : SReg) (x : Stream), (s.vec k).stream j = some x → x.fault = none → s.streamReady k x = true →
    let becomes (i : Instr) (t : State) (y : Stream) : Prop := ∃ u, exec i s = .next u ∧ (u.vec k).stream j = some y ∧
      (∀ n, n ≠ j → (u.vec k).stream n = (s.vec k).stream n) ∧ { u.vec k with s := (s.vec k).s } = s.vec k ∧
      (∀ n, n ≠ k → u.vec n = s.vec n) ∧ { u with vecs := t.vecs, arrived := t.arrived, touches := t.touches } = t
    (x.out = false → (s.front k).stopped = false → (x.buf.length + 1) * x.size ≤ 4096 →
      let n := x.idx.toNat + x.buf.length
      let gets (bits : Nat) (g : BitVec 2) : Prop :=
        becomes (.streamFetch k j) s { x with buf := x.buf ++ [⟨n, bits, g⟩], gen := s.newest x.gen g }
      (x.addr n = none → gets 0 s.oldestGen) ∧
      ∀ va, x.addr n = some va →
        (∀ pa, s.check k true x.aspace x.sup .load va x.size = .ok (pa, false) → isDomain pa = false → s.uecc pa x.size = false →
          gets (s.readLE pa x.size) (s.genRange pa x.size)) ∧
        (∀ pa bs, s.checkVa k true x.aspace x.sup .load va x.size = .ok (pa, false) → isDomain pa = true → deviceOf pa ≠ s.flash.deviceId →
          s.arrivedFor (.stream k j.toNat) pa x.size = some (.data bs) → gets (ofBytesLE bs) s.live) ∧
        ∀ c, s.findStream k j x .load va = .fault c → becomes (.streamFetch k j) s { x with fault := some ⟨n, c, va⟩, told := false }) ∧
    ∀ y l, x.out = true → x.buf = y :: l →
      (x.addr y.n = none → becomes (.streamWriteback k j) s { x with buf := l }) ∧
      ∀ va, x.addr y.n = some va →
        (∀ pa, s.findStream k j x .store va = .at_ pa →
          let bytes := bytesLE x.size y.bits
          (isDomain pa = true → becomes (.streamWriteback k j) (s.send (deviceOf pa) (.write pa bytes) (.entry k j.toNat)) { x with buf := l }) ∧
          ∀ t, isDomain pa = false → s.write none x.gen pa bytes = some t → becomes (.streamWriteback k j) t { x with buf := l }) ∧
        ∀ c, s.findStream k j x .store va = .fault c → becomes (.streamWriteback k j) s
          (if (s.front k).fatal then { x with buf := [] } else { x with fault := some ⟨y.n, c, va⟩, told := false })

/-- Scale registers (R210, R211): `scl.ld` loads x(B) bytes at x(A) into the registers from SCALEBASE on, modulo 256, and
`scl.st` stores them; more than 256 traps ILLFLD before any effect. `scl.tov` writes them as unsigned bytes to a group, and
`scl.fromv` takes a group's bytes, at most 256. That SCALEBASE is read when they execute is log 28's reading, and that byte writes
heal a code unit together log 58's choice. -/
def Obligations.ScaleRegisters : Prop :=
  ∀ (s : State) (k p hi : Nat) (e : Entry) (a b : XReg) (d : VReg), s.Moves k p hi e → e.fpx = none → (s.vec k).bad = [] →
    let v := s.vec k
    let reg (j : Nat) : Nat := (v.scalebase.toNat + j) % 256
    let n := (e.ops.getD 1 0).toNat
    let va (j : Nat) : W64 := e.ops.getD 0 0 + BitVec.ofNat 64 j
    let taken (u : State) (count : Nat) (f : Nat → Byte) : Prop :=
      (∀ j, j < count → (u.vec k).e.getD (reg j) 0 = f j) ∧
      ∀ x, x < 256 → (∀ j, j < count → reg j ≠ x) → (u.vec k).e.getD x 0 = v.e.getD x 0
    (∀ code : Nat → Nat, n ≤ 256 → (∀ spots, s.vecHeld k e 15 spots = false) →
      (∀ j, j < n → ElemLoads s k false 1 (some (va j)) (code j)) →
      ∃ u, exec (.sclLd a b) s = .next u ∧ VecMemMoves s u k true ∧ v.Ended (u.vec k) e ∧
        taken u n fun j => BitVec.ofNat 8 (code j)) ∧
    (∀ pa : Nat → Nat, n ≤ 256 → (∀ spots, s.vecHeld k e 15 spots = false) →
      (∀ j, j < n → s.findElem k false .store (va j) 1 = .at_ (pa j)) →
      let x := (List.range n).foldl (fun (x : State × List Nat) j =>
        let y := x.1.storeVec k e 15 (va j) (pa j) [v.e.getD (reg j) 0]
        (y.1, if y.2 then x.2 ++ [j] else x.2)) (s, [])
      let t := x.1.healWhole (s.front k).curgen fun b => x.2.any fun j => !isDomain (pa j) && decide (pa j = b)
      ∃ u, exec (.sclSt a b) s = .next u ∧ { u.vec k with s := v.s } = v.complete e ∧
        ((u.vec k).s.map fun o => o.map fun x => { x with gen := 0 }) = (v.s.map fun o => o.map fun x => { x with gen := 0 }) ∧
        (u.threads.map fun x => { x with gen := 0 }) = (s.threads.map fun x => { x with gen := 0 }) ∧
        { u with vecs := t.vecs, threads := t.threads, touches := t.touches } = t ∧ ∀ j, j ≠ k → u.vec j = s.vec j) ∧
    (256 < n → s.HandlerOk k → s.mayTrap k e = true → (∀ y ∈ v.infl, y.flags &&& v.ftrap = 0) →
      ∀ i ∈ [Instr.sclLd a b, .sclSt a b], ∃ u, exec i s = .next u ∧
        TrapTaken s u k true e.addr { code := 2, tval := e.word.zeroExtend 64 } ∧
        (u.vec k).v = v.v ∧ (u.vec k).tag = v.tag ∧ (u.vec k).m = v.m ∧ (u.vec k).e = v.e ∧ u.mem = s.mem) ∧
    (e.vtype.sew = 8 → groupOk e.vtype (d, .one) = true →
      s.WritesGroup k e (.sclTov d) (Kinds.of v e true hi 0) none d 8 .uint8 (fun j => some (v.e.getD (reg j) 0).toNat) (fun _ => 0)) ∧
    (e.vtype.sew = 8 → (v.tagOf d).width = 8 → ∃ u, exec (.sclFromv d) s = .next u ∧ s.OnlyVec u k ∧
      { u.vec k with e := v.e } = v.complete e ∧
      taken u (min e.vl.toNat 256) fun j => BitVec.ofNat 8 (v.elem v.lanes 8 d j))

/-! ## Engine threads -/

/-- The error completion value (R214). -/
def completionError (code off : Nat) : W64 := BitVec.ofNat 64 (2 ^ 63 + code * 2 ^ 56 + off % 2 ^ 40)

/-- A command forks an engine thread (R213, R215): the thread stands last, its token register, if it has one,
waits, and the front goes on. -/
def ForksTo (s t : State) (a : Nat) (d : Option XReg) (kind : ThreadKind) (cls : Cls) : Prop :=
  let f := s.front a
  { t with fronts := s.fronts, threads := s.threads, threadSeq := s.threadSeq } = s ∧
    t.threads = s.threads ++ [{
      id := s.threadSeq, agent := a, po := f.po, kind := kind, cls := cls, aspace := f.aspace, sup := f.sup, gen := f.curgen,
      started := false, sent := none, pos := 0, err := none }] ∧
    t.threadSeq = s.threadSeq + 1 ∧ (∀ b, b ≠ a → t.front b = s.front b) ∧
    (∀ r, (t.front a).isPend r = (f.isPend r || (decide (d = some r) && decide (r ≠ 0)))) ∧
    { t.front a with pend := f.pend, pc := f.pc, po := f.po, instret := f.instret } = f ∧ (t.front a).pc = f.pc + 4 ∧
    (t.front a).po = f.po + 1 ∧ (t.front a).instret = f.instret + 1

/-- An instruction forks an engine thread. -/
def Forks (s : State) (a : Nat) (i : Instr) (d : Option XReg) (kind : ThreadKind) (cls : Cls) : Prop :=
  ∃ t, exec i s = .next t ∧ ForksTo s t a d kind cls

/-- Commands of engine threads at the front (R213 to R217, R222): a size of 0 completes at once with 0, one of 2^40 or more with
error 7 and an overlap with error 6; otherwise the command forks a thread when every range checker it enters has room. `mat.wld`
traps ILLFLD on a bad control word and MISALIGN on a bad source, and forks. -/
def Obligations.EngineCommands : Prop :=
  ∀ (s : State) (g : Nat) (d a b : XReg) (cls : Cls),
    let f := s.front g
    let npc := f.pc + 4
    let command (i : Instr) (reads : List XReg) (kind : ThreadKind) : Prop := s.Issues g reads [d] →
      let n := copySize kind
      (n = 0 → s.Computes g i d 0 npc) ∧
      (2 ^ 40 ≤ n → s.Computes g i d (completionError 7 0) npc) ∧
      (0 < n → n < 2 ^ 40 → copyOverlaps kind = true → s.Computes g i d (completionError 6 0) npc) ∧
      (0 < n → n < 2 ^ 40 → copyOverlaps kind = false →
        if s.threadRoom (s.newThread g kind cls) then Forks s g i (some d) kind cls else exec i s = .next s)
    command (.copyCopy d a b cls) [d, a, b] (.copy d (f.xr a) (f.xr b) (f.xr d).toNat) ∧
    command (.copyCopy2d d a b cls) [d, a, a + 1, b, b + 1]
      (.copy2d d (f.xr a) (f.xr b) (f.xr (a + 1)) (f.xr (b + 1)) ((f.xr d).toNat / 2 ^ 32) ((f.xr d).toNat % 2 ^ 32)) ∧
    command (.copyFill d a b cls) [d, a, b] (.fill d (f.xr a) (f.xr d).toNat (f.xr b)) ∧
    ∀ ws : BitVec 4, s.Issues g [a, d] [d] →
      let w := f.xr d
      let kind : ThreadKind := .wld d (f.xr a) ws (w.extractLsb' 8 2) (w.extractLsb' 5 2) (w.extractLsb' 0 5)
      (controlOk w = true → (f.xr a).toNat % 64 = 0 →
        if s.threadRoom (s.newThread g kind 15) then Forks s g (.matWld d a ws) (some d) kind 15 else exec (.matWld d a ws) s = .next s) ∧
      (controlOk w = false → s.vecBusy g = false → s.HandlerOk g →
        s.Traps g (.matWld d a ws) { code := 2, tval := ((encode (.matWld d a ws)).getD 0).zeroExtend 64 }) ∧
      (controlOk w = true → (f.xr a).toNat % 64 ≠ 0 → s.vecBusy g = false → s.HandlerOk g →
        s.Traps g (.matWld d a ws) { code := 6, tval := f.xr a })

/-- A thread has ended: no thread of its number is left, and its completion value waits for a read of its token register
(R214, R215); no other front changes but for the event bits of monitors. -/
structure ThreadEnded (s u : State) (t : Thread) (d : XReg) (v : W64) : Prop where
  gone : ∀ x ∈ u.threads, x.id ≠ t.id
  token : if d = 0 then (u.front t.agent).tokens = (s.front t.agent).tokens
    else ∃ g, (u.front t.agent).tokens = ⟨d, v, g⟩ :: (s.front t.agent).tokens
  front : { u.front t.agent with tokens := (s.front t.agent).tokens, monEvent := (s.front t.agent).monEvent } = s.front t.agent
  others : ∀ b, b ≠ t.agent → { u.front b with monEvent := (s.front b).monEvent } = s.front b

/-- Engine threads run (R213 to R216, R223, R224, R255): a thread starts when no older access, command or stream holds it; a copy
or fill moves its bytes in order, as far as a move takes it, reading each source byte, and completes with their number; at the
lowest byte that fails it completes with that byte's offset and code; a weight load writes its part of the set and completes with
its size, or fails and leaves the set invalid. The completion value reaches the token register when an instruction reads it, and
the agent then has a generation no older than the thread's (R280). That the value waits for a read, where R214 writes x(D) at the end,
is log 22's choice, and the steps in which the engine goes on are log 42's. -/
def Obligations.EngineThreads : Prop :=
  (∀ (s : State) (id : Nat) (t : Thread), s.thread id = some t →
    let held := s.forkHeld t.agent t.po t.cls = true ∨ ∃ g ∈ t.checkers, s.checkerBusy g t.id t.ranges = true
    let c := clusterOf t.agent
    let n := copySize t.kind
    let starts (x : State) : Prop := exec (.engineThreadStart id) s = .next { x with
      threads := x.threads.map fun y => if y.id = id then { t with started := true } else y }
    (held → exec (.engineThreadStart id) s = .next s) ∧
    (t.started = false → ¬ held → copyToken t.kind ≠ none → starts s) ∧
    (∀ (d : XReg) (src : W64) (ws : BitVec 4) (part sp : BitVec 2) (btag : BitVec 5), t.kind = .wld d src ws part sp btag →
      let w := (s.cluster c).weights ws
      let fails (i : Instr) (code off : Nat) : Prop := ∃ u, exec i s = .next u ∧ ThreadEnded s u t d (completionError code off) ∧
        ((u.cluster c).weights ws).state = .invalid ∧ u.mem = s.mem
      (t.started = false → ¬ held → wldHeld s t ws = false →
        (partFits w part sp btag = true → starts (s.setWeights c ws { w with state := .loading })) ∧
        (partFits w part sp btag = false → fails (.engineThreadStart id) 8 0)) ∧
      (t.started = true →
        let l := s.lineProbes t src (wldBytes part sp)
        ((∀ p ∈ l, ∃ pa, p.found = .at_ pa) →
          (∀ w', writePart w part sp btag (l.flatMap s.lineBytes) = some w' → ∃ u, exec (.wldComplete id) s = .next u ∧
            ThreadEnded s u t d (BitVec.ofNat 64 (wldBytes part sp)) ∧ (u.cluster c).weights ws = w' ∧ u.mem = s.mem) ∧
          (writePart w part sp btag (l.flatMap s.lineBytes) = none → fails (.wldComplete id) 8 0)) ∧
        ∀ p code, firstFault l = some (p, code) → fails (.wldComplete id) (threadCode code) (s.failOffset t p))) ∧
    ∀ d, copyToken t.kind = some d → t.started = true → t.err = none → t.pos < n →
      (∀ q ∈ s.requests, q.readBy (.written id) = false) → (∀ q ∈ s.arrived, q.owner ≠ .written id) →
      (∀ x ∈ s.stuck, x.by_ ≠ .thread id) →
      (∀ (src dst : Nat → Nat), t.gen = s.live →
        (∀ j va, j < n → (copyByte t.kind j).src = some va →
          s.check t.agent true t.aspace t.sup .load va 1 = .ok (src j, false) ∧ isDomain (src j) = false ∧ s.uecc (src j) 1 = false) →
        (∀ j va, j < n → (copyByte t.kind j).dst = some va →
          s.check t.agent true t.aspace t.sup .store va 1 = .ok (dst j, false) ∧ isDomain (dst j) = false) →
        (∀ i j, i < n → j < n → (copyByte t.kind i).src ≠ none → (copyByte t.kind j).dst ≠ none → src i ≠ dst j) →
        let val (j : Nat) : Byte := if (copyByte t.kind j).src = none then (copyByte t.kind j).fill else s.readByte (src j)
        let written (hi : Nat) : List Nat := (List.range hi).filter fun j => decide (t.pos ≤ j) && (copyByte t.kind j).dst.isSome
        let moves (hi : Nat) (r : State) : Prop :=
          ∀ u, (written hi).foldl (fun (o : Option State) j => o.bind fun x => x.write none x.live (dst j) [val j]) (some s) = some u →
            r.mem = u.mem ∧
            (s.MemOk → s.KeysOk → (∀ j, j ∈ written hi → dst j < 2 ^ 44 ∨ spBase ≤ dst j) →
              (∀ i j, i ∈ written hi → j ∈ written hi → dst i = dst j → i = j) →
              (∀ j, j ∈ written hi → r.readByte (dst j) = val j) ∧
              ∀ p, (p < 2 ^ 44 ∨ spBase ≤ p) → (∀ j, j ∈ written hi → dst j ≠ p) → r.readByte p = s.readByte p)
        s.occupied = [] →
        (∀ m, 0 < m → moves (min n (t.pos + m)) (s.moveThread id m) ∧
          (s.moveThread id m).thread id = some { t with pos := min n (t.pos + m) }) ∧
        ∃ r, exec (.copyComplete id) s = .next r ∧ ThreadEnded s r t d (BitVec.ofNat 64 n) ∧ moves n r) ∧
      ∀ (j code : Nat), s.occupied = [] → t.pos ≤ j → j < n → s.byteFound t (copyByte t.kind j) = .fail code →
        (∀ i, t.pos ≤ i → i < j → ∃ x v y, s.byteFound t (copyByte t.kind i) = .move x v y) →
        (∀ i x v y, t.pos ≤ i → i < n → s.byteFound t (copyByte t.kind i) = .move x v (some y) → isDomain y = false) →
        ∃ r, exec (.copyComplete id) s = .next r ∧ ThreadEnded s r t d (completionError code j)) ∧
  ∀ (s : State) (a : Nat) (defer : Bool) (d x y : XReg) (v : W64) (g : BitVec 2), s.actor = .front a defer →
    (s.front a).tokens = [⟨x, v, g⟩] → x ≠ 0 → (s.front a).isPend x = true →
    ∃ u, exec (.sopAdd d x y) s = .next u ∧ s.OnlyFront u a ∧ (u.front a).tokens = [] ∧ s.newer g (u.front a).curgen = false ∧
      (∀ r, (u.front a).xr r = if r = x then v else (s.front a).xr r) ∧
      (∀ r, (u.front a).isPend r = ((s.front a).isPend r && decide (r ≠ x))) ∧
      { u.front a with
        x := (s.front a).x, bad := (s.front a).bad, pend := (s.front a).pend, tokens := (s.front a).tokens,
        curgen := (s.front a).curgen } = s.front a

/-! ## The matrix array -/

/-- An array instruction at a drone's front (R218, R219, R228, R232, R235): with room among the eight entries of the queue, of which a
started MMA keeps its own, it enters at the end with its word, address and operand, and otherwise waits; `mat.anchor` above 508 traps ILLFLD, and the register of
`mat.bel` waits for its value. -/
def ArrayEntry : Prop :=
  ∀ (s : State) (g : Nat) (i : Instr) (reads : List XReg) (dest : Option XReg) (op : W64), isDrone g = true →
    ((∃ fd ac ws sp last first, i = .matMma fd ac ws sp last first) ∧ reads = [] ∧ dest = none ∧ op = 0 ∨
      (∃ ac a, i = .matAnchor ac a ∧ reads = [a] ∧ op = (s.front g).xr a) ∧ dest = none ∨
      (∃ d clr, i = .matBel d clr ∧ dest = some d) ∧ reads = [] ∧ op = 0) →
    WellFormed i = true → s.Issues g reads dest.toList →
    let c := clusterOf g
    let q := s.cluster c
    let f := s.front g
    let used := q.queue.length + (if q.mma.isSome then 1 else 0)
    (op.toNat ≤ 508 → used < 8 → ∃ t, exec i s = .next t ∧
      { t with fronts := s.fronts, clusters := s.clusters } = s ∧ (∀ b, b ≠ g → t.front b = s.front b) ∧
      (∀ x, x ≠ c → t.cluster x = s.cluster x) ∧
      (∃ e, t.cluster c = { q with queue := q.queue ++ [e] } ∧ decodeWord e.word = .ok i ∧ e.addr = f.pc ∧ e.op = op ∧ e.po = f.po) ∧
      (∀ r, (t.front g).isPend r = (f.isPend r || (decide (dest = some r) && decide (r ≠ 0)))) ∧
      { t.front g with pend := f.pend, pc := f.pc, po := f.po } = f ∧ (t.front g).pc = f.pc + 4 ∧ (t.front g).po = f.po + 1) ∧
    (op.toNat ≤ 508 → 8 ≤ used → exec i s = .next s) ∧
    (508 < op.toNat → s.HandlerOk g → s.Traps g i { code := 2, tval := ((encode i).getD 0).zeroExtend 64 })

/-- Words that a front puts into a queue: a vector word into the VIQ of its context, an array word into the array queue (R218, R219,
R228, R232, R235, R246, R247). -/
def Obligations.QueueEntries : Prop := VectorEntry ∧ ArrayEntry

/-- The array runs the head of its queue (R228 to R235, R241, R377): `mat.anchor` sets the tile's ANCHOR; `mat.bel` delivers BELSTAT
once no multiplication runs, and clears FULL with CLR; an MMA whose slots are full, whose tile has no ready quarter and whose types
agree starts, adopting the generations of its slots and tile, and with FIRST or a closed tile from zero cells; one that may not start
waits, and types that do not agree, or an unreadable slot or weight set, trap before any effect. Row by row it adds each pass to each
cell; where the bellows has no entry for a cell it stalls, or traps BELFULL with the tile as it was; at its completion its slots are
empty, and with LAST every quarter is ready. -/
def Obligations.ArrayInstructions : Prop :=
  ∀ (s : State) (c : Nat),
    let q := s.cluster c
    let g := droneOf c
    let f := s.front g
    let tile (ac : BitVec 1) : Tile := q.ac.getD ac.toNat Tile.reset
    (∀ (e : QEntry) (l : List QEntry), s.actor = .array c → q.queue = e :: l → f.held = false →
      (∀ ac a, exec (.matAnchor ac a) s = .next ((s.setCluster c { q with
        queue := l, ac := q.ac.setIfInBounds ac.toNat { tile ac with anchor := e.op.extractLsb' 0 9 } }).setFront g
          { f with instret := f.instret + 1 })) ∧
      ∀ d clr, (q.mma ≠ none → exec (.matBel d clr) s = .next s) ∧
        (q.mma = none → exec (.matBel d clr) s = .next ((s.setCluster c { q with queue := l, belfull := q.belfull && !clr }).setFront g
          { f.deliver d q.belstat with instret := f.instret + 1 }))) ∧
    (∀ (e : QEntry) (l : List QEntry) (i : Instr) (fd : BitVec 2) (ac : BitVec 1) (ws : BitVec 4) (sp : BitVec 2) (last first : Bool),
      q.queue = e :: l → f.held = false → decodeWord e.word = .ok (.matMma fd ac ws sp last first) →
      (i = .matMma fd ac ws sp last first ∧ s.actor = .array c ∨ i = .mmaStart c ∧ s.arrayMayStart c = true) →
      let slots := (mmaSlots fd sp).map fun j => q.fd.getD j Slot.reset
      let w := q.weights ws
      let code := (slots.headD Slot.reset).code
      let x := tile ac
      let frac := slotFrac code + btagFrac w.btag
      let agree := (∀ y ∈ slots, y.code = code) ∧ w.state = .valid ∧ w.sp = sp ∧ (x.opened = true → first = false → x.f = frac)
      let waits := mmaWaits s c e fd ac ws sp
      let lost := s.peerFatal g && q.mma.isNone && mmaPresence q fd ac sp
      let errors := mmaErrors (s.locators c) ws (mmaSlots fd sp)
      let traps (y : Trap) : Prop := s.HandlerOk g → ∃ t, exec i s = .next t ∧ TrapTaken s t g true e.addr y ∧ t.cluster c = q ∧
        (t.front g).held = true
      (waits = true → lost = false → exec i s = .next s) ∧ (waits = true → lost = true → traps { code := 11 }) ∧
      (waits = false → ¬ agree → traps { code := 3, tval := e.word.zeroExtend 64 }) ∧
      (waits = false → agree → ∀ y z, errors = y :: z → traps { code := 10, tval := y }) ∧
      (waits = false → agree → errors = [] → ∃ t o, exec i s = .next t ∧
        { t with fronts := s.fronts, clusters := s.clusters } = s ∧ (∀ b, b ≠ g → t.front b = s.front b) ∧
        { t.front g with curgen := f.curgen } = f ∧ (∀ y ∈ slots, s.newer y.gen (t.front g).curgen = false) ∧
        s.newer x.gen (t.front g).curgen = false ∧ (∀ d, d ≠ c → t.cluster d = s.cluster d) ∧
        t.cluster c = { q with ac := q.ac.setIfInBounds ac.toNat o, mma := some ⟨e, 0, x⟩, queue := l } ∧
        o.gen = (t.front g).curgen ∧
        (first = true ∨ x.opened = false → o = { x with cells := [], anc := x.anchor, f := frac, opened := true, gen := o.gen }) ∧
        (first = false → x.opened = true → o = { x with gen := o.gen }))) ∧
    (∀ (r : MmaRun) (fd : BitVec 2) (ac : BitVec 1) (ws : BitVec 4) (sp : BitVec 2) (last first : Bool), q.mma = some r →
      decodeWord r.entry.word = .ok (.matMma fd ac ws sp last first) → ac.toNat < 2 →
      let slots := (mmaSlots fd sp).map fun j => q.fd.getD j Slot.reset
      let x := tile ac
      let room := 4096 - (q.ac.getD (1 - ac.toNat) Tile.reset).bel
      let ls := if first || !r.held.opened then [] else s.locators c
      let p := runRow (q.weights ws) slots x.anc room (fun key => (bellowsError ls ac.toNat key).isSome) r.pos ⟨x.cells, x.bel, false, none⟩
      let t := s.mmaMove c
      let y := t.cluster c
      let row := r.pos / 4096
      (r.pos < 131072 →
        (p.stop = none → s.OnlyCluster t c ∧ y.mma = some { r with pos := 4096 * (row + 1) } ∧ y.stalled = false ∧
          (∀ z : BitVec 1, z ≠ ac → y.ac.getD z.toNat Tile.reset = tile z) ∧
          { y.ac.getD ac.toNat Tile.reset with cells := x.cells } = x ∧
          (∀ z, z < 131072 → Store.get TileCell.zero (y.ac.getD ac.toNat Tile.reset).cells z =
            let old := Store.get TileCell.zero x.cells z
            if r.pos ≤ z ∧ z < 4096 * (row + 1) then old.add (passCell (q.weights ws) slots x.anc row (z % 4096)) else old) ∧
          y.kvc = ((s.countCluster c 0x28 (slotPlanes (slots.headD Slot.reset).code)).cluster c).kvc ∧
          { y with ac := q.ac, mma := q.mma, stalled := q.stalled, belfull := q.belfull, kvc := q.kvc } = q) ∧
        (∀ key, p.stop = some (.full key) → q.mayStall ac.toNat = true →
          s.OnlyCluster t c ∧ y.mma = some { r with pos := key } ∧ y.stalled = true ∧ y.belfull = true) ∧
        ∀ key, p.stop = some (.full key) → q.mayStall ac.toNat = false → s.HandlerOk g →
          TrapTaken s t g true r.entry.addr { code := 12, tval := BitVec.ofNat 64 ac.toNat } ∧ y.mma = none ∧
            y.queue = r.entry :: q.queue ∧ y.stalled = false ∧ y.belfull = true ∧ y.ac.getD ac.toNat Tile.reset = r.held) ∧
      (131072 ≤ r.pos → ∃ t, exec (.mmaComplete c) s = .next t ∧ (t.cluster c).mma = none ∧
        (∀ j, j < 4 → (t.cluster c).fd.getD j Slot.reset =
          if j ∈ mmaSlots fd sp then { Slot.reset with gen := f.curgen } else q.fd.getD j Slot.reset) ∧
        (t.cluster c).ac.getD ac.toNat Tile.reset = (if last then { x with ready := 15 } else x) ∧
        (∀ z : BitVec 1, z ≠ ac → (t.cluster c).ac.getD z.toNat Tile.reset = tile z) ∧
        { t.cluster c with mma := q.mma, fd := q.fd, ac := q.ac } = q ∧ t.front g = { f with instret := f.instret + 1 } ∧
        { t with fronts := s.fronts, clusters := s.clusters, arrUncor := s.arrUncor } = s) ∧
      (r.pos < 131072 → exec (.mmaComplete c) s = .next s)) ∧
    (q.mma = none → exec (.mmaComplete c) s = .next s) ∧
    (q.stalled = true → exec (.bellowsStallResume c) s = .next (s.mmaMove c)) ∧
    (q.stalled = false → exec (.bellowsStallResume c) s = .next s)

/-- Feeding and draining (R225 to R227, R236 to R238), in a move: `mat.feed` writes elements of a group into a row of an empty slot
from KOFF on, below 256; `mat.feed.end` sets it full with its type code and scales; `mat.drain` converts the cells of the core's
quarter from COFF on; `mat.drain.end` zeroes the quarter and sets it empty, and the last quarter closes the tile. A feed of a full
slot and a drain of a quarter that is not ready wait. `mat.slot` delivers the presence bits. -/
def Obligations.FeedAndDrain : Prop :=
  ∀ (s : State) (k p hi : Nat) (e : Entry) (fd : BitVec 2) (ac : BitVec 1) (d : VReg) (a b : XReg), s.Moves k p hi e →
    e.fpx = none → (s.vec k).bad = [] →
    let v := s.vec k
    let vt := e.vtype
    let c := clusterOf k
    let q := s.cluster c
    let slot := q.fd.getD fd.toNat Slot.reset
    let x := q.ac.getD ac.toNat Tile.reset
    let core := coreOf k % 4
    let w := e.ops.getD 0 0
    let row := (w.extractLsb' 0 5).toNat
    let kinds := Kinds.of v e false hi 0
    let settled (r t : State) (u : Vec) : Prop := t.vec k = u ∧ { t.front k with curgen := (s.front k).curgen } = s.front k ∧
      (∀ j, j ≠ k → t.vec j = s.vec j ∧ t.front j = s.front j) ∧ (∀ j, j ≠ c → t.cluster j = s.cluster j) ∧
      { t with fronts := s.fronts, vecs := s.vecs, clusters := s.clusters, arrUncor := s.arrUncor } = r
    (vt.sew = 8 → (v.tagOf d).width = 8 → feedWordOk w = true → slot.full = false → slot.elems.wf = true →
      let koff := (w.extractLsb' 16 8).toNat
      ∃ t y, exec (.matFeed fd d b) s = .next t ∧
        settled s t (if kinds.vl ≤ kinds.hi then v.complete e else v.progress e kinds.hi) ∧
        (t.cluster c).fd.getD fd.toNat Slot.reset = y ∧
        y.gen = (t.front k).curgen ∧ { y with elems := slot.elems, gen := slot.gen } = slot ∧
        (∀ p, y.elems.read p = if 256 * row + koff ≤ p ∧ p < 256 * row + 256 ∧ kinds.start ≤ p - (256 * row + koff) ∧
          p - (256 * row + koff) < kinds.hi then BitVec.ofNat 8 (v.elem v.lanes 8 d (p - (256 * row + koff))) else slot.elems.read p) ∧
        { t.cluster c with fd := q.fd } = q ∧ ∀ j, j ≠ fd.toNat → (t.cluster c).fd.getD j Slot.reset = q.fd.getD j Slot.reset) ∧
    (∀ code : BitVec 5, slotTypeOk code = true → slot.full = false → ∃ t y, exec (.matFeedEnd fd code) s = .next t ∧
      settled s t (v.complete e) ∧
      (t.cluster c).fd.getD fd.toNat Slot.reset = y ∧ y.full = true ∧ y.code = code ∧ y.elems = slot.elems ∧
      (∀ j, j < 8 → y.scales.getD j 127 = if slotScaled code then v.scale vt (32 * j) else 127) ∧
      { t.cluster c with fd := q.fd } = q ∧ ∀ j, j ≠ fd.toNat → (t.cluster c).fd.getD j Slot.reset = q.fd.getD j Slot.reset) ∧
    (s.peerFatal k = false →
      (slot.full = true → vt.sew = 8 → (v.tagOf d).width = 8 → feedWordOk w = true → exec (.matFeed fd d b) s = .next s) ∧
      (slot.full = true → ∀ code : BitVec 5, slotTypeOk code = true → exec (.matFeedEnd fd code) s = .next s) ∧
      (x.ready.getLsbD core = false → drainWordOk w = true → drainTagOk (v.tagOf d) = true → (v.tagOf d).width = vt.sew →
        exec (.matDrain d a ac) s = .next s) ∧
      (x.ready.getLsbD core = false → exec (.matDrainEnd ac) s = .next s)) ∧
    (drainWordOk w = true → drainTagOk (v.tagOf d) = true → (v.tagOf d).width = vt.sew → x.ready.getLsbD core = true →
      s.locators c = [] → groupOk vt (d, .one) = true →
      let el (j : Nat) := drainElement vt (v.tagOf d) x row core (w.extractLsb' 16 10).toNat j
      kinds.quiet v e (fun j => (el j).2) →
      ∃ t, exec (.matDrain d a ac) s = .next t ∧
        if kinds.start < kinds.vl then
          VecMoves (s.adopt k x.gen) t k kinds.ends none 0 ∧
          GroupWritten v (t.vec k) kinds d vt.sew (v.tagOf d) (fun j => some (el j).1) ∧
            FlagsRouted v (t.vec k) e kinds (fun j => (el j).2) v.maskBit
        else VecMoves s t k true none 0 ∧ v.Ended (t.vec k) e) ∧
    (x.ready.getLsbD core = true → ∃ t y, exec (.matDrainEnd ac) s = .next t ∧
      settled s t (v.complete e) ∧ (t.cluster c).ac.getD ac.toNat Tile.reset = y ∧
      (∀ z : BitVec 1, z ≠ ac → (t.cluster c).ac.getD z.toNat Tile.reset = q.ac.getD z.toNat Tile.reset) ∧
      (∀ j, j < 4 → y.ready.getLsbD j = (x.ready.getLsbD j && decide (j ≠ core))) ∧
      (y.opened = true ↔ x.opened = true ∧ y.ready ≠ 0) ∧
      (∀ z, Store.get TileCell.zero y.cells z = if z % 4096 / 1024 = core then TileCell.zero else Store.get TileCell.zero x.cells z) ∧
      { y with cells := x.cells, ready := x.ready, opened := x.opened, gen := x.gen } = x ∧
      { t.cluster c with ac := q.ac } = q) ∧
    ∃ t, exec (.matSlot a fd) s = .next t ∧ s.OnlyContext t k ∧ t.vec k = v.complete e ∧
      (∀ r, (t.front k).xr r = if r = a ∧ r ≠ 0 then
          BitVec.ofNat 64 (slot.full.toNat + 2 ^ 8 * (q.ac.getD 0 Tile.reset).ready.toNat + 2 ^ 12 * (q.ac.getD 1 Tile.reset).ready.toNat)
        else (s.front k).xr r) ∧
      (∀ r, (t.front k).isPend r = ((s.front k).isPend r && decide (r ≠ a))) ∧
      { t.front k with x := (s.front k).x, bad := (s.front k).bad, pend := (s.front k).pend } = s.front k

/-- What one pass of an MMA adds (R220 to R222, R229 to R234): the integers of slot bytes and weight cells; the sum T of a cell over its
K-blocks, each scaled and floored by itself; the addition to the cell with its carry into the bellows; and the pass of a row, which
goes on to its end, or stops at the first cell whose merge finds the bellows full or an unreadable entry. -/
def PassSums : Prop :=
  (∀ b : Byte,
    let float (t : Tag) (n : Nat) (o : Option ℤ) : Prop := ∀ f, floatRow t = some f →
      if f.maxCode < b.toNat % 2 ^ (f.eb + f.p) then o = none else ∃ i : ℤ, o = some i ∧ (i : ℚ) = f.rat b.toNat * 2 ^ n
    slotInt 0 b = some b.toInt ∧ slotInt 7 b = some b.toInt ∧ slotInt 15 b = some (b.extractLsb' 0 4).toInt ∧
    slotInt 23 b = some (b.extractLsb' 0 4).toInt ∧ float .e2m1 1 (slotInt 6 b) ∧ float .e2m3 3 (slotInt 5 b) ∧
    float .e3m2 4 (slotInt 4 b) ∧ float .e4m3 9 (slotInt 2 b) ∧
    cellInt 0 b = b.toInt ∧ cellInt 7 b = b.toInt ∧ float .e2m3 3 (some (cellInt 5 b)) ∧ float .e2m1 1 (some (cellInt 6 b))) ∧
  (∀ x ∈ ([(0, 0, 8), (15, 0, 4), (23, 0, 4), (7, 6, 8), (6, 1, 5), (5, 3, 7), (4, 4, 10), (2, 9, 19)] : List (BitVec 5 × Nat × Nat)),
    slotFrac x.1 = x.2.1 ∧ slotPlanes x.1 = x.2.2) ∧
  (∀ x ∈ ([(0, 0), (7, 6), (5, 3), (6, 1)] : List (BitVec 5 × Nat)), btagFrac x.1 = x.2) ∧
  (∀ (w : WeightSet) (slots : List Slot) (anc : BitVec 9) (row n : Nat), w.sp ≠ 3 →
    let blocks := if w.sp = 0 then 8 else if w.sp = 1 then 16 else 32
    let pos (k : Nat) : Nat :=
      if w.sp = 0 then k
      else 8 * (k / (if w.sp = 1 then 4 else 2)) + (Store.get (BitVec.ofNat 3 (k % (if w.sp = 1 then 4 else 2))) w.idx (4096 * k + n)).toNat
    let a (k : Nat) : Option ℤ := slotInt (slots.headD Slot.reset).code
      ((slots.getD (pos k / 256) Slot.reset).elems.read (256 * row + pos k % 256))
    let sum (b : Nat) : ℤ := ∑ k ∈ (Finset.range 256).filter (fun k => pos k / 32 = b),
      (a k).getD 0 * cellInt w.btag (w.cells.read (4096 * k + n))
    let eA (b : Nat) : Byte := ((slots.getD (b / 8) Slot.reset).scales).getD (b % 8) 127
    let eB (b : Nat) : Byte := if w.btag = 0 then 127 else Store.get 127 w.scales (128 * b + n / 32)
    let s (b : Nat) : ℤ := (eA b).toNat + (eB b).toNat - anc.toNat
    let bad (b : Nat) : Prop := eA b = 255 ∨ eB b = 255 ∨ 40 < s b ∨ ∃ k, k < 256 ∧ pos k / 32 = b ∧ a k = none
    let x := passCell w slots anc row n
    (x.2.2 = true ↔ ∃ b, b < blocks ∧ bad b) ∧
    ((∀ b, b < blocks → ¬ bad b) →
      x.1 = ∑ b ∈ Finset.range blocks, ⌊(sum b : ℚ) * 2 ^ s b⌋ ∧
      (x.2.1 = true ↔ ∃ b, b < blocks ∧ ((⌊(sum b : ℚ) * 2 ^ s b⌋ : ℤ) : ℚ) ≠ sum b * 2 ^ s b))) ∧
  (∀ (c : TileCell) (t : ℤ) (lossy bad : Bool),
    let u := c.add (t, lossy, bad)
    (bad = true → u = { c with inv := true }) ∧
    (bad = false → u.v = BitVec.ofInt 28 (c.v.toInt + t) ∧ u.v.toInt + 2 ^ 28 * u.c = c.v.toInt + 2 ^ 28 * c.c + t ∧
      u.x = (c.x || lossy) ∧ u.inv = c.inv)) ∧
  (∀ c : ℤ, (belEntries c : ℤ) = ⌈(|c| : ℚ) / 32767⌉) ∧
  ∀ (w : WeightSet) (slots : List Slot) (anc : BitVec 9) (room : Nat) (unread : Nat → Bool) (pos : Nat) (t : Pass), t.stop = none →
    let m := 4096 - pos % 4096
    let cell (c : Store TileCell) (z : Nat) : TileCell := Store.get TileCell.zero c z
    let old (i : Nat) : TileCell := cell t.cells (pos + i)
    let new (i : Nat) : TileCell := (old i).add (passCell w slots anc ((pos + i) / 4096) ((pos + i) % 4096))
    let need (i : Nat) : ℤ := t.used + ∑ j ∈ Finset.range i, ((belEntries (new j).c : ℤ) - belEntries (old j).c)
    let stuck (i : Nat) : Prop := (new i).c ≠ (old i).c ∧ unread (pos + i) = true
    let p := runRow w slots anc room unread pos t
    let added (i : Nat) : Prop := ∀ z, cell p.cells z = if pos ≤ z ∧ z < pos + i then new (z - pos) else cell t.cells z
    (∀ i, i ≤ m → 0 ≤ need i) → t.used ≤ room →
    ((∀ i, i < m → ¬ stuck i ∧ need (i + 1) ≤ room) → p.stop = none ∧ added m ∧ (p.used : ℤ) = need m) ∧
    (∀ i, i < m → (∀ j, j < i → ¬ stuck j ∧ need (j + 1) ≤ room) →
      (stuck i → p.stop = some (.bad (pos + i)) ∧ added i) ∧
      (¬ stuck i → room < need (i + 1) → p.stop = some (.full (pos + i)) ∧ p.full = true ∧ added i)) ∧
    ∀ i, i < m → (∀ j, j ≤ i → ¬ stuck j ∧ need (j + 1) ≤ room) → need i < room → need (i + 1) = room → p.full = true

/-- What a drain writes for a cell (R52, R54, R237): 0 beyond the quarter; the value V × 2^E converted once, with NX for a cell that has
lost something, and the canonical NaN or 0 with NV for an invalid cell; or half of the layout of R52 in raw form. -/
def DrainedElements : Prop :=
  ∀ (vt : VType) (t : Tag) (x : Tile) (row q coff j : Nat), rmOf vt ≤ 5 → drainTagOk t = true →
    let col := coff + if t = .uint64 then j / 2 else j
    let cell := Store.get TileCell.zero x.cells (4096 * row + 1024 * q + col)
    let V : ℤ := cell.v.toInt + 2 ^ 28 * cell.c
    let E : ℤ := x.anc.toNat - 254 - x.f
    let r := drainElement vt t x row q coff j
    (1023 < col → r = (0, 0)) ∧
    (col ≤ 1023 → -512 ≤ E → -2 ^ 95 ≤ V → V < 2 ^ 95 →
      (t ≠ .uint64 → cell.inv = true → r = (((floatRow t).bind (·.nan)).getD 0, 1)) ∧
      (t ≠ .uint64 → cell.inv = false → ∃ v y, Stands v ((V : ℚ) * 2 ^ E) ∧ r = (y.1, y.2 ||| flagIf (cell.x = true) 16) ∧
        if t.cls = .float then Written vt t v y else GridConverted vt t v y) ∧
      (t = .uint64 →
        let bits : ℤ := if cell.inv then 2 ^ 96 * (E % 2 ^ 10) + 2 ^ 127
          else V % 2 ^ 96 + 2 ^ 96 * (E % 2 ^ 10) + if cell.x then 2 ^ 127 else 0
        ((r.1 : ℤ), r.2) = (bits / 2 ^ (64 * (j % 2)) % 2 ^ 64, flagIf (cell.inv = true) 1)))

/-- What the matrix array adds and what a drain reads of it (R52, R54, R220 to R222, R229 to R237). -/
def Obligations.ArrayValues : Prop := PassSums ∧ DrainedElements

/-! ## Class `fab` and launches -/

/-- A command that has read the 64 bytes at x(A) answers in x(D) (R121, R143, R348): the agent may have adopted their
generation. -/
def Answers (s : State) (a : Nat) (i : Instr) (d : XReg) (v : W64) : Prop :=
  ∃ t, exec i s = .next t ∧ FrontAfterAccess (s.front a) (t.front a) d v ((s.front a).pc + 4) ∧ ReadStep s t a

/-- A command submits a record to a queue of its own device and answers with its status (R301, R304, R305, R347, R348, R399): −1
while the queues are not ready, −2 for a QUEUE other than PRIO or an invalid record, −1 for a full queue; otherwise the
record stands last in its queue with the next sequence number, and the answer is 0. Its after-dependency, if it has one, is read
then, as `LAUNCH_ELIGIBILITY_READ` reads it. -/
def Submits (s : State) (a : Nat) (i : Instr) (d : XReg) (r : LaunchRec) (queue : Nat) : Prop :=
  let ready := s.ready.getLsbD 6 = true
  let good := queue = r.prio ∧ s.recordOk r = true
  let entered : State := { s with
    queues := s.queues.setIfInBounds r.prio (s.queue r.prio ++
      [⟨s.launchSeq, r, if r.aftaddr = 0 then some s.time else none, none, none, decide (r.aftaddr ≠ 0)⟩])
    launchSeq := s.launchSeq + 1 }
  (¬ ready → Answers s a i d (-1)) ∧
  (ready → ¬ good → Answers s a i d (-2)) ∧
  (ready → good → 256 ≤ (s.queue r.prio).length → Answers s a i d (-1)) ∧
  (ready → good → (s.queue r.prio).length < 256 → ∃ t, exec i s = .next t ∧
    FrontAfterAccess (s.front a) (t.front a) d 0 ((s.front a).pc + 4) ∧ t.launchSeq = s.launchSeq + 1 ∧
    (r.aftaddr = 0 → t.queues = entered.queues ∧ ReadStep s { t with queues := s.queues, launchSeq := s.launchSeq } a) ∧
    (r.aftaddr ≠ 0 → exec (.launchEligibilityRead s.launchSeq) entered = .next (entered.eligibilityRead s.launchSeq) ∧
      t.queues = (entered.eligibilityRead s.launchSeq).queues ∧ t.placed = (entered.eligibilityRead s.launchSeq).placed ∧
      t.mem = (entered.eligibilityRead s.launchSeq).mem))

/-- The record at x(A) can be read (R121): its 64 bytes are on this device and readable. -/
def RecordAt (s : State) (a : Nat) (va : W64) (pa : Nat) : Prop :=
  s.checkOwn a .load va 64 = .ok (pa, false) ∧ isDomain pa = false ∧ s.uecc pa 64 = false

/-- The record that eight doublewords of memory hold (R300). -/
def recordOf (s : State) (pa : Nat) : LaunchRec :=
  let w (j : Nat) : W64 := BitVec.ofNat 64 (s.readLE (pa + 8 * j) 8)
  { entry := w 0, dentry := w 1, arg := w 2, cbaddr := w 3, aftaddr := w 4, aftval := w 5, aspace := w 6, ctrl := w 7 }

/-- `sys.launch` and `fab.enq` (R143, R302, R348): a malformed operand or a record that its issuer may not send gives −2; a
record for this device is submitted; one for a device without a route gives −5; any other leaves as a request, and x(D) waits.
`fab.enq` waits first until every older access has performed at domain scope. -/
def Obligations.RecordCommands : Prop :=
  ∀ (s : State) (g : Nat) (d a b : XReg) (cls : Cls) (pa : Nat),
    let f := s.front g
    let x := f.xr b
    let r := recordOf s pa
    let dev := (x.extractLsb' 0 11).toNat
    let queue := (x.extractLsb' 16 3).toNat
    let reserved := x.extractLsb' 11 5 ≠ 0 ∨ x.extractLsb' 19 45 ≠ 0
    (s.Issues g [a] [d] → s.NothingOlder g → RecordAt s g (f.xr a) pa →
      (s.issuerOk g r = false → Answers s g (.sysLaunch d a) d (-2)) ∧
      (s.issuerOk g r = true → Submits s g (.sysLaunch d a) d r r.prio)) ∧
    (s.Issues g [a, b] [d] → RecordAt s g (f.xr a) pa →
      (s.domainBusy g = true →
        s.accBlocked g f.acc ⟨.load 64 false 0, f.po, f.pc, f.xr a, pa, cls, 0, none, false⟩ = false →
        exec (.fabEnq d a b cls) s = .next s) ∧
      (s.domainBusy g = false → s.NothingOlder g →
        (reserved ∨ s.issuerOk g r = false → Answers s g (.fabEnq d a b cls) d (-2)) ∧
        (¬ reserved → s.issuerOk g r = true →
          (dev = s.flash.deviceId → Submits s g (.fabEnq d a b cls) d r queue) ∧
          (dev ≠ s.flash.deviceId → s.routed dev = false → Answers s g (.fabEnq d a b cls) d (-5)) ∧
          (dev ≠ s.flash.deviceId → s.routed dev = true → ∃ t p, exec (.fabEnq d a b cls) s = .next t ∧
            t.requests = s.requests ++ [⟨s.rseq, dev, .enq g d⟩] ∧ t.rseq = s.rseq + 1 ∧ t.packets = s.packets ++ [p] ∧
            p.dst = dev ∧ p.rseq = s.rseq ∧ p.what = .enqueue queue (bytesLE 64 (s.readLE pa 64)) ∧
            (∀ y, (t.front g).xr y = f.xr y) ∧ (∀ y, (t.front g).isPend y = (f.isPend y || (decide (y = d) && decide (y ≠ 0)))) ∧
            (t.front g).pc = f.pc + 4 ∧ (t.front g).instret = f.instret + 1 ∧
            ReadStep s { t with packets := s.packets, portSeq := s.portSeq, requests := s.requests, rseq := s.rseq } g))))

/-- `fab.add96` and `fab.notify` (R52, R53, R349, R350): reserved bits give −2 and a lost route −5, otherwise the add forks a
thread, an address that fails its checks traps, and a closed slice with FENCED; the thread adds V modulo 2^96 and ors X where the exponents agree, in one write, and delivers 0, or −3 where they differ,
−6 beyond memory and −4 at an uncorrectable error, with no effect; on another device it sends the operand. A notify word
without a route is dropped and counted, otherwise a thread carries it, and it is written as it starts. -/
def Obligations.AnchoredAddAndNotify : Prop :=
  (∀ (s : State) (g : Nat) (d a b : XReg) (cls : Cls) (pa : Nat) (io : Bool),
    let f := s.front g
    let hi := f.xr (b + 1)
    let own := isDomain pa = true ∧ deviceOf pa = s.flash.deviceId
    let v : BitVec 128 := hi.extractLsb' 63 1 ++ 0#21 ++ hi.extractLsb' 32 10 ++ hi.extractLsb' 0 32 ++ f.xr b
    let forks (i : Instr) (d : Option XReg) (kind : ThreadKind) : Prop :=
      ∃ t, exec i s = .next t ∧ ForksTo s { t with touches := s.touches } g d kind cls
    let traps (i : Instr) (c : Nat) : Prop := s.vecBusy g = false → s.HandlerOk g →
      s.Traps g i { code := c, write := true, tval := f.xr a }
    (s.Issues g [a, b, b + 1] [d] →
      (hi.extractLsb' 42 21 ≠ 0 → s.Computes g (.fabAdd96 d a b cls) d (-2) (f.pc + 4)) ∧
      (∀ c, hi.extractLsb' 42 21 = 0 → s.checkVa g false f.aspace f.sup .store (f.xr a) 16 = .error c →
        traps (.fabAdd96 d a b cls) c) ∧
      (hi.extractLsb' 42 21 = 0 → s.checkVa g false f.aspace f.sup .store (f.xr a) 16 = .ok (pa, io) →
        (io = true ∨ slotOf pa ≠ 0 → traps (.fabAdd96 d a b cls) 8) ∧
        (io = false → slotOf pa = 0 → (isSp pa && s.fenced g pa) = true → traps (.fabAdd96 d a b cls) 11) ∧
        (io = false → slotOf pa = 0 → (isSp pa && s.fenced g pa) = false →
          (isDomain pa = true → ¬ own → s.routed (deviceOf pa) = false →
            ∃ t, exec (.fabAdd96 d a b cls) s = .next t ∧ ScalarResult s { t with touches := s.touches } g d (-5) (f.pc + 4)) ∧
          (own → forks (.fabAdd96 d a b cls) (some d) (.add96 d (f.xr a) (dataOf pa) v)) ∧
          (¬ own → (isDomain pa = true → s.routed (deviceOf pa) = true) →
            forks (.fabAdd96 d a b cls) (some d) (.add96 d (f.xr a) pa v))))) ∧
    (s.Issues g [a, b] [] →
      (∀ c, s.checkVa g false f.aspace f.sup .store (f.xr a) 8 = .error c → traps (.fabNotify a b cls) c) ∧
      (s.checkVa g false f.aspace f.sup .store (f.xr a) 8 = .ok (pa, true) → traps (.fabNotify a b cls) 8) ∧
      (s.checkVa g false f.aspace f.sup .store (f.xr a) 8 = .ok (pa, false) →
        let lost := isDomain pa = true ∧ pa / 2 ^ 44 % 2 = 0 ∧ ¬ own ∧ s.routed (deviceOf pa) = false
        (lost → ∃ t, exec (.fabNotify a b cls) s = .next t ∧
          ScalarResult (s.countDevice 0x44 1) { t with touches := s.touches } g 0 0 (f.pc + 4)) ∧
        (¬ lost → (∀ c, s.checkOwn g .store (f.xr a) 8 = .error c → traps (.fabNotify a b cls) c) ∧
          ∀ p y, s.checkOwn g .store (f.xr a) 8 = .ok (p, y) → forks (.fabNotify a b cls) none (.notify (f.xr a) p (f.xr b)))))) ∧
  ∀ (s : State) (id : Nat) (t : Thread), s.thread id = some t →
    (∀ d va pa v, t.kind = .add96 d va pa v → t.started = true → t.sent = none →
      let old := BitVec.ofNat 128 (s.readLE pa 16)
      let gen := s.newest t.gen (s.genRange pa 16)
      let ends (n : Nat) : Prop := ∃ u, exec (.add96Perform id) s = .next u ∧ ThreadEnded s u t d (-(BitVec.ofNat 64 n)) ∧ u.mem = s.mem
      (isDomain pa = false →
        (isSp pa = false → s.dataLimit ≤ dataOf pa → ends 6) ∧
        ((isSp pa = true ∨ dataOf pa < s.dataLimit) →
          (s.uecc pa 16 = true → ends 4) ∧
          (s.uecc pa 16 = false → old.extractLsb' 96 10 ≠ v.extractLsb' 96 10 → ends 3) ∧
          (s.uecc pa 16 = false → old.extractLsb' 96 10 = v.extractLsb' 96 10 → ∀ m,
            s.write none (s.lineGen pa gen) pa (bytesLE 16 ((old ||| v).extractLsb' 127 1 ++ 0#21 ++ old.extractLsb' 96 10 ++
              (old.extractLsb' 0 96 + v.extractLsb' 0 96) : BitVec 128).toNat) = some m →
            ∃ u, exec (.add96Perform id) s = .next u ∧ ThreadEnded s u t d 0 ∧ u.mem = m.mem ∧ u.bgen = m.bgen))) ∧
      (isDomain pa = true → ∃ u p, exec (.add96Perform id) s = .next u ∧ u.packets = s.packets ++ [p] ∧ p.dst = deviceOf pa ∧
        p.what = .add96 pa v ∧ u.requests = s.requests ++ [⟨s.rseq, deviceOf pa, .thread id⟩] ∧ u.fronts = s.fronts ∧ u.mem = s.mem)) ∧
    ∀ va pa v, t.kind = .notify va pa v → t.started = false → s.forkHeld t.agent t.po t.cls = false →
      (t.checkers.any fun g => s.checkerBusy g t.id t.ranges) = false → ∀ m, s.notifyWrite t.gen pa v = some m →
      ∃ u, exec (.engineThreadStart id) s = .next u ∧ (∀ x ∈ u.threads, x.id ≠ id) ∧ u.mem = m.mem ∧ u.packets = m.packets ∧ u.dvc = m.dvc

/-- What a placed agent starts with (R25, R302, R307): reset values, x3 the argument, the entry, the launch's address space and
mode, and the live generation; TVEC stays. -/
def startedFront (s : State) (a : Nat) (r : LaunchRec) (entry : W64) (seq m : Nat) : Front :=
  let base := if isDrone a then Front.resetDrone else Front.reset
  { base with
    x := base.x.set 3 r.arg, pc := entry, aspace := r.aspace, curgen := s.live, tvec := (s.front a).tvec,
    status := base.status ||| (if r.ctrl.getLsbD 13 then 1 else 0), run := .running, launch := some seq, member := m }

/-- Launches (R305 to R314): the after-dependency is read, and the record becomes eligible when the word has reached AFTVAL, or
fails when the read faults; the head is placed on its units when they are idle, each starting as R25 says, and otherwise
waits, and a chosen head stays the head until then; when every agent has halted, CWINC is added to the completion word, in one write of the generation that its last agent has then, and the units become idle; the lane
arbiter keeps retired and parked groups as they are. That the device reads AFTADDR as agent 1,088 in mode CTRL.SUP is log 24's choice
(R300 gives the ASPACE alone). -/
def Obligations.Launches : Prop :=
  (∀ (s : State) (q : Queued) (i : Instr), s.queued q.seq = some q → q.eligible = none →
    (i = .launchEligibilityRead q.seq ∨ i = .aftdepPollTimer q.seq) →
    let r := q.record
    (∀ pa, s.check deviceAgent true r.aspace (r.ctrl.getLsbD 13) .load r.aftaddr 8 = .ok (pa, false) → isDomain pa = false →
      s.uecc pa 8 = false → ∃ t, exec i s = .next t ∧
      { t with queues := s.queues, arrived := s.arrived, touches := s.touches } = s ∧
      t.queued q.seq = some { q with
        line := some (pa / 64), due := false, eligible := if r.aftval.toNat ≤ s.readLE pa 8 then some s.time else none }) ∧
    (∀ c, s.devRead q.seq r.aspace (r.ctrl.getLsbD 13) r.aftaddr 8 = .fault c → ∃ t, exec i s = .next t ∧ t.queued q.seq = none ∧
      ∃ p ∈ t.placed, p.seq = q.seq ∧ p.record = r ∧ p.members = [] ∧ p.clusters = [])) ∧
  (∀ s : State, s.head = none → exec .launchPlace s = .next s) ∧
  (∀ (s : State) (q : Queued), s.chosen = some q.seq → s.queued q.seq = some q → s.head = some q ∧ s.choose = s) ∧
  (∀ s : State, s.chosen = none → s.choose = { s with chosen := s.best.map (·.seq) }) ∧
  (∀ (s : State) (q : Queued), s.head = some q →
    (s.fits q [] = none → exec .launchPlace s = .next s) ∧
    ∀ ms cs, s.fits q [] = some (ms, cs) → q.saved = none → ∃ t, exec .launchPlace s = .next t ∧
      let r := q.record
      (∀ k ∈ ms, ∃ m : Nat, ms[m]? = some k ∧ t.front k = startedFront s k r r.entry q.seq m ∧ t.vec k = Vec.reset) ∧
      (r.dentry ≠ 0 → ∀ c ∈ cs, (∃ m : Nat, cs[m]? = some c ∧ t.front (droneOf c) = startedFront s (droneOf c) r r.dentry q.seq m) ∧
        (t.cluster c).queue = [] ∧ (t.cluster c).mma = none ∧ (∀ j, j < 4 → ((t.cluster c).fd.getD j Slot.reset).full = false) ∧
        ∀ j, j < 2 → ((t.cluster c).ac.getD j Tile.reset).opened = false) ∧
      (∀ a, a ∉ ms → (r.dentry = 0 ∨ ∀ c ∈ cs, a ≠ droneOf c) → t.front a = s.front a) ∧
      t.queued q.seq = none ∧ (∃ p, t.placed = s.placed ++ [p] ∧ p.seq = q.seq ∧ p.record = r ∧ p.members = ms ∧ p.clusters = cs ∧
        p.fatal = false ∧ p.stopping = false) ∧ t.mem = s.mem ∧ t.chosen = none) ∧
  (∀ (s : State) (p : Placed), s.placedBy p.seq = some p →
    (s.allHalted p = false ∨ p.stopping = true → exec (.launchEnd p.seq) s = .next s) ∧
    (s.allHalted p = true → p.stopping = false → s.devWaits p.seq = false → p.gang = none → s.gangAnswer p = none →
      let ended (u t : State) : Prop := t.mem = u.mem ∧ (∀ x ∈ t.placed, x.seq ≠ p.seq) ∧
        ∀ a ∈ p.agents, (t.front a).run = .idle ∧ (t.front a).launch = none
      (s.cbTarget p.record 0 = none → ∃ t, exec (.launchEnd p.seq) s = .next t ∧ ended s t) ∧
      (∀ pa u, s.cbTarget p.record 0 = some pa → isDomain pa = false →
        s.write none (s.lineGen pa (s.newest (match p.last with | some a => (s.front a).curgen | none => s.live) (s.genRange pa 8))) pa
          (bytesLE 8 ((s.readLE pa 8 + (p.record.ctrl.extractLsb' 32 32).toNat) % 2 ^ 64)) = some u →
        ∃ t, exec (.launchEnd p.seq) s = .next t ∧ ended u t))) ∧
  ∀ (s : State) (g : Nat),
    ((s.core g).arb = false → exec (.laneArbiterRecompute g) s = .next s) ∧
    ((s.core g).arb = true → ∃ t, exec (.laneArbiterRecompute g) s = .next t ∧ s.OnlyCore t g ∧
      t.core g = { s.core g with lanepart := arbiterLanepart (s.core g) (s.claims g), arb := false } ∧
      ∀ j, j < 8 → let holder (c : Core) := (c.lanepart.extractLsb' (3 * j) 3).toNat
        ((s.core g).lanemap.getLsbD j = true → holder (t.core g) = 7) ∧
        ((s.core g).lanemap.getLsbD j = false → holder (s.core g) = 5 → holder (t.core g) = 5) ∧
        ((s.core g).lanemap.getLsbD j = false → holder (s.core g) ≠ 5 → holder (t.core g) = 4 ∨ holder (t.core g) ∈ s.placedOn g))

/-! ## Pre-emption -/

/-- Pre-emption (R312, R316 to R318, R324): victims all have PRE and a lower PRIO than the head, each agent of a victim is asked to
stop, and nothing is asked where no choice makes room; an agent that can stop fixes SPC and VCP and takes its entries back, each
with its index; when all have stopped the words of the areas are written at checked addresses, and when none of them waits the units
become idle and the record stands first in its queue; a restart reads the area of every agent, those of halted contexts too, ends
the launch at a read that fails or a word VALID of 0, and reloads each context that had not halted. -/
def Obligations.Preemption : Prop :=
  (∀ s : State, (s.head = none ∨ (∃ q, s.head = some q ∧ ((s.fits q s.stoppingSeqs).isSome = true ∨
      s.chooseVictims q (s.candidates q.record.prio) [] = none))) → exec .preemptByPriority s = .next s) ∧
  (∀ (s : State) (q : Queued) (l : List Placed), s.head = some q → s.fits q s.stoppingSeqs = none →
    s.chooseVictims q (s.candidates q.record.prio) [] = some l →
    (∀ p ∈ l, p ∈ s.placed ∧ p.record.ctrl.getLsbD 31 = true ∧ p.record.prio < q.record.prio) ∧
    ∃ t, exec .preemptByPriority s = .next t ∧ { t with fronts := s.fronts, placed := s.placed } = s ∧
      (∀ a, t.front a = if ∃ p ∈ l, a ∈ p.agents then { s.front a with preempt := true } else s.front a) ∧
      ∀ p ∈ l, ∃ x ∈ t.placed, x.seq = p.seq ∧ x.stopping = true) ∧
  (∀ (s : State) (p : Placed), s.placedBy p.seq = some p →
    let idle := p.stopping = false ∨ p.saved ≠ none ∨ p.restoring ≠ none
    (idle → exec (.launchStop p.seq) s = .next s) ∧
    (¬ idle → s.allHalted p = true → exec (.launchStop p.seq) s = .next (s.setPlaced { p with stopping := false })) ∧
    (¬ idle → s.allHalted p = false → (∀ a ∈ p.agents, isDrone a = false → (s.vec a).outFault = none) →
      (∃ b ∈ p.agents, s.isStopped b = false ∧ (s.front b).preempt = false) →
      ∃ t, exec (.launchStop p.seq) s = .next t ∧ t.mem = s.mem ∧ (∀ a, a ∉ p.agents → t.front a = s.front a ∧ t.vec a = s.vec a) ∧
        ∀ a ∈ p.agents, isDrone a = false → s.stopsNow a = true → s.stopDrained a = true → (s.vec a).grantChanges = false →
          s.elementsDone a = true → (∀ e, (s.vec a).infl.head? = some e → e.done = false) →
          (∀ e ∈ (s.vec a).infl, e.done = false → e.flags &&& (s.vec a).ftrap = 0) →
          (t.front a).stopped = true ∧ (t.front a).spc = (s.front a).pc ∧ (t.front a).vcp = s.vcpOf a ∧
          (t.vec a).viq.map (fun e => (e.word, e.addr, e.pix, e.ops)) = ((s.vec a).infl ++ (s.vec a).viq).map
            (fun e => (e.word, e.addr, if e.done then e.vl else e.pix, e.ops)) ∧
          (t.vec a).infl = [] ∧ ((s.front a).tokens = [] → ∀ r, (t.front a).xr r = (s.front a).xr r)) ∧
    (∀ n : Nat, ¬ idle → s.allHalted p = false → (∀ a ∈ p.agents, s.isStopped a = true) →
      exec (.launchStop p.seq) s = .next (s.stopLaunch p.seq 0) ∧
      ∀ pa (at_ : Nat → W64 → Nat), s.saveBase p = .at_ pa → s.readLE pa 8 ≠ 0 →
      let left := (s.savePlan p (BitVec.ofNat 64 (s.readLE pa 8))).drop p.savePos
      let plan := if n = 0 then left else left.take n
      (∀ x ∈ plan, s.check x.1 true p.record.aspace p.record.sup .store x.2.1 8 = .ok (at_ x.1 x.2.1, false)) →
        let noted := if p.savePos = 0 then s.noteBytes pa 8 false else s
        let u := (noted.saveWords p (plan.map fun x => ⟨x.1, x.2.1, at_ x.1 x.2.1, x.2.2⟩)).1
        let t := s.stopLaunch p.seq n
        t.mem = u.mem ∧ t.fronts = u.fronts ∧ t.stuck = u.stuck ∧ t.packets = u.packets ∧ ∃ x : Option Saved, (x.isSome = true ↔ plan.length = left.length) ∧
          t.placedBy p.seq = some { p with savePos := p.savePos + plan.length, saved := x }) ∧
    ∀ v, p.saved = some v → s.devWaits p.seq = false → (∀ r ∈ s.arrived, r.owner ≠ .device p.seq) →
      ((∃ x ∈ s.stuck, ∃ a, x.by_ = .save p.seq a) → exec (.saveAreaWritten p.seq) s = .next s) ∧
      ((∀ x ∈ s.stuck, ∀ a, x.by_ ≠ .save p.seq a) → ∃ t, exec (.saveAreaWritten p.seq) s = .next t ∧ (∀ x ∈ t.placed, x.seq ≠ p.seq) ∧
      t.queue p.record.prio = ⟨p.seq, p.record, some p.eligible, some v, none, false⟩ :: s.queue p.record.prio ∧
      (∀ a ∈ p.agents, (t.front a).run = .idle ∧ (t.front a).launch = none) ∧ t.mem = s.mem)) ∧
  ∀ (s : State) (p : Placed) (v : Saved) (pa : Nat), s.placedBy p.seq = some p → p.restoring = some v → s.devWaits p.seq = false →
    p.agents.Nodup → (∀ a ∈ p.agents, isDrone a = false) →
    (∀ x ∈ p.resumed v, s.lanesBack x.1 x.2.2 = true) → s.saveBase p = .at_ pa → s.readLE pa 8 ≠ 0 →
    let base := BitVec.ofNat 64 (s.readLE pa 8)
    let areas := p.agents.zipIdx.map fun x => (x.1, x.2, v.grants.getD x.2 0)
    let word (n off : Nat) : W64 := BitVec.ofNat 64 (s.foundValue 8 (s.areaWord p base n off))
    let reads (x : Nat × Nat × Nat) : List Nat := areaOffsets x.1 (8 * x.2.2) (word x.2.1)
    let found := ∀ x ∈ areas, ∀ off ∈ reads x, ∃ b, s.areaWord p base x.2.1 off = .at_ b
    ((∃ x ∈ areas, ∃ off ∈ reads x, ∃ c, s.areaWord p base x.2.1 off = .fault c) →
      exec (.launchRestart p.seq) s = .next (s.failAll p)) ∧
    (found → (∃ x ∈ areas, (word x.2.1 0x1C0).getLsbD 63 = false) → exec (.launchRestart p.seq) s = .next (s.failAll p)) ∧
    (found → (∀ x ∈ areas, (word x.2.1 0x1C0).getLsbD 63 = true) → ∃ t, exec (.launchRestart p.seq) s = .next t ∧ t.mem = s.mem ∧ t.placedBy p.seq = some { p with restoring := none } ∧
      (∀ x ∈ areas, v.halted.getD x.2.1 false = true → t.front x.1 = s.front x.1 ∧ t.vec x.1 = s.vec x.1) ∧
      ∀ x ∈ areas, v.halted.getD x.2.1 false = false → ∀ f, t.front x.1 = f →
        (∀ r : XReg, f.xr r = if r = 0 then 0 else word x.2.1 (8 * r.toNat)) ∧ f.pc = word x.2.1 0x100 ∧ f.spc = word x.2.1 0x100 ∧
        f.vcp = word x.2.1 0x108 ∧ f.status.extractLsb' 0 4 = (word x.2.1 0x160).extractLsb' 0 4 ∧
        f.cause = (word x.2.1 0x168).extractLsb' 0 29 ∧ f.epc = word x.2.1 0x170 ∧ f.tval = word x.2.1 0x178 ∧
        f.scratch = word x.2.1 0x180 ∧ f.aspace = word x.2.1 0x188 ∧ f.curgen = s.live ∧ f.run = .running ∧ f.stopped = false ∧
        f.monEvent = true ∧
        (t.vec x.1).vl = (word x.2.1 0x118).extractLsb' 0 13 ∧ (t.vec x.1).vtype = (word x.2.1 0x110).extractLsb' 0 24 ∧
        (t.vec x.1).grant = s.grantNow x.1)

/-! ## Snapshots -/

/-- `sys.snap` and the life of a snapshot (R144, R355, R360 to R367): in user mode it traps PRIV; it waits for every older access;
an invalid descriptor gives −3, no free slot or generation −2, and a reserve below THR −1; otherwise the live generation is
frozen into the lowest free slot, whose image is main memory as it stood, the next generation is live, and the issuer's. The sweep
raises every older CURGEN to the live one, and the slot is sealed when no agent has its generation or an older one any more; fulling
copies the lines it must, one after the other, and only from the seal on, a line whose write stalls holding back no other, and ends
when every write of it has performed; a slot whose fulling has ended is released once its hold word is 0 or there is none. That
the sweep leaves the CURGEN of an agent that is saving, so that the seal waits for it, is the choice of logs 23 and 46; the mode of
the device's own reads is log 24's. -/
def Obligations.Snapshots : Prop :=
  (∀ (s : State) (g : Nat) (d a : XReg) (pa : Nat), (∃ defer, s.actor = .front g defer) →
    let f := s.front g
    let k := SnapSlot.ofBytes (bytesLE 64 (s.readLE pa 64)) f (f.xr a) s.live
    let next := s.live + 1
    let valid := s.descOk g k (BitVec.ofNat 64 (s.readLE (pa + 56) 8)) = true
    let taken := (s.occupied.any fun x => x.gen = next) = true ∨ s.freeSlot = none
    (f.status.getLsbD 0 = false → s.vecBusy g = false → s.HandlerOk g →
      s.Traps g (.sysSnap d a) { code := 4, tval := ((encode (.sysSnap d a)).getD 0).zeroExtend 64 }) ∧
    (f.status.getLsbD 0 = true → s.Issues g [a] [d] →
      (s.domainBusy g = true → exec (.sysSnap d a) s = .next s) ∧
      (s.domainBusy g = false → s.NothingOlder g → RecordAt s g (f.xr a) pa →
        (¬ valid → Answers s g (.sysSnap d a) d (-3)) ∧
        (valid → taken → Answers s g (.sysSnap d a) d (-2)) ∧
        (valid → ¬ taken → s.free < s.flash.thr → Answers s g (.sysSnap d a) d (-1)) ∧
        ∀ j, valid → ¬ taken → s.flash.thr ≤ s.free → s.freeSlot = some j → ∃ t, exec (.sysSnap d a) s = .next t ∧
          t.live = next ∧ (∀ r, (t.front g).xr r = if r = d ∧ r ≠ 0 then s.live.zeroExtend 64 else f.xr r) ∧
          (t.front g).curgen = next ∧ (t.front g).pc = f.pc + 4 ∧ (t.front g).instret = f.instret + 1 ∧
          (∃ x, t.slot j = some x ∧ x.gen = s.live ∧ x.sealed = false ∧ x.fulled = false ∧ x.dest = k.dest ∧ x.base = k.base ∧
            x.len = k.len ∧ x.notify = k.notify ∧ x.hold = k.hold ∧ x.ctrl = k.ctrl ∧
            x.state.getLsbD 63 = true ∧ x.state.extractLsb' 32 2 = s.live ∧ x.state.extractLsb' 34 2 = BitVec.ofNat 2 j ∧
            x.state.extractLsb' 60 3 = 0) ∧
          (s.MemOk → s.KeysOk → ∀ q, q < 2 ^ 44 → t.readByte (j * 2 ^ 44 + q) = s.readByte q)))) ∧
  (∀ (s : State) (j : Nat) (k : SnapSlot), s.slot j = some k →
    let up (g : BitVec 2) : BitVec 2 := if s.newer g k.gen then g else s.live
    let u := s.sweepList.foldl (fun (x : State) a => x.raise k.gen a) s
    (k.sealed = true → exec (.seal j) s = .next s) ∧
    (k.sealed = false →
      (∀ b ∈ s.fronts.map (·.1), b < 2048 → (u.front b).curgen = if s.saving b then (s.front b).curgen else up (s.front b).curgen) ∧
      (∀ x ∈ s.threads, x.id + 2048 < 2 ^ 40 → { x with gen := up x.gen } ∈ u.threads) ∧
      { u with fronts := s.fronts, vecs := s.vecs, threads := s.threads } = s ∧
      (u.swept k.gen = false → exec (.seal j) s = .next u) ∧
      (u.swept k.gen = true → ∃ t x, exec (.seal j) s = .next t ∧ t.slot j = some x ∧ x.sealed = true ∧
        x.gen = k.gen ∧ x.state.extractLsb' 62 2 = 3)) ∧
    (k.sealed = false ∨ k.fulled = true → exec (.fullingEnd j) s = .next s) ∧
    (k.sealed = true → k.fulled = false → ∀ x,
      let u := s.fullMove j 0
      u.slot j = some x → x.sealed = true → x.fulled = false →
      let complete := u.devWaits (snapOwner j) = false ∧ (∀ y ∈ u.stuck, y.by_ ≠ .fulling j) ∧ (x.err ≠ none ∨ x.len.toNat / 64 ≤ x.pos)
      (¬ complete → exec (.fullingEnd j) s = .next u) ∧
      (complete → exec (.fullingEnd j) s = .next (u.endFulling j x) ∧ ∃ y, (u.endFulling j x).slot j = some y ∧ y.fulled = true ∧
        y.state.extractLsb' 61 3 = 7 ∧ y.state.extractLsb' 48 8 = BitVec.ofNat 8 (x.err.getD 0) ∧
        y.state.extractLsb' 0 32 = BitVec.ofNat 32 (x.pos / 1024))) ∧
    (∀ (i p : Nat),
      let data := k.base.toNat + 64 * i
      let bytes := bytesLE 64 (s.readLE (j * 2 ^ 44 + data) 64)
      let wanted := k.ctrl.getLsbD 1 = false ∨ (Store.get 0 s.marks (data / 64)).getLsbD k.gen.toNat = true
      (¬ wanted → s.fullLine j k i = (s, 0)) ∧
      (wanted → s.uecc (j * 2 ^ 44 + data) 64 = true → ∃ t, s.fullLine j k i = (t, 4) ∧ { t with touches := s.touches } = s) ∧
      (wanted → s.uecc (j * 2 ^ 44 + data) 64 = false →
        s.check deviceAgent true k.aspace k.sup .store (k.dest + BitVec.ofNat 64 (64 * i)) 64 = .ok (p, false) → isDomain p = false →
        (∀ x ∈ s.stuck, x.by_ ≠ .fulling j) →
        (∀ u, s.write none s.live p bytes = some u → ∃ t, s.fullLine j k i = (t, 0) ∧ { t with touches := u.touches } = u) ∧
        (s.write none s.live p bytes = none → ∃ t, s.fullLine j k i = (t, 0) ∧
          { t with touches := s.touches, stuck := s.stuck } = s ∧ t.stuck = s.stuck ++ [⟨.fulling j, p, bytes⟩]))) ∧
    (∀ t, k.sealed = true → k.fulled = false → k.err = none → s.fullingError j = none → k.pos < k.len.toNat / 64 →
      (k.pos % 1024 ≠ 0 ∨ s.devWaits (snapOwner j) = false) → s.fullLine j k k.pos = (t, 0) →
      (s.fullMove j 1).mem = t.mem ∧ ∃ x, (s.fullMove j 1).slot j = some x ∧ x.pos = k.pos + 1 ∧ x.err = none) ∧
    ∀ i, i = Instr.holdWordRead j ∨ i = Instr.holdPollTimer j →
      (k.fulled = false → exec i s = .next s) ∧
      (k.fulled = true → k.hold = 0 → ∃ t, exec i s = .next t ∧ t.slot j = none) ∧
      ∀ p, k.fulled = true → k.hold ≠ 0 → s.check deviceAgent true k.aspace k.sup .load k.hold 8 = .ok (p, false) →
        isDomain p = false → s.uecc p 8 = false →
        (s.readLE p 8 = 0 → ∃ t, exec i s = .next t ∧ t.slot j = none) ∧
        (s.readLE p 8 ≠ 0 → ∃ t, exec i s = .next t ∧ t.slot j = some { k with line := some (p / 64), due := false } ∧
          (∀ n, n ≠ j → t.slot n = s.slot n) ∧ { t with slots := s.slots, arrived := s.arrived, touches := s.touches } = s))

/-! ## Power, errors and the board -/

/-- The device writes a notify word at a physical address that software has given it (R345, R366, R387): one that names no location
of R266 is dropped and counted in NGLOST, and one that stalls is kept. -/
def Notified (s : State) (pa : Nat) (v : W64) (m : State) : Prop :=
  (spBase ≤ pa → m = s.countDevice 0x44 1) ∧
  (pa < spBase → (∀ u, s.notifyWrite s.live pa v = some u → m = u) ∧
    (s.notifyWrite s.live pa v = none → m = { s with
      stuck := s.stuck ++ [⟨.device, if isDomain pa then pa % 2 ^ 44 else pa, bytesLE 8 v.toNat⟩] }))

/-- Power, sensors, errors and droop (R381 to R388): over a limit each core with a spare group parks its highest, clear of both
for a millisecond each unparks its lowest parked group; a sensor's crossing in a selected direction writes its notify word, and
one inside the window waits for the end; a retired group leaves LANEMAP, LANEPART and the log; scrubbing removes a correctable error, counts it in DRAMCE and changes nothing else; a droop at or above DROOPTH, outside a stretched
cycle, starts six stretched cycles and a window of 64. That each further clear tick after the tenth unparks another group is log 45's
choice. -/
def Obligations.PowerAndSensors : Prop :=
  (∀ (s : State) (mw mdeg : Nat),
    let limit := 1000 * s.powerLimit
    let high := limit < mw ∨ 105000 < mdeg
    let clear := mw + 75000 ≤ limit ∧ mdeg ≤ 100000
    let holder (c : Core) (j : Nat) := (c.lanepart.extractLsb' (3 * j) 3).toNat
    let usable (c : Core) := (List.range 8).filter fun j => !c.lanemap.getLsbD j && decide (holder c j ≠ 5)
    let parked (c : Core) := (List.range 8).filter fun j => !c.lanemap.getLsbD j && decide (holder c j = 5)
    ∃ t, exec (.powerControlTick mw mdeg) s = .next t ∧
      { t with cores := s.cores, clearFor := s.clearFor, dvc := s.dvc } = s ∧
      t.clearFor = (if high then 0 else if clear then s.clearFor + 1 else 0) ∧
      ∀ g, g < 256 →
        let one := t.core g
        let c := s.core g
        { one with lanepart := c.lanepart, arb := c.arb } = c ∧
        ∀ j, j < 8 → holder one j =
          if high ∧ (usable c).getLast? = some j ∧ max 1 (s.wanting g) < (usable c).length then 5
          else if ¬ high ∧ clear ∧ 10 ≤ s.clearFor + 1 ∧ (parked c).head? = some j then 4
          else holder c j) ∧
  (∀ (s : State) (sensor value k : Nat) (q : Subscription), s.subs.getD k none = some q → q.sensor = sensor → sensor < 8 →
    (∀ j x, j ≠ k → s.subs.getD j none = some x → x.sensor ≠ sensor) → q.window = false →
    let read : State := { s with sensors := s.sensors.put sensor value }
    let up := q.above = false ∧ q.thresh ≤ value
    let down := q.above = true ∧ value + q.hyst < q.thresh
    (∀ x ∈ s.stuck, x.by_ ≠ .device) →
    let word (above : Bool) : W64 := BitVec.ofNat 64 (2 ^ 63 + (if above then 2 ^ 62 else 0) + k % 8 * 2 ^ 59 + sensor * 2 ^ 48 +
      min value (2 ^ 32 - 1))
    (¬ up → ¬ down → exec (.sensorSample sensor value) s = .next read) ∧
    ∀ above : Bool, (if above then up else down) →
      ((if above then q.up else q.down) = false → exec (.sensorSample sensor value) s = .next
        { read with subs := read.subs.setIfInBounds k (some { q with above := above, latest := value }) }) ∧
      ((if above then q.up else q.down) = true → ∀ m, Notified read q.addr (word above) m →
        exec (.sensorSample sensor value) s = .next
          { m with subs := m.subs.setIfInBounds k (some { q with above := above, last := some above, window := true, latest := value }) })) ∧
  (∀ (s : State) (k : Nat) (q : Subscription), s.subs.getD k none = some q →
    (q.window = false → exec (.notifyWindowEnd k) s = .next s) ∧
    (q.window = true → (q.last = some q.above ∨ (if q.above then q.up else q.down) = false) →
      exec (.notifyWindowEnd k) s = .next { s with subs := s.subs.setIfInBounds k (some { q with window := false }) }) ∧
    (q.window = true → q.last ≠ some q.above → (if q.above then q.up else q.down) = true → (∀ x ∈ s.stuck, x.by_ ≠ .device) →
      ∀ m, Notified s q.addr (crossingWord k q q.above q.latest) m →
      exec (.notifyWindowEnd k) s = .next
        { m with subs := m.subs.setIfInBounds k (some { q with last := some q.above, window := true }) })) ∧
  (∀ (s : State) (g j : Nat), j < 8 → (s.core g).lanemap.getLsbD j = false → ∃ t, exec (.laneRetire g j) s = .next t ∧
    (t.core g).lanemap = (s.core g).lanemap ||| (1#8 <<< j) ∧ ((t.core g).lanepart.extractLsb' (3 * j) 3).toNat = 7 ∧
    (∀ i, i < 8 → i ≠ j → (t.core g).lanepart.extractLsb' (3 * i) 3 = (s.core g).lanepart.extractLsb' (3 * i) 3) ∧
    (t.core g).arb = true ∧ Store.get 0 t.sensors 9 = Store.get 0 s.sensors 9 + 1 ∧
    (s.flash.retireLog.length < 256 → t.flash.retireLog = s.flash.retireLog ++ [(g, j, s.time.toNat)]) ∧
    (256 ≤ s.flash.retireLog.length → t.flash = s.flash) ∧ (∀ h, h ≠ g → t.core h = s.core h) ∧
    { t with cores := s.cores, sensors := s.sensors, flash := s.flash } = s) ∧
  (∀ (s : State) (line c ws row : Nat),
    (64 * line ∉ s.cor → exec (.patrolScrub line) s = .next s) ∧
    (64 * line ∈ s.cor → exec (.patrolScrub line) s = .next
      { s.countDevice 0x45 1 with cor := s.cor.filter fun u => decide (u ≠ 64 * line) }) ∧
    exec (.weightScrub c ws row) s = .next s) ∧
  ∀ (s : State) (c mv : Nat),
    let x := s.cluster c
    (x.droopth = 0 ∨ mv < x.droopth.toNat ∨ 0 < x.stretch → exec (.droopAlarm c mv) s = .next s) ∧
    (x.droopth ≠ 0 → x.droopth.toNat ≤ mv → x.stretch = 0 → ∃ t, exec (.droopAlarm c mv) s = .next t ∧
      (t.cluster c).stretch = 6 ∧ (t.cluster c).half = 64 ∧ t.mem = s.mem ∧ t.fronts = s.fronts ∧ t.vecs = s.vecs) ∧
    (0 < x.stretch → ∃ t, exec (.stretchEnd c) s = .next t ∧ (t.cluster c).stretch = 0 ∧ (t.cluster c).half = x.half) ∧
    (x.stretch = 0 → 0 < x.half → ∃ t, exec (.halfRateWindowEnd c) s = .next t ∧ (t.cluster c).half = 0)

/-- Boot, bring-up, the trace's end, the sideband and the JTAG port (R27, R87, R382, R395, R399, R401, R402): a boot leaves the reset
values, the configuration flash, and the lane groups that it retires; a function sets its READY bit once the ones it needs are
set; a sideband command with a value out of range changes nothing; an image is taken only in reset and signed. That a boot empties
memory is log 1's choice, how SMB_RESET 1 and 0 boot is log 50's, and what the JTAG port reads log 26's. -/
def Obligations.Board : Prop :=
  ∀ (s : State) (fn : ReadyFn) (image : Flash) (signed : Bool) (n : Nat),
    let retired (g j : Nat) : Prop :=
      (((s.flash.laneMap.find? fun (p : Nat × BitVec 8) => p.1 = g).map (fun (p : Nat × BitVec 8) => p.2)).getD 0).getLsbD j = true ∨ ∃ x : Nat × Nat × Nat, x ∈ s.flash.retireLog ∧ x.1 = g ∧ x.2.1 = j
    let boots (i : Instr) (held : Bool) : Prop := ∃ t, exec i s = .next t ∧
      { t with
        cores := [], flash := State.reset.flash, sched := [], actor := State.reset.actor, freeCtr := 0, inReset := false } = State.reset ∧
      t.flash = s.flash ∧ t.inReset = held ∧ ∀ g j, g < 256 → j < 8 →
        ((t.core g).lanemap.getLsbD j = true ↔ retired g j) ∧
        ((t.core g).lanepart.extractLsb' (3 * j) 3).toNat = (if (t.core g).lanemap.getLsbD j then 7 else 4) ∧
        { t.core g with lanemap := 0, lanepart := Core.reset.lanepart } = Core.reset
    let bit (k : Nat) (needs : List Nat) : Prop :=
      (s.inReset = false → (∀ b ∈ needs, s.ready.getLsbD b = true) →
        exec (.bringupFunctionReady fn) s = .next { s with ready := s.ready ||| (1#8 <<< k) }) ∧
      ((∃ b ∈ needs, s.ready.getLsbD b = false) → exec (.bringupFunctionReady fn) s = .next s)
    boots .powerGoodBoot false ∧ boots (.smbReset 1) true ∧ (s.inReset = true → boots (.smbReset 0) false) ∧
    (1 < n ∨ (n = 0 ∧ s.inReset = false) → exec (.smbReset n) s = .next s) ∧
    (fn = .power → bit 0 []) ∧ (fn = .flash → bit 1 [0]) ∧ (fn = .mem → bit 3 [1]) ∧ (fn = .gen → bit 4 [3]) ∧
    (fn = .ngurid → bit 5 [1]) ∧ (fn = .launch → bit 6 [4]) ∧ (fn = .trace → bit 7 []) ∧
    (fn = .clock → s.flash.timeMaster = s.flash.deviceId → bit 2 []) ∧
    (∀ c, fn = .cluster c → c < 64 → s.inReset = false →
      exec (.bringupFunctionReady fn) s = .next (s.setCluster c { s.cluster c with ready := true })) ∧
    (s.trcpost = some 0 → s.trcflags.getLsbD 2 = false → ∃ t, exec .tracePostEnd s = .next t ∧ t.trcctl.getLsbD 12 = false ∧ t.trcctl.getLsbD 13 = true ∧
      (∀ j, j < 64 → j ≠ 12 → j ≠ 13 → t.trcctl.getLsbD j = s.trcctl.getLsbD j) ∧ { t with trcctl := s.trcctl, trcpost := s.trcpost } = s) ∧
    exec .smbReadReady s = .next { s with sbReply := bytesLE 8 s.ready.toNat ++ bytesLE 8 s.readycl } ∧
    exec (.smbPowerLimit none) s = .next { s with sbReply := bytesLE 2 s.powerLimit } ∧
    exec (.smbPowerLimit (some n)) s = .next { s with powerLimit := if 300 ≤ n ∧ n ≤ 1500 then n else s.powerLimit } ∧
    exec (.smbSensorRead n) s = .next { s with sbReply := if n ≤ 10 then bytesLE 4 (s.sensor n) else s.sbReply } ∧
    exec .smbFireSoft s = .next (s.fire 4) ∧
    exec (.smbFlashImage image signed) s = .next { s with flash := if s.inReset && signed then image else s.flash } ∧
    exec .jtagIdcode s = .next { s with jtag := 0x1C460AB5 } ∧ exec .jtagBypass s = .next { s with jtag := 0 } ∧
    exec .jtagSamplePreload s = .next s ∧ exec .jtagExtest s = .next s

/-! ## The fabric -/

/-- The packets of a reply leave (R340): a status in one packet, and bytes in packets of at most 256, in order, all in one where they
fit. -/
def ReplySent (u t : State) (src rseq : Nat) (reply : NgReply) : Prop :=
  ∃ l, t.packets = u.packets ++ l ∧ (∀ p ∈ l, p.dst = src ∧ p.rseq = rseq) ∧
    match reply with
    | .status n => l.map (·.what) = [.response (.status n)]
    | .data bs => ∃ parts : List (List Byte), l.map (·.what) = parts.map (fun b => .response (.data b)) ∧ parts.flatten = bs ∧
        (∀ b ∈ parts, b.length ≤ 256) ∧ (bs.length ≤ 256 → parts = [bs])

/-- A request packet performs once (R342): a duplicate is answered from the kept reply; otherwise the state that it leaves has the
reply kept, and a response with its number on the way to the source. -/
def Replies (s u : State) (i : Instr) (src rseq : Nat) (reply : NgReply) : Prop :=
  s.inReset = false → ((Store.get [] s.responses src).find? fun p => p.1 = rseq) = none → ∃ t, exec i s = .next t ∧
    { t with packets := u.packets, portSeq := u.portSeq, responses := u.responses, touches := u.touches } = u ∧
    ReplySent u t src rseq reply ∧ (rseq, reply) ∈ Store.get [] t.responses src ∧
    (Store.get [] t.responses src).length ≤ max 1024 (Store.get [] u.responses src).length

/-- A request packet whose write stalls for a reserve batt waits (R366). -/
def Stalls (s : State) (i : Instr) (src rseq : Nat) : Prop :=
  s.inReset = false → ((Store.get [] s.responses src).find? fun p => p.1 = rseq) = none → exec i s = .next s

/-- Requests of other devices (R124, R339 to R344, R347 to R351, R356, R366, R399): reads, writes, atomic updates, adds and notify words
perform at main memory with the live generation, with −4 for memory that is not ready or has an uncorrectable error and −6 for an
address that is not backed, and leave nothing then; a write sets the event bits of the monitors on every line that it touches
(`WriteResults`); one that stalls waits; an enqueue submits its record. -/
def RequestsArrive : Prop :=
  ∀ (s u : State) (src rseq addr : Nat) (run : Nat × Nat) (more : List (Nat × Nat)) (bytes : List Byte) (l : List (Nat × Byte × Byte)) (v : W64)
      (op expect : W64) (aop : BitVec 5) (val : BitVec 128) (host : Bool) (queue : Nat) (what : NgWritten),
    let a := addr % 2 ^ 44
    let up := s.ready.getLsbD 3 = true
    let backed (n : Nat) := a + n ≤ s.dataLimit
    let fine (n : Nat) := up ∧ backed n ∧ s.uecc a n = false
    let size := if aop.getLsbD 4 then 4 else 8
    let refused (u : State) (i : Instr) (l : List (Nat × Nat)) : Prop :=
      (¬ up → l ≠ [] → Replies s u i src rseq (.status 4)) ∧
      (up → (∃ q ∈ l, s.dataLimit < q.1 % 2 ^ 44 + q.2) → Replies s u i src rseq (.status 6))
    let runs := run :: more
    let read := Instr.ngReadRequest src rseq run more
    let inside (l : List (Nat × Nat)) := ∀ q ∈ l, q.1 % 2 ^ 44 + q.2 ≤ s.dataLimit
    let amo := Instr.ngAmo src rseq addr aop op expect
    let add := Instr.ngAdd96 src rseq addr val
    let word := Instr.ngNotify src rseq addr v
    let enq := Instr.ngEnqueue src rseq host queue bytes
    let places := l.map fun q => (addr + q.1, 1)
    let patches : List Patch := l.map fun q => ⟨(addr + q.1) % 2 ^ 44, q.2.1, q.2.2⟩
    (∀ p i, s.inReset = false → ((Store.get [] s.responses src).find? fun p => p.1 = rseq) = some p →
      i ∈ [read, .ngWrite src rseq addr what, amo, add, word, enq] → ∃ t, exec i s = .next t ∧
      { t with packets := s.packets, portSeq := s.portSeq } = s ∧ ReplySent s t src rseq p.2) ∧
    refused s read runs ∧ refused s (.ngWrite src rseq addr (.run bytes)) [(addr, bytes.length)] ∧
    refused s (.ngWrite src rseq addr (.segment l)) places ∧ refused s amo [(addr, size)] ∧
    refused s add [(addr, 16)] ∧ refused (s.countDevice 0x44 1) word [(addr, 8)] ∧
    (up → inside runs → (∃ q ∈ runs, s.uecc (q.1 % 2 ^ 44) q.2 = true) → Replies s s read src rseq (.status 4)) ∧
    (up → inside runs → (∀ q ∈ runs, s.uecc (q.1 % 2 ^ 44) q.2 = false) →
      Replies s s read src rseq (.data (runs.flatMap fun q => bytesLE q.2 (s.readLE (q.1 % 2 ^ 44) q.2)))) ∧
    (up → backed bytes.length →
      (s.write none s.live a bytes = none → Stalls s (.ngWrite src rseq addr (.run bytes)) src rseq) ∧
      (s.write none s.live a bytes = some u → Replies s u (.ngWrite src rseq addr (.run bytes)) src rseq (.status 0))) ∧
    (up → inside places →
      (s.writePatches none s.live patches = none → Stalls s (.ngWrite src rseq addr (.segment l)) src rseq) ∧
      (s.writePatches none s.live patches = some u → Replies s u (.ngWrite src rseq addr (.segment l)) src rseq (.status 0))) ∧
    (up → backed size → s.uecc a size = true → Replies s s amo src rseq (.status 4)) ∧
    (fine size → ∀ new, amoNew aop (s.readLE a size) op expect = some new →
      (s.write none s.live a (bytesLE size new) = none → Stalls s amo src rseq) ∧
      (s.write none s.live a (bytesLE size new) = some u → Replies s u amo src rseq (.data (bytesLE size (s.readLE a size))))) ∧
    (fine size → amoNew aop (s.readLE a size) op expect = none → Replies s s amo src rseq (.data (bytesLE size (s.readLE a size)))) ∧
    (up → backed 16 → s.uecc a 16 = true → Replies s s add src rseq (.status 4)) ∧
    (fine 16 →
      let old := BitVec.ofNat 128 (s.readLE a 16)
      let sum : BitVec 128 := (old ||| val).extractLsb' 127 1 ++ 0#21 ++ old.extractLsb' 96 10 ++ (old.extractLsb' 0 96 + val.extractLsb' 0 96)
      (old.extractLsb' 96 10 ≠ val.extractLsb' 96 10 → Replies s s add src rseq (.status 3)) ∧
      (old.extractLsb' 96 10 = val.extractLsb' 96 10 →
        (s.write none (s.lineGen a s.live) a (bytesLE 16 sum.toNat) = none → Stalls s add src rseq) ∧
        (s.write none (s.lineGen a s.live) a (bytesLE 16 sum.toNat) = some u → Replies s u add src rseq (.status 0)))) ∧
    (up → backed 8 → s.uecc a 8 = true → Replies s (s.countDevice 0x44 1) word src rseq (.status 4)) ∧
    (fine 8 →
      (s.write none s.live a (bytesLE 8 v.toNat) = none → Stalls s word src rseq) ∧
      (s.write none s.live a (bytesLE 8 v.toNat) = some u → Replies s u word src rseq (.status 0))) ∧
    let r := LaunchRec.ofBytes bytes
    let barred := s.ready.getLsbD 6 = true ∧ host = true ∧ r.ctrl.getLsbD 13 = true ∧ src ∉ s.flash.hosts
    (barred → Replies s s enq src rseq (.status 2)) ∧
    (¬ barred → Replies s (s.submit r queue).1 enq src rseq (.status (s.submit r queue).2))

/-- What the end of a request leaves of the machine `rest` without it (R342, R344): bytes reach whoever waits for them, run by run; a
thread's or enqueue's status reaches its register, −n for n; a store that failed is counted in NGLOST; a waiting load delivers
its value, or takes UECC, or BADADDR for an address that is not backed, where its trap can be taken. -/
def RequestEnds (s rest t : State) (r : Request) (reply : NgReply) : Prop :=
  (∀ o a n, r.waiter = .bytes o a n → t = { rest with arrived := rest.arrived ++ [⟨o, a, n, reply⟩] }) ∧
  (∀ o runs n, r.waiter = .segment o runs → reply = .status n →
    t = { rest with arrived := rest.arrived ++ runs.map fun q => ⟨o, q.1, q.2, .status n⟩ }) ∧
  (∀ o (parts : List (Nat × List Byte)), r.waiter = .segment o (parts.map fun q => (q.1, q.2.length)) →
    reply = .data (parts.flatMap (·.2)) →
    t = { rest with arrived := rest.arrived ++ parts.map fun q => ⟨o, q.1, q.2.length, .data q.2⟩ }) ∧
  (r.waiter = .none → t = rest) ∧
  (((∃ b po cls runs, r.waiter = .store b po cls runs) ∨ ∃ b n, r.waiter = .entry b n) →
    (reply = .status 0 → t = rest) ∧ ∀ n, n ≠ 0 → reply = .status n → t = rest.countDevice 0x44 1) ∧
  (∀ b d n, r.waiter = .enq b d → reply = .status n →
    (∀ x, (t.front b).xr x = if x = d ∧ x ≠ 0 then -(BitVec.ofNat 64 n) else (rest.front b).xr x) ∧
    (∀ x, (t.front b).isPend x = ((rest.front b).isPend x && decide (x ≠ d))) ∧ { t with fronts := rest.fronts } = rest) ∧
  (∀ id n x d va pa v, r.waiter = .thread id → reply = .status n → s.thread id = some x → x.kind = .add96 d va pa v →
    ThreadEnded s t x d (-(BitVec.ofNat 64 n))) ∧
  ∀ b x sz sg d, r.waiter = .access b → (s.front b).acc = [x] → x.sent = some r.rseq → x.kind = .load sz sg d →
    (∀ bs, reply = .data bs → (t.front b).acc = [] ∧ (t.front b).instret = (s.front b).instret + 1 ∧
      (∀ y, (t.front b).xr y = if y = d ∧ y ≠ 0 then loadValue sz sg (ofBytesLE bs) else (s.front b).xr y) ∧ t.mem = s.mem) ∧
    ∀ n, reply = .status n → s.vecBusy b = false → rest.HandlerOk b →
      TrapTaken s t b false x.pc { code := if n = 6 then 14 else 10, tval := x.va } ∧ (t.front b).acc = [] ∧
        (t.front b).isPend d = false ∧ t.mem = s.mem

/-- Packets and links (R124, R339 to R345, R347 to R351, R353, R356, R399): requests of other devices perform and are answered; a
response is delivered to whoever waits; acknowledged packets are dropped, a replay sends flits again and counts, 32 of one flit
take the port down; a device without a port loses its packets, and its requests end, with −5 for class `fab`, UECC for reads and
NGLOST for stores and notify words; and the time master answers a request for TIME with its own. The port of a packet without a
route is log 65's choice, a segment in several packets under one request number is log 62's, −4 while READY.MEM is clear is log 14's reading
and where NGLOST counts is log 44's, and what a timing packet does after the first is log 10's. -/
def Obligations.FabricPackets : Prop :=
  RequestsArrive ∧
  (∀ (s : State) (r : Request) (reply : NgReply), s.requests.find? (fun x => x.rseq = r.rseq) = some r →
    (∀ b, r.waiter = .access b → (∃ bs, reply = .data bs) ∨ s.vecBusy b = false) → ∃ t, exec (.ngResponse r.rseq reply) s = .next t ∧
      RequestEnds s { s with requests := s.requests.filter fun x => decide (x.rseq ≠ r.rseq) } t r reply) ∧
  (∀ (s : State) (dev : Nat), s.portless dev = true →
    let words := (s.packets.filter fun p => decide (p.dst = dev) && (match p.what with | .notify .. => true | _ => false)).length
    let rest := { s with
      packets := s.packets.filter fun p => decide (p.dst ≠ dev), routesLost := (dev :: s.routesLost).eraseDups
      requests := s.requests.filter fun x => decide (x.dst ≠ dev) }.countDevice 0x44 words
    ((∀ x ∈ s.requests, x.dst ≠ dev) → exec (.ngRouteLost dev) s = .next rest) ∧
    ∀ r, s.requests.filter (fun x => decide (x.dst = dev)) = [r] → (∀ x ∈ s.requests, x.rseq = r.rseq → x = r) →
      (∀ b, r.waiter = .access b → s.vecBusy b = false) → ∃ t, exec (.ngRouteLost dev) s = .next t ∧
        RequestEnds s rest t r (.status (match r.waiter with | .thread _ | .enq .. => 5 | _ => 4))) ∧
  ∀ (s : State) (port n dev : Nat) (master rtt : W64),
    exec (.ngAck port n) s = .next { s with
      packets := s.packets.filter fun p => decide (p.port ≠ port) || decide (n + 1 < p.seq + p.replays.length) } ∧
    (∃ t, exec (.ngCrcReplay port n) s = .next t ∧ { t with packets := s.packets, dvc := s.dvc } = s ∧
      t.packets.length = s.packets.length ∧ ∀ (m : Nat) (p : Packet), s.packets[m]? = some p → ∃ q, t.packets[m]? = some q ∧
        { q with replays := p.replays } = p ∧ ∀ i : Nat, q.replays[i]? =
          p.replays[i]?.map fun x => if p.port = port ∧ n ≤ p.seq + i then x + 1 else x) ∧
    ((∀ p ∈ s.packets, p.port = port → ∀ x ∈ p.replays, x < 32) → exec (.ngPortDown port) s = .next s) ∧
    ((∃ p ∈ s.packets, p.port = port ∧ ∃ x ∈ p.replays, 32 ≤ x) → ∃ t, exec (.ngPortDown port) s = .next t ∧ port ∈ t.portsDown ∧
      t.packets.length = s.packets.length ∧ { t with packets := s.packets, portSeq := s.portSeq, portsDown := s.portsDown } = s) ∧
    (s.portless dev = false → exec (.ngRouteLost dev) s = .next s) ∧
    (∃ t, exec (.ngRouteReturn dev) s = .next t ∧ dev ∉ t.routesLost ∧
      (∀ r ∈ s.flash.routes, r.1 = dev → ∀ p ∈ r.2, p ∉ t.portsDown) ∧
      { t with portsDown := s.portsDown, routesLost := s.routesLost } = s) ∧
    (s.flash.timeMaster ≠ s.flash.deviceId → s.routed s.flash.timeMaster = true → ∃ t p, exec .timeSyncTimer s = .next t ∧
      t.packets = s.packets ++ [p] ∧ p.dst = s.flash.timeMaster ∧ p.what = .timing ∧
      { t with packets := s.packets, portSeq := s.portSeq, rseq := s.rseq } = s) ∧
    (s.flash.timeMaster = s.flash.deviceId ∨ s.routed s.flash.timeMaster = false → exec .timeSyncTimer s = .next s) ∧
    (s.inReset = false → s.flash.timeMaster = s.flash.deviceId → s.routed dev = true → ∃ p, (s.answerTime dev n).packets = s.packets ++ [p] ∧
      p.dst = dev ∧ p.rseq = n ∧ p.what = .timed s.time ∧ { s.answerTime dev n with packets := s.packets, portSeq := s.portSeq } = s) ∧
    (s.inReset = false → s.ready.getLsbD 2 = false →
      exec (.timingPacket master rtt) s = .next { s with time := master + rtt >>> 1, ready := s.ready ||| 4 }) ∧
    (s.inReset = true ∨ s.ready.getLsbD 2 = true → exec (.timingPacket master rtt) s = .next s)
end

