-- ==== Sys2Proof/Laws/Store.lean ====
section
/-! SUPPORT. What reading finds after writing, in the sparse tables and in the memory, and that every operation of
Store keeps the canonical form of the memory. -/
namespace Sys2Proof.Machine

/-! ## Tables -/

@[simp] theorem Store.get_nil {α : Type} (d : α) (a : Nat) : Store.get d [] a = d := rfl

/-- A table answers the value written last, and the others as before. -/
theorem Store.get_put {α : Type} (d x : α) (a b : Nat) :
    ∀ s : Store α, Store.get d (s.put a x) b = if b = a then x else Store.get d s b
  | [] => by simp [Store.put, Store.get]
  | (k, v) :: r => by
    have ih := Store.get_put d x a b r
    unfold Store.put
    split
    · simp [Store.get]
    · split
      · subst_vars
        by_cases hb : b = k <;> simp [Store.get, hb]
      · rename_i _ hak
        by_cases hbk : b = k
        · subst hbk
          have : ¬ b = a := fun h => hak h.symm
          simp [Store.get, this]
        · simp [Store.get, hbk, ih]

@[simp] theorem Store.get_put_self {α : Type} (d x : α) (a : Nat) (s : Store α) : Store.get d (s.put a x) a = x := by
  simp [Store.get_put]

theorem Store.get_put_other {α : Type} (d x : α) {a b : Nat} (s : Store α) (h : b ≠ a) :
    Store.get d (s.put a x) b = Store.get d s b := by
  simp [Store.get_put, h]

theorem Store.get_drop {α : Type} (d : α) (a b : Nat) :
    ∀ s : Store α, Store.get d (s.drop a) b = if b = a then d else Store.get d s b
  | [] => by simp [Store.drop, Store.get]
  | (k, v) :: r => by
    have ih := Store.get_drop d a b r
    unfold Store.drop at ih ⊢
    by_cases hk : k = a
    · subst hk
      by_cases hb : b = k <;> simp_all [Store.get]
    · by_cases hb : b = k
      · subst hb
        simp [Store.get, hk]
      · simpa [Store.get, hk, hb] using ih

/-! ## Memory -/

/-- A bound of the canonical form may be lowered. -/
theorem Memory.wfFrom_mono {lo lo' : Nat} (h : lo' ≤ lo) : ∀ {m : Memory}, Memory.wfFrom lo m = true → Memory.wfFrom lo' m = true
  | [], _ => rfl
  | (_, _) :: _, hm => by
    simp only [Memory.wfFrom, Bool.and_eq_true, decide_eq_true_eq] at hm ⊢
    exact ⟨⟨by omega, hm.1.2⟩, hm.2⟩

/-- Nothing is listed below the bound of a canonical memory. -/
theorem Memory.read_below {lo a : Nat} (h : a < lo) : ∀ {m : Memory}, Memory.wfFrom lo m = true → m.read a = unlisted
  | [], _ => rfl
  | (k, _) :: r, hm => by
    simp only [Memory.wfFrom, Bool.and_eq_true, decide_eq_true_eq] at hm
    have hak : ¬ a = k := by omega
    simp only [Memory.read, hak, if_false]
    exact Memory.read_below (by omega : a < k + 1) hm.2

/-- Writing a byte at or above the bound keeps the canonical form above it. -/
theorem Memory.write_wfFrom (a : Nat) (x : Byte) :
    ∀ {lo : Nat} {m : Memory}, lo ≤ a → Memory.wfFrom lo m = true → Memory.wfFrom lo (m.write a x) = true
  | lo, [], ha, _ => by
    unfold Memory.write
    split
    · rfl
    · simp_all [Memory.wfFrom]
  | lo, (k, v) :: r, ha, hm => by
    have hm' := hm
    simp only [Memory.wfFrom, Bool.and_eq_true, decide_eq_true_eq] at hm'
    obtain ⟨⟨hk, hv⟩, hr⟩ := hm'
    unfold Memory.write
    split
    · rename_i hak
      split
      · exact hm
      · simp only [Memory.wfFrom, Bool.and_eq_true, decide_eq_true_eq]
        exact ⟨⟨ha, by assumption⟩, ⟨by omega, hv⟩, hr⟩
    · split
      · subst_vars
        split
        · exact Memory.wfFrom_mono (by omega) hr
        · simp only [Memory.wfFrom, Bool.and_eq_true, decide_eq_true_eq]
          exact ⟨⟨ha, by assumption⟩, hr⟩
      · simp only [Memory.wfFrom, Bool.and_eq_true, decide_eq_true_eq]
        exact ⟨⟨hk, hv⟩, Memory.write_wfFrom a x (by omega) hr⟩

/-- A write keeps the canonical form. -/
theorem Memory.write_wf {m : Memory} (a : Nat) (x : Byte) (h : m.wf = true) : (m.write a x).wf = true :=
  Memory.write_wfFrom a x (Nat.zero_le a) h

/-- Read after write, above the bound of a canonical memory. -/
theorem Memory.read_write_from (a : Nat) (x : Byte) (b : Nat) :
    ∀ {lo : Nat} {m : Memory}, Memory.wfFrom lo m = true → (m.write a x).read b = if b = a then x else m.read b
  | lo, [], _ => by
    unfold Memory.write
    by_cases hx : x = unlisted
    · simp [hx, Memory.read]
    · by_cases hb : b = a <;> simp [hx, Memory.read, hb]
  | lo, (k, v) :: r, hm => by
    simp only [Memory.wfFrom, Bool.and_eq_true, decide_eq_true_eq] at hm
    obtain ⟨⟨hk, hv⟩, hr⟩ := hm
    unfold Memory.write
    by_cases hlt : a < k
    · by_cases hx : x = unlisted
      · simp only [hlt, hx, if_true]
        by_cases hb : b = a
        · subst hb
          have : ¬ b = k := by omega
          simp only [Memory.read, this, if_false, if_true]
          exact Memory.read_below (by omega : b < k + 1) hr
        · simp [hb]
      · simp only [hlt, hx, if_true, if_false]
        by_cases hb : b = a <;> simp [Memory.read, hb]
    · by_cases heq : a = k
      · subst heq
        by_cases hx : x = unlisted
        · simp only [Nat.lt_irrefl, hx, if_true, if_false]
          by_cases hb : b = a
          · subst hb
            simp only [if_true]
            exact Memory.read_below (by omega : b < b + 1) hr
          · simp [Memory.read, hb]
        · simp only [Nat.lt_irrefl, hx, if_true, if_false]
          by_cases hb : b = a <;> simp [Memory.read, hb]
      · simp only [hlt, heq, if_false, Memory.read]
        by_cases hb : b = k
        · subst hb
          have : ¬ b = a := fun h => heq h.symm
          simp [this]
        · simp only [hb, if_false]
          exact Memory.read_write_from a x b hr

/-- Read after write. -/
theorem Memory.read_write {m : Memory} (h : m.wf = true) (a : Nat) (x : Byte) (b : Nat) :
    (m.write a x).read b = if b = a then x else m.read b :=
  Memory.read_write_from a x b h

/-- Dropping entries keeps the canonical form. -/
theorem Memory.filter_wfFrom (p : Host.Cell → Bool) :
    ∀ {lo : Nat} {m : Memory}, Memory.wfFrom lo m = true → Memory.wfFrom lo (m.filter p) = true
  | _, [], _ => rfl
  | lo, (k, v) :: r, hm => by
    simp only [Memory.wfFrom, Bool.and_eq_true, decide_eq_true_eq] at hm
    have ih := Memory.filter_wfFrom p hm.2
    unfold List.filter
    split
    · simp only [Memory.wfFrom, Bool.and_eq_true, decide_eq_true_eq]
      exact ⟨hm.1, ih⟩
    · exact Memory.wfFrom_mono (by omega) ih

/-- Clearing a range keeps the canonical form. -/
theorem Memory.clearRange_wf {m : Memory} (lo hi : Nat) (h : m.wf = true) : (m.clearRange lo hi).wf = true :=
  Memory.filter_wfFrom _ h

/-- Any number of writes keeps the canonical form. -/
theorem Memory.foldl_write_wf {β : Type} (k : β → Nat) (v : β → Byte) :
    ∀ (l : List β) {m : Memory}, m.wf = true → (l.foldl (fun m b => m.write (k b) (v b)) m).wf = true
  | [], _, h => h
  | b :: l, _, h => Memory.foldl_write_wf k v l (Memory.write_wf (k b) (v b) h)

end Sys2Proof.Machine
end

