-- ==== Sys2Proof/Laws/State.lean ====
section
/-! SUPPORT. One lemma for each field and each named update of the state: what the update changes, and that the
other fields stay. -/
namespace Sys2Proof.Machine

/-! ## Fronts, vector sides, cores and clusters -/

/-- The front that was put is the one found, and the others stay. -/
theorem State.front_setFront (s : State) (a b : Nat) (f : Front) : (s.setFront a f).front b = if b = a then f else s.front b := by
  simp [State.front, State.setFront, Store.get_put]

theorem State.vec_setVec (s : State) (a b : Nat) (v : Vec) : (s.setVec a v).vec b = if b = a then v else s.vec b := by
  simp [State.vec, State.setVec, Store.get_put]

theorem State.core_setCore (s : State) (a b : Nat) (c : Core) : (s.setCore a c).core b = if b = a then c else s.core b := by
  simp [State.core, State.setCore, Store.get_put]

theorem State.cluster_setCluster (s : State) (a b : Nat) (c : Cluster) :
    (s.setCluster a c).cluster b = if b = a then c else s.cluster b := by
  simp [State.cluster, State.setCluster, Store.get_put]

@[simp] theorem State.front_setFront_self (s : State) (a : Nat) (x : Front) : (s.setFront a x).front a = x := by simp [State.front_setFront]
@[simp] theorem State.vec_setVec_self (s : State) (a : Nat) (x : Vec) : (s.setVec a x).vec a = x := by simp [State.vec_setVec]
@[simp] theorem State.core_setCore_self (s : State) (a : Nat) (x : Core) : (s.setCore a x).core a = x := by simp [State.core_setCore]
@[simp] theorem State.cluster_setCluster_self (s : State) (a : Nat) (x : Cluster) : (s.setCluster a x).cluster a = x := by simp [State.cluster_setCluster]

/-! ## setFront -/

@[simp] theorem State.setFront_vecs (s : State) (a : Nat) (x : Front) : (s.setFront a x).vecs = s.vecs := rfl
@[simp] theorem State.setFront_cores (s : State) (a : Nat) (x : Front) : (s.setFront a x).cores = s.cores := rfl
@[simp] theorem State.setFront_clusters (s : State) (a : Nat) (x : Front) : (s.setFront a x).clusters = s.clusters := rfl
@[simp] theorem State.setFront_mem (s : State) (a : Nat) (x : Front) : (s.setFront a x).mem = s.mem := rfl
@[simp] theorem State.setFront_bgen (s : State) (a : Nat) (x : Front) : (s.setFront a x).bgen = s.bgen := rfl
@[simp] theorem State.setFront_marks (s : State) (a : Nat) (x : Front) : (s.setFront a x).marks = s.marks := rfl
@[simp] theorem State.setFront_live (s : State) (a : Nat) (x : Front) : (s.setFront a x).live = s.live := rfl
@[simp] theorem State.setFront_slots (s : State) (a : Nat) (x : Front) : (s.setFront a x).slots = s.slots := rfl
@[simp] theorem State.setFront_owed (s : State) (a : Nat) (x : Front) : (s.setFront a x).owed = s.owed := rfl
@[simp] theorem State.setFront_stuck (s : State) (a : Nat) (x : Front) : (s.setFront a x).stuck = s.stuck := rfl
@[simp] theorem State.setFront_uncor (s : State) (a : Nat) (x : Front) : (s.setFront a x).uncor = s.uncor := rfl
@[simp] theorem State.setFront_cor (s : State) (a : Nat) (x : Front) : (s.setFront a x).cor = s.cor := rfl
@[simp] theorem State.setFront_arrUncor (s : State) (a : Nat) (x : Front) : (s.setFront a x).arrUncor = s.arrUncor := rfl
@[simp] theorem State.setFront_queues (s : State) (a : Nat) (x : Front) : (s.setFront a x).queues = s.queues := rfl
@[simp] theorem State.setFront_placed (s : State) (a : Nat) (x : Front) : (s.setFront a x).placed = s.placed := rfl
@[simp] theorem State.setFront_launchSeq (s : State) (a : Nat) (x : Front) : (s.setFront a x).launchSeq = s.launchSeq := rfl
@[simp] theorem State.setFront_chosen (s : State) (a : Nat) (x : Front) : (s.setFront a x).chosen = s.chosen := rfl
@[simp] theorem State.setFront_age (s : State) (a : Nat) (x : Front) : (s.setFront a x).age = s.age := rfl
@[simp] theorem State.setFront_notifybase (s : State) (a : Nat) (x : Front) : (s.setFront a x).notifybase = s.notifybase := rfl
@[simp] theorem State.setFront_subs (s : State) (a : Nat) (x : Front) : (s.setFront a x).subs = s.subs := rfl
@[simp] theorem State.setFront_sensors (s : State) (a : Nat) (x : Front) : (s.setFront a x).sensors = s.sensors := rfl
@[simp] theorem State.setFront_powerLimit (s : State) (a : Nat) (x : Front) : (s.setFront a x).powerLimit = s.powerLimit := rfl
@[simp] theorem State.setFront_clearFor (s : State) (a : Nat) (x : Front) : (s.setFront a x).clearFor = s.clearFor := rfl
@[simp] theorem State.setFront_time (s : State) (a : Nat) (x : Front) : (s.setFront a x).time = s.time := rfl
@[simp] theorem State.setFront_dvc (s : State) (a : Nat) (x : Front) : (s.setFront a x).dvc = s.dvc := rfl
@[simp] theorem State.setFront_dvs (s : State) (a : Nat) (x : Front) : (s.setFront a x).dvs = s.dvs := rfl
@[simp] theorem State.setFront_dvfrz (s : State) (a : Nat) (x : Front) : (s.setFront a x).dvfrz = s.dvfrz := rfl
@[simp] theorem State.setFront_trcctl (s : State) (a : Nat) (x : Front) : (s.setFront a x).trcctl = s.trcctl := rfl
@[simp] theorem State.setFront_trcnext (s : State) (a : Nat) (x : Front) : (s.setFront a x).trcnext = s.trcnext := rfl
@[simp] theorem State.setFront_trcwrap (s : State) (a : Nat) (x : Front) : (s.setFront a x).trcwrap = s.trcwrap := rfl
@[simp] theorem State.setFront_trcaddr (s : State) (a : Nat) (x : Front) : (s.setFront a x).trcaddr = s.trcaddr := rfl
@[simp] theorem State.setFront_trcsram (s : State) (a : Nat) (x : Front) : (s.setFront a x).trcsram = s.trcsram := rfl
@[simp] theorem State.setFront_trcpost (s : State) (a : Nat) (x : Front) : (s.setFront a x).trcpost = s.trcpost := rfl
@[simp] theorem State.setFront_trgctl (s : State) (a : Nat) (x : Front) : (s.setFront a x).trgctl = s.trgctl := rfl
@[simp] theorem State.setFront_trgtime (s : State) (a : Nat) (x : Front) : (s.setFront a x).trgtime = s.trgtime := rfl
@[simp] theorem State.setFront_trgcount (s : State) (a : Nat) (x : Front) : (s.setFront a x).trgcount = s.trgcount := rfl
@[simp] theorem State.setFront_ready (s : State) (a : Nat) (x : Front) : (s.setFront a x).ready = s.ready := rfl
@[simp] theorem State.setFront_threads (s : State) (a : Nat) (x : Front) : (s.setFront a x).threads = s.threads := rfl
@[simp] theorem State.setFront_threadSeq (s : State) (a : Nat) (x : Front) : (s.setFront a x).threadSeq = s.threadSeq := rfl
@[simp] theorem State.setFront_flash (s : State) (a : Nat) (x : Front) : (s.setFront a x).flash = s.flash := rfl
@[simp] theorem State.setFront_packets (s : State) (a : Nat) (x : Front) : (s.setFront a x).packets = s.packets := rfl
@[simp] theorem State.setFront_portSeq (s : State) (a : Nat) (x : Front) : (s.setFront a x).portSeq = s.portSeq := rfl
@[simp] theorem State.setFront_portsDown (s : State) (a : Nat) (x : Front) : (s.setFront a x).portsDown = s.portsDown := rfl
@[simp] theorem State.setFront_requests (s : State) (a : Nat) (x : Front) : (s.setFront a x).requests = s.requests := rfl
@[simp] theorem State.setFront_arrived (s : State) (a : Nat) (x : Front) : (s.setFront a x).arrived = s.arrived := rfl
@[simp] theorem State.setFront_rseq (s : State) (a : Nat) (x : Front) : (s.setFront a x).rseq = s.rseq := rfl
@[simp] theorem State.setFront_responses (s : State) (a : Nat) (x : Front) : (s.setFront a x).responses = s.responses := rfl
@[simp] theorem State.setFront_routesLost (s : State) (a : Nat) (x : Front) : (s.setFront a x).routesLost = s.routesLost := rfl
@[simp] theorem State.setFront_inReset (s : State) (a : Nat) (x : Front) : (s.setFront a x).inReset = s.inReset := rfl
@[simp] theorem State.setFront_sbReply (s : State) (a : Nat) (x : Front) : (s.setFront a x).sbReply = s.sbReply := rfl
@[simp] theorem State.setFront_jtag (s : State) (a : Nat) (x : Front) : (s.setFront a x).jtag = s.jtag := rfl
@[simp] theorem State.setFront_touches (s : State) (a : Nat) (x : Front) : (s.setFront a x).touches = s.touches := rfl
@[simp] theorem State.setFront_fired (s : State) (a : Nat) (x : Front) : (s.setFront a x).fired = s.fired := rfl
@[simp] theorem State.setFront_trcflags (s : State) (a : Nat) (x : Front) : (s.setFront a x).trcflags = s.trcflags := rfl
@[simp] theorem State.setFront_trig (s : State) (a : Nat) (x : Front) : (s.setFront a x).trig = s.trig := rfl
@[simp] theorem State.setFront_sched (s : State) (a : Nat) (x : Front) : (s.setFront a x).sched = s.sched := rfl
@[simp] theorem State.setFront_actor (s : State) (a : Nat) (x : Front) : (s.setFront a x).actor = s.actor := rfl
@[simp] theorem State.setFront_freeCtr (s : State) (a : Nat) (x : Front) : (s.setFront a x).freeCtr = s.freeCtr := rfl
@[simp] theorem State.setFront_vec (s : State) (a b : Nat) (x : Front) : (s.setFront a x).vec b = s.vec b := rfl
@[simp] theorem State.setFront_core (s : State) (a b : Nat) (x : Front) : (s.setFront a x).core b = s.core b := rfl
@[simp] theorem State.setFront_cluster (s : State) (a b : Nat) (x : Front) : (s.setFront a x).cluster b = s.cluster b := rfl

/-! ## setVec -/

@[simp] theorem State.setVec_fronts (s : State) (a : Nat) (x : Vec) : (s.setVec a x).fronts = s.fronts := rfl
@[simp] theorem State.setVec_cores (s : State) (a : Nat) (x : Vec) : (s.setVec a x).cores = s.cores := rfl
@[simp] theorem State.setVec_clusters (s : State) (a : Nat) (x : Vec) : (s.setVec a x).clusters = s.clusters := rfl
@[simp] theorem State.setVec_mem (s : State) (a : Nat) (x : Vec) : (s.setVec a x).mem = s.mem := rfl
@[simp] theorem State.setVec_bgen (s : State) (a : Nat) (x : Vec) : (s.setVec a x).bgen = s.bgen := rfl
@[simp] theorem State.setVec_marks (s : State) (a : Nat) (x : Vec) : (s.setVec a x).marks = s.marks := rfl
@[simp] theorem State.setVec_live (s : State) (a : Nat) (x : Vec) : (s.setVec a x).live = s.live := rfl
@[simp] theorem State.setVec_slots (s : State) (a : Nat) (x : Vec) : (s.setVec a x).slots = s.slots := rfl
@[simp] theorem State.setVec_owed (s : State) (a : Nat) (x : Vec) : (s.setVec a x).owed = s.owed := rfl
@[simp] theorem State.setVec_stuck (s : State) (a : Nat) (x : Vec) : (s.setVec a x).stuck = s.stuck := rfl
@[simp] theorem State.setVec_uncor (s : State) (a : Nat) (x : Vec) : (s.setVec a x).uncor = s.uncor := rfl
@[simp] theorem State.setVec_cor (s : State) (a : Nat) (x : Vec) : (s.setVec a x).cor = s.cor := rfl
@[simp] theorem State.setVec_arrUncor (s : State) (a : Nat) (x : Vec) : (s.setVec a x).arrUncor = s.arrUncor := rfl
@[simp] theorem State.setVec_queues (s : State) (a : Nat) (x : Vec) : (s.setVec a x).queues = s.queues := rfl
@[simp] theorem State.setVec_placed (s : State) (a : Nat) (x : Vec) : (s.setVec a x).placed = s.placed := rfl
@[simp] theorem State.setVec_launchSeq (s : State) (a : Nat) (x : Vec) : (s.setVec a x).launchSeq = s.launchSeq := rfl
@[simp] theorem State.setVec_chosen (s : State) (a : Nat) (x : Vec) : (s.setVec a x).chosen = s.chosen := rfl
@[simp] theorem State.setVec_age (s : State) (a : Nat) (x : Vec) : (s.setVec a x).age = s.age := rfl
@[simp] theorem State.setVec_notifybase (s : State) (a : Nat) (x : Vec) : (s.setVec a x).notifybase = s.notifybase := rfl
@[simp] theorem State.setVec_subs (s : State) (a : Nat) (x : Vec) : (s.setVec a x).subs = s.subs := rfl
@[simp] theorem State.setVec_sensors (s : State) (a : Nat) (x : Vec) : (s.setVec a x).sensors = s.sensors := rfl
@[simp] theorem State.setVec_powerLimit (s : State) (a : Nat) (x : Vec) : (s.setVec a x).powerLimit = s.powerLimit := rfl
@[simp] theorem State.setVec_clearFor (s : State) (a : Nat) (x : Vec) : (s.setVec a x).clearFor = s.clearFor := rfl
@[simp] theorem State.setVec_time (s : State) (a : Nat) (x : Vec) : (s.setVec a x).time = s.time := rfl
@[simp] theorem State.setVec_dvc (s : State) (a : Nat) (x : Vec) : (s.setVec a x).dvc = s.dvc := rfl
@[simp] theorem State.setVec_dvs (s : State) (a : Nat) (x : Vec) : (s.setVec a x).dvs = s.dvs := rfl
@[simp] theorem State.setVec_dvfrz (s : State) (a : Nat) (x : Vec) : (s.setVec a x).dvfrz = s.dvfrz := rfl
@[simp] theorem State.setVec_trcctl (s : State) (a : Nat) (x : Vec) : (s.setVec a x).trcctl = s.trcctl := rfl
@[simp] theorem State.setVec_trcnext (s : State) (a : Nat) (x : Vec) : (s.setVec a x).trcnext = s.trcnext := rfl
@[simp] theorem State.setVec_trcwrap (s : State) (a : Nat) (x : Vec) : (s.setVec a x).trcwrap = s.trcwrap := rfl
@[simp] theorem State.setVec_trcaddr (s : State) (a : Nat) (x : Vec) : (s.setVec a x).trcaddr = s.trcaddr := rfl
@[simp] theorem State.setVec_trcsram (s : State) (a : Nat) (x : Vec) : (s.setVec a x).trcsram = s.trcsram := rfl
@[simp] theorem State.setVec_trcpost (s : State) (a : Nat) (x : Vec) : (s.setVec a x).trcpost = s.trcpost := rfl
@[simp] theorem State.setVec_trgctl (s : State) (a : Nat) (x : Vec) : (s.setVec a x).trgctl = s.trgctl := rfl
@[simp] theorem State.setVec_trgtime (s : State) (a : Nat) (x : Vec) : (s.setVec a x).trgtime = s.trgtime := rfl
@[simp] theorem State.setVec_trgcount (s : State) (a : Nat) (x : Vec) : (s.setVec a x).trgcount = s.trgcount := rfl
@[simp] theorem State.setVec_ready (s : State) (a : Nat) (x : Vec) : (s.setVec a x).ready = s.ready := rfl
@[simp] theorem State.setVec_threads (s : State) (a : Nat) (x : Vec) : (s.setVec a x).threads = s.threads := rfl
@[simp] theorem State.setVec_threadSeq (s : State) (a : Nat) (x : Vec) : (s.setVec a x).threadSeq = s.threadSeq := rfl
@[simp] theorem State.setVec_flash (s : State) (a : Nat) (x : Vec) : (s.setVec a x).flash = s.flash := rfl
@[simp] theorem State.setVec_packets (s : State) (a : Nat) (x : Vec) : (s.setVec a x).packets = s.packets := rfl
@[simp] theorem State.setVec_portSeq (s : State) (a : Nat) (x : Vec) : (s.setVec a x).portSeq = s.portSeq := rfl
@[simp] theorem State.setVec_portsDown (s : State) (a : Nat) (x : Vec) : (s.setVec a x).portsDown = s.portsDown := rfl
@[simp] theorem State.setVec_requests (s : State) (a : Nat) (x : Vec) : (s.setVec a x).requests = s.requests := rfl
@[simp] theorem State.setVec_arrived (s : State) (a : Nat) (x : Vec) : (s.setVec a x).arrived = s.arrived := rfl
@[simp] theorem State.setVec_rseq (s : State) (a : Nat) (x : Vec) : (s.setVec a x).rseq = s.rseq := rfl
@[simp] theorem State.setVec_responses (s : State) (a : Nat) (x : Vec) : (s.setVec a x).responses = s.responses := rfl
@[simp] theorem State.setVec_routesLost (s : State) (a : Nat) (x : Vec) : (s.setVec a x).routesLost = s.routesLost := rfl
@[simp] theorem State.setVec_inReset (s : State) (a : Nat) (x : Vec) : (s.setVec a x).inReset = s.inReset := rfl
@[simp] theorem State.setVec_sbReply (s : State) (a : Nat) (x : Vec) : (s.setVec a x).sbReply = s.sbReply := rfl
@[simp] theorem State.setVec_jtag (s : State) (a : Nat) (x : Vec) : (s.setVec a x).jtag = s.jtag := rfl
@[simp] theorem State.setVec_touches (s : State) (a : Nat) (x : Vec) : (s.setVec a x).touches = s.touches := rfl
@[simp] theorem State.setVec_fired (s : State) (a : Nat) (x : Vec) : (s.setVec a x).fired = s.fired := rfl
@[simp] theorem State.setVec_trcflags (s : State) (a : Nat) (x : Vec) : (s.setVec a x).trcflags = s.trcflags := rfl
@[simp] theorem State.setVec_trig (s : State) (a : Nat) (x : Vec) : (s.setVec a x).trig = s.trig := rfl
@[simp] theorem State.setVec_sched (s : State) (a : Nat) (x : Vec) : (s.setVec a x).sched = s.sched := rfl
@[simp] theorem State.setVec_actor (s : State) (a : Nat) (x : Vec) : (s.setVec a x).actor = s.actor := rfl
@[simp] theorem State.setVec_freeCtr (s : State) (a : Nat) (x : Vec) : (s.setVec a x).freeCtr = s.freeCtr := rfl
@[simp] theorem State.setVec_front (s : State) (a b : Nat) (x : Vec) : (s.setVec a x).front b = s.front b := rfl
@[simp] theorem State.setVec_core (s : State) (a b : Nat) (x : Vec) : (s.setVec a x).core b = s.core b := rfl
@[simp] theorem State.setVec_cluster (s : State) (a b : Nat) (x : Vec) : (s.setVec a x).cluster b = s.cluster b := rfl

/-! ## setCore -/

@[simp] theorem State.setCore_fronts (s : State) (a : Nat) (x : Core) : (s.setCore a x).fronts = s.fronts := rfl
@[simp] theorem State.setCore_vecs (s : State) (a : Nat) (x : Core) : (s.setCore a x).vecs = s.vecs := rfl
@[simp] theorem State.setCore_clusters (s : State) (a : Nat) (x : Core) : (s.setCore a x).clusters = s.clusters := rfl
@[simp] theorem State.setCore_mem (s : State) (a : Nat) (x : Core) : (s.setCore a x).mem = s.mem := rfl
@[simp] theorem State.setCore_bgen (s : State) (a : Nat) (x : Core) : (s.setCore a x).bgen = s.bgen := rfl
@[simp] theorem State.setCore_marks (s : State) (a : Nat) (x : Core) : (s.setCore a x).marks = s.marks := rfl
@[simp] theorem State.setCore_live (s : State) (a : Nat) (x : Core) : (s.setCore a x).live = s.live := rfl
@[simp] theorem State.setCore_slots (s : State) (a : Nat) (x : Core) : (s.setCore a x).slots = s.slots := rfl
@[simp] theorem State.setCore_owed (s : State) (a : Nat) (x : Core) : (s.setCore a x).owed = s.owed := rfl
@[simp] theorem State.setCore_stuck (s : State) (a : Nat) (x : Core) : (s.setCore a x).stuck = s.stuck := rfl
@[simp] theorem State.setCore_uncor (s : State) (a : Nat) (x : Core) : (s.setCore a x).uncor = s.uncor := rfl
@[simp] theorem State.setCore_cor (s : State) (a : Nat) (x : Core) : (s.setCore a x).cor = s.cor := rfl
@[simp] theorem State.setCore_arrUncor (s : State) (a : Nat) (x : Core) : (s.setCore a x).arrUncor = s.arrUncor := rfl
@[simp] theorem State.setCore_queues (s : State) (a : Nat) (x : Core) : (s.setCore a x).queues = s.queues := rfl
@[simp] theorem State.setCore_placed (s : State) (a : Nat) (x : Core) : (s.setCore a x).placed = s.placed := rfl
@[simp] theorem State.setCore_launchSeq (s : State) (a : Nat) (x : Core) : (s.setCore a x).launchSeq = s.launchSeq := rfl
@[simp] theorem State.setCore_chosen (s : State) (a : Nat) (x : Core) : (s.setCore a x).chosen = s.chosen := rfl
@[simp] theorem State.setCore_age (s : State) (a : Nat) (x : Core) : (s.setCore a x).age = s.age := rfl
@[simp] theorem State.setCore_notifybase (s : State) (a : Nat) (x : Core) : (s.setCore a x).notifybase = s.notifybase := rfl
@[simp] theorem State.setCore_subs (s : State) (a : Nat) (x : Core) : (s.setCore a x).subs = s.subs := rfl
@[simp] theorem State.setCore_sensors (s : State) (a : Nat) (x : Core) : (s.setCore a x).sensors = s.sensors := rfl
@[simp] theorem State.setCore_powerLimit (s : State) (a : Nat) (x : Core) : (s.setCore a x).powerLimit = s.powerLimit := rfl
@[simp] theorem State.setCore_clearFor (s : State) (a : Nat) (x : Core) : (s.setCore a x).clearFor = s.clearFor := rfl
@[simp] theorem State.setCore_time (s : State) (a : Nat) (x : Core) : (s.setCore a x).time = s.time := rfl
@[simp] theorem State.setCore_dvc (s : State) (a : Nat) (x : Core) : (s.setCore a x).dvc = s.dvc := rfl
@[simp] theorem State.setCore_dvs (s : State) (a : Nat) (x : Core) : (s.setCore a x).dvs = s.dvs := rfl
@[simp] theorem State.setCore_dvfrz (s : State) (a : Nat) (x : Core) : (s.setCore a x).dvfrz = s.dvfrz := rfl
@[simp] theorem State.setCore_trcctl (s : State) (a : Nat) (x : Core) : (s.setCore a x).trcctl = s.trcctl := rfl
@[simp] theorem State.setCore_trcnext (s : State) (a : Nat) (x : Core) : (s.setCore a x).trcnext = s.trcnext := rfl
@[simp] theorem State.setCore_trcwrap (s : State) (a : Nat) (x : Core) : (s.setCore a x).trcwrap = s.trcwrap := rfl
@[simp] theorem State.setCore_trcaddr (s : State) (a : Nat) (x : Core) : (s.setCore a x).trcaddr = s.trcaddr := rfl
@[simp] theorem State.setCore_trcsram (s : State) (a : Nat) (x : Core) : (s.setCore a x).trcsram = s.trcsram := rfl
@[simp] theorem State.setCore_trcpost (s : State) (a : Nat) (x : Core) : (s.setCore a x).trcpost = s.trcpost := rfl
@[simp] theorem State.setCore_trgctl (s : State) (a : Nat) (x : Core) : (s.setCore a x).trgctl = s.trgctl := rfl
@[simp] theorem State.setCore_trgtime (s : State) (a : Nat) (x : Core) : (s.setCore a x).trgtime = s.trgtime := rfl
@[simp] theorem State.setCore_trgcount (s : State) (a : Nat) (x : Core) : (s.setCore a x).trgcount = s.trgcount := rfl
@[simp] theorem State.setCore_ready (s : State) (a : Nat) (x : Core) : (s.setCore a x).ready = s.ready := rfl
@[simp] theorem State.setCore_threads (s : State) (a : Nat) (x : Core) : (s.setCore a x).threads = s.threads := rfl
@[simp] theorem State.setCore_threadSeq (s : State) (a : Nat) (x : Core) : (s.setCore a x).threadSeq = s.threadSeq := rfl
@[simp] theorem State.setCore_flash (s : State) (a : Nat) (x : Core) : (s.setCore a x).flash = s.flash := rfl
@[simp] theorem State.setCore_packets (s : State) (a : Nat) (x : Core) : (s.setCore a x).packets = s.packets := rfl
@[simp] theorem State.setCore_portSeq (s : State) (a : Nat) (x : Core) : (s.setCore a x).portSeq = s.portSeq := rfl
@[simp] theorem State.setCore_portsDown (s : State) (a : Nat) (x : Core) : (s.setCore a x).portsDown = s.portsDown := rfl
@[simp] theorem State.setCore_requests (s : State) (a : Nat) (x : Core) : (s.setCore a x).requests = s.requests := rfl
@[simp] theorem State.setCore_arrived (s : State) (a : Nat) (x : Core) : (s.setCore a x).arrived = s.arrived := rfl
@[simp] theorem State.setCore_rseq (s : State) (a : Nat) (x : Core) : (s.setCore a x).rseq = s.rseq := rfl
@[simp] theorem State.setCore_responses (s : State) (a : Nat) (x : Core) : (s.setCore a x).responses = s.responses := rfl
@[simp] theorem State.setCore_routesLost (s : State) (a : Nat) (x : Core) : (s.setCore a x).routesLost = s.routesLost := rfl
@[simp] theorem State.setCore_inReset (s : State) (a : Nat) (x : Core) : (s.setCore a x).inReset = s.inReset := rfl
@[simp] theorem State.setCore_sbReply (s : State) (a : Nat) (x : Core) : (s.setCore a x).sbReply = s.sbReply := rfl
@[simp] theorem State.setCore_jtag (s : State) (a : Nat) (x : Core) : (s.setCore a x).jtag = s.jtag := rfl
@[simp] theorem State.setCore_touches (s : State) (a : Nat) (x : Core) : (s.setCore a x).touches = s.touches := rfl
@[simp] theorem State.setCore_fired (s : State) (a : Nat) (x : Core) : (s.setCore a x).fired = s.fired := rfl
@[simp] theorem State.setCore_trcflags (s : State) (a : Nat) (x : Core) : (s.setCore a x).trcflags = s.trcflags := rfl
@[simp] theorem State.setCore_trig (s : State) (a : Nat) (x : Core) : (s.setCore a x).trig = s.trig := rfl
@[simp] theorem State.setCore_sched (s : State) (a : Nat) (x : Core) : (s.setCore a x).sched = s.sched := rfl
@[simp] theorem State.setCore_actor (s : State) (a : Nat) (x : Core) : (s.setCore a x).actor = s.actor := rfl
@[simp] theorem State.setCore_freeCtr (s : State) (a : Nat) (x : Core) : (s.setCore a x).freeCtr = s.freeCtr := rfl
@[simp] theorem State.setCore_front (s : State) (a b : Nat) (x : Core) : (s.setCore a x).front b = s.front b := rfl
@[simp] theorem State.setCore_vec (s : State) (a b : Nat) (x : Core) : (s.setCore a x).vec b = s.vec b := rfl
@[simp] theorem State.setCore_cluster (s : State) (a b : Nat) (x : Core) : (s.setCore a x).cluster b = s.cluster b := rfl

/-! ## setCluster -/

@[simp] theorem State.setCluster_fronts (s : State) (a : Nat) (x : Cluster) : (s.setCluster a x).fronts = s.fronts := rfl
@[simp] theorem State.setCluster_vecs (s : State) (a : Nat) (x : Cluster) : (s.setCluster a x).vecs = s.vecs := rfl
@[simp] theorem State.setCluster_cores (s : State) (a : Nat) (x : Cluster) : (s.setCluster a x).cores = s.cores := rfl
@[simp] theorem State.setCluster_mem (s : State) (a : Nat) (x : Cluster) : (s.setCluster a x).mem = s.mem := rfl
@[simp] theorem State.setCluster_bgen (s : State) (a : Nat) (x : Cluster) : (s.setCluster a x).bgen = s.bgen := rfl
@[simp] theorem State.setCluster_marks (s : State) (a : Nat) (x : Cluster) : (s.setCluster a x).marks = s.marks := rfl
@[simp] theorem State.setCluster_live (s : State) (a : Nat) (x : Cluster) : (s.setCluster a x).live = s.live := rfl
@[simp] theorem State.setCluster_slots (s : State) (a : Nat) (x : Cluster) : (s.setCluster a x).slots = s.slots := rfl
@[simp] theorem State.setCluster_owed (s : State) (a : Nat) (x : Cluster) : (s.setCluster a x).owed = s.owed := rfl
@[simp] theorem State.setCluster_stuck (s : State) (a : Nat) (x : Cluster) : (s.setCluster a x).stuck = s.stuck := rfl
@[simp] theorem State.setCluster_uncor (s : State) (a : Nat) (x : Cluster) : (s.setCluster a x).uncor = s.uncor := rfl
@[simp] theorem State.setCluster_cor (s : State) (a : Nat) (x : Cluster) : (s.setCluster a x).cor = s.cor := rfl
@[simp] theorem State.setCluster_arrUncor (s : State) (a : Nat) (x : Cluster) : (s.setCluster a x).arrUncor = s.arrUncor := rfl
@[simp] theorem State.setCluster_queues (s : State) (a : Nat) (x : Cluster) : (s.setCluster a x).queues = s.queues := rfl
@[simp] theorem State.setCluster_placed (s : State) (a : Nat) (x : Cluster) : (s.setCluster a x).placed = s.placed := rfl
@[simp] theorem State.setCluster_launchSeq (s : State) (a : Nat) (x : Cluster) : (s.setCluster a x).launchSeq = s.launchSeq := rfl
@[simp] theorem State.setCluster_chosen (s : State) (a : Nat) (x : Cluster) : (s.setCluster a x).chosen = s.chosen := rfl
@[simp] theorem State.setCluster_age (s : State) (a : Nat) (x : Cluster) : (s.setCluster a x).age = s.age := rfl
@[simp] theorem State.setCluster_notifybase (s : State) (a : Nat) (x : Cluster) : (s.setCluster a x).notifybase = s.notifybase := rfl
@[simp] theorem State.setCluster_subs (s : State) (a : Nat) (x : Cluster) : (s.setCluster a x).subs = s.subs := rfl
@[simp] theorem State.setCluster_sensors (s : State) (a : Nat) (x : Cluster) : (s.setCluster a x).sensors = s.sensors := rfl
@[simp] theorem State.setCluster_powerLimit (s : State) (a : Nat) (x : Cluster) : (s.setCluster a x).powerLimit = s.powerLimit := rfl
@[simp] theorem State.setCluster_clearFor (s : State) (a : Nat) (x : Cluster) : (s.setCluster a x).clearFor = s.clearFor := rfl
@[simp] theorem State.setCluster_time (s : State) (a : Nat) (x : Cluster) : (s.setCluster a x).time = s.time := rfl
@[simp] theorem State.setCluster_dvc (s : State) (a : Nat) (x : Cluster) : (s.setCluster a x).dvc = s.dvc := rfl
@[simp] theorem State.setCluster_dvs (s : State) (a : Nat) (x : Cluster) : (s.setCluster a x).dvs = s.dvs := rfl
@[simp] theorem State.setCluster_dvfrz (s : State) (a : Nat) (x : Cluster) : (s.setCluster a x).dvfrz = s.dvfrz := rfl
@[simp] theorem State.setCluster_trcctl (s : State) (a : Nat) (x : Cluster) : (s.setCluster a x).trcctl = s.trcctl := rfl
@[simp] theorem State.setCluster_trcnext (s : State) (a : Nat) (x : Cluster) : (s.setCluster a x).trcnext = s.trcnext := rfl
@[simp] theorem State.setCluster_trcwrap (s : State) (a : Nat) (x : Cluster) : (s.setCluster a x).trcwrap = s.trcwrap := rfl
@[simp] theorem State.setCluster_trcaddr (s : State) (a : Nat) (x : Cluster) : (s.setCluster a x).trcaddr = s.trcaddr := rfl
@[simp] theorem State.setCluster_trcsram (s : State) (a : Nat) (x : Cluster) : (s.setCluster a x).trcsram = s.trcsram := rfl
@[simp] theorem State.setCluster_trcpost (s : State) (a : Nat) (x : Cluster) : (s.setCluster a x).trcpost = s.trcpost := rfl
@[simp] theorem State.setCluster_trgctl (s : State) (a : Nat) (x : Cluster) : (s.setCluster a x).trgctl = s.trgctl := rfl
@[simp] theorem State.setCluster_trgtime (s : State) (a : Nat) (x : Cluster) : (s.setCluster a x).trgtime = s.trgtime := rfl
@[simp] theorem State.setCluster_trgcount (s : State) (a : Nat) (x : Cluster) : (s.setCluster a x).trgcount = s.trgcount := rfl
@[simp] theorem State.setCluster_ready (s : State) (a : Nat) (x : Cluster) : (s.setCluster a x).ready = s.ready := rfl
@[simp] theorem State.setCluster_threads (s : State) (a : Nat) (x : Cluster) : (s.setCluster a x).threads = s.threads := rfl
@[simp] theorem State.setCluster_threadSeq (s : State) (a : Nat) (x : Cluster) : (s.setCluster a x).threadSeq = s.threadSeq := rfl
@[simp] theorem State.setCluster_flash (s : State) (a : Nat) (x : Cluster) : (s.setCluster a x).flash = s.flash := rfl
@[simp] theorem State.setCluster_packets (s : State) (a : Nat) (x : Cluster) : (s.setCluster a x).packets = s.packets := rfl
@[simp] theorem State.setCluster_portSeq (s : State) (a : Nat) (x : Cluster) : (s.setCluster a x).portSeq = s.portSeq := rfl
@[simp] theorem State.setCluster_portsDown (s : State) (a : Nat) (x : Cluster) : (s.setCluster a x).portsDown = s.portsDown := rfl
@[simp] theorem State.setCluster_requests (s : State) (a : Nat) (x : Cluster) : (s.setCluster a x).requests = s.requests := rfl
@[simp] theorem State.setCluster_arrived (s : State) (a : Nat) (x : Cluster) : (s.setCluster a x).arrived = s.arrived := rfl
@[simp] theorem State.setCluster_rseq (s : State) (a : Nat) (x : Cluster) : (s.setCluster a x).rseq = s.rseq := rfl
@[simp] theorem State.setCluster_responses (s : State) (a : Nat) (x : Cluster) : (s.setCluster a x).responses = s.responses := rfl
@[simp] theorem State.setCluster_routesLost (s : State) (a : Nat) (x : Cluster) : (s.setCluster a x).routesLost = s.routesLost := rfl
@[simp] theorem State.setCluster_inReset (s : State) (a : Nat) (x : Cluster) : (s.setCluster a x).inReset = s.inReset := rfl
@[simp] theorem State.setCluster_sbReply (s : State) (a : Nat) (x : Cluster) : (s.setCluster a x).sbReply = s.sbReply := rfl
@[simp] theorem State.setCluster_jtag (s : State) (a : Nat) (x : Cluster) : (s.setCluster a x).jtag = s.jtag := rfl
@[simp] theorem State.setCluster_touches (s : State) (a : Nat) (x : Cluster) : (s.setCluster a x).touches = s.touches := rfl
@[simp] theorem State.setCluster_fired (s : State) (a : Nat) (x : Cluster) : (s.setCluster a x).fired = s.fired := rfl
@[simp] theorem State.setCluster_trcflags (s : State) (a : Nat) (x : Cluster) : (s.setCluster a x).trcflags = s.trcflags := rfl
@[simp] theorem State.setCluster_trig (s : State) (a : Nat) (x : Cluster) : (s.setCluster a x).trig = s.trig := rfl
@[simp] theorem State.setCluster_sched (s : State) (a : Nat) (x : Cluster) : (s.setCluster a x).sched = s.sched := rfl
@[simp] theorem State.setCluster_actor (s : State) (a : Nat) (x : Cluster) : (s.setCluster a x).actor = s.actor := rfl
@[simp] theorem State.setCluster_freeCtr (s : State) (a : Nat) (x : Cluster) : (s.setCluster a x).freeCtr = s.freeCtr := rfl
@[simp] theorem State.setCluster_front (s : State) (a b : Nat) (x : Cluster) : (s.setCluster a x).front b = s.front b := rfl
@[simp] theorem State.setCluster_vec (s : State) (a b : Nat) (x : Cluster) : (s.setCluster a x).vec b = s.vec b := rfl
@[simp] theorem State.setCluster_core (s : State) (a b : Nat) (x : Cluster) : (s.setCluster a x).core b = s.core b := rfl

/-! ## x registers -/

/-- x0 reads 0 (R78). -/
@[simp] theorem Front.xr_zero (f : Front) : f.xr 0 = 0 := rfl

/-- A write of x(r) is read back, x0 discards it, and the other registers stay (R78). -/
theorem Front.xr_setX (f : Front) (r q : XReg) (v : W64) :
    (f.setX r v).xr q = if q = r ∧ r ≠ 0 then v else f.xr q := by
  unfold Front.setX
  by_cases hr : r = 0
  · simp [hr]
  · simp only [hr, if_false]
    unfold Front.xr
    by_cases hq : q = 0
    · subst hq
      have h0 : ¬ ((0 : XReg) = r ∧ r ≠ 0) := fun h => hr h.1.symm
      rw [if_neg h0]
      rfl
    · simp only [hq, if_false, ne_eq, hr, not_false_eq_true, and_true]
      by_cases hqr : q = r
      · subst hqr
        simp [Vector.getD, Vector.setIfInBounds, q.isLt]
      · have h1 : ¬ r.toNat = q.toNat := fun h => hqr (BitVec.eq_of_toNat_eq h.symm)
        simp [Vector.getD, hqr, q.isLt, h1]

@[simp] theorem Front.setX_pend (f : Front) (r : XReg) (v : W64) : (f.setX r v).pend = f.pend := by unfold Front.setX; split <;> rfl
@[simp] theorem Front.setX_pc (f : Front) (r : XReg) (v : W64) : (f.setX r v).pc = f.pc := by unfold Front.setX; split <;> rfl
@[simp] theorem Front.setX_status (f : Front) (r : XReg) (v : W64) : (f.setX r v).status = f.status := by unfold Front.setX; split <;> rfl
@[simp] theorem Front.setX_cause (f : Front) (r : XReg) (v : W64) : (f.setX r v).cause = f.cause := by unfold Front.setX; split <;> rfl
@[simp] theorem Front.setX_epc (f : Front) (r : XReg) (v : W64) : (f.setX r v).epc = f.epc := by unfold Front.setX; split <;> rfl
@[simp] theorem Front.setX_tval (f : Front) (r : XReg) (v : W64) : (f.setX r v).tval = f.tval := by unfold Front.setX; split <;> rfl
@[simp] theorem Front.setX_tvec (f : Front) (r : XReg) (v : W64) : (f.setX r v).tvec = f.tvec := by unfold Front.setX; split <;> rfl
@[simp] theorem Front.setX_scratch (f : Front) (r : XReg) (v : W64) : (f.setX r v).scratch = f.scratch := by unfold Front.setX; split <;> rfl
@[simp] theorem Front.setX_aspace (f : Front) (r : XReg) (v : W64) : (f.setX r v).aspace = f.aspace := by unfold Front.setX; split <;> rfl
@[simp] theorem Front.setX_spc (f : Front) (r : XReg) (v : W64) : (f.setX r v).spc = f.spc := by unfold Front.setX; split <;> rfl
@[simp] theorem Front.setX_vcp (f : Front) (r : XReg) (v : W64) : (f.setX r v).vcp = f.vcp := by unfold Front.setX; split <;> rfl
@[simp] theorem Front.setX_instret (f : Front) (r : XReg) (v : W64) : (f.setX r v).instret = f.instret := by unfold Front.setX; split <;> rfl
@[simp] theorem Front.setX_curgen (f : Front) (r : XReg) (v : W64) : (f.setX r v).curgen = f.curgen := by unfold Front.setX; split <;> rfl
@[simp] theorem Front.setX_shVtype (f : Front) (r : XReg) (v : W64) : (f.setX r v).shVtype = f.shVtype := by unfold Front.setX; split <;> rfl
@[simp] theorem Front.setX_shVl (f : Front) (r : XReg) (v : W64) : (f.setX r v).shVl = f.shVl := by unfold Front.setX; split <;> rfl
@[simp] theorem Front.setX_monLine (f : Front) (r : XReg) (v : W64) : (f.setX r v).monLine = f.monLine := by unfold Front.setX; split <;> rfl
@[simp] theorem Front.setX_monEvent (f : Front) (r : XReg) (v : W64) : (f.setX r v).monEvent = f.monEvent := by unfold Front.setX; split <;> rfl
@[simp] theorem Front.setX_run (f : Front) (r : XReg) (v : W64) : (f.setX r v).run = f.run := by unfold Front.setX; split <;> rfl
@[simp] theorem Front.setX_entering (f : Front) (r : XReg) (v : W64) : (f.setX r v).entering = f.entering := by unfold Front.setX; split <;> rfl
@[simp] theorem Front.setX_freezing (f : Front) (r : XReg) (v : W64) : (f.setX r v).freezing = f.freezing := by unfold Front.setX; split <;> rfl
@[simp] theorem Front.setX_frozen (f : Front) (r : XReg) (v : W64) : (f.setX r v).frozen = f.frozen := by unfold Front.setX; split <;> rfl
@[simp] theorem Front.setX_held (f : Front) (r : XReg) (v : W64) : (f.setX r v).held = f.held := by unfold Front.setX; split <;> rfl
@[simp] theorem Front.setX_tokens (f : Front) (r : XReg) (v : W64) : (f.setX r v).tokens = f.tokens := by unfold Front.setX; split <;> rfl
@[simp] theorem Front.setX_acc (f : Front) (r : XReg) (v : W64) : (f.setX r v).acc = f.acc := by unfold Front.setX; split <;> rfl
@[simp] theorem Front.setX_po (f : Front) (r : XReg) (v : W64) : (f.setX r v).po = f.po := by unfold Front.setX; split <;> rfl
@[simp] theorem Front.setX_launch (f : Front) (r : XReg) (v : W64) : (f.setX r v).launch = f.launch := by unfold Front.setX; split <;> rfl
@[simp] theorem Front.setX_member (f : Front) (r : XReg) (v : W64) : (f.setX r v).member = f.member := by unfold Front.setX; split <;> rfl
@[simp] theorem Front.setX_preempt (f : Front) (r : XReg) (v : W64) : (f.setX r v).preempt = f.preempt := by unfold Front.setX; split <;> rfl
@[simp] theorem Front.setX_stopped (f : Front) (r : XReg) (v : W64) : (f.setX r v).stopped = f.stopped := by unfold Front.setX; split <;> rfl
@[simp] theorem Front.setX_fatal (f : Front) (r : XReg) (v : W64) : (f.setX r v).fatal = f.fatal := by unfold Front.setX; split <;> rfl
@[simp] theorem Front.setPend_x (f : Front) (r : XReg) : (f.setPend r).x = f.x := by unfold Front.setPend; split <;> rfl
@[simp] theorem Front.setPend_bad (f : Front) (r : XReg) : (f.setPend r).bad = f.bad := by unfold Front.setPend; split <;> rfl
@[simp] theorem Front.setPend_pc (f : Front) (r : XReg) : (f.setPend r).pc = f.pc := by unfold Front.setPend; split <;> rfl
@[simp] theorem Front.setPend_status (f : Front) (r : XReg) : (f.setPend r).status = f.status := by unfold Front.setPend; split <;> rfl
@[simp] theorem Front.setPend_cause (f : Front) (r : XReg) : (f.setPend r).cause = f.cause := by unfold Front.setPend; split <;> rfl
@[simp] theorem Front.setPend_epc (f : Front) (r : XReg) : (f.setPend r).epc = f.epc := by unfold Front.setPend; split <;> rfl
@[simp] theorem Front.setPend_tval (f : Front) (r : XReg) : (f.setPend r).tval = f.tval := by unfold Front.setPend; split <;> rfl
@[simp] theorem Front.setPend_tvec (f : Front) (r : XReg) : (f.setPend r).tvec = f.tvec := by unfold Front.setPend; split <;> rfl
@[simp] theorem Front.setPend_scratch (f : Front) (r : XReg) : (f.setPend r).scratch = f.scratch := by unfold Front.setPend; split <;> rfl
@[simp] theorem Front.setPend_aspace (f : Front) (r : XReg) : (f.setPend r).aspace = f.aspace := by unfold Front.setPend; split <;> rfl
@[simp] theorem Front.setPend_spc (f : Front) (r : XReg) : (f.setPend r).spc = f.spc := by unfold Front.setPend; split <;> rfl
@[simp] theorem Front.setPend_vcp (f : Front) (r : XReg) : (f.setPend r).vcp = f.vcp := by unfold Front.setPend; split <;> rfl
@[simp] theorem Front.setPend_instret (f : Front) (r : XReg) : (f.setPend r).instret = f.instret := by unfold Front.setPend; split <;> rfl
@[simp] theorem Front.setPend_curgen (f : Front) (r : XReg) : (f.setPend r).curgen = f.curgen := by unfold Front.setPend; split <;> rfl
@[simp] theorem Front.setPend_shVtype (f : Front) (r : XReg) : (f.setPend r).shVtype = f.shVtype := by unfold Front.setPend; split <;> rfl
@[simp] theorem Front.setPend_shVl (f : Front) (r : XReg) : (f.setPend r).shVl = f.shVl := by unfold Front.setPend; split <;> rfl
@[simp] theorem Front.setPend_monLine (f : Front) (r : XReg) : (f.setPend r).monLine = f.monLine := by unfold Front.setPend; split <;> rfl
@[simp] theorem Front.setPend_monEvent (f : Front) (r : XReg) : (f.setPend r).monEvent = f.monEvent := by unfold Front.setPend; split <;> rfl
@[simp] theorem Front.setPend_run (f : Front) (r : XReg) : (f.setPend r).run = f.run := by unfold Front.setPend; split <;> rfl
@[simp] theorem Front.setPend_entering (f : Front) (r : XReg) : (f.setPend r).entering = f.entering := by unfold Front.setPend; split <;> rfl
@[simp] theorem Front.setPend_freezing (f : Front) (r : XReg) : (f.setPend r).freezing = f.freezing := by unfold Front.setPend; split <;> rfl
@[simp] theorem Front.setPend_frozen (f : Front) (r : XReg) : (f.setPend r).frozen = f.frozen := by unfold Front.setPend; split <;> rfl
@[simp] theorem Front.setPend_held (f : Front) (r : XReg) : (f.setPend r).held = f.held := by unfold Front.setPend; split <;> rfl
@[simp] theorem Front.setPend_tokens (f : Front) (r : XReg) : (f.setPend r).tokens = f.tokens := by unfold Front.setPend; split <;> rfl
@[simp] theorem Front.setPend_acc (f : Front) (r : XReg) : (f.setPend r).acc = f.acc := by unfold Front.setPend; split <;> rfl
@[simp] theorem Front.setPend_po (f : Front) (r : XReg) : (f.setPend r).po = f.po := by unfold Front.setPend; split <;> rfl
@[simp] theorem Front.setPend_launch (f : Front) (r : XReg) : (f.setPend r).launch = f.launch := by unfold Front.setPend; split <;> rfl
@[simp] theorem Front.setPend_member (f : Front) (r : XReg) : (f.setPend r).member = f.member := by unfold Front.setPend; split <;> rfl
@[simp] theorem Front.setPend_preempt (f : Front) (r : XReg) : (f.setPend r).preempt = f.preempt := by unfold Front.setPend; split <;> rfl
@[simp] theorem Front.setPend_stopped (f : Front) (r : XReg) : (f.setPend r).stopped = f.stopped := by unfold Front.setPend; split <;> rfl
@[simp] theorem Front.setPend_fatal (f : Front) (r : XReg) : (f.setPend r).fatal = f.fatal := by unfold Front.setPend; split <;> rfl
@[simp] theorem Front.deliver_pc (f : Front) (r : XReg) (v : W64) : (f.deliver r v).pc = f.pc := by unfold Front.deliver; simp
@[simp] theorem Front.deliver_status (f : Front) (r : XReg) (v : W64) : (f.deliver r v).status = f.status := by unfold Front.deliver; simp
@[simp] theorem Front.deliver_cause (f : Front) (r : XReg) (v : W64) : (f.deliver r v).cause = f.cause := by unfold Front.deliver; simp
@[simp] theorem Front.deliver_epc (f : Front) (r : XReg) (v : W64) : (f.deliver r v).epc = f.epc := by unfold Front.deliver; simp
@[simp] theorem Front.deliver_tval (f : Front) (r : XReg) (v : W64) : (f.deliver r v).tval = f.tval := by unfold Front.deliver; simp
@[simp] theorem Front.deliver_tvec (f : Front) (r : XReg) (v : W64) : (f.deliver r v).tvec = f.tvec := by unfold Front.deliver; simp
@[simp] theorem Front.deliver_scratch (f : Front) (r : XReg) (v : W64) : (f.deliver r v).scratch = f.scratch := by unfold Front.deliver; simp
@[simp] theorem Front.deliver_aspace (f : Front) (r : XReg) (v : W64) : (f.deliver r v).aspace = f.aspace := by unfold Front.deliver; simp
@[simp] theorem Front.deliver_spc (f : Front) (r : XReg) (v : W64) : (f.deliver r v).spc = f.spc := by unfold Front.deliver; simp
@[simp] theorem Front.deliver_vcp (f : Front) (r : XReg) (v : W64) : (f.deliver r v).vcp = f.vcp := by unfold Front.deliver; simp
@[simp] theorem Front.deliver_instret (f : Front) (r : XReg) (v : W64) : (f.deliver r v).instret = f.instret := by unfold Front.deliver; simp
@[simp] theorem Front.deliver_curgen (f : Front) (r : XReg) (v : W64) : (f.deliver r v).curgen = f.curgen := by unfold Front.deliver; simp
@[simp] theorem Front.deliver_shVtype (f : Front) (r : XReg) (v : W64) : (f.deliver r v).shVtype = f.shVtype := by unfold Front.deliver; simp
@[simp] theorem Front.deliver_shVl (f : Front) (r : XReg) (v : W64) : (f.deliver r v).shVl = f.shVl := by unfold Front.deliver; simp
@[simp] theorem Front.deliver_monLine (f : Front) (r : XReg) (v : W64) : (f.deliver r v).monLine = f.monLine := by unfold Front.deliver; simp
@[simp] theorem Front.deliver_monEvent (f : Front) (r : XReg) (v : W64) : (f.deliver r v).monEvent = f.monEvent := by unfold Front.deliver; simp
@[simp] theorem Front.deliver_run (f : Front) (r : XReg) (v : W64) : (f.deliver r v).run = f.run := by unfold Front.deliver; simp
@[simp] theorem Front.deliver_entering (f : Front) (r : XReg) (v : W64) : (f.deliver r v).entering = f.entering := by unfold Front.deliver; simp
@[simp] theorem Front.deliver_freezing (f : Front) (r : XReg) (v : W64) : (f.deliver r v).freezing = f.freezing := by unfold Front.deliver; simp
@[simp] theorem Front.deliver_frozen (f : Front) (r : XReg) (v : W64) : (f.deliver r v).frozen = f.frozen := by unfold Front.deliver; simp
@[simp] theorem Front.deliver_held (f : Front) (r : XReg) (v : W64) : (f.deliver r v).held = f.held := by unfold Front.deliver; simp
@[simp] theorem Front.deliver_tokens (f : Front) (r : XReg) (v : W64) : (f.deliver r v).tokens = f.tokens := by unfold Front.deliver; simp
@[simp] theorem Front.deliver_acc (f : Front) (r : XReg) (v : W64) : (f.deliver r v).acc = f.acc := by unfold Front.deliver; simp
@[simp] theorem Front.deliver_po (f : Front) (r : XReg) (v : W64) : (f.deliver r v).po = f.po := by unfold Front.deliver; simp
@[simp] theorem Front.deliver_launch (f : Front) (r : XReg) (v : W64) : (f.deliver r v).launch = f.launch := by unfold Front.deliver; simp
@[simp] theorem Front.deliver_member (f : Front) (r : XReg) (v : W64) : (f.deliver r v).member = f.member := by unfold Front.deliver; simp
@[simp] theorem Front.deliver_preempt (f : Front) (r : XReg) (v : W64) : (f.deliver r v).preempt = f.preempt := by unfold Front.deliver; simp
@[simp] theorem Front.deliver_stopped (f : Front) (r : XReg) (v : W64) : (f.deliver r v).stopped = f.stopped := by unfold Front.deliver; simp
@[simp] theorem Front.deliver_fatal (f : Front) (r : XReg) (v : W64) : (f.deliver r v).fatal = f.fatal := by unfold Front.deliver; simp

/-- A delivery writes the register as any write does. -/
theorem Front.xr_deliver (f : Front) (r q : XReg) (v : W64) :
    (f.deliver r v).xr q = if q = r ∧ r ≠ 0 then v else f.xr q := by
  unfold Front.deliver
  rw [Front.xr_setX]
  rfl

@[simp] theorem Front.xr_setPend (f : Front) (r q : XReg) : (f.setPend r).xr q = f.xr q := by
  simp [Front.xr]

/-! ## Issue and completion of a scalar instruction -/

@[simp] theorem State.retire_front_self (s : State) (a : Nat) (npc : W64) :
    (s.retire a npc).front a = { s.front a with pc := npc, po := (s.front a).po + 1, instret := (s.front a).instret + 1 } := by
  simp [State.retire]

@[simp] theorem State.issue_front_self (s : State) (a : Nat) (npc : W64) :
    (s.issue a npc).front a = { s.front a with pc := npc, po := (s.front a).po + 1 } := by
  simp [State.issue]

@[simp] theorem State.writeX_front_self (s : State) (a : Nat) (d : XReg) (v : W64) :
    (s.writeX a d v).front a = (s.front a).setX d v := by
  simp [State.writeX]

theorem State.retire_front_other (s : State) {a b : Nat} (npc : W64) (h : b ≠ a) : (s.retire a npc).front b = s.front b := by
  simp [State.retire, State.front_setFront, h]

theorem State.issue_front_other (s : State) {a b : Nat} (npc : W64) (h : b ≠ a) : (s.issue a npc).front b = s.front b := by
  simp [State.issue, State.front_setFront, h]

theorem State.writeX_front_other (s : State) {a b : Nat} (d : XReg) (v : W64) (h : b ≠ a) :
    (s.writeX a d v).front b = s.front b := by
  simp [State.writeX, State.front_setFront, h]

@[simp] theorem State.retire_vecs (s : State) (a : Nat) (npc : W64) : (s.retire a npc).vecs = s.vecs := rfl
@[simp] theorem State.retire_cores (s : State) (a : Nat) (npc : W64) : (s.retire a npc).cores = s.cores := rfl
@[simp] theorem State.retire_clusters (s : State) (a : Nat) (npc : W64) : (s.retire a npc).clusters = s.clusters := rfl
@[simp] theorem State.retire_mem (s : State) (a : Nat) (npc : W64) : (s.retire a npc).mem = s.mem := rfl
@[simp] theorem State.retire_bgen (s : State) (a : Nat) (npc : W64) : (s.retire a npc).bgen = s.bgen := rfl
@[simp] theorem State.retire_marks (s : State) (a : Nat) (npc : W64) : (s.retire a npc).marks = s.marks := rfl
@[simp] theorem State.retire_live (s : State) (a : Nat) (npc : W64) : (s.retire a npc).live = s.live := rfl
@[simp] theorem State.retire_slots (s : State) (a : Nat) (npc : W64) : (s.retire a npc).slots = s.slots := rfl
@[simp] theorem State.retire_owed (s : State) (a : Nat) (npc : W64) : (s.retire a npc).owed = s.owed := rfl
@[simp] theorem State.retire_stuck (s : State) (a : Nat) (npc : W64) : (s.retire a npc).stuck = s.stuck := rfl
@[simp] theorem State.retire_uncor (s : State) (a : Nat) (npc : W64) : (s.retire a npc).uncor = s.uncor := rfl
@[simp] theorem State.retire_cor (s : State) (a : Nat) (npc : W64) : (s.retire a npc).cor = s.cor := rfl
@[simp] theorem State.retire_arrUncor (s : State) (a : Nat) (npc : W64) : (s.retire a npc).arrUncor = s.arrUncor := rfl
@[simp] theorem State.retire_queues (s : State) (a : Nat) (npc : W64) : (s.retire a npc).queues = s.queues := rfl
@[simp] theorem State.retire_placed (s : State) (a : Nat) (npc : W64) : (s.retire a npc).placed = s.placed := rfl
@[simp] theorem State.retire_launchSeq (s : State) (a : Nat) (npc : W64) : (s.retire a npc).launchSeq = s.launchSeq := rfl
@[simp] theorem State.retire_chosen (s : State) (a : Nat) (npc : W64) : (s.retire a npc).chosen = s.chosen := rfl
@[simp] theorem State.retire_age (s : State) (a : Nat) (npc : W64) : (s.retire a npc).age = s.age := rfl
@[simp] theorem State.retire_notifybase (s : State) (a : Nat) (npc : W64) : (s.retire a npc).notifybase = s.notifybase := rfl
@[simp] theorem State.retire_subs (s : State) (a : Nat) (npc : W64) : (s.retire a npc).subs = s.subs := rfl
@[simp] theorem State.retire_sensors (s : State) (a : Nat) (npc : W64) : (s.retire a npc).sensors = s.sensors := rfl
@[simp] theorem State.retire_powerLimit (s : State) (a : Nat) (npc : W64) : (s.retire a npc).powerLimit = s.powerLimit := rfl
@[simp] theorem State.retire_clearFor (s : State) (a : Nat) (npc : W64) : (s.retire a npc).clearFor = s.clearFor := rfl
@[simp] theorem State.retire_time (s : State) (a : Nat) (npc : W64) : (s.retire a npc).time = s.time := rfl
@[simp] theorem State.retire_dvc (s : State) (a : Nat) (npc : W64) : (s.retire a npc).dvc = s.dvc := rfl
@[simp] theorem State.retire_dvs (s : State) (a : Nat) (npc : W64) : (s.retire a npc).dvs = s.dvs := rfl
@[simp] theorem State.retire_dvfrz (s : State) (a : Nat) (npc : W64) : (s.retire a npc).dvfrz = s.dvfrz := rfl
@[simp] theorem State.retire_trcctl (s : State) (a : Nat) (npc : W64) : (s.retire a npc).trcctl = s.trcctl := rfl
@[simp] theorem State.retire_trcnext (s : State) (a : Nat) (npc : W64) : (s.retire a npc).trcnext = s.trcnext := rfl
@[simp] theorem State.retire_trcwrap (s : State) (a : Nat) (npc : W64) : (s.retire a npc).trcwrap = s.trcwrap := rfl
@[simp] theorem State.retire_trcaddr (s : State) (a : Nat) (npc : W64) : (s.retire a npc).trcaddr = s.trcaddr := rfl
@[simp] theorem State.retire_trcsram (s : State) (a : Nat) (npc : W64) : (s.retire a npc).trcsram = s.trcsram := rfl
@[simp] theorem State.retire_trcpost (s : State) (a : Nat) (npc : W64) : (s.retire a npc).trcpost = s.trcpost := rfl
@[simp] theorem State.retire_trgctl (s : State) (a : Nat) (npc : W64) : (s.retire a npc).trgctl = s.trgctl := rfl
@[simp] theorem State.retire_trgtime (s : State) (a : Nat) (npc : W64) : (s.retire a npc).trgtime = s.trgtime := rfl
@[simp] theorem State.retire_trgcount (s : State) (a : Nat) (npc : W64) : (s.retire a npc).trgcount = s.trgcount := rfl
@[simp] theorem State.retire_ready (s : State) (a : Nat) (npc : W64) : (s.retire a npc).ready = s.ready := rfl
@[simp] theorem State.retire_threads (s : State) (a : Nat) (npc : W64) : (s.retire a npc).threads = s.threads := rfl
@[simp] theorem State.retire_threadSeq (s : State) (a : Nat) (npc : W64) : (s.retire a npc).threadSeq = s.threadSeq := rfl
@[simp] theorem State.retire_flash (s : State) (a : Nat) (npc : W64) : (s.retire a npc).flash = s.flash := rfl
@[simp] theorem State.retire_packets (s : State) (a : Nat) (npc : W64) : (s.retire a npc).packets = s.packets := rfl
@[simp] theorem State.retire_portSeq (s : State) (a : Nat) (npc : W64) : (s.retire a npc).portSeq = s.portSeq := rfl
@[simp] theorem State.retire_portsDown (s : State) (a : Nat) (npc : W64) : (s.retire a npc).portsDown = s.portsDown := rfl
@[simp] theorem State.retire_requests (s : State) (a : Nat) (npc : W64) : (s.retire a npc).requests = s.requests := rfl
@[simp] theorem State.retire_arrived (s : State) (a : Nat) (npc : W64) : (s.retire a npc).arrived = s.arrived := rfl
@[simp] theorem State.retire_rseq (s : State) (a : Nat) (npc : W64) : (s.retire a npc).rseq = s.rseq := rfl
@[simp] theorem State.retire_responses (s : State) (a : Nat) (npc : W64) : (s.retire a npc).responses = s.responses := rfl
@[simp] theorem State.retire_routesLost (s : State) (a : Nat) (npc : W64) : (s.retire a npc).routesLost = s.routesLost := rfl
@[simp] theorem State.retire_inReset (s : State) (a : Nat) (npc : W64) : (s.retire a npc).inReset = s.inReset := rfl
@[simp] theorem State.retire_sbReply (s : State) (a : Nat) (npc : W64) : (s.retire a npc).sbReply = s.sbReply := rfl
@[simp] theorem State.retire_jtag (s : State) (a : Nat) (npc : W64) : (s.retire a npc).jtag = s.jtag := rfl
@[simp] theorem State.retire_touches (s : State) (a : Nat) (npc : W64) : (s.retire a npc).touches = s.touches := rfl
@[simp] theorem State.retire_fired (s : State) (a : Nat) (npc : W64) : (s.retire a npc).fired = s.fired := rfl
@[simp] theorem State.retire_trcflags (s : State) (a : Nat) (npc : W64) : (s.retire a npc).trcflags = s.trcflags := rfl
@[simp] theorem State.retire_trig (s : State) (a : Nat) (npc : W64) : (s.retire a npc).trig = s.trig := rfl
@[simp] theorem State.retire_sched (s : State) (a : Nat) (npc : W64) : (s.retire a npc).sched = s.sched := rfl
@[simp] theorem State.retire_actor (s : State) (a : Nat) (npc : W64) : (s.retire a npc).actor = s.actor := rfl
@[simp] theorem State.retire_freeCtr (s : State) (a : Nat) (npc : W64) : (s.retire a npc).freeCtr = s.freeCtr := rfl
@[simp] theorem State.retire_vec (s : State) (a : Nat) (npc : W64) (b : Nat) : (s.retire a npc).vec b = s.vec b := rfl
@[simp] theorem State.retire_core (s : State) (a : Nat) (npc : W64) (b : Nat) : (s.retire a npc).core b = s.core b := rfl
@[simp] theorem State.retire_cluster (s : State) (a : Nat) (npc : W64) (b : Nat) : (s.retire a npc).cluster b = s.cluster b := rfl
@[simp] theorem State.issue_vecs (s : State) (a : Nat) (npc : W64) : (s.issue a npc).vecs = s.vecs := rfl
@[simp] theorem State.issue_cores (s : State) (a : Nat) (npc : W64) : (s.issue a npc).cores = s.cores := rfl
@[simp] theorem State.issue_clusters (s : State) (a : Nat) (npc : W64) : (s.issue a npc).clusters = s.clusters := rfl
@[simp] theorem State.issue_mem (s : State) (a : Nat) (npc : W64) : (s.issue a npc).mem = s.mem := rfl
@[simp] theorem State.issue_bgen (s : State) (a : Nat) (npc : W64) : (s.issue a npc).bgen = s.bgen := rfl
@[simp] theorem State.issue_marks (s : State) (a : Nat) (npc : W64) : (s.issue a npc).marks = s.marks := rfl
@[simp] theorem State.issue_live (s : State) (a : Nat) (npc : W64) : (s.issue a npc).live = s.live := rfl
@[simp] theorem State.issue_slots (s : State) (a : Nat) (npc : W64) : (s.issue a npc).slots = s.slots := rfl
@[simp] theorem State.issue_owed (s : State) (a : Nat) (npc : W64) : (s.issue a npc).owed = s.owed := rfl
@[simp] theorem State.issue_stuck (s : State) (a : Nat) (npc : W64) : (s.issue a npc).stuck = s.stuck := rfl
@[simp] theorem State.issue_uncor (s : State) (a : Nat) (npc : W64) : (s.issue a npc).uncor = s.uncor := rfl
@[simp] theorem State.issue_cor (s : State) (a : Nat) (npc : W64) : (s.issue a npc).cor = s.cor := rfl
@[simp] theorem State.issue_arrUncor (s : State) (a : Nat) (npc : W64) : (s.issue a npc).arrUncor = s.arrUncor := rfl
@[simp] theorem State.issue_queues (s : State) (a : Nat) (npc : W64) : (s.issue a npc).queues = s.queues := rfl
@[simp] theorem State.issue_placed (s : State) (a : Nat) (npc : W64) : (s.issue a npc).placed = s.placed := rfl
@[simp] theorem State.issue_launchSeq (s : State) (a : Nat) (npc : W64) : (s.issue a npc).launchSeq = s.launchSeq := rfl
@[simp] theorem State.issue_chosen (s : State) (a : Nat) (npc : W64) : (s.issue a npc).chosen = s.chosen := rfl
@[simp] theorem State.issue_age (s : State) (a : Nat) (npc : W64) : (s.issue a npc).age = s.age := rfl
@[simp] theorem State.issue_notifybase (s : State) (a : Nat) (npc : W64) : (s.issue a npc).notifybase = s.notifybase := rfl
@[simp] theorem State.issue_subs (s : State) (a : Nat) (npc : W64) : (s.issue a npc).subs = s.subs := rfl
@[simp] theorem State.issue_sensors (s : State) (a : Nat) (npc : W64) : (s.issue a npc).sensors = s.sensors := rfl
@[simp] theorem State.issue_powerLimit (s : State) (a : Nat) (npc : W64) : (s.issue a npc).powerLimit = s.powerLimit := rfl
@[simp] theorem State.issue_clearFor (s : State) (a : Nat) (npc : W64) : (s.issue a npc).clearFor = s.clearFor := rfl
@[simp] theorem State.issue_time (s : State) (a : Nat) (npc : W64) : (s.issue a npc).time = s.time := rfl
@[simp] theorem State.issue_dvc (s : State) (a : Nat) (npc : W64) : (s.issue a npc).dvc = s.dvc := rfl
@[simp] theorem State.issue_dvs (s : State) (a : Nat) (npc : W64) : (s.issue a npc).dvs = s.dvs := rfl
@[simp] theorem State.issue_dvfrz (s : State) (a : Nat) (npc : W64) : (s.issue a npc).dvfrz = s.dvfrz := rfl
@[simp] theorem State.issue_trcctl (s : State) (a : Nat) (npc : W64) : (s.issue a npc).trcctl = s.trcctl := rfl
@[simp] theorem State.issue_trcnext (s : State) (a : Nat) (npc : W64) : (s.issue a npc).trcnext = s.trcnext := rfl
@[simp] theorem State.issue_trcwrap (s : State) (a : Nat) (npc : W64) : (s.issue a npc).trcwrap = s.trcwrap := rfl
@[simp] theorem State.issue_trcaddr (s : State) (a : Nat) (npc : W64) : (s.issue a npc).trcaddr = s.trcaddr := rfl
@[simp] theorem State.issue_trcsram (s : State) (a : Nat) (npc : W64) : (s.issue a npc).trcsram = s.trcsram := rfl
@[simp] theorem State.issue_trcpost (s : State) (a : Nat) (npc : W64) : (s.issue a npc).trcpost = s.trcpost := rfl
@[simp] theorem State.issue_trgctl (s : State) (a : Nat) (npc : W64) : (s.issue a npc).trgctl = s.trgctl := rfl
@[simp] theorem State.issue_trgtime (s : State) (a : Nat) (npc : W64) : (s.issue a npc).trgtime = s.trgtime := rfl
@[simp] theorem State.issue_trgcount (s : State) (a : Nat) (npc : W64) : (s.issue a npc).trgcount = s.trgcount := rfl
@[simp] theorem State.issue_ready (s : State) (a : Nat) (npc : W64) : (s.issue a npc).ready = s.ready := rfl
@[simp] theorem State.issue_threads (s : State) (a : Nat) (npc : W64) : (s.issue a npc).threads = s.threads := rfl
@[simp] theorem State.issue_threadSeq (s : State) (a : Nat) (npc : W64) : (s.issue a npc).threadSeq = s.threadSeq := rfl
@[simp] theorem State.issue_flash (s : State) (a : Nat) (npc : W64) : (s.issue a npc).flash = s.flash := rfl
@[simp] theorem State.issue_packets (s : State) (a : Nat) (npc : W64) : (s.issue a npc).packets = s.packets := rfl
@[simp] theorem State.issue_portSeq (s : State) (a : Nat) (npc : W64) : (s.issue a npc).portSeq = s.portSeq := rfl
@[simp] theorem State.issue_portsDown (s : State) (a : Nat) (npc : W64) : (s.issue a npc).portsDown = s.portsDown := rfl
@[simp] theorem State.issue_requests (s : State) (a : Nat) (npc : W64) : (s.issue a npc).requests = s.requests := rfl
@[simp] theorem State.issue_arrived (s : State) (a : Nat) (npc : W64) : (s.issue a npc).arrived = s.arrived := rfl
@[simp] theorem State.issue_rseq (s : State) (a : Nat) (npc : W64) : (s.issue a npc).rseq = s.rseq := rfl
@[simp] theorem State.issue_responses (s : State) (a : Nat) (npc : W64) : (s.issue a npc).responses = s.responses := rfl
@[simp] theorem State.issue_routesLost (s : State) (a : Nat) (npc : W64) : (s.issue a npc).routesLost = s.routesLost := rfl
@[simp] theorem State.issue_inReset (s : State) (a : Nat) (npc : W64) : (s.issue a npc).inReset = s.inReset := rfl
@[simp] theorem State.issue_sbReply (s : State) (a : Nat) (npc : W64) : (s.issue a npc).sbReply = s.sbReply := rfl
@[simp] theorem State.issue_jtag (s : State) (a : Nat) (npc : W64) : (s.issue a npc).jtag = s.jtag := rfl
@[simp] theorem State.issue_touches (s : State) (a : Nat) (npc : W64) : (s.issue a npc).touches = s.touches := rfl
@[simp] theorem State.issue_fired (s : State) (a : Nat) (npc : W64) : (s.issue a npc).fired = s.fired := rfl
@[simp] theorem State.issue_trcflags (s : State) (a : Nat) (npc : W64) : (s.issue a npc).trcflags = s.trcflags := rfl
@[simp] theorem State.issue_trig (s : State) (a : Nat) (npc : W64) : (s.issue a npc).trig = s.trig := rfl
@[simp] theorem State.issue_sched (s : State) (a : Nat) (npc : W64) : (s.issue a npc).sched = s.sched := rfl
@[simp] theorem State.issue_actor (s : State) (a : Nat) (npc : W64) : (s.issue a npc).actor = s.actor := rfl
@[simp] theorem State.issue_freeCtr (s : State) (a : Nat) (npc : W64) : (s.issue a npc).freeCtr = s.freeCtr := rfl
@[simp] theorem State.issue_vec (s : State) (a : Nat) (npc : W64) (b : Nat) : (s.issue a npc).vec b = s.vec b := rfl
@[simp] theorem State.issue_core (s : State) (a : Nat) (npc : W64) (b : Nat) : (s.issue a npc).core b = s.core b := rfl
@[simp] theorem State.issue_cluster (s : State) (a : Nat) (npc : W64) (b : Nat) : (s.issue a npc).cluster b = s.cluster b := rfl
@[simp] theorem State.writeX_vecs (s : State) (a : Nat) (d : XReg) (v : W64) : (s.writeX a d v).vecs = s.vecs := rfl
@[simp] theorem State.writeX_cores (s : State) (a : Nat) (d : XReg) (v : W64) : (s.writeX a d v).cores = s.cores := rfl
@[simp] theorem State.writeX_clusters (s : State) (a : Nat) (d : XReg) (v : W64) : (s.writeX a d v).clusters = s.clusters := rfl
@[simp] theorem State.writeX_mem (s : State) (a : Nat) (d : XReg) (v : W64) : (s.writeX a d v).mem = s.mem := rfl
@[simp] theorem State.writeX_bgen (s : State) (a : Nat) (d : XReg) (v : W64) : (s.writeX a d v).bgen = s.bgen := rfl
@[simp] theorem State.writeX_marks (s : State) (a : Nat) (d : XReg) (v : W64) : (s.writeX a d v).marks = s.marks := rfl
@[simp] theorem State.writeX_live (s : State) (a : Nat) (d : XReg) (v : W64) : (s.writeX a d v).live = s.live := rfl
@[simp] theorem State.writeX_slots (s : State) (a : Nat) (d : XReg) (v : W64) : (s.writeX a d v).slots = s.slots := rfl
@[simp] theorem State.writeX_owed (s : State) (a : Nat) (d : XReg) (v : W64) : (s.writeX a d v).owed = s.owed := rfl
@[simp] theorem State.writeX_stuck (s : State) (a : Nat) (d : XReg) (v : W64) : (s.writeX a d v).stuck = s.stuck := rfl
@[simp] theorem State.writeX_uncor (s : State) (a : Nat) (d : XReg) (v : W64) : (s.writeX a d v).uncor = s.uncor := rfl
@[simp] theorem State.writeX_cor (s : State) (a : Nat) (d : XReg) (v : W64) : (s.writeX a d v).cor = s.cor := rfl
@[simp] theorem State.writeX_arrUncor (s : State) (a : Nat) (d : XReg) (v : W64) : (s.writeX a d v).arrUncor = s.arrUncor := rfl
@[simp] theorem State.writeX_queues (s : State) (a : Nat) (d : XReg) (v : W64) : (s.writeX a d v).queues = s.queues := rfl
@[simp] theorem State.writeX_placed (s : State) (a : Nat) (d : XReg) (v : W64) : (s.writeX a d v).placed = s.placed := rfl
@[simp] theorem State.writeX_launchSeq (s : State) (a : Nat) (d : XReg) (v : W64) : (s.writeX a d v).launchSeq = s.launchSeq := rfl
@[simp] theorem State.writeX_chosen (s : State) (a : Nat) (d : XReg) (v : W64) : (s.writeX a d v).chosen = s.chosen := rfl
@[simp] theorem State.writeX_age (s : State) (a : Nat) (d : XReg) (v : W64) : (s.writeX a d v).age = s.age := rfl
@[simp] theorem State.writeX_notifybase (s : State) (a : Nat) (d : XReg) (v : W64) : (s.writeX a d v).notifybase = s.notifybase := rfl
@[simp] theorem State.writeX_subs (s : State) (a : Nat) (d : XReg) (v : W64) : (s.writeX a d v).subs = s.subs := rfl
@[simp] theorem State.writeX_sensors (s : State) (a : Nat) (d : XReg) (v : W64) : (s.writeX a d v).sensors = s.sensors := rfl
@[simp] theorem State.writeX_powerLimit (s : State) (a : Nat) (d : XReg) (v : W64) : (s.writeX a d v).powerLimit = s.powerLimit := rfl
@[simp] theorem State.writeX_clearFor (s : State) (a : Nat) (d : XReg) (v : W64) : (s.writeX a d v).clearFor = s.clearFor := rfl
@[simp] theorem State.writeX_time (s : State) (a : Nat) (d : XReg) (v : W64) : (s.writeX a d v).time = s.time := rfl
@[simp] theorem State.writeX_dvc (s : State) (a : Nat) (d : XReg) (v : W64) : (s.writeX a d v).dvc = s.dvc := rfl
@[simp] theorem State.writeX_dvs (s : State) (a : Nat) (d : XReg) (v : W64) : (s.writeX a d v).dvs = s.dvs := rfl
@[simp] theorem State.writeX_dvfrz (s : State) (a : Nat) (d : XReg) (v : W64) : (s.writeX a d v).dvfrz = s.dvfrz := rfl
@[simp] theorem State.writeX_trcctl (s : State) (a : Nat) (d : XReg) (v : W64) : (s.writeX a d v).trcctl = s.trcctl := rfl
@[simp] theorem State.writeX_trcnext (s : State) (a : Nat) (d : XReg) (v : W64) : (s.writeX a d v).trcnext = s.trcnext := rfl
@[simp] theorem State.writeX_trcwrap (s : State) (a : Nat) (d : XReg) (v : W64) : (s.writeX a d v).trcwrap = s.trcwrap := rfl
@[simp] theorem State.writeX_trcaddr (s : State) (a : Nat) (d : XReg) (v : W64) : (s.writeX a d v).trcaddr = s.trcaddr := rfl
@[simp] theorem State.writeX_trcsram (s : State) (a : Nat) (d : XReg) (v : W64) : (s.writeX a d v).trcsram = s.trcsram := rfl
@[simp] theorem State.writeX_trcpost (s : State) (a : Nat) (d : XReg) (v : W64) : (s.writeX a d v).trcpost = s.trcpost := rfl
@[simp] theorem State.writeX_trgctl (s : State) (a : Nat) (d : XReg) (v : W64) : (s.writeX a d v).trgctl = s.trgctl := rfl
@[simp] theorem State.writeX_trgtime (s : State) (a : Nat) (d : XReg) (v : W64) : (s.writeX a d v).trgtime = s.trgtime := rfl
@[simp] theorem State.writeX_trgcount (s : State) (a : Nat) (d : XReg) (v : W64) : (s.writeX a d v).trgcount = s.trgcount := rfl
@[simp] theorem State.writeX_ready (s : State) (a : Nat) (d : XReg) (v : W64) : (s.writeX a d v).ready = s.ready := rfl
@[simp] theorem State.writeX_threads (s : State) (a : Nat) (d : XReg) (v : W64) : (s.writeX a d v).threads = s.threads := rfl
@[simp] theorem State.writeX_threadSeq (s : State) (a : Nat) (d : XReg) (v : W64) : (s.writeX a d v).threadSeq = s.threadSeq := rfl
@[simp] theorem State.writeX_flash (s : State) (a : Nat) (d : XReg) (v : W64) : (s.writeX a d v).flash = s.flash := rfl
@[simp] theorem State.writeX_packets (s : State) (a : Nat) (d : XReg) (v : W64) : (s.writeX a d v).packets = s.packets := rfl
@[simp] theorem State.writeX_portSeq (s : State) (a : Nat) (d : XReg) (v : W64) : (s.writeX a d v).portSeq = s.portSeq := rfl
@[simp] theorem State.writeX_portsDown (s : State) (a : Nat) (d : XReg) (v : W64) : (s.writeX a d v).portsDown = s.portsDown := rfl
@[simp] theorem State.writeX_requests (s : State) (a : Nat) (d : XReg) (v : W64) : (s.writeX a d v).requests = s.requests := rfl
@[simp] theorem State.writeX_arrived (s : State) (a : Nat) (d : XReg) (v : W64) : (s.writeX a d v).arrived = s.arrived := rfl
@[simp] theorem State.writeX_rseq (s : State) (a : Nat) (d : XReg) (v : W64) : (s.writeX a d v).rseq = s.rseq := rfl
@[simp] theorem State.writeX_responses (s : State) (a : Nat) (d : XReg) (v : W64) : (s.writeX a d v).responses = s.responses := rfl
@[simp] theorem State.writeX_routesLost (s : State) (a : Nat) (d : XReg) (v : W64) : (s.writeX a d v).routesLost = s.routesLost := rfl
@[simp] theorem State.writeX_inReset (s : State) (a : Nat) (d : XReg) (v : W64) : (s.writeX a d v).inReset = s.inReset := rfl
@[simp] theorem State.writeX_sbReply (s : State) (a : Nat) (d : XReg) (v : W64) : (s.writeX a d v).sbReply = s.sbReply := rfl
@[simp] theorem State.writeX_jtag (s : State) (a : Nat) (d : XReg) (v : W64) : (s.writeX a d v).jtag = s.jtag := rfl
@[simp] theorem State.writeX_touches (s : State) (a : Nat) (d : XReg) (v : W64) : (s.writeX a d v).touches = s.touches := rfl
@[simp] theorem State.writeX_fired (s : State) (a : Nat) (d : XReg) (v : W64) : (s.writeX a d v).fired = s.fired := rfl
@[simp] theorem State.writeX_trcflags (s : State) (a : Nat) (d : XReg) (v : W64) : (s.writeX a d v).trcflags = s.trcflags := rfl
@[simp] theorem State.writeX_trig (s : State) (a : Nat) (d : XReg) (v : W64) : (s.writeX a d v).trig = s.trig := rfl
@[simp] theorem State.writeX_sched (s : State) (a : Nat) (d : XReg) (v : W64) : (s.writeX a d v).sched = s.sched := rfl
@[simp] theorem State.writeX_actor (s : State) (a : Nat) (d : XReg) (v : W64) : (s.writeX a d v).actor = s.actor := rfl
@[simp] theorem State.writeX_freeCtr (s : State) (a : Nat) (d : XReg) (v : W64) : (s.writeX a d v).freeCtr = s.freeCtr := rfl
@[simp] theorem State.writeX_vec (s : State) (a : Nat) (d : XReg) (v : W64) (b : Nat) : (s.writeX a d v).vec b = s.vec b := rfl
@[simp] theorem State.writeX_core (s : State) (a : Nat) (d : XReg) (v : W64) (b : Nat) : (s.writeX a d v).core b = s.core b := rfl
@[simp] theorem State.writeX_cluster (s : State) (a : Nat) (d : XReg) (v : W64) (b : Nat) : (s.writeX a d v).cluster b = s.cluster b := rfl

end Sys2Proof.Machine
end

