-- ==== Sys2Proof/Laws/Ops.lean ====
section
/-! SUPPORT. What the shared operations can do, once for each: writes of memory keep its canonical form, a trap saves
what R134 says, and a scalar instruction whose registers are ready goes on to its effect. -/
namespace Sys2Proof.Machine

/-! ## Canonical memory -/

theorem State.pokeByte_memOk {s : State} (key : Nat) (g : BitVec 2) (v : Byte) (h : s.MemOk) : (s.pokeByte key g v).MemOk :=
  Memory.write_wf key v h

theorem State.copyBatt_memOk {s : State} (src dst : Option Nat) (b : Nat) (h : s.MemOk) : (s.copyBatt src dst b).MemOk :=
  Memory.foldl_write_wf _ _ _ (Memory.clearRange_wf _ _ h)

@[simp] theorem State.repoint_mem (s : State) (sel : SnapSlot → Bool) (b r : Nat) : (s.repoint sel b r).mem = s.mem := rfl

@[simp] theorem State.countDevice_mem (s : State) (code k : Nat) : (s.countDevice code k).mem = s.mem := by
  unfold State.countDevice; split <;> rfl

theorem State.splitBatt_memOk {s t : State} {sel : SnapSlot → Bool} {o : Option Nat} {b : Nat} (h : s.MemOk)
    (hs : s.splitBatt sel o b = some t) : t.MemOk := by
  unfold State.splitBatt at hs
  split at hs
  · split at hs
    · cases hs
    · cases hs
      simpa [State.MemOk] using State.copyBatt_memOk _ _ _ h
  · cases hs; exact h

theorem State.setMark_mem (s : State) (data : Nat) (g : BitVec 2) : (s.setMark data g).mem = s.mem := rfl

/-- A fold of pokes keeps the form. -/
theorem State.foldl_pokeByte_memOk {β : Type} (key : β → Nat) (g : BitVec 2) (v : Byte) (l : List β) {s : State} (h : s.MemOk) :
    (l.foldl (fun s x => s.pokeByte (key x) g v) s).MemOk := by
  induction l generalizing s with
  | nil => exact h
  | cons x l ih => exact ih (State.pokeByte_memOk _ _ _ h)

/-- A fold of steps that may stall keeps a property that each step keeps. -/
theorem foldl_bind_keeps {β σ : Type} {P : σ → Prop} {f : σ → β → Option σ} (hf : ∀ s x t, P s → f s x = some t → P t) :
    ∀ (l : List β) (o : Option σ) (t : σ), (∀ s, o = some s → P s) →
      l.foldl (fun o x => o.bind fun s => f s x) o = some t → P t
  | [], o, t, h, e => h t e
  | x :: l, o, t, h, e => by
    refine foldl_bind_keeps hf l (o.bind fun s => f s x) t (fun s hs => ?_) e
    obtain ⟨u, hu, hx⟩ := Option.bind_eq_some_iff.mp hs
    exact hf u x s (h u hu) hx

/-- The copies that a write needs first keep the form. -/
theorem State.splitFor_memOk {s t : State} {g : BitVec 2} {data : Nat} (h : s.MemOk) (hs : s.splitFor g data = some t) :
    t.MemOk := by
  unfold State.splitFor at hs
  dsimp only at hs
  split at hs
  · exact State.splitBatt_memOk h hs
  · obtain ⟨u, hu, hf⟩ := Option.bind_eq_some_iff.mp hs
    exact foldl_bind_keeps (P := State.MemOk) (fun s x t hp he => State.splitBatt_memOk hp he) _ _ _
      (fun s hs => by cases hs; exact State.splitBatt_memOk h hu) hf

theorem State.storeMain_memOk {s t : State} {g : BitVec 2} {data : Nat} {v : Byte} (h : s.MemOk)
    (hs : s.storeMain g data v = some t) : t.MemOk := by
  obtain ⟨u, hu, rfl⟩ := Option.map_eq_some_iff.mp hs
  exact State.foldl_pokeByte_memOk _ _ _ _ (State.splitFor_memOk h hu)

/-- The bits of a byte of a segment are written, and the form is kept. -/
theorem State.patchByte_memOk {s t : State} {g : BitVec 2} {p : Patch} (h : s.MemOk) (hs : s.patchByte g p = some t) : t.MemOk := by
  have hf : ∀ (l : List (Option Nat)) (s : State), s.MemOk →
      (l.foldl (fun (s : State) h => s.pokeByte (keyIn h (dataOf p.pa)) g (p.over (s.mem.read (keyIn h (dataOf p.pa))))) s).MemOk := by
    intro l
    induction l with
    | nil => exact fun s h => h
    | cons x l ih => exact fun s h => ih _ (State.pokeByte_memOk _ _ _ h)
  unfold State.patchByte at hs
  dsimp only at hs
  split at hs
  · cases hs; exact State.pokeByte_memOk _ _ _ h
  · obtain ⟨u, hu, rfl⟩ := Option.map_eq_some_iff.mp hs
    exact hf _ _ (State.splitFor_memOk h hu)

theorem State.storeByte_memOk {s t : State} {g : BitVec 2} {pa : Nat} {v : Byte} (h : s.MemOk)
    (hs : s.storeByte g pa v = some t) : t.MemOk := by
  unfold State.storeByte at hs
  split at hs
  · cases hs; exact State.pokeByte_memOk _ _ _ h
  · exact State.storeMain_memOk h hs

theorem State.storeBytes_memOk {g : BitVec 2} : ∀ {bytes : List Byte} {s t : State} {pa : Nat}, s.MemOk →
    s.storeBytes g pa bytes = some t → t.MemOk
  | [], s, t, pa, h, hs => by cases hs; exact h
  | v :: vs, s, t, pa, h, hs => by
    obtain ⟨u, hu, ht⟩ := Option.bind_eq_some_iff.mp hs
    exact State.storeBytes_memOk (State.storeByte_memOk h hu) ht

@[simp] theorem State.healWhole_mem (s : State) (g : BitVec 2) (covered : Nat → Bool) : (s.healWhole g covered).mem = s.mem := by
  unfold State.healWhole; split <;> rfl

@[simp] theorem State.healRange_mem (s : State) (g : BitVec 2) (pa n : Nat) : (s.healRange g pa n).mem = s.mem := State.healWhole_mem _ _ _

@[simp] theorem State.touchMonitors_mem (s : State) (who : Option Nat) (line : Nat) : (s.touchMonitors who line).mem = s.mem := by
  unfold State.touchMonitors; split <;> rfl

@[simp] theorem State.markDue_mem (s : State) (line : Nat) : (s.markDue line).mem = s.mem := by
  unfold State.markDue; dsimp only; split <;> split <;> rfl

/-- What each step of a fold keeps, the fold keeps. -/
theorem foldl_keeps {β σ τ : Type} (p : σ → τ) {f : σ → β → σ} (hf : ∀ s x, p (f s x) = p s) :
    ∀ (l : List β) (s : σ), p (l.foldl f s) = p s
  | [], _ => rfl
  | x :: l, s => (foldl_keeps p hf l (f s x)).trans (hf s x)

@[simp] theorem State.wrote_mem (s : State) (who : Option Nat) (g : BitVec 2) (pa n : Nat) : (s.wrote who g pa n).mem = s.mem := by
  unfold State.wrote
  exact (foldl_keeps State.mem (fun s x => by simp) _ _).trans (by simp)

/-- A write of a segment keeps the canonical form of memory. -/
theorem State.writePatches_memOk {s t : State} {who : Option Nat} {g : BitVec 2} {l : List Patch} (h : s.MemOk)
    (hs : s.writePatches who g l = some t) : t.MemOk := by
  obtain ⟨u, hu, rfl⟩ := Option.map_eq_some_iff.mp hs
  have hm := foldl_bind_keeps (P := State.MemOk) (fun s p t hp he => State.patchByte_memOk hp he) _ _ _
    (fun s hs => by cases hs; exact h) hu
  unfold State.MemOk
  rw [foldl_keeps State.mem (fun s x => by simp) _ _]
  simpa [State.MemOk] using hm

/-- A write keeps the canonical form of memory. -/
theorem State.write_memOk {s t : State} {who : Option Nat} {g : BitVec 2} {pa : Nat} {bytes : List Byte} (h : s.MemOk)
    (hs : s.write who g pa bytes = some t) : t.MemOk := by
  obtain ⟨u, hu, rfl⟩ := Option.map_eq_some_iff.mp hs
  have := State.storeBytes_memOk h hu
  simpa [State.MemOk] using this

/-! ## Writes while no snapshot is in flight never stall (R366) -/

theorem State.splitBatt_free {s : State} (h : s.occupied = []) (sel : SnapSlot → Bool) (o : Option Nat) (b : Nat) :
    s.splitBatt sel o b = some s := by simp [State.splitBatt, h]

/-- While no snapshot is in flight a write needs no copy. -/
theorem State.splitFor_free {s : State} (h : s.occupied = []) (g : BitVec 2) (data : Nat) : s.splitFor g data = some s := by
  have hs : ∀ (f : State → Option Nat → SnapSlot → Bool) (b : Nat) (l : List (Option Nat)),
      l.foldl (fun (r : Option State) x => r.bind fun s => s.splitBatt (f s x) x b) (some s) = some s := by
    intro f b l
    induction l with
    | nil => rfl
    | cons x l ih => rw [List.foldl_cons, Option.bind_some, State.splitBatt_free h]; exact ih
  unfold State.splitFor
  dsimp only
  split
  · exact State.splitBatt_free h _ _ _
  · rw [State.splitBatt_free h, Option.bind_some]
    exact hs (fun s h k => s.newer g k.gen && k.holder (battOf data) == h) _ _

theorem State.storeMain_free {s : State} (h : s.occupied = []) (g : BitVec 2) (data : Nat) (v : Byte) :
    ∃ t, s.storeMain g data v = some t ∧ t.occupied = [] := by
  rw [State.storeMain, State.splitFor_free h]
  exact ⟨_, rfl, (foldl_keeps State.occupied (f := fun (s : State) x => s.pokeByte (keyIn x data) g v) (fun _ _ => rfl) _ s).trans h⟩

theorem State.storeByte_free {s : State} (h : s.occupied = []) (g : BitVec 2) (pa : Nat) (v : Byte) :
    ∃ t, s.storeByte g pa v = some t ∧ t.occupied = [] := by
  unfold State.storeByte
  split
  · exact ⟨_, rfl, h⟩
  · exact State.storeMain_free h g _ v

theorem State.storeBytes_free (g : BitVec 2) : ∀ (bytes : List Byte) {s : State} (pa : Nat), s.occupied = [] →
    ∃ t, s.storeBytes g pa bytes = some t ∧ t.occupied = []
  | [], s, pa, h => ⟨s, rfl, h⟩
  | v :: vs, s, pa, h => by
    obtain ⟨u, hu, ho⟩ := State.storeByte_free h g pa v
    obtain ⟨t, ht, hp⟩ := State.storeBytes_free g vs (pa + 1) ho
    exact ⟨t, by simp [State.storeBytes, hu, ht], hp⟩

/-- While no snapshot is in flight no slot waits for a read. -/
theorem State.markDue_free {s : State} (h : s.occupied = []) (line : Nat) : (s.markDue line).occupied = [] := by
  have hn : ∀ o ∈ s.slots.toList, o = none := by
    intro o ho
    cases o with
    | none => rfl
    | some k =>
      have hm : k ∈ s.occupied := List.mem_filterMap.mpr ⟨some k, ho, rfl⟩
      rw [h] at hm
      cases hm
  unfold State.markDue
  dsimp only
  split <;> split <;> first
    | exact h
    | (rename_i hc
       obtain ⟨o, ho, hp⟩ := List.any_eq_true.mp hc
       rw [hn o ho] at hp
       cases hp)

/-- The lines of a write leave the slots free. -/
theorem State.lines_free (who : Option Nat) : ∀ (l : List Nat) {s : State}, s.occupied = [] →
    (l.foldl (fun (s : State) line => (s.touchMonitors who line).markDue line) s).occupied = []
  | [], _, h => h
  | line :: l, s, h =>
    State.lines_free who l (State.markDue_free (s := s.touchMonitors who line) (by unfold State.touchMonitors; split <;> exact h) line)

theorem State.write_free {s : State} (h : s.occupied = []) (who : Option Nat) (g : BitVec 2) (pa : Nat) (bytes : List Byte) :
    ∃ t, s.write who g pa bytes = some t ∧ t.occupied = [] := by
  obtain ⟨u, hu, ho⟩ := State.storeBytes_free g bytes pa h
  exact ⟨_, by rw [State.write, hu]; rfl, State.lines_free who _ (by unfold State.healRange State.healWhole; split <;> exact ho)⟩

/-- A segment on this device is written while no snapshot is in flight. -/
theorem State.writePatches_free {s : State} (h : s.occupied = []) (who : Option Nat) (g : BitVec 2) (l : List Patch) :
    ∃ t, s.writePatches who g l = some t ∧ t.occupied = [] := by
  have hp : ∀ (p : Patch) (s : State), s.occupied = [] → ∃ t, s.patchByte g p = some t ∧ t.occupied = [] := by
    intro p s h
    unfold State.patchByte
    dsimp only
    split
    · exact ⟨_, rfl, h⟩
    · rw [State.splitFor_free h]
      exact ⟨_, rfl, (foldl_keeps State.occupied
        (f := fun (s : State) x => s.pokeByte (keyIn x (dataOf p.pa)) g (p.over (s.mem.read (keyIn x (dataOf p.pa)))))
        (fun _ _ => rfl) _ s).trans h⟩
  have hf : ∀ (l : List Patch) (s : State), s.occupied = [] → ∃ t,
      l.foldl (fun (o : Option State) p => o.bind fun s => s.patchByte g p) (some s) = some t ∧ t.occupied = [] := by
    intro l
    induction l with
    | nil => exact fun s h => ⟨s, rfl, h⟩
    | cons p l ih =>
      intro s h
      obtain ⟨u, hu, ho⟩ := hp p s h
      rw [List.foldl_cons, Option.bind_some, hu]
      exact ih u ho
  obtain ⟨t, ht, ho⟩ := hf l s h
  exact ⟨_, by rw [State.writePatches, ht]; rfl, State.lines_free who _ (by unfold State.healWhole; split <;> exact ho)⟩

/-! ## Operations that leave memory alone -/

@[simp] theorem State.adopt_mem (s : State) (a : Nat) (g : BitVec 2) : (s.adopt a g).mem = s.mem := by
  unfold State.adopt; split <;> rfl

@[simp] theorem State.countCore_mem (s : State) (g code k : Nat) : (s.countCore g code k).mem = s.mem := by
  unfold State.countCore; dsimp only; split <;> rfl

@[simp] theorem State.countCluster_mem (s : State) (c code k : Nat) : (s.countCluster c code k).mem = s.mem := by
  unfold State.countCluster; dsimp only; split <;> rfl

@[simp] theorem State.fire_mem (s : State) (src : Nat) : (s.fire src).mem = s.mem := by
  unfold State.fire; split <;> rfl

@[simp] theorem State.post_mem (s : State) (dst rseq : Nat) (what : NgOut) : (s.post dst rseq what).mem = s.mem := rfl
@[simp] theorem State.send_mem (s : State) (dst : Nat) (what : NgOut) (w : Waiter) : (s.send dst what w).mem = s.mem := rfl
@[simp] theorem State.setPlaced_mem (s : State) (p : Placed) : (s.setPlaced p).mem = s.mem := rfl
@[simp] theorem State.dropArrived_mem (s : State) (o : Owner) : (s.dropArrived o).mem = s.mem := rfl
@[simp] theorem State.discard_mem (s : State) (a : Nat) (ws : List InstrWord) : (s.discard a ws).mem = s.mem := rfl

@[simp] theorem State.forget_mem (s : State) (o : Owner) : (s.forget o).mem = s.mem := rfl
@[simp] theorem State.note_mem (s : State) (t : Touch) : (s.note t).mem = s.mem := rfl
@[simp] theorem State.noteBytes_mem (s : State) (pa n : Nat) (w : Bool) : (s.noteBytes pa n w).mem = s.mem := rfl

@[simp] theorem State.retireGroup_mem (s : State) (g j : Nat) : (s.retireGroup g j).mem = s.mem := by
  unfold State.retireGroup; dsimp only; split <;> rfl

@[simp] theorem State.reportReg_mem (s : State) (k lane : Nat) (q : Nat × Nat) : (s.reportReg k lane q).mem = s.mem := by
  unfold State.reportReg
  dsimp only
  split
  · rfl
  · split
    · rw [State.retireGroup_mem]; rfl
    · rfl

@[simp] theorem State.askFor_mem (s : State) (o : Owner) (addr size : Nat) : (s.askFor o addr size).mem = s.mem := by
  unfold State.askFor; split <;> rfl

@[simp] theorem State.forgetInputs_mem (s : State) (k : Nat) : (s.forgetInputs k).mem = s.mem :=
  foldl_keeps State.mem (fun s j => by
    split
    · split
      · rfl
      · exact State.forget_mem _ _
    · rfl) _ _

@[simp] theorem State.fatalHalt_mem (s : State) (a : Nat) : (s.fatalHalt a).mem = s.mem := by
  unfold State.fatalHalt
  dsimp only
  rw [State.setFront_mem]
  split
  · rfl
  · rw [State.setVec_mem, State.forgetInputs_mem, State.discard_mem]

/-! ## Traps keep the canonical form -/

theorem State.writeGang_memOk {s : State} (p : Placed) (w : W64) (h : s.MemOk) : (s.writeGang p w).MemOk := by
  unfold State.writeGang
  split
  · simpa [State.MemOk] using h
  · split
    · simpa [State.MemOk] using h
    · split
      · exact h
      · split
        · rename_i u hu
          simpa [State.MemOk] using State.write_memOk h hu
        · exact h

theorem State.fatal_memOk {s : State} (a : Nat) (cause : BitVec 29) (e : Bool) (h : s.MemOk) : (s.fatal a cause e).MemOk := by
  have h3 : (s.fatalHalt a).MemOk := by simpa [State.MemOk] using h
  unfold State.fatal
  generalize s.fatalHalt a = u at h3 ⊢
  dsimp only
  split
  · exact h3
  · split <;> split <;> first | exact h3 | exact State.writeGang_memOk _ _ h3

/-- A test on a value that keeps memory in form, whichever way it goes. -/
theorem memOk_ite {c : Prop} [Decidable c] {s t : State} (hs : s.MemOk) (ht : t.MemOk) : (if c then s else t).MemOk := by
  split
  · exact hs
  · exact ht

theorem State.takeTrap_memOk {s : State} (a : Nat) (vec : Bool) (epc : W64) (t : Trap) (h : s.MemOk) :
    (s.takeTrap a vec epc t).MemOk := by
  unfold State.takeTrap
  dsimp only
  have h' : (if t.code = 10 then s.fire 1 else s).MemOk := memOk_ite (by simpa [State.MemOk] using h) h
  generalize (if t.code = 10 then s.fire 1 else s) = u at h' ⊢
  exact memOk_ite (State.fatal_memOk _ _ _ h') (memOk_ite (State.fatal_memOk _ _ _ h') h')

theorem State.vectorTrap_memOk {s : State} (k : Nat) (e : Entry) (i : Nat) (t : Trap) (h : s.MemOk) :
    (s.vectorTrap k e i t).MemOk := by
  unfold State.vectorTrap
  dsimp only
  refine State.takeTrap_memOk _ _ _ _ ?_
  split <;> simpa [State.MemOk] using h

theorem State.fpxTrap_memOk {s : State} (k : Nat) (e : Entry) (t : Trap) (h : s.MemOk) : (s.fpxTrap k e t).MemOk :=
  State.takeTrap_memOk _ _ _ _ (by simpa [State.MemOk] using h)

theorem State.scalarTrap_memOk {s t : State} {a : Nat} {x : Trap} (h : s.MemOk) (hs : s.scalarTrap a x = .next t) : t.MemOk := by
  unfold State.scalarTrap at hs
  split at hs
  · cases hs; exact h
  · cases hs; exact State.takeTrap_memOk _ _ _ _ h

/-! ## Scalar instructions whose registers are ready -/

/-- With nothing pending and nothing unreadable, an instruction goes on to its effect (R215, R246, R379). -/
theorem scalarRead_ready {s : State} {a : Nat} {reads writes : List XReg} {k : Front → Out}
    (h : s.RegsReady a reads writes) : scalarRead s a reads writes k = k (s.front a) := by
  obtain ⟨hp, hb⟩ := h
  have h1 : ((reads ++ writes).any (s.front a).isPend) = false := by
    rw [List.any_eq_false]
    intro r hr
    simp [hp r hr]
  have h2 : reads.find? (s.front a).isBad = none := by
    rw [List.find?_eq_none]
    intro r hr
    simp [hb r hr]
  simp [scalarRead, h1, h2]

/-- What an instruction of the shape of R117 to R119 answers. -/
theorem aluOp_ready {s : State} {a : Nat} {df : Bool} {d : XReg} {reads : List XReg} {f : Front → W64}
    (ha : s.actor = .front a df) (h : s.RegsReady a reads [d]) :
    aluOp d reads f s = .next ((s.writeX a d (f (s.front a))).retire a ((s.front a).pc + 4)) := by
  simp [aluOp, onFront, ha, scalarRead_ready h]

/-- Reading any register of a front after a write (R78). -/
theorem State.writeX_retire_xr (s : State) (a : Nat) (d r : XReg) (v npc : W64) :
    (((s.writeX a d v).retire a npc).front a).xr r = if r = d ∧ r ≠ 0 then v else (s.front a).xr r := by
  rw [State.retire_front_self]
  show ((s.writeX a d v).front a).xr r = _
  rw [State.writeX, State.front_setFront_self, Front.xr_setX]
  by_cases h : r = d
  · subst h; rfl
  · simp [h]

end Sys2Proof.Machine
end

