-- ==== Sys2Proof/Laws/Vector.lean ====
section
/-! SUPPORT. Registers of the vector side: one lemma for each field and each named update, and what reading an element
finds after a write. -/
namespace Sys2Proof.Machine


/-! ## Vector sides -/

@[simp] theorem Vec.setTags_v (v : Vec) (r : VReg) (n : Nat) (t : Tag) : (v.setTags r n t).v = v.v := rfl
@[simp] theorem Vec.setTags_bad (v : Vec) (r : VReg) (n : Nat) (t : Tag) : (v.setTags r n t).bad = v.bad := rfl
@[simp] theorem Vec.setTags_told (v : Vec) (r : VReg) (n : Nat) (t : Tag) : (v.setTags r n t).told = v.told := rfl
@[simp] theorem Vec.setTags_m (v : Vec) (r : VReg) (n : Nat) (t : Tag) : (v.setTags r n t).m = v.m := rfl
@[simp] theorem Vec.setTags_e (v : Vec) (r : VReg) (n : Nat) (t : Tag) : (v.setTags r n t).e = v.e := rfl
@[simp] theorem Vec.setTags_s (v : Vec) (r : VReg) (n : Nat) (t : Tag) : (v.setTags r n t).s = v.s := rfl
@[simp] theorem Vec.setTags_vtype (v : Vec) (r : VReg) (n : Nat) (t : Tag) : (v.setTags r n t).vtype = v.vtype := rfl
@[simp] theorem Vec.setTags_vl (v : Vec) (r : VReg) (n : Nat) (t : Tag) : (v.setTags r n t).vl = v.vl := rfl
@[simp] theorem Vec.setTags_vlmax (v : Vec) (r : VReg) (n : Nat) (t : Tag) : (v.setTags r n t).vlmax = v.vlmax := rfl
@[simp] theorem Vec.setTags_vstart (v : Vec) (r : VReg) (n : Nat) (t : Tag) : (v.setTags r n t).vstart = v.vstart := rfl
@[simp] theorem Vec.setTags_grant (v : Vec) (r : VReg) (n : Nat) (t : Tag) : (v.setTags r n t).grant = v.grant := rfl
@[simp] theorem Vec.setTags_fgrant (v : Vec) (r : VReg) (n : Nat) (t : Tag) : (v.setTags r n t).fgrant = v.fgrant := rfl
@[simp] theorem Vec.setTags_lanereq (v : Vec) (r : VReg) (n : Nat) (t : Tag) : (v.setTags r n t).lanereq = v.lanereq := rfl
@[simp] theorem Vec.setTags_scalebase (v : Vec) (r : VReg) (n : Nat) (t : Tag) : (v.setTags r n t).scalebase = v.scalebase := rfl
@[simp] theorem Vec.setTags_flags (v : Vec) (r : VReg) (n : Nat) (t : Tag) : (v.setTags r n t).flags = v.flags := rfl
@[simp] theorem Vec.setTags_ftrap (v : Vec) (r : VReg) (n : Nat) (t : Tag) : (v.setTags r n t).ftrap = v.ftrap := rfl
@[simp] theorem Vec.setTags_viq (v : Vec) (r : VReg) (n : Nat) (t : Tag) : (v.setTags r n t).viq = v.viq := rfl
@[simp] theorem Vec.setTags_infl (v : Vec) (r : VReg) (n : Nat) (t : Tag) : (v.setTags r n t).infl = v.infl := rfl
@[simp] theorem Vec.setElem_tag (v : Vec) (l w : Nat) (b : VReg) (i c : Nat) : (v.setElem l w b i c).tag = v.tag := rfl
@[simp] theorem Vec.setElem_m (v : Vec) (l w : Nat) (b : VReg) (i c : Nat) : (v.setElem l w b i c).m = v.m := rfl
@[simp] theorem Vec.setElem_e (v : Vec) (l w : Nat) (b : VReg) (i c : Nat) : (v.setElem l w b i c).e = v.e := rfl
@[simp] theorem Vec.setElem_s (v : Vec) (l w : Nat) (b : VReg) (i c : Nat) : (v.setElem l w b i c).s = v.s := rfl
@[simp] theorem Vec.setElem_vtype (v : Vec) (l w : Nat) (b : VReg) (i c : Nat) : (v.setElem l w b i c).vtype = v.vtype := rfl
@[simp] theorem Vec.setElem_vl (v : Vec) (l w : Nat) (b : VReg) (i c : Nat) : (v.setElem l w b i c).vl = v.vl := rfl
@[simp] theorem Vec.setElem_vlmax (v : Vec) (l w : Nat) (b : VReg) (i c : Nat) : (v.setElem l w b i c).vlmax = v.vlmax := rfl
@[simp] theorem Vec.setElem_vstart (v : Vec) (l w : Nat) (b : VReg) (i c : Nat) : (v.setElem l w b i c).vstart = v.vstart := rfl
@[simp] theorem Vec.setElem_grant (v : Vec) (l w : Nat) (b : VReg) (i c : Nat) : (v.setElem l w b i c).grant = v.grant := rfl
@[simp] theorem Vec.setElem_fgrant (v : Vec) (l w : Nat) (b : VReg) (i c : Nat) : (v.setElem l w b i c).fgrant = v.fgrant := rfl
@[simp] theorem Vec.setElem_lanereq (v : Vec) (l w : Nat) (b : VReg) (i c : Nat) : (v.setElem l w b i c).lanereq = v.lanereq := rfl
@[simp] theorem Vec.setElem_scalebase (v : Vec) (l w : Nat) (b : VReg) (i c : Nat) : (v.setElem l w b i c).scalebase = v.scalebase := rfl
@[simp] theorem Vec.setElem_flags (v : Vec) (l w : Nat) (b : VReg) (i c : Nat) : (v.setElem l w b i c).flags = v.flags := rfl
@[simp] theorem Vec.setElem_ftrap (v : Vec) (l w : Nat) (b : VReg) (i c : Nat) : (v.setElem l w b i c).ftrap = v.ftrap := rfl
@[simp] theorem Vec.setElem_viq (v : Vec) (l w : Nat) (b : VReg) (i c : Nat) : (v.setElem l w b i c).viq = v.viq := rfl
@[simp] theorem Vec.setElem_infl (v : Vec) (l w : Nat) (b : VReg) (i c : Nat) : (v.setElem l w b i c).infl = v.infl := rfl
@[simp] theorem Vec.setEntry_v (v : Vec) (e : Entry) : (v.setEntry e).v = v.v := rfl
@[simp] theorem Vec.setEntry_tag (v : Vec) (e : Entry) : (v.setEntry e).tag = v.tag := rfl
@[simp] theorem Vec.setEntry_bad (v : Vec) (e : Entry) : (v.setEntry e).bad = v.bad := rfl
@[simp] theorem Vec.setEntry_told (v : Vec) (e : Entry) : (v.setEntry e).told = v.told := rfl
@[simp] theorem Vec.setEntry_m (v : Vec) (e : Entry) : (v.setEntry e).m = v.m := rfl
@[simp] theorem Vec.setEntry_e (v : Vec) (e : Entry) : (v.setEntry e).e = v.e := rfl
@[simp] theorem Vec.setEntry_s (v : Vec) (e : Entry) : (v.setEntry e).s = v.s := rfl
@[simp] theorem Vec.setEntry_vtype (v : Vec) (e : Entry) : (v.setEntry e).vtype = v.vtype := rfl
@[simp] theorem Vec.setEntry_vl (v : Vec) (e : Entry) : (v.setEntry e).vl = v.vl := rfl
@[simp] theorem Vec.setEntry_vlmax (v : Vec) (e : Entry) : (v.setEntry e).vlmax = v.vlmax := rfl
@[simp] theorem Vec.setEntry_vstart (v : Vec) (e : Entry) : (v.setEntry e).vstart = v.vstart := rfl
@[simp] theorem Vec.setEntry_grant (v : Vec) (e : Entry) : (v.setEntry e).grant = v.grant := rfl
@[simp] theorem Vec.setEntry_fgrant (v : Vec) (e : Entry) : (v.setEntry e).fgrant = v.fgrant := rfl
@[simp] theorem Vec.setEntry_lanereq (v : Vec) (e : Entry) : (v.setEntry e).lanereq = v.lanereq := rfl
@[simp] theorem Vec.setEntry_scalebase (v : Vec) (e : Entry) : (v.setEntry e).scalebase = v.scalebase := rfl
@[simp] theorem Vec.setEntry_flags (v : Vec) (e : Entry) : (v.setEntry e).flags = v.flags := rfl
@[simp] theorem Vec.setEntry_ftrap (v : Vec) (e : Entry) : (v.setEntry e).ftrap = v.ftrap := rfl
@[simp] theorem Vec.setEntry_viq (v : Vec) (e : Entry) : (v.setEntry e).viq = v.viq := rfl
@[simp] theorem Vec.settle_v (v : Vec) : (v.settle).v = v.v := rfl
@[simp] theorem Vec.settle_tag (v : Vec) : (v.settle).tag = v.tag := rfl
@[simp] theorem Vec.settle_bad (v : Vec) : (v.settle).bad = v.bad := rfl
@[simp] theorem Vec.settle_told (v : Vec) : (v.settle).told = v.told := rfl
@[simp] theorem Vec.settle_m (v : Vec) : (v.settle).m = v.m := rfl
@[simp] theorem Vec.settle_e (v : Vec) : (v.settle).e = v.e := rfl
@[simp] theorem Vec.settle_s (v : Vec) : (v.settle).s = v.s := rfl
@[simp] theorem Vec.settle_vtype (v : Vec) : (v.settle).vtype = v.vtype := rfl
@[simp] theorem Vec.settle_vl (v : Vec) : (v.settle).vl = v.vl := rfl
@[simp] theorem Vec.settle_vlmax (v : Vec) : (v.settle).vlmax = v.vlmax := rfl
@[simp] theorem Vec.settle_vstart (v : Vec) : (v.settle).vstart = v.vstart := rfl
@[simp] theorem Vec.settle_grant (v : Vec) : (v.settle).grant = v.grant := rfl
@[simp] theorem Vec.settle_fgrant (v : Vec) : (v.settle).fgrant = v.fgrant := rfl
@[simp] theorem Vec.settle_lanereq (v : Vec) : (v.settle).lanereq = v.lanereq := rfl
@[simp] theorem Vec.settle_scalebase (v : Vec) : (v.settle).scalebase = v.scalebase := rfl
@[simp] theorem Vec.settle_ftrap (v : Vec) : (v.settle).ftrap = v.ftrap := rfl
@[simp] theorem Vec.settle_viq (v : Vec) : (v.settle).viq = v.viq := rfl
@[simp] theorem Vec.complete_v (v : Vec) (e : Entry) : (v.complete e).v = v.v := rfl
@[simp] theorem Vec.complete_tag (v : Vec) (e : Entry) : (v.complete e).tag = v.tag := rfl
@[simp] theorem Vec.complete_bad (v : Vec) (e : Entry) : (v.complete e).bad = v.bad := rfl
@[simp] theorem Vec.complete_told (v : Vec) (e : Entry) : (v.complete e).told = v.told := rfl
@[simp] theorem Vec.complete_m (v : Vec) (e : Entry) : (v.complete e).m = v.m := rfl
@[simp] theorem Vec.complete_e (v : Vec) (e : Entry) : (v.complete e).e = v.e := rfl
@[simp] theorem Vec.complete_s (v : Vec) (e : Entry) : (v.complete e).s = v.s := rfl
@[simp] theorem Vec.complete_vtype (v : Vec) (e : Entry) : (v.complete e).vtype = v.vtype := rfl
@[simp] theorem Vec.complete_vl (v : Vec) (e : Entry) : (v.complete e).vl = v.vl := rfl
@[simp] theorem Vec.complete_vlmax (v : Vec) (e : Entry) : (v.complete e).vlmax = v.vlmax := rfl
@[simp] theorem Vec.complete_grant (v : Vec) (e : Entry) : (v.complete e).grant = v.grant := rfl
@[simp] theorem Vec.complete_fgrant (v : Vec) (e : Entry) : (v.complete e).fgrant = v.fgrant := rfl
@[simp] theorem Vec.complete_lanereq (v : Vec) (e : Entry) : (v.complete e).lanereq = v.lanereq := rfl
@[simp] theorem Vec.complete_scalebase (v : Vec) (e : Entry) : (v.complete e).scalebase = v.scalebase := rfl
@[simp] theorem Vec.complete_ftrap (v : Vec) (e : Entry) : (v.complete e).ftrap = v.ftrap := rfl
@[simp] theorem Vec.complete_viq (v : Vec) (e : Entry) : (v.complete e).viq = v.viq := rfl
@[simp] theorem Vec.progress_v (v : Vec) (e : Entry) (hi : Nat) : (v.progress e hi).v = v.v := rfl
@[simp] theorem Vec.progress_tag (v : Vec) (e : Entry) (hi : Nat) : (v.progress e hi).tag = v.tag := rfl
@[simp] theorem Vec.progress_bad (v : Vec) (e : Entry) (hi : Nat) : (v.progress e hi).bad = v.bad := rfl
@[simp] theorem Vec.progress_told (v : Vec) (e : Entry) (hi : Nat) : (v.progress e hi).told = v.told := rfl
@[simp] theorem Vec.progress_m (v : Vec) (e : Entry) (hi : Nat) : (v.progress e hi).m = v.m := rfl
@[simp] theorem Vec.progress_e (v : Vec) (e : Entry) (hi : Nat) : (v.progress e hi).e = v.e := rfl
@[simp] theorem Vec.progress_s (v : Vec) (e : Entry) (hi : Nat) : (v.progress e hi).s = v.s := rfl
@[simp] theorem Vec.progress_vtype (v : Vec) (e : Entry) (hi : Nat) : (v.progress e hi).vtype = v.vtype := rfl
@[simp] theorem Vec.progress_vl (v : Vec) (e : Entry) (hi : Nat) : (v.progress e hi).vl = v.vl := rfl
@[simp] theorem Vec.progress_vlmax (v : Vec) (e : Entry) (hi : Nat) : (v.progress e hi).vlmax = v.vlmax := rfl
@[simp] theorem Vec.progress_vstart (v : Vec) (e : Entry) (hi : Nat) : (v.progress e hi).vstart = v.vstart := rfl
@[simp] theorem Vec.progress_grant (v : Vec) (e : Entry) (hi : Nat) : (v.progress e hi).grant = v.grant := rfl
@[simp] theorem Vec.progress_fgrant (v : Vec) (e : Entry) (hi : Nat) : (v.progress e hi).fgrant = v.fgrant := rfl
@[simp] theorem Vec.progress_lanereq (v : Vec) (e : Entry) (hi : Nat) : (v.progress e hi).lanereq = v.lanereq := rfl
@[simp] theorem Vec.progress_scalebase (v : Vec) (e : Entry) (hi : Nat) : (v.progress e hi).scalebase = v.scalebase := rfl
@[simp] theorem Vec.progress_flags (v : Vec) (e : Entry) (hi : Nat) : (v.progress e hi).flags = v.flags := rfl
@[simp] theorem Vec.progress_ftrap (v : Vec) (e : Entry) (hi : Nat) : (v.progress e hi).ftrap = v.ftrap := rfl
@[simp] theorem Vec.progress_viq (v : Vec) (e : Entry) (hi : Nat) : (v.progress e hi).viq = v.viq := rfl
@[simp] theorem Vec.setStream_v (v : Vec) (j : SReg) (t : Option Stream) : (v.setStream j t).v = v.v := rfl
@[simp] theorem Vec.setStream_tag (v : Vec) (j : SReg) (t : Option Stream) : (v.setStream j t).tag = v.tag := rfl
@[simp] theorem Vec.setStream_bad (v : Vec) (j : SReg) (t : Option Stream) : (v.setStream j t).bad = v.bad := rfl
@[simp] theorem Vec.setStream_told (v : Vec) (j : SReg) (t : Option Stream) : (v.setStream j t).told = v.told := rfl
@[simp] theorem Vec.setStream_m (v : Vec) (j : SReg) (t : Option Stream) : (v.setStream j t).m = v.m := rfl
@[simp] theorem Vec.setStream_e (v : Vec) (j : SReg) (t : Option Stream) : (v.setStream j t).e = v.e := rfl
@[simp] theorem Vec.setStream_vtype (v : Vec) (j : SReg) (t : Option Stream) : (v.setStream j t).vtype = v.vtype := rfl
@[simp] theorem Vec.setStream_vl (v : Vec) (j : SReg) (t : Option Stream) : (v.setStream j t).vl = v.vl := rfl
@[simp] theorem Vec.setStream_vlmax (v : Vec) (j : SReg) (t : Option Stream) : (v.setStream j t).vlmax = v.vlmax := rfl
@[simp] theorem Vec.setStream_vstart (v : Vec) (j : SReg) (t : Option Stream) : (v.setStream j t).vstart = v.vstart := rfl
@[simp] theorem Vec.setStream_grant (v : Vec) (j : SReg) (t : Option Stream) : (v.setStream j t).grant = v.grant := rfl
@[simp] theorem Vec.setStream_fgrant (v : Vec) (j : SReg) (t : Option Stream) : (v.setStream j t).fgrant = v.fgrant := rfl
@[simp] theorem Vec.setStream_lanereq (v : Vec) (j : SReg) (t : Option Stream) : (v.setStream j t).lanereq = v.lanereq := rfl
@[simp] theorem Vec.setStream_scalebase (v : Vec) (j : SReg) (t : Option Stream) : (v.setStream j t).scalebase = v.scalebase := rfl
@[simp] theorem Vec.setStream_flags (v : Vec) (j : SReg) (t : Option Stream) : (v.setStream j t).flags = v.flags := rfl
@[simp] theorem Vec.setStream_ftrap (v : Vec) (j : SReg) (t : Option Stream) : (v.setStream j t).ftrap = v.ftrap := rfl
@[simp] theorem Vec.setStream_viq (v : Vec) (j : SReg) (t : Option Stream) : (v.setStream j t).viq = v.viq := rfl
@[simp] theorem Vec.setStream_infl (v : Vec) (j : SReg) (t : Option Stream) : (v.setStream j t).infl = v.infl := rfl
@[simp] theorem Vec.setMaskBit_v (v : Vec) (n : MReg) (i : Nat) (b : Bool) : (v.setMaskBit n i b).v = v.v := by unfold Vec.setMaskBit; split <;> rfl
@[simp] theorem Vec.setMaskBit_tag (v : Vec) (n : MReg) (i : Nat) (b : Bool) : (v.setMaskBit n i b).tag = v.tag := by unfold Vec.setMaskBit; split <;> rfl
@[simp] theorem Vec.setMaskBit_bad (v : Vec) (n : MReg) (i : Nat) (b : Bool) : (v.setMaskBit n i b).bad = v.bad := by unfold Vec.setMaskBit; split <;> rfl
@[simp] theorem Vec.setMaskBit_told (v : Vec) (n : MReg) (i : Nat) (b : Bool) : (v.setMaskBit n i b).told = v.told := by unfold Vec.setMaskBit; split <;> rfl
@[simp] theorem Vec.setMaskBit_e (v : Vec) (n : MReg) (i : Nat) (b : Bool) : (v.setMaskBit n i b).e = v.e := by unfold Vec.setMaskBit; split <;> rfl
@[simp] theorem Vec.setMaskBit_s (v : Vec) (n : MReg) (i : Nat) (b : Bool) : (v.setMaskBit n i b).s = v.s := by unfold Vec.setMaskBit; split <;> rfl
@[simp] theorem Vec.setMaskBit_vtype (v : Vec) (n : MReg) (i : Nat) (b : Bool) : (v.setMaskBit n i b).vtype = v.vtype := by unfold Vec.setMaskBit; split <;> rfl
@[simp] theorem Vec.setMaskBit_vl (v : Vec) (n : MReg) (i : Nat) (b : Bool) : (v.setMaskBit n i b).vl = v.vl := by unfold Vec.setMaskBit; split <;> rfl
@[simp] theorem Vec.setMaskBit_vlmax (v : Vec) (n : MReg) (i : Nat) (b : Bool) : (v.setMaskBit n i b).vlmax = v.vlmax := by unfold Vec.setMaskBit; split <;> rfl
@[simp] theorem Vec.setMaskBit_vstart (v : Vec) (n : MReg) (i : Nat) (b : Bool) : (v.setMaskBit n i b).vstart = v.vstart := by unfold Vec.setMaskBit; split <;> rfl
@[simp] theorem Vec.setMaskBit_grant (v : Vec) (n : MReg) (i : Nat) (b : Bool) : (v.setMaskBit n i b).grant = v.grant := by unfold Vec.setMaskBit; split <;> rfl
@[simp] theorem Vec.setMaskBit_fgrant (v : Vec) (n : MReg) (i : Nat) (b : Bool) : (v.setMaskBit n i b).fgrant = v.fgrant := by unfold Vec.setMaskBit; split <;> rfl
@[simp] theorem Vec.setMaskBit_lanereq (v : Vec) (n : MReg) (i : Nat) (b : Bool) : (v.setMaskBit n i b).lanereq = v.lanereq := by unfold Vec.setMaskBit; split <;> rfl
@[simp] theorem Vec.setMaskBit_scalebase (v : Vec) (n : MReg) (i : Nat) (b : Bool) : (v.setMaskBit n i b).scalebase = v.scalebase := by unfold Vec.setMaskBit; split <;> rfl
@[simp] theorem Vec.setMaskBit_flags (v : Vec) (n : MReg) (i : Nat) (b : Bool) : (v.setMaskBit n i b).flags = v.flags := by unfold Vec.setMaskBit; split <;> rfl
@[simp] theorem Vec.setMaskBit_ftrap (v : Vec) (n : MReg) (i : Nat) (b : Bool) : (v.setMaskBit n i b).ftrap = v.ftrap := by unfold Vec.setMaskBit; split <;> rfl
@[simp] theorem Vec.setMaskBit_viq (v : Vec) (n : MReg) (i : Nat) (b : Bool) : (v.setMaskBit n i b).viq = v.viq := by unfold Vec.setMaskBit; split <;> rfl
@[simp] theorem Vec.setMaskBit_infl (v : Vec) (n : MReg) (i : Nat) (b : Bool) : (v.setMaskBit n i b).infl = v.infl := by unfold Vec.setMaskBit; split <;> rfl
@[simp] theorem Vec.complete_vstart (v : Vec) (e : Entry) : (v.complete e).vstart = 0 := rfl

/-! ## Elements -/

/-- Reading a vector after one entry is set. -/
theorem getD_setIfInBounds {α : Type} {n : Nat} (v : Vector α n) (i j : Nat) (x d : α) :
    (v.setIfInBounds i x).getD j d = if i = j ∧ i < n then x else v.getD j d := by
  obtain ⟨a, rfl⟩ := v
  simp only [Vector.getD, Vector.setIfInBounds, Array.getD, Array.size_setIfInBounds]
  by_cases hj : j < a.size
  · by_cases hij : i = j
    · subst hij
      simp [hj]
    · simp [hj, hij]
  · have : ¬ (i = j ∧ i < a.size) := by omega
    simp [hj, this]

/-- The bits of a register image after w of them are replaced. -/
theorem getLsbD_putBits (x : BitVec 4096) (b w c i : Nat) :
    (putBits x b w c).getLsbD i = if b ≤ i ∧ i < b + w ∧ i < 4096 then c.testBit (i - b) else x.getLsbD i := by
  unfold putBits
  rw [BitVec.getLsbD_or, BitVec.getLsbD_and, BitVec.getLsbD_not, BitVec.getLsbD_shiftLeft, BitVec.getLsbD_shiftLeft,
    BitVec.getLsbD_ofNat, BitVec.getLsbD_ofNat, Nat.testBit_two_pow_sub_one, Nat.testBit_mod_two_pow]
  by_cases hi : i < 4096
  · by_cases hb : b ≤ i
    · by_cases hw : i < b + w
      · have h1 : i - b < w := by omega
        have h2 : i - b < 4096 := by omega
        have h3 : ¬ i < b := by omega
        simp [hi, hb, hw, h1, h2, h3]
      · have h1 : ¬ i - b < w := by omega
        simp [hi, hb, hw, h1]
    · have h3 : i < b := by omega
      simp [hi, hb, h3]
  · have : x.getLsbD i = false := BitVec.getLsbD_of_ge x i (by omega)
    simp [hi, this]

/-- The replaced bits read back. -/
theorem extract_putBits_self (x : BitVec 4096) (b w c : Nat) (h : b + w ≤ 4096) :
    ((putBits x b w c).extractLsb' b w).toNat = c % 2 ^ w := by
  have : (putBits x b w c).extractLsb' b w = BitVec.ofNat w c := by
    apply BitVec.eq_of_getLsbD_eq
    intro i hi
    rw [BitVec.getLsbD_extractLsb', getLsbD_putBits, BitVec.getLsbD_ofNat]
    have : b ≤ b + i ∧ b + i < b + w ∧ b + i < 4096 := by omega
    simp [hi, this]
  rw [this, BitVec.toNat_ofNat]

/-- Bits apart from the replaced ones read as before. -/
theorem extract_putBits_apart (x : BitVec 4096) (b w c b' w' : Nat) (h : b' + w' ≤ b ∨ b + w ≤ b') :
    (putBits x b w c).extractLsb' b' w' = x.extractLsb' b' w' := by
  apply BitVec.eq_of_getLsbD_eq
  intro i hi
  rw [BitVec.getLsbD_extractLsb', BitVec.getLsbD_extractLsb', getLsbD_putBits]
  have : ¬ (b ≤ b' + i ∧ b' + i < b + w ∧ b' + i < 4096) := by omega
  simp [this]

/-- The widths of elements (R148). -/
def elementWidth (w : Nat) : Prop := w = 8 ∨ w = 16 ∨ w = 32 ∨ w = 64

theorem perReg_mul {lanes w : Nat} (hw : elementWidth w) : perReg lanes w * w = 64 * lanes := by
  unfold perReg
  rcases hw with h | h | h | h <;> subst h <;> omega

/-- The bits of an element lie in the owned lanes. -/
theorem place_bits {lanes w : Nat} (hw : elementWidth w) (hl : 0 < lanes) (d : VReg) (i : Nat) :
    (place lanes w d i).2.2 + w ≤ 64 * lanes := by
  have hm := perReg_mul (lanes := lanes) hw
  have hw0 : 0 < w := by rcases hw with h | h | h | h <;> omega
  have hn : 0 < perReg lanes w := by
    rcases Nat.eq_zero_or_pos (perReg lanes w) with h | h
    · rw [h] at hm; omega
    · exact h
  simp only [place]
  generalize hj : i % perReg lanes w = j
  have hjn : j < perReg lanes w := hj ▸ Nat.mod_lt _ hn
  have h1 : j % lanes < lanes := Nat.mod_lt _ hl
  have hq : j / lanes * w + w ≤ 64 := by
    have hlt : j / lanes < 64 / w := by
      apply (Nat.div_lt_iff_lt_mul hl).mpr
      have : 64 / w * lanes = perReg lanes w := by
        unfold perReg
        rcases hw with h | h | h | h <;> subst h <;> omega
      omega
    have h64 : 64 / w * w = 64 := by rcases hw with h | h | h | h <;> subst h <;> rfl
    have : (j / lanes + 1) * w ≤ 64 / w * w := Nat.mul_le_mul_right w hlt
    rw [Nat.add_mul] at this
    omega
  rw [Nat.mul_comm w]
  omega

/-- Two elements of a group stand in different registers or in bits apart. -/
theorem place_apart {lanes w : Nat} (hw : elementWidth w) (hl : 0 < lanes) (d : VReg) {i j : Nat} (hij : i ≠ j) :
    (place lanes w d i).1 ≠ (place lanes w d j).1 ∨
      (place lanes w d i).2.2 + w ≤ (place lanes w d j).2.2 ∨ (place lanes w d j).2.2 + w ≤ (place lanes w d i).2.2 := by
  have hm := perReg_mul (lanes := lanes) hw
  have hw0 : 0 < w := by rcases hw with h | h | h | h <;> omega
  by_cases hr : (place lanes w d i).1 = (place lanes w d j).1
  · right
    have hbi := place_bits hw hl d i
    simp only [place] at hr hbi ⊢
    generalize hn : perReg lanes w = n at *
    have hdiv : i / n = j / n := by omega
    have hne : i % n ≠ j % n := by
      intro h
      apply hij
      rw [← Nat.div_add_mod i n, ← Nat.div_add_mod j n, hdiv, h]
    have hn0 : 0 < n := by
      rcases Nat.eq_zero_or_pos n with h | h
      · rw [h] at hm; omega
      · exact h
    have ha : i % n < n := Nat.mod_lt _ hn0
    have hb : j % n < n := Nat.mod_lt _ hn0
    generalize i % n = a at *
    generalize j % n = b at *
    have hwle : w ≤ 64 := by rcases hw with h | h | h | h <;> omega
    have key : ∀ {x y : Nat}, x < y → w * x + w ≤ w * y := by
      intro x y hxy
      have : w * (x + 1) ≤ w * y := Nat.mul_le_mul_left w hxy
      rw [Nat.mul_add] at this
      omega
    have small : ∀ k : Nat, k < n → w * (k / lanes) + w ≤ 64 := by
      intro k hk
      have hlt : k / lanes < 64 / w := by
        apply (Nat.div_lt_iff_lt_mul hl).mpr
        have : 64 / w * lanes = n := by
          rw [← hn]
          unfold perReg
          rcases hw with h | h | h | h <;> subst h <;> omega
        omega
      have h64 : w * (64 / w) = 64 := by rcases hw with h | h | h | h <;> subst h <;> rfl
      have := key hlt
      omega
    have sa := small a ha
    have sb := small b hb
    rcases Nat.lt_trichotomy (a % lanes) (b % lanes) with h | h | h
    · left; omega
    · have hq : a / lanes ≠ b / lanes := by
        intro hq
        apply hne
        rw [← Nat.div_add_mod a lanes, ← Nat.div_add_mod b lanes, hq, h]
      rcases Nat.lt_or_gt_of_ne hq with h' | h'
      · left
        have := key h'
        omega
      · right
        have := key h'
        omega
    · right; omega
  · left
    exact hr

/-- Reading an element after a write (R152): the written one holds the code, the others of the group stay. -/
theorem Vec.elem_setElem (v : Vec) {lanes w : Nat} (hw : elementWidth w) (hl : 0 < lanes) (hl' : lanes ≤ 64) (d : VReg)
    (i j c : Nat) (hi : (place lanes w d i).1 < 32) :
    (v.setElem lanes w d i c).elem lanes w d j = if j = i then c % 2 ^ w else v.elem lanes w d j := by
  have hb := place_bits hw hl d i
  unfold Vec.elem Vec.setElem
  simp only [getD_setIfInBounds]
  by_cases hji : j = i
  · subst hji
    simp only [hi, and_self, if_true]
    exact extract_putBits_self _ _ _ _ (by omega)
  · simp only [hji, if_false]
    by_cases hr : (place lanes w d i).1 = (place lanes w d j).1
    · have hap := (place_apart hw hl d (Ne.symm hji)).resolve_left (fun h => h hr)
      simp only [hr, hr ▸ hi, and_self, if_true]
      rw [extract_putBits_apart _ _ _ _ _ _ (by omega)]
    · simp only [hr, false_and, if_false]

/-- A write of an element leaves the registers of other numbers (R152). -/
theorem Vec.setElem_reg_other (v : Vec) (lanes w : Nat) (d : VReg) (i c n : Nat) (h : n ≠ (place lanes w d i).1) :
    (v.setElem lanes w d i c).v.getD n 0 = v.v.getD n 0 := by
  unfold Vec.setElem
  simp only [getD_setIfInBounds]
  have : ¬ ((place lanes w d i).1 = n ∧ (place lanes w d i).1 < 32) := fun h' => h h'.1.symm
  simp [this]

/-! ## Groups that an instruction writes -/

/-- The code that an instruction writes to element i of a destination, if any (R148): nothing below the first index, ones
or nothing in the tail and in inactive elements, the result in active ones. -/
def VRun.putCode (r : VRun) (m : MReg) (hi : Nat) (fin : Bool) (d : VDst) (i : Nat) : Option Nat :=
  let cap := 2 ^ codeBits (d.tag.getD (r.v.tagOf d.base)) d.w
  if i < r.start then none
  else if r.vl ≤ i then (if fin && r.vt.ta then some (cap - 1) else none)
  else if hi ≤ i then none
  else if r.v.maskBit m i then (d.res i).map (· % cap)
  else if r.vt.ma then some (cap - 1) else none

/-- Writes the codes that a function gives to the elements of a list. -/
def Vec.putList (lanes w : Nat) (d : VReg) (g : Nat → Option Nat) (l : List Nat) (v : Vec) : Vec :=
  l.foldl (fun v i => match g i with | some c => v.setElem lanes w d i c | none => v) v

/-- `put` in terms of the codes it writes. -/
theorem VRun.put_eq (r : VRun) (m : MReg) (hi : Nat) (fin : Bool) (d : VDst) (v : Vec) :
    r.put m hi fin d v =
      (match d.tag with
       | some t => (Vec.putList r.lanes d.w d.base (r.putCode m hi fin d) (List.range r.vlmax) v).setTags d.base (r.vt.lmul * d.w / r.vt.sew) t
       | none => Vec.putList r.lanes d.w d.base (r.putCode m hi fin d) (List.range r.vlmax) v) := by
  have h : ∀ (l : List Nat) (v : Vec),
      l.foldl (fun (v : Vec) i =>
        if i < r.start then v
        else if r.vl ≤ i then (if fin && r.vt.ta then v.setElem r.lanes d.w d.base i (2 ^ codeBits (d.tag.getD (r.v.tagOf d.base)) d.w - 1) else v)
        else if hi ≤ i then v
        else if r.v.maskBit m i then (match d.res i with | some c => v.setElem r.lanes d.w d.base i (c % 2 ^ codeBits (d.tag.getD (r.v.tagOf d.base)) d.w) | none => v)
        else if r.vt.ma then v.setElem r.lanes d.w d.base i (2 ^ codeBits (d.tag.getD (r.v.tagOf d.base)) d.w - 1) else v) v =
        Vec.putList r.lanes d.w d.base (r.putCode m hi fin d) l v := by
    intro l
    induction l with
    | nil => intro v; rfl
    | cons i l ih =>
      intro v
      simp only [List.foldl_cons]
      rw [ih]
      simp only [Vec.putList, List.foldl_cons]
      congr 1
      unfold VRun.putCode
      by_cases h1 : i < r.start
      · simp [h1]
      · by_cases h2 : r.vl ≤ i
        · by_cases h3 : (fin && r.vt.ta) = true <;> simp [h1, h2, h3]
        · by_cases h3 : hi ≤ i
          · simp [h1, h2, h3]
          · by_cases h4 : r.v.maskBit m i = true
            · cases h5 : d.res i <;> simp [h1, h2, h3, h4]
            · by_cases h5 : r.vt.ma = true <;> simp [h1, h2, h3, h4, h5]
  have h2 := h (List.range r.vlmax) v
  unfold VRun.put
  cases ht : d.tag with
  | none => rw [ht] at h2; exact h2
  | some t => rw [ht] at h2; exact congrArg (fun x : Vec => x.setTags d.base (r.vt.lmul * d.w / r.vt.sew) t) h2

/-- Reading an element after a list of writes. -/
theorem Vec.elem_putList {lanes w : Nat} (hw : elementWidth w) (hl : 0 < lanes) (hl' : lanes ≤ 64) (d : VReg)
    (g : Nat → Option Nat) (j : Nat) :
    ∀ (l : List Nat) (v : Vec), (∀ i ∈ l, (place lanes w d i).1 < 32) →
      (Vec.putList lanes w d g l v).elem lanes w d j =
        if j ∈ l then (g j).elim (v.elem lanes w d j) (· % 2 ^ w) else v.elem lanes w d j
  | [], v, _ => by simp [Vec.putList]
  | i :: l, v, h => by
    have ih := Vec.elem_putList hw hl hl' d g j l (match g i with | some c => v.setElem lanes w d i c | none => v)
      (fun x hx => h x (List.mem_cons_of_mem i hx))
    have hi := h i (List.mem_cons_self)
    unfold Vec.putList at ih ⊢
    rw [List.foldl_cons, ih]
    by_cases hji : j = i
    · subst hji
      cases hg : g j with
      | none => simp
      | some c => by_cases hl2 : j ∈ l <;> simp [hl2, Vec.elem_setElem v hw hl hl' d j j c hi]
    · have : (match g i with | some c => v.setElem lanes w d i c | none => v).elem lanes w d j = v.elem lanes w d j := by
        cases hg : g i with
        | none => rfl
        | some c => simp [Vec.elem_setElem v hw hl hl' d i j c hi, hji]
      rw [this]
      simp [hji]

/-- A list of writes leaves the registers that hold none of the elements. -/
theorem Vec.putList_reg_other (lanes w : Nat) (d : VReg) (g : Nat → Option Nat) (n : Nat) :
    ∀ (l : List Nat) (v : Vec), (∀ i ∈ l, n ≠ (place lanes w d i).1) →
      (Vec.putList lanes w d g l v).v.getD n 0 = v.v.getD n 0
  | [], v, _ => rfl
  | i :: l, v, h => by
    have ih := Vec.putList_reg_other lanes w d g n l (match g i with | some c => v.setElem lanes w d i c | none => v)
      (fun x hx => h x (List.mem_cons_of_mem i hx))
    unfold Vec.putList at ih ⊢
    rw [List.foldl_cons, ih]
    cases hg : g i with
    | none => rfl
    | some c => exact Vec.setElem_reg_other v lanes w d i c n (h i List.mem_cons_self)

/-- A list of writes changes nothing of the vector side but its registers and their marks. -/
theorem Vec.putList_frame (lanes w : Nat) (d : VReg) (g : Nat → Option Nat) :
    ∀ (l : List Nat) (v : Vec),
      { Vec.putList lanes w d g l v with v := v.v, bad := v.bad, told := v.told } = v
  | [], v => rfl
  | i :: l, v => by
    have ih := Vec.putList_frame lanes w d g l (match g i with | some c => v.setElem lanes w d i c | none => v)
    unfold Vec.putList at ih ⊢
    rw [List.foldl_cons]
    generalize (List.foldl (fun v i => match g i with | some c => v.setElem lanes w d i c | none => v)
      (match g i with | some c => v.setElem lanes w d i c | none => v) l) = u at ih ⊢
    cases hg : g i with
    | none => simpa [hg] using ih
    | some c =>
      simp only [hg] at ih
      exact congrArg (fun x : Vec => { x with v := v.v, bad := v.bad, told := v.told }) ih

/-- Reading an element of the destination after an instruction has written it (R148). -/
theorem VRun.elem_put (r : VRun) (m : MReg) (hi : Nat) (fin : Bool) (d : VDst) (v : Vec) (hw : elementWidth d.w)
    (hl : 0 < r.lanes) (hl' : r.lanes ≤ 64) (hreg : ∀ i < r.vlmax, (place r.lanes d.w d.base i).1 < 32) (j : Nat)
    (hj : j < r.vlmax) :
    (r.put m hi fin d v).elem r.lanes d.w d.base j = (r.putCode m hi fin d j).elim (v.elem r.lanes d.w d.base j) (· % 2 ^ d.w) := by
  have h := Vec.elem_putList hw hl hl' d.base (r.putCode m hi fin d) j (List.range r.vlmax) v
    (fun i hi => hreg i (List.mem_range.mp hi))
  rw [if_pos (List.mem_range.mpr hj)] at h
  rw [VRun.put_eq]
  cases d.tag with
  | none => exact h
  | some t => exact h

/-- An instruction leaves the registers outside its destination group (R149). -/
theorem VRun.put_reg_other (r : VRun) (m : MReg) (hi : Nat) (fin : Bool) (d : VDst) (v : Vec) (n : Nat)
    (hn : ∀ i < r.vlmax, n ≠ (place r.lanes d.w d.base i).1) :
    (r.put m hi fin d v).v.getD n 0 = v.v.getD n 0 := by
  have h := Vec.putList_reg_other r.lanes d.w d.base (r.putCode m hi fin d) n (List.range r.vlmax) v
    (fun i hi => hn i (List.mem_range.mp hi))
  rw [VRun.put_eq]
  cases d.tag with
  | none => exact h
  | some t => exact h

/-- An instruction changes nothing of the vector side but the registers, marks and tags of its destination. -/
theorem VRun.put_frame (r : VRun) (m : MReg) (hi : Nat) (fin : Bool) (d : VDst) (v : Vec) :
    { r.put m hi fin d v with v := v.v, bad := v.bad, told := v.told, tag := v.tag } = v := by
  have h := Vec.putList_frame r.lanes d.w d.base (r.putCode m hi fin d) (List.range r.vlmax) v
  rw [VRun.put_eq]
  have h2 := congrArg (fun x : Vec => { x with tag := v.tag }) h
  cases d.tag with
  | none => exact h2
  | some t => exact h2


end Sys2Proof.Machine
end

