-- ==== Sys2Proof/Tests/Slice0.lean ====
section
/-! SUPPORT. The tests: words that the spec writes out, ill-formed terms, single steps on small states, and for every statement
with hypotheses a state and operands that meet them (the theorems witness_…). -/
set_option maxRecDepth 20000
set_option exponentiation.threshold 5000
namespace Sys2Proof.Machine

/-! ## Words (the values are those that the spec prints) -/

theorem test_decode_sop : decodeWord 0x094C7000 = .ok (.sopAdd 5 6 7) ∧ decodeWord 0x0A5407C0 = .ok (.sopMod383 9 10) := by decide
theorem test_decode_sopi : decodeWord 0x114DA003 = .ok (.sopiShiSra 5 6 3) ∧ decodeWord 0x10000000 = .ok (.sopiAddi 0 0 0) := by decide
theorem test_decode_upper : decodeWord 0x19400014 = .ok (.lui 5 20) ∧ decodeWord 0x21400000 = .ok (.auipc 5 0) := by decide
theorem test_decode_access : decodeWord 0x298BEC00 = .ok (.ldD 6 5 15 0) ∧ decodeWord 0x31864C00 = .ok (.stD 6 3 2 0) ∧
    decodeWord 0x3A06940A = .ok (.amoAdd 8 3 9 4 2) := by decide
theorem test_decode_branch : decodeWord 0x41407FFE = .ok (.brNe 5 0 (-2)) := by decide
/-- jal x1, -1 and jalr x0, x1, 0 by the formats J and SI of R88. -/
theorem test_decode_jump : decodeWord 0b01001_00001_1111111111111111111111#32 = .ok (.jal 1 (-1)) ∧
    decodeWord 0b01010_00000_00001_000_00000000000000#32 = .ok (.jalr 0 1 0) := by decide
theorem test_decode_sys : decodeWord 0x58030006 = .ok (.sysFenceC 6) ∧ decodeWord 0x58040003 = .ok (.sysFenceS 3) ∧
    decodeWord 0x58050007 = .ok (.sysTrap 7) ∧ decodeWord 0x58075000 = .ok (.sysWfe 10) ∧ decodeWord 0x58080000 = .ok .sysHalt ∧
    decodeWord 0x5A4E6000 = .ok (.sysLaunch 9 12) := by decide
theorem test_decode_vcfg : decodeWord 0x6154B000 = .ok (.vcfgSetl 5 10 11) ∧ decodeWord 0x62012080 = .ok (.vcfgTag 8 18) ∧
    decodeWord 0x618A0040 = .ok (.vcfgSettype 6 5) := by decide
theorem test_decode_vop : decodeWord 0x6910C000 = .ok (.vopAdd 4 8 (.vv 12) 0) ∧ decodeWord 0x68C88540 = .ok (.vopCmpLt 3 4 (.vv 8) 0) ∧
    decodeWord 0x6911D011 = .ok (.vopAdd 4 8 (.vi (-3)) 1) ∧ decodeWord 0x689064A8 = .ok (.vopShrRnd 2 8 (.narrow 6) 0) ∧
    decodeWord 0x69100600 = .ok (.vopMv 4 (.reg 8) 0) := by decide
theorem test_decode_vrot : decodeWord 0x721807B0 = .ok (.vrotHypVec 8 12 0 15 false 0) ∧
    decodeWord 0x710C0388 = .ok (.vrotCirRot 4 6 0 7 true 0) := by decide
theorem test_decode_vfn : decodeWord 0x7910C380 = .ok (.vfnSoftx 4 8 (.vv 12) 0) ∧
    decodeWord 0x7910C8C0 = .ok (.vfnUfn 3 4 8 (.vv 12) 0) := by decide
theorem test_decode_vred : decodeWord 0x82440340 = .ok (.vredMaskFirst 9 2 0) ∧ decodeWord 0x800403C0 = .ok (.vredMaskCutoff 2 0) ∧
    decodeWord 0x80887008 = .ok (.vredRedsum 2 4 (.vx 7) 0) := by decide
theorem test_decode_vperm : decodeWord 0x891091C8 = .ok (.vpermReshape 4 8 9) ∧
    decodeWord 0x8910C100 = .ok (.vpermGather 4 8 (.vv 12) 0) := by decide
theorem test_decode_vld : decodeWord 0x91140F08 = .ok (.vldUnit 4 10 15 1 0) ∧ decodeWord 0x91140F80 = .ok (.vldFf 4 10 15 0 0) := by decide
theorem test_decode_vst : decodeWord 0x9A06C261 = .ok (.vstIdx 8 3 12 2 0 1) ∧ decodeWord 0x9C280F80 = .ok (.vstMx 16 20 15 0 0) := by decide
theorem test_decode_strm : decodeWord 0xA0900000 = .ok (.strmBind 2 8) ∧ decodeWord 0xA14400C0 = .ok (.strmStatus 5 2) ∧
    decodeWord 0xA0920100 = .ok (.strmSkip 2 9) := by decide
theorem test_decode_scl : decodeWord 0xA814B000 = .ok (.sclLd 10 11) ∧ decodeWord 0xA9000080 = .ok (.sclTov 4) := by decide
theorem test_decode_copy : decodeWord 0xB1D4B300 = .ok (.copyCopy 7 10 11 3) := by decide
theorem test_decode_mat : decodeWord 0xB9D43000 = .ok (.matWld 7 10 3) ∧ decodeWord 0xB8803041 = .ok (.matMma 1 0 3 0 false true) ∧
    decodeWord 0xB8400046 = .ok (.matMma 0 1 0 1 true false) ∧ decodeWord 0xB8520080 = .ok (.matAnchor 1 9) ∧
    decodeWord 0xB94000C1 = .ok (.matBel 5 true) ∧ decodeWord 0xB9800102 = .ok (.matSlot 6 2) ∧
    decodeWord 0xB890B140 = .ok (.matFeed 1 8 11) ∧ decodeWord 0xB8802180 = .ok (.matFeedEnd 1 2) ∧
    decodeWord 0xB91801C1 = .ok (.matDrain 4 12 1) ∧ decodeWord 0xB8000201 = .ok (.matDrainEnd 1) := by decide
theorem test_decode_fab : decodeWord 0xC154BF00 = .ok (.fabEnq 5 10 11 15) ∧ decodeWord 0xC1A88F08 = .ok (.fabAdd96 6 20 8 15) ∧
    decodeWord 0xC018DF10 = .ok (.fabNotify 12 13 15) := by decide
/-- The classes 0 and 25 to 31 are reserved (R90), and the K16 of `sys.halt` must be zero (R89). -/
theorem test_decode_reserved : decodeWord 0 = .error .illop ∧ decodeWord 0xFFFFFFFF = .error .illop ∧
    decodeWord 0x58080001 = .error .illfld := by decide

/-! ## Ill-formed terms: one for each check of WellFormed -/

theorem test_form_operand : WellFormed (.vopRsub 1 2 (.wide 3) 0) = false ∧ WellFormed (.vopSrl 1 2 (.narrow 3) 0) = true ∧
    WellFormed (.vredRedsum 1 2 (.vi 3) 0) = false ∧ WellFormed (.vfnDiv 1 2 (.vi 3) 0) = false := by decide
theorem test_form_mask : WellFormed (.vopCmpEq 0 1 (.vv 2) 0) = false ∧ WellFormed (.vredMaskAnd 0 1 2 0) = false ∧
    WellFormed (.vredMaskCutoff 0 0) = false ∧ WellFormed (.vopFclass (.mask 0 1) 2 0) = false := by decide
theorem test_form_convert : WellFormed (.vopCvtSat .wide 1 2 0) = false := by decide
theorem test_form_rotation : WellFormed (.vrotCirRot 4 6 1 31 false 0) = false ∧ WellFormed (.vrotCirRot 4 6 1 3 true 0) = false ∧
    WellFormed (.vrotLinVec 4 6 0 3 true 0) = false ∧ WellFormed (.vrotLinVec 4 6 0 31 false 0) = true := by decide
theorem test_form_permute : WellFormed (.vpermSlideup 1 2 (.vi (-1)) 0) = false ∧ WellFormed (.vpermSlideup 1 2 (.vv 3) 0) = false := by
  decide
theorem test_form_access : WellFormed (.vldUnit 1 2 15 3 0) = false ∧ WellFormed (.vst2d 1 2 3 15 0 0) = false := by decide
theorem test_form_command : WellFormed (.copyCopy 0 1 2 0) = false ∧ WellFormed (.copyCopy 1 1 2 0) = false ∧
    WellFormed (.copyCopy2d 1 3 4 0) = false ∧ WellFormed (.copyCopy2d 5 4 6 0) = false ∧ WellFormed (.matWld 0 1 0) = false ∧
    WellFormed (.fabAdd96 1 2 3 0) = false := by decide
theorem test_form_mma : WellFormed (.matMma 1 0 0 1 false false) = false ∧ WellFormed (.matMma 2 0 0 2 false false) = false ∧
    WellFormed (.matMma 0 0 0 3 false false) = false := by decide
theorem test_form_fence : WellFormed (.sysFenceC 0) = false := by decide

/-! ## Small states -/

/-- The state that an instruction answers. -/
def after (o : Host.Outcome State Fault Refusal) : State :=
  match o with | .next s => s | _ => State.reset

/-- Context 0 moves, in user mode, with one page that maps addresses to themselves and the x registers given. -/
def user (l : List (Nat × W64)) : State :=
  let s := State.reset.withFetchWord 32 0
  let f := s.front 0
  { s.setFront 0 { f with x := l.foldl (fun v p => v.setIfInBounds p.1 p.2) f.x, tvec := 0x2000 } with actor := .front 0 false }

/-- The same in supervisor mode. -/
def super (l : List (Nat × W64)) : State :=
  let s := user l
  s.setFront 0 { s.front 0 with status := 0b00101 }

/-- Drone 0 moves, like `user`. -/
def drone (l : List (Nat × W64)) : State :=
  let s := user []
  let f := s.front 0
  { s.setFront 1024 { Front.resetDrone with
      x := l.foldl (fun v p => v.setIfInBounds p.1 p.2) f.x, pc := 0x1000, tvec := 0x2000, aspace := f.aspace, run := .running } with
    actor := .front 1024 false }

/-! ## Single steps (expected values by hand from the rules named) -/

/-- R117: the sum wraps modulo 2^64, and the pc moves by one word. -/
theorem test_step_add : ((after (exec (.sopAdd 5 6 7) (user [(6, -1), (7, 3)]))).front 0).xr 5 = 2 ∧
    ((after (exec (.sopAdd 5 6 7) (user [(6, -1), (7, 3)]))).front 0).pc = 0x1004 := by decide
/-- R117: division by zero gives all ones, and -2^63 / -1 gives -2^63. -/
theorem test_step_div : ((after (exec (.sopDiv 5 6 7) (user [(6, 9)]))).front 0).xr 5 = -1 ∧
    ((after (exec (.sopDiv 5 6 7) (user [(6, 1 <<< 63), (7, -1)]))).front 0).xr 5 = 1 <<< 63 := by decide
/-- R117: mod383 and div383 of 1000 give 234 and 2. -/
theorem test_step_mod383 : ((after (exec (.sopMod383 9 10) (user [(10, 1000)]))).front 0).xr 9 = 234 ∧
    ((after (exec (.sopDiv383 9 10) (user [(10, 1000)]))).front 0).xr 9 = 2 := by decide
/-- R118: the arithmetic shift by the immediate. -/
theorem test_step_sra : ((after (exec (.sopiShiSra 5 6 3) (user [(6, -9)]))).front 0).xr 5 = -2 := by decide
/-- R127: two words back when taken. -/
theorem test_step_branch : ((after (exec (.brNe 5 0 (-2)) (user [(5, 1)]))).front 0).pc = 0xFF8 ∧
    ((after (exec (.brNe 5 0 (-2)) (user []))).front 0).pc = 0x1004 := by decide
/-- R128: `jalr` reads x(A) before it writes the link. -/
theorem test_step_jalr : ((after (exec (.jalr 5 5 1) (user [(5, 0x2002)]))).front 0).pc = 0x2004 ∧
    ((after (exec (.jalr 5 5 1) (user [(5, 0x2002)]))).front 0).xr 5 = 0x1004 := by decide
/-- R120, R124: a store, then a load and an atomic of its bytes; the 32-bit form returns the old value sign-extended. -/
theorem test_step_memory :
    ((after (exec (.ldW 7 5 15 0) (after (exec (.stW 6 5 15 0) (user [(5, 0x3000), (6, 0x80000001)]))))).front 0).xr 7 =
      0xFFFFFFFF80000001 ∧
    ((after (exec (.amoAddW 7 5 6 15 2) (after (exec (.stW 6 5 15 0) (user [(5, 0x3000), (6, 0x80000001)]))))).front 0).xr 7 =
      0xFFFFFFFF80000001 := by decide
/-- R121: a misaligned load traps MISALIGN (6) with the address in TVAL, and goes to TVEC. -/
theorem test_step_misalign : ((after (exec (.ldW 7 5 15 0) (user [(5, 0x3001)]))).front 0).cause.extractLsb' 0 8 = 6 ∧
    ((after (exec (.ldW 7 5 15 0) (user [(5, 0x3001)]))).front 0).tval = 0x3001 ∧
    ((after (exec (.ldW 7 5 15 0) (user [(5, 0x3001)]))).front 0).pc = 0x2000 := by decide
/-- R134, R136: the trap of user mode saves SUP = 0 and IE = 1, and the return brings them back. -/
theorem test_step_trap : ((after (exec (.sysTrap 7) (user []))).front 0).status = 0b01001 ∧
    ((after (exec .sysEret { after (exec (.sysTrap 7) (user [])) with actor := .front 0 false })).front 0).status = 0b01100 ∧
    ((after (exec .sysEret { after (exec (.sysTrap 7) (user [])) with actor := .front 0 false })).front 0).pc = 0x1000 := by decide
/-- R86, R130: TVEC is a supervisor register; in user mode its number traps PRIV. -/
theorem test_step_csr : ((after (exec (.sysCsrRw 5 6 0x104) (super [(6, 0x4000)]))).front 0).xr 5 = 0x2000 ∧
    ((after (exec (.sysCsrRw 5 6 0x104) (super [(6, 0x4000)]))).front 0).tvec = 0x4000 ∧
    ((after (exec (.sysCsrRw 5 6 0x104) (user [(6, 0x4000)]))).front 0).cause.extractLsb' 0 8 = 4 := by decide
/-- A whole step: the word at the pc of the placed agent runs. -/
theorem test_step_fetch : (after (step ((user [(6, 5), (7, 8)]).withFetchWord 32 0x094C7000))).front 0 |>.xr 5 |> (· = 13) := by decide

/-! ## Witnesses: steps, decoding, integers -/

/-- The state of a step of context 0 after time has passed, and just before its instruction. -/
def ticked (s : State) : State :=
  let s1 : State := { s with sched := [] }
  s1.tick (clusterOf 0) (s1.edgesBefore (.front 0 false))
def begun (s : State) : State := { ticked s with actor := .front 0 false }

/-- A word stands where context 0 fetches, and context 0 moves next. -/
def placed (w : Nat) : State := (user []).withFetchWord 32 w

theorem witness_StepRunsFetchedInstruction : (placed 0x094C7000).sched = .front 0 false :: [] ∧
    (∀ b ∈ (ticked (placed 0x094C7000)).frontsBefore 0, (ticked (placed 0x094C7000)).ready? b = false) ∧
    ((begun (placed 0x094C7000)).front 0).run = .running ∧ ((begun (placed 0x094C7000)).front 0).frozen = false ∧
    ((begun (placed 0x094C7000)).front 0).freezing = false ∧
    ((begun (placed 0x094C7000)).front 0).stopped = false ∧
    (((begun (placed 0x094C7000)).front 0).preempt && ((begun (placed 0x094C7000)).front 0).ie) = false ∧
    (begun (placed 0x094C7000)).checkOwn 0 .fetch ((begun (placed 0x094C7000)).front 0).pc 4 = .ok (0x1000, false) ∧
    isDomain 0x1000 = false ∧ (begun (placed 0x094C7000)).uecc 0x1000 4 = false ∧
    wordOfBytes ((begun (placed 0x094C7000)).readByte 0x1000) ((begun (placed 0x094C7000)).readByte 0x1001)
      ((begun (placed 0x094C7000)).readByte 0x1002) ((begun (placed 0x094C7000)).readByte 0x1003) = 0x094C7000 ∧
    droneWord 0x094C7000 = false ∧ ((begun (placed 0x094C7000)).front 0).held = false ∧
    decodeWord 0x094C7000 = .ok (.sopAdd 5 6 7) := by decide

/-- Two contexts of a core can issue, and context 0 has issued last: context 1 comes first. -/
def racing : State :=
  let s := placed 0x094C7000
  let s := s.setFront 1 (s.front 0)
  s.setCore 0 { s.core 0 with lastIssue := 0 }
theorem witness_StepRunsFetchedInstruction_turn : racing.sched = .front 0 false :: [] ∧
    ((ticked racing).frontsBefore 0).find? (ticked racing).ready? = some 1 := by decide
/-- `placed`, with the handler of a vector trap running. -/
def placedHeld (w : Nat) : State := (placed w).setFront 0 { (placed w).front 0 with held := true }
/-- `placed`, with an uncorrectable error in the word. -/
def placedBad (w : Nat) : State := { placed w with uncor := [0x1000] }
/-- `placed`, with the pc outside the canonical addresses. -/
def placedFar (w : Nat) : State := (placed w).setFront 0 { (placed w).front 0 with pc := 1 <<< 60 }

theorem witness_StepTrapsBadWords_premises : (placed 0).sched = .front 0 false :: [] ∧ (begun (placed 0)).vecBusy 0 = false ∧
    (∀ b ∈ (ticked (placed 0)).frontsBefore 0, (ticked (placed 0)).ready? b = false) ∧
    ((begun (placed 0)).front 0).run = .running ∧ ((begun (placed 0)).front 0).freezing = false ∧
    ((begun (placed 0)).front 0).entering = false ∧ (begun (placed 0)).HandlerOk 0 := by unfold State.HandlerOk; decide
theorem witness_StepTrapsBadWords_fetch : (begun (placedFar 0)).checkOwn 0 .fetch ((begun (placedFar 0)).front 0).pc 4 = .error 14 ∧
    (begun (placedFar 0)).arrived = [] ∧ (begun (placedFar 0)).requests = [] ∧ (begun (placedFar 0)).HandlerOk 0 := by unfold State.HandlerOk; decide
/-- The first fetch of a handler fails. -/
def placedLost (w : Nat) : State := (placedFar w).setFront 0 { (placedFar w).front 0 with entering := true }
theorem witness_StepTrapsBadWords_fatal : ((begun (placedLost 0)).front 0).entering = true ∧
    (begun (placedLost 0)).checkOwn 0 .fetch ((begun (placedLost 0)).front 0).pc 4 = .error 14 := by decide
theorem witness_StepTrapsBadWords_error : (begun (placedBad 0)).checkOwn 0 .fetch ((begun (placedBad 0)).front 0).pc 4 = .ok (0x1000, false) ∧
    (begun (placedBad 0)).uecc 0x1000 4 = true ∧ (begun (placedBad 0)).HandlerOk 0 := by unfold State.HandlerOk; decide
theorem witness_StepTrapsBadWords_foreign : (begun (placed 0xB8803041)).uecc 0x1000 4 = false ∧ droneWord 0xB8803041 = true ∧
    (begun (placed 0xB8803041)).readLE 0x1000 4 = 0xB8803041 := by decide
theorem witness_StepTrapsBadWords_barred : ((begun (placedHeld 0x6910C000)).front 0).held = true ∧ viqWord 0x6910C000 = true ∧
    droneWord 0x6910C000 = false ∧ (begun (placedHeld 0x6910C000)).vecBusy 0 = false := by decide
theorem witness_StepTrapsBadWords_word : droneWord 0 = false ∧ viqWord 0 = false ∧ decodeWord 0 = .error .illop ∧
    droneWord 0x58080001 = false ∧ viqWord 0x58080001 = false ∧ decodeWord 0x58080001 = .error .illfld := by decide

/-- An entry of context 0 for a word with its captured values. -/
def entryOf (w : InstrWord) (vl : BitVec 13) (ops : List W64) : Entry :=
  { word := w, addr := 0x1000, vl := vl, vtype := 0x050002, ops := ops, keep := 0, gnew := 0, started := true, ffv := false,
    pix := 0, pix0 := 0, po := 0, done := false,
    resumed := false, flags := 0, fpx := none, undo := Undo.empty, tally := Tally.empty }

/-- Context 0 owns one lane group (VLMAX 16 at SEW 32), and its vector side executes an entry. -/
def vector (e : Entry) (f : Vec → Vec) : State :=
  let s := user []
  { s.setVec 0 (f { Vec.reset with grant := 1, fgrant := 1, vl := e.vl, vlmax := 16, infl := [e] }) with actor := .vector 0 0 e.vl.toNat }

/-- An entry that is alone in flight moves. -/
theorem moves_of {s : State} {k hi : Nat} {e : Entry} (ha : s.actor = .vector k 0 hi) (hl : (s.vec k).infl = [e])
    (hd : e.done = false) : s.Moves k 0 hi e :=
  ⟨ha, by rw [hl]; rfl, hd, fun i x h _ => by
    rw [hl] at h
    exact Nat.lt_one_iff.mp (List.getElem?_eq_some_iff.mp h).1⟩

/-- An entry that is alone in flight executes. -/
theorem executes_of {s : State} {k hi : Nat} {e : Entry} (ha : s.actor = .vector k 0 hi) (hl : (s.vec k).infl = [e])
    (hd : e.done = false) (hv : e.vl.toNat ≤ hi) : s.Executes k e := ⟨0, hi, moves_of ha hl hd, hv⟩

/-- Drone 0 with the entries of its array queue. -/
def array (q : List QEntry) (f : Cluster → Cluster) : State :=
  let s := drone []
  { s.setCluster 0 (f { s.cluster 0 with queue := q }) with actor := .array 0 }

theorem witness_StepRunsEntriesAndEvents_vector :
    ({ vector (entryOf 0x6910C000 4 []) id with sched := [.vector 0 0 0] } : State).sched = .vector 0 0 0 :: [] ∧
    ((vector (entryOf 0x6910C000 4 []) id).vec 0).infl[0]? = some (entryOf 0x6910C000 4 []) ∧
    decodeWord (entryOf 0x6910C000 4 []).word = .ok (.vopAdd 4 8 (.vv 12) 0) ∧
    (entryOf 0x6910C000 4 []).done = false ∧
    (({ vector (entryOf 0x6910C000 4 []) id with sched := [] } : State).tick 0 0).vectorRests 0 = false ∧
    (({ vector (entryOf 0x6910C000 4 []) id with sched := [] } : State).tick 0 0).moveLimit 0 0 0 = some 4 := by
  decide
theorem witness_StepRunsEntriesAndEvents_array :
    ((array [⟨0xB8520080, 0x1000, 5, 0⟩] id).cluster 0).queue = ⟨0xB8520080, 0x1000, 5, 0⟩ :: [] ∧
    decodeWord 0xB8520080 = .ok (.matAnchor 1 9) ∧ ((array [⟨0xB8520080, 0x1000, 5, 0⟩] id).cluster 0).mma = none ∧
    (({ array [⟨0xB8520080, 0x1000, 5, 0⟩] id with sched := [] } : State).tick 0 0).arrayMayStart 0 = true := by decide
theorem witness_StepRunsEntriesAndEvents_event : ({ user [] with sched := [.event .launchPlace] } : State).sched = .event .launchPlace :: [] := rfl
theorem witness_DecodeEncode : WellFormed (.sopAdd 5 6 7) = true ∧ Sys2Proof.encode (.sopAdd 5 6 7) = some 0x094C7000 := by decide
theorem witness_EncodeDecode : decodeWord 0x094C7000 = .ok (.sopAdd 5 6 7) := by decide
theorem witness_StepKeepsMemoryForm : (placed 0x094C7000).MemOk ∧ step (placed 0x094C7000) = .next (after (step (placed 0x094C7000))) :=
  ⟨by unfold State.MemOk; decide, rfl⟩
theorem witness_IntegerResults_sop : (user [(6, 1)]).Issues 0 [6, 7] [5] ∧ (user [(6, 1)]).Issues 0 [6] [5] ∧
    (0x0A5417C0 : InstrWord).extractLsb' 27 5 = 1 ∧ 21 ≤ ((0x0A5417C0 : InstrWord).extractLsb' 6 6).toNat ∧
    ((0x0A5417C0 : InstrWord).extractLsb' 6 6).toNat ≤ 32 ∧ (0x0A5417C0 : InstrWord).extractLsb' 12 5 ≠ 0 := by
  unfold State.Issues State.RegsReady; decide
theorem witness_IntegerResults_immediate : (user [(6, 1)]).Issues 0 [6] [5] ∧ (0x114DB003 : InstrWord).extractLsb' 27 5 = 2 ∧
    (0x114DB003 : InstrWord).extractLsb' 14 3 = 6 ∧ (0x114DB003 : InstrWord).extractLsb' 12 2 = 3 ∧
    (0x114DA043 : InstrWord).extractLsb' 14 3 = 6 ∧ (0x114DA043 : InstrWord).extractLsb' 12 2 ≠ 3 ∧
    (0x114DA043 : InstrWord).extractLsb' 6 6 ≠ 0 := by unfold State.Issues State.RegsReady; decide
theorem witness_BranchAndJumpResults : (user [(5, 1)]).Issues 0 [5, 0] [] ∧ (user [(5, 1)]).Issues 0 [5] [1] ∧
    (0x41418000 : InstrWord).extractLsb' 27 5 = 8 ∧ 6 ≤ ((0x41418000 : InstrWord).extractLsb' 14 3).toNat := by
  unfold State.Issues State.RegsReady; decide

/-! ## Witnesses: memory -/

theorem witness_LoadResults : loadInstr 4 true 7 5 15 0 = some (.ldW 7 5 15 0) ∧ (user [(5, 0x3000)]).actor = .front 0 false ∧
    (user [(5, 0x3000)]).RegsReady 0 [5] [7] ∧ (user [(5, 0x3000)]).NothingOlder 0 ∧
    (user [(5, 0x3000)]).Reaches 0 .load 0x3000 4 0x3000 ∧ (user [(5, 0x3000)]).uecc 0x3000 4 = false := by
  unfold State.RegsReady State.NothingOlder State.Reaches; decide

theorem witness_StoreResults : storeInstr 4 6 5 15 0 = some (.stW 6 5 15 0) ∧ (user [(5, 0x3000)]).RegsReady 0 [5, 6] [] ∧
    (user [(5, 0x3000)]).NothingOlder 0 ∧ (user [(5, 0x3000)]).Reaches 0 .store 0x3000 4 0x3000 ∧
    ((user [(5, 0x3000)]).write (some 0) 0 0x3000 (bytesLE 4 1)).isSome = true := by
  unfold State.RegsReady State.NothingOlder State.Reaches; decide

/-- A snapshot slot in flight that holds generation 0. -/
def slot0 : SnapSlot :=
  { gen := 0, dest := 0, base := 0, len := 0, notify := 0, hold := 0, ctrl := 0, aspace := 0, sup := false, descVa := 0, state := 0,
    sealed := false, fulled := false, pos := 0, err := none, line := none, due := false, batts := [] }

/-- `user`, after a snapshot: generation 1 is live and slot 0 holds generation 0. -/
def snapped : State := { user [(5, 0x3000)] with live := 1, slots := (user []).slots.set 0 (some slot0) }

theorem witness_WriteResults : (user []).occupied = [] ∧ (user []).MemOk ∧ (user []).KeysOk ∧ 0x3000 + [1#8].length ≤ 2 ^ 44 ∧
    (0 : BitVec 2) = (user []).live ∧ ((user []).write (some 0) 0 0x3000 [1]).isSome = true ∧
    snapped.MemOk ∧ (snapped.slots.get 0).isSome = true ∧ (1 : BitVec 2) = snapped.live ∧
    (snapped.write (some 0) 1 0x3000 [1]).isSome = true ∧ spBase ≤ spBase + 0 ∧ ((user []).write none 0 spBase [1]).isSome = true := by
  unfold State.MemOk State.KeysOk; decide

theorem witness_AmoResults : amoInstr 1 8 7 5 6 15 2 = some (.amoAdd 7 5 6 15 2, [5, 6]) ∧
    (user [(5, 0x3000)]).RegsReady 0 [5, 6] [7] ∧ (user [(5, 0x3000)]).NothingOlder 0 ∧
    (user [(5, 0x3000)]).Reaches 0 .store 0x3000 8 0x3000 ∧ amoTable 1 8 0 3 0 = some 3 ∧
    ((user [(5, 0x3000)]).write (some 0) 0 0x3000 (bytesLE 8 3)).isSome = true ∧
    amoInstr 9 8 7 5 6 15 2 = some (.amoCas 7 5 6 15 2, [5, 6, 7]) ∧ (user [(5, 0x3000)]).RegsReady 0 [5, 6, 7] [7] ∧
    amoTable 9 8 0 3 4 = none := by unfold State.RegsReady State.NothingOlder State.Reaches; decide

/-- `user`, with an older load of the same class pending, and with a route to device 3. -/
def pending (kind : AccessKind) (pa : Nat) : State :=
  let s := user [(5, 0x3000), (6, 3 <<< 45)]
  { s.setFront 0 { s.front 0 with acc := [⟨kind, 0, 0x1000, 0x3000, pa, 15, 0, none, false⟩] } with flash := { s.flash with routes := [(3, [0])] } }

theorem witness_AccessWaitsAndTraps_waits : (pending (.load 4 true 9) 0x3000).actor = .front 0 false ∧
    (pending (.load 4 true 9) 0x3000).RegsReady 0 [5] [7] ∧ (pending (.load 4 true 9) 0x3000).RegsReady 0 [5, 7] [] ∧
    (pending (.load 4 true 9) 0x3000).checkOwn 0 .load 0x3000 4 = .ok (0x3000, false) ∧
    (pending (.load 4 true 9) 0x3000).checkOwn 0 .store 0x3000 8 = .ok (0x3000, false) ∧
    (pending (.load 4 true 9) 0x3000).accBlocked 0 ((pending (.load 4 true 9) 0x3000).front 0).acc
      ⟨.load 4 true 7, 0, 0x1000, 0x3000, 0x3000, 15, 0, none, false⟩ = true ∧
    (pending (.load 4 true 9) 0x3000).accBlocked 0 ((pending (.load 4 true 9) 0x3000).front 0).acc
      ⟨.amo 1 7 0 0, 0, 0x1000, 0x3000, 0x3000, 15, 2, none, false⟩ = true ∧
    (pending (.load 4 true 9) 0x3000).checkOwn 0 .load (3 <<< 45) 4 = .ok (3 <<< 45, false) ∧ isDomain (3 <<< 45) = true := by
  unfold State.RegsReady; decide

theorem witness_AccessWaitsAndTraps_traps : (user [(5, 0x3001)]).vecBusy 0 = false ∧ (user [(5, 0x3001)]).HandlerOk 0 ∧
    (user [(5, 0x3001)]).RegsReady 0 [5] [7] ∧ (user [(5, 0x3001)]).RegsReady 0 [5, 7] [] ∧ (user [(5, 0x3001)]).RegsReady 0 [5, 6] [7] ∧
    (user [(5, 0x3001)]).checkOwn 0 .load 0x3001 4 = .error 6 ∧ (user [(5, 0x3001)]).checkOwn 0 .store 0x3001 4 = .error 6 ∧
    (user [(5, 0x3001)]).checkOwn 0 .store 0x3001 8 = .error 6 := by unfold State.RegsReady State.HandlerOk; decide

/-- The clauses of CheckOrder at the addresses where they meet: the last usable byte of a slice and the first unusable one, the
first address that is not canonical, the end of memory, the first slot, the first other device. -/
theorem witness_CheckOrder : (1568768 ≤ (0xFFFFF00000000000 + 1568768 : Nat) % 2 ^ 21) ∧ (0xFFFFF00000000000 + 1568767 : Nat) % 2 ^ 21 < 1568768 ∧
    (0xFFFFF00000000000 + 1568767 : Nat) % 8 ≠ 0 ∧ (0xFFFFF00000000000 + 1568760 : Nat) % 8 = 0 ∧ (2 ^ 57 : Nat) / 2 ^ 57 ≠ 0 ∧
    (0x3001 : Nat) % 4 ≠ 0 ∧ (user []).translate 0 false 0 false .load 0x3000 = .error 7 ∧
    (user []).translate 0 false 0x200 false .load 0x3000 = .ok (0x3000, false) ∧ 0x3000 < (user []).dataLimit ∧
    (user []).translate 0 false 0x200 false .store (BitVec.ofNat 64 (user []).dataLimit) = .ok ((user []).dataLimit, false) ∧
    (user []).dataLimit < 2 ^ 44 ∧ (user []).translate 0 false 0x200 false .store (1 <<< 44) = .ok (2 ^ 44, false) ∧
    (user []).translate 0 false 0x200 false .load (1 <<< 44) = .ok (2 ^ 44, false) ∧
    (user []).translate 0 false 0x200 false .load (3 <<< 45) = .ok (3 * 2 ^ 45, false) ∧ 3 * 2 ^ 45 < spBase ∧
    (3 * 2 ^ 45 / 2 ^ 45 : Nat) ≠ (user []).flash.deviceId ∧ (3 * 2 ^ 45 / 2 ^ 44 : Nat) % 2 = 0 := by decide

/-- `snapped`, with no reserve left and a store of context 0 pending. -/
def stalled : State :=
  let s := { snapped with flash := { snapped.flash with resv := 0 } }
  s.setFront 0 { s.front 0 with curgen := 1, acc := [⟨.store 4 7, 0, 0x1000, 0x3000, 0x3000, 15, 0, none, false⟩] }

theorem witness_PendingPerforms :
    ((pending (.load 4 true 9) 0x3000).front 0).acc[0]? = some ⟨.load 4 true 9, 0, 0x1000, 0x3000, 0x3000, 15, 0, none, false⟩ ∧
    (pending (.load 4 true 9) 0x3000).accBlocked 0 [] ⟨.load 4 true 9, 0, 0x1000, 0x3000, 0x3000, 15, 0, none, false⟩ = false ∧
    (isSp 0x3000 && (pending (.load 4 true 9) 0x3000).fenced 0 0x3000) = false ∧ isDomain 0x3000 = false ∧
    (pending (.load 4 true 9) 0x3000).uecc 0x3000 4 = false ∧ (pending (.load 4 true 9) 0x3000).slotGone 0x3000 = false ∧
    (pending (.load 4 true 9) (2 ^ 44)).slotGone (2 ^ 44) = true ∧
    (pending (.store 4 7) 0x3000).accBlocked 0 [] ⟨.store 4 7, 0, 0x1000, 0x3000, 0x3000, 15, 0, none, false⟩ = false ∧
    ((pending (.store 4 7) 0x3000).write (some 0) 0 0x3000 (bytesLE 4 7)).isSome = true ∧
    stalled.accBlocked 0 [] ⟨.store 4 7, 0, 0x1000, 0x3000, 0x3000, 15, 0, none, false⟩ = false ∧
    (stalled.write (some 0) 1 0x3000 (bytesLE 4 7)).isNone = true ∧
    ((pending (.store 4 7) (3 * 2 ^ 45)).front 0).acc[0]? = some ⟨.store 4 7, 0, 0x1000, 0x3000, 3 * 2 ^ 45, 15, 0, none, false⟩ ∧
    isDomain (3 * 2 ^ 45) = true := by decide

/-! ## Witnesses: CSRs, traps, waiting -/

theorem witness_CsrAccess : (super [(6, 1)]).Issues 0 [6] [5] ∧ csrRead (super [(6, 1)]) 0 0x105 = some 0 ∧
    csrNew 0 6 0 1 = some 1 ∧ csrNew 1 0 0 0 = none ∧ csrPriv 0x105 ((super [(6, 1)]).front 0).sup true = false ∧
    csrWaits (super [(6, 1)]) 0 0x105 (some 1) = false ∧ csrWaits (super [(6, 1)]) 0 0x105 none = false ∧
    (csrWrite (super [(6, 1)]) 0 0x105 1).isSome = true ∧ csrRead (super [(6, 1)]) 0 0x543 = some 0 ∧
    csrPriv 0x543 true false = false ∧ csrWaits (super [(6, 1)]) 0 0x543 none = false ∧ ((super [(6, 1)]).front 0).sup = true ∧
    csrRead (super [(6, 1)]) 0 0x203 = some 0 ∧ csrPriv 0x203 true false = false ∧ csrWaits (super [(6, 1)]) 0 0x203 none = false := by
  unfold State.Issues State.RegsReady; decide
theorem witness_CsrNumbers : (csrWrite (super []) 0 0x105 7).isSome = true ∧ (csrWrite (super []) 0 0x100 31).isSome = true := by decide
theorem witness_CsrTraps : (user [(6, 1)]).Issues 0 [6] [5] ∧ (user [(6, 1)]).vecBusy 0 = false ∧ (user [(6, 1)]).HandlerOk 0 ∧
    csrRead (user [(6, 1)]) 0 0x700 = none ∧ csrRead (user [(6, 1)]) 0 0x001 = some 0 ∧
    (csrWrite (user [(6, 1)]) 0 0x001 1).isNone = true ∧ (csrRead (user [(6, 1)]) 0 0x105).isSome = true ∧
    ((user [(6, 1)]).front 0).status.getLsbD 0 = false ∧ (csrWrite (user [(6, 1)]) 0 0x105 1).isSome = true ∧
    (csrRead (user [(6, 1)]) 0 0x500).isSome = true ∧ (csrWrite (user [(6, 1)]) 0 0x500 1).isSome = true := by
  unfold State.Issues State.RegsReady State.HandlerOk; decide

/-- `super`, with an end in slot 0 of the micro-op table. -/
def programmed : State := super []

theorem witness_CsrWriteEffects : (∃ df, (super []).actor = .front 0 df) ∧ isDrone 0 = false ∧ vtypeValid 0x050002 = true ∧
    vtypeValid 0x050006 = false ∧ (super []).quiet 0 = true ∧ (pending (.load 4 true 9) 0x3000).quiet 0 = false ∧
    (∀ j, j < 8 → (((0x92492D : W64).extractLsb' (3 * j) 3).toNat < 6)) ∧ (∃ j, j < 8 ∧ ((super []).core 0).lanemap.getLsbD j = false ∧
      6 ≤ ((0x924926 : W64).extractLsb' (3 * j) 3).toNat) ∧ uopValid 0 = true ∧ ((super []).core 0).ufnvalid.getLsbD 0 = false ∧
    (super []).ufnRunning 0 1 = false ∧ (∃ m, m < 64 ∧ (((super []).core 0).micro m).extractLsb' 27 5 = 0) := by decide
theorem witness_CsrWriteEffects_valid : (({ (super []).core 0 with ufnvalid := 1 } : Core)).ufnvalid.getLsbD 0 = true := by decide
theorem witness_DebugWriteEffects : (0x508 : CsrNum).toNat = 0x508 + 0 ∧ (0x101 : W64).extractLsb' 10 54 = 0 ∧
    codeListed 0x508 1 = true ∧ codeListed 0x508 0xFF = false ∧ (super []).trcctl.getLsbD 12 = false ∧
    ((super []).front 0).status.getLsbD 0 = true ∧ ((user []).front 0).status.getLsbD 0 = false ∧
    (plainWrite (super []) 0 0x105 3).isSome = true ∧ (plainWrite (super []) 0 0x700 3).isNone = true ∧
    ((super []).core 0).smpctl.getLsbD 0 = false := by decide

theorem witness_TrapEntry : (∃ df, (user []).actor = .front 0 df) ∧ (user []).vecBusy 0 = false ∧ (user []).HandlerOk 0 ∧
    isDrone 0 = false ∧ (vector (entryOf 0x6910C000 4 []) id).HandlerOk 0 ∧
    ((vector (entryOf 0x6910C000 4 []) id).vec 0).fromVcp.head? = some (entryOf 0x6910C000 4 []) ∧
    (((vector (entryOf 0x6910C000 4 []) id).vec 0).infl ++ ((vector (entryOf 0x6910C000 4 []) id).vec 0).viq).Pairwise
      (fun y z => y.po ≠ z.po) ∧
    (∀ y ∈ ((vector (entryOf 0x6910C000 4 []) id).vec 0).infl, y.done = false →
      y.flags &&& ((vector (entryOf 0x6910C000 4 []) id).vec 0).ftrap = 0) := by
  refine ⟨⟨false, rfl⟩, ?_⟩; unfold State.HandlerOk; decide
/-- Supervisor mode in the handler of a vector trap whose entry is held. -/
def handler (vec : Bool) : State :=
  let s := super []
  { s.setFront 0 { s.front 0 with held := true, cause := if vec then 1 <<< 9 else 0 } with
    vecs := Store.put s.vecs 0 { s.vec 0 with viq := [entryOf 0x6910C000 4 []] } }

theorem witness_TrapReturn : ((super []).front 0).status.getLsbD 0 = true ∧ ((user []).front 0).status.getLsbD 0 = false ∧
    (user []).vecBusy 0 = false ∧ (user []).HandlerOk 0 ∧ ((handler true).front 0).held = true ∧
    ((handler true).front 0).cause.getLsbD 9 = true ∧ ((handler false).front 0).cause.getLsbD 9 = false ∧
    ((handler false).front 0).held = true := by unfold State.HandlerOk; decide

/-- A fence waits for a store of the VIQ whose class it names. -/
theorem witness_Fences_vector : (vector (entryOf 0x9A06C261 4 [0x3000]) id).fenceWaitsSide 0 (fun _ => true) = true := by decide

/-- `user`, with a request for a store out over the fabric. -/
def asking : State := { user [] with requests := [⟨0, 3, .store 0 0 15 [(3 * 2 ^ 45, 4)]⟩] }

/-- `pending`, with the load in another class. -/
def foreign (cls : Cls) : State :=
  let s := pending (.load 4 true 9) 0x3000
  s.setFront 0 { s.front 0 with acc := (s.front 0).acc.map fun x => { x with cls := cls } }

theorem witness_Fences : ((user []).front 0).acc = [] ∧ (user []).fenceWaitsSide 0 (fun c => c = 15 || (6 : BitVec 16).getLsbD c.toNat) = false ∧
    (user []).fenceWaitsSide 0 (fun _ => true) = false ∧ (∀ r ∈ (user []).requests, r.storeOf 0 = false) ∧
    (∃ x ∈ ((pending (.load 4 true 9) 0x3000).front 0).acc, isDomain x.pa = false ∧ x.cls = 15) ∧
    (∀ x ∈ ((foreign 3).front 0).acc, x.cls ≠ 15 ∧ (6 : BitVec 16).getLsbD x.cls.toNat = false) ∧ ((foreign 3).front 0).acc ≠ [] ∧
    (∃ x ∈ ((foreign 2).front 0).acc, isDomain x.pa = false ∧ (6 : BitVec 16).getLsbD x.cls.toNat = true) ∧
    (∀ x ∈ ((pending (.store 4 7) (3 * 2 ^ 45)).front 0).acc, isDomain x.pa = true ∧ (1 : BitVec 2) ≠ 3) := by decide
theorem witness_Fences_domain : ∃ r ∈ asking.requests, ∃ po cls runs, r.waiter = .store 0 po cls runs :=
  ⟨_, List.mem_singleton.mpr rfl, _, _, _, rfl⟩
/-- `user`, with the monitor on the line of 0x3000 and its event bit set, and waiting or yielding or halting. -/
def parked (r : Run) : State :=
  let s := user [(5, 0x3000)]
  s.setFront 0 { s.front 0 with run := r, monLine := 0xC0, monEvent := true }

theorem witness_WaitForEvent : (parked .running).Issues 0 [5] [] ∧ (parked .running).Reaches 0 .load 0x3000 8 0x3000 ∧
    (parked .running).uecc 0x3000 8 = false ∧ (parked .running).peerFatal 0 = false ∧ ((parked .running).front 0).monEvent = true ∧
    ((parked .running).front 0).monLine = 0x3000 / 64 ∧ ((user []).front 0).monEvent = false ∧ ((parked .waiting).front 0).run = .waiting ∧
    (parked .waiting).peerFatal 0 = false ∧ ((user []).front 0).run ≠ .waiting := by
  refine ⟨⟨⟨false, rfl⟩, ?_⟩, ?_⟩ <;> first | (unfold State.RegsReady; decide) | (unfold State.Reaches; decide)
/-- A record: PRIO in CTRL[2:0], PRE in CTRL[31] and so on as R300 lays it out. -/
def recordWith (ctrl : W64) : LaunchRec :=
  { entry := 0x1000, dentry := 0, arg := 0, cbaddr := 0x4000, aftaddr := 0, aftval := 0, aspace := 0x200, ctrl := ctrl }

/-- A launch on context 0. -/
def launchOn (ctrl : W64) : Placed :=
  { seq := 1, record := recordWith ctrl, eligible := 0, members := [0], clusters := [0], fatal := false, gang := none,
    stopping := false, savePos := 0, saved := none, restoring := none, last := none }

/-- A record in a queue that wants every context of a cluster with two lane groups each, of priority 3. -/
def wide : Queued :=
  { seq := 2, record := recordWith (3 <<< 28 ||| 3 <<< 20 ||| 3 <<< 18 ||| 2 <<< 14), eligible := some 0, saved := none, line := none, due := false }

/-- Context 0 belongs to a pre-emptible launch of priority 0; with `busy`, a head waits that only its place lets in. Cluster 0 alone
is ready. -/
def launched (busy : Bool) : State :=
  let s := user []
  let s := s.setCluster 0 { s.cluster 0 with ready := true }
  let f := s.front 0
  { s.setFront 0 { f with launch := some 1 } with
    placed := [launchOn (1 <<< 31 ||| 1 <<< 14)], launchSeq := 3,
    queues := if busy then s.queues.set 3 [wide] else s.queues }

theorem witness_YieldAndHalt_yield : ((launched true).launchOf 0 = some (launchOn (1 <<< 31 ||| 1 <<< 14))) ∧
    (launchOn (1 <<< 31 ||| 1 <<< 14)).record.pre = true ∧ (launchOn (1 <<< 31 ||| 1 <<< 14)).stopping = false ∧
    (launched true).yieldsTo 0 (launchOn (1 <<< 31 ||| 1 <<< 14)) = true ∧ (launched false).yieldsTo 0 (launchOn (1 <<< 31 ||| 1 <<< 14)) = false ∧
    (user []).launchOf 0 = none ∧ ((parked .yielding).front 0).run = .yielding := by decide

/-- Drone 0 halting. -/
def droneHalting : State := (drone []).setFront 1024 { (drone []).front 1024 with run := .halting }

theorem witness_YieldAndHalt_halt : ((user []).vec 0).outFault = none ∧ ((parked .halting).front 0).run = .halting ∧
    ((parked .halting).vec 0).viq = [] ∧ ((parked .halting).vec 0).infl = [] ∧ (parked .halting).agentDrained 0 = true ∧
    (∀ j, j < 8 → ((parked .halting).vec 0).s.getD j none = none) ∧ (droneHalting.front 1024).run = .halting ∧ isDrone 1024 = true ∧
    (droneHalting.cluster 0).queue = [] ∧ (droneHalting.cluster 0).mma = none ∧ droneHalting.agentDrained 1024 = true ∧
    ({ parked .halting with requests := [⟨0, 3, .store 0 0 15 [(3 * 2 ^ 45, 4)]⟩] } : State).agentDrained 0 = false ∧ ((user []).front 0).run ≠ .halting := by
  decide
theorem witness_XZeroAndCounts : (user []).Issues 0 [] [5] := by unfold State.Issues State.RegsReady; decide
theorem witness_Translations : (super [(5, 0x200)]).Issues 0 [5, 6] [] ∧ ((super [(5, 0x200)]).front 0).status.getLsbD 0 = true ∧
    (∀ p ∈ (super [(5, 0x200)]).fronts, p.2.acc = []) ∧ (∀ q ∈ (super [(5, 0x200)]).requests, q.translated = false) ∧ (super [(5, 0x200)]).Issues 0 [5] [7] ∧
    (((super [(5, 0x200)]).front 0).xr 5).extractLsb' 32 16 = 0 ∧ (super [(5, 0x200)]).quiet 0 = true ∧
    (user []).Issues 0 [5, 6] [] ∧ ((user []).front 0).status.getLsbD 0 = false ∧ (user []).HandlerOk 0 ∧
    canonical 0x3000 = true ∧ inWindow 0x3000 = false ∧
    (match (user []).walk (((user []).front 0).aspace.toNat % 2 ^ 32 * 4096) 0x3000 4 with | .ok _ => true | .error _ => false) = true := by
  unfold State.Issues State.RegsReady State.HandlerOk; decide

/-! ## Witnesses: vector configuration, entry, issue -/

theorem witness_VectorConfiguration : (user [(5, 0x050002)]).Issues 0 [5] [6] ∧ vtypeValid 0x050002 = true ∧
    (8 : W64).toNat ≤ 8 ∧ (user [(5, 6)]).Issues 0 [5] [6] ∧ vtypeValid 6 = false ∧ (user [(5, 6)]).vecBusy 0 = false ∧
    (user [(5, 6)]).HandlerOk 0 ∧ 8 < (9 : W64).toNat := by unfold State.Issues State.RegsReady State.HandlerOk; decide

/-- Context 0 wants lanes; LANEPART gives it group 0, or none. -/
def wanting (given : Bool) : State :=
  let s := user [(5, 100)]
  s.setCore 0 { s.core 0 with lanepart := if given then 0x924920 else 0x924924 }

/-- `vcfg.setl x5, x10, x11` in its place in the VIQ, with group 0 to come. -/
def switching (other : BitVec 8) : State :=
  let s := vector { entryOf 0x6154B000 4 [] with gnew := 1 } fun v => { v with grant := 0 }
  (s.setVec 1 { Vec.reset with grant := other }).setFront 1 { s.front 0 with pc := 0x1000 }

theorem witness_SetVectorLength : (wanting true).Issues 0 [5, 6] [7] ∧
    (∀ j, j < 8 → (1 : BitVec 8).getLsbD j = decide (((((wanting true).core (coreOf 0)).lanepart.extractLsb' (3 * j) 3).toNat = 0 % 4))) ∧
    0 < ((wanting true).vec 0).room ∧ (wanting false).Issues 0 [5, 6] [7] ∧ 0 < ((wanting false).front 0 |>.xr 5).toNat ∧
    (∀ j, j < 8 → (0 : BitVec 8).getLsbD j = decide (((((wanting false).core (coreOf 0)).lanepart.extractLsb' (3 * j) 3).toNat = 0 % 4))) ∧
    ((wanting false).vec 0).lanereq ≠ 0 ∧ (wanting false).peerFatal 0 = false := by unfold State.Issues State.RegsReady; decide
theorem witness_SetVectorLength_switch :
    ((switching 0).vec 0).infl.find? (fun e => !e.done) = some { entryOf 0x6154B000 4 [] with gnew := 1 } ∧
    decodeWord 0x6154B000 = .ok (.vcfgSetl 5 10 11) ∧ (switching 0).actor = .vector 0 0 4 ∧
    ((switching 0).vec 0).infl[0]? = some { entryOf 0x6154B000 4 [] with gnew := 1 } ∧
    (∀ q, q < 4 → ¬ (q ≠ 0 ∧ ((switching 0).vec q).grant &&& 1 &&& ~~~((switching 0).vec 0).grant ≠ 0)) ∧
    ((switching 1).front 1).run ≠ .halted ∧ ((switching 1).front 1).run ≠ .idle ∧
    ((switching 1).vec 1).grant &&& 1 &&& ~~~((switching 1).vec 0).grant ≠ 0 := by decide
theorem witness_QueueEntries_vector : captured (.vopAdd 4 8 (.vx 5) 0) = some ([5], none) ∧ WellFormed (.vopAdd 4 8 (.vx 5) 0) = true ∧
    (user []).Issues 0 [5] [] ∧ 1 + (1 + 1) / 2 ≤ ((user []).vec 0).room ∧ captured (.vredMaskFirst 9 2 0) = some ([], some 9) ∧
    (user []).Issues 0 [] [9] := by unfold State.Issues State.RegsReady; decide

/-- The VIQ of context 0 holds an entry. -/
def queued (e : Entry) : State :=
  let s := vector e id
  s.setVec 0 { s.vec 0 with viq := [e], infl := [] }

/-- `vop.add v4, v8, v12` and, where the tags disagree with SEW, the same at SEW 8. -/
theorem witness_VectorIssueAndCommit : ((queued (entryOf 0x6910C000 4 [])).vec 0).viq = entryOf 0x6910C000 4 [] :: [] ∧
    (queued (entryOf 0x6910C000 4 [])).vectorRests 0 = false ∧ ((queued (entryOf 0x6910C000 4 [])).vec 0).infl.length < 16 ∧
    (((queued (entryOf 0x6910C000 4 [])).vec 0).testsPending (entryOf 0x6910C000 4 []) (.vopAdd 4 8 (.vv 12) 0) ||
      !((queued (entryOf 0x6910C000 4 [])).vec 0).entriesFree (entryOf 0x6910C000 4 [])) = false ∧
    issueTest (queued (entryOf 0x6910C000 4 [])) 0 (entryOf 0x6910C000 4 []) = none ∧
    issueTest (queued { entryOf 0x6910C000 4 [] with vtype := 0x050000 }) 0 { entryOf 0x6910C000 4 [] with vtype := 0x050000 } = some 3 ∧
    (queued { entryOf 0x6910C000 4 [] with vtype := 0x050000 }).HandlerOk 0 ∧
    (∀ x ∈ ((queued (entryOf 0x6910C000 4 [])).front 0).acc, x.vector = false) ∧
    ((vector { entryOf 0x6910C000 4 [] with done := true } id).vec 0).infl = { entryOf 0x6910C000 4 [] with done := true } :: [] ∧
    ((vector { entryOf 0x6910C000 4 [] with done := true } id).core 0).smpctl.getLsbD 0 = false ∧
    (∀ n, n < 4 → (((vector { entryOf 0x6910C000 4 [] with done := true } id).core 0).bpctl.getD n 0).getLsbD 0 = false) := by
  unfold State.HandlerOk; decide
/-! ## Witnesses: arithmetic -/

/-- The state of the arithmetic witnesses: an instruction of 4 elements of 32 bits. -/
def arith : State := vector (entryOf 0x6910C000 4 []) id
def arithE : Entry := entryOf 0x6910C000 4 []
def arithQ : Kinds := Kinds.of (arith.vec 0) arithE false 4 0

/-- Context 0 executes `arithE`, and FTRAP is 0, so that no flag traps. -/
theorem arith_executes : arith.Executes 0 arithE ∧ arith.Moves 0 0 4 arithE ∧ (arith.vec 0).bad = [] ∧ arithE.fpx = none :=
  ⟨executes_of (hi := 4) rfl rfl rfl (by decide), moves_of rfl rfl rfl, rfl, rfl⟩
theorem arith_quiet (fl : Nat → Flags) : arithQ.quiet (arith.vec 0) arithE fl :=
  ⟨rfl, fun i _ => (BitVec.and_zero : fl i &&& 0 = 0)⟩

/-- A vector function of two operands with the stream s2 bound to memory and one entry fetched. -/
def boundTo (out : Bool) (buf : List StreamEntry) : Stream :=
  { out := out, base := 0x3000, stride := Vector.replicate 3 0, ext := Vector.replicate 3 8, start := Vector.replicate 3 0,
    word1 := 0x10, idx := 0, aspace := 0x200, sup := false, gen := 0, po := 0, seq := 0, buf := buf, fault := none, told := false }

theorem witness_VopAndCompareResults_vop : vopInstr .add 4 8 (.vv 12) 0 = some (.vopAdd 4 8 (.vv 12) 0) ∧ WellFormed (.vopAdd 4 8 (.vv 12) 0) = true ∧
    (groupsV3 4 8 (.vv 12)).all (groupOk arithE.vtype) = true ∧ vopTag .add (arith.vec 0) arithE.vtype 4 8 (.vv 12) = some .int32 ∧
    (VRun.of (arith.vec 0) arithE false 4).streamRead 32 4 none = .upTo 4 ∧ vopInstr1 .neg 4 8 0 = some (.vopNeg 4 8 0) ∧
    groupOk arithE.vtype (4, .one) = true ∧ vopTag1 .neg (arith.vec 0) arithE.vtype 8 = some .int32 ∧ arithQ.start < arithQ.vl := by decide
theorem witness_IntegerElements : Tag.int32.cls = .integer ∧ 7 < 2 ^ Tag.int32.width := by decide
theorem witness_VopAndCompareResults_compare : cmpInstr .cmpLt 3 4 (.vv 8) 0 = some (.vopCmpLt 3 4 (.vv 8) 0) ∧
    vopTag .cmpLt (arith.vec 0) arithE.vtype 4 4 (.vv 8) = some .int32 ∧ (VRun.of (arith.vec 0) arithE false 4).streamRead 32 4 none = .upTo 4 := by decide

/-- The arithmetic state with stream 2 bound as input and its first 4 entries fetched. -/
def streaming : State := vector (entryOf 0x6910C000 4 []) fun v =>
  { v with s := v.s.set 2 (some (boundTo false [⟨0, 5, 0⟩, ⟨1, 6, 0⟩, ⟨2, 7, 0⟩, ⟨3, 8, 0⟩])) }

theorem witness_CopyAndConvertResults : groupOk arithE.vtype (4, .one) = true ∧
    (streaming.vec 0).stream 2 = some (boundTo false [⟨0, 5, 0⟩, ⟨1, 6, 0⟩, ⟨2, 7, 0⟩, ⟨3, 8, 0⟩]) ∧
    (boundTo false []).tag?.isSome = true ∧ (VRun.of (streaming.vec 0) arithE false 4).streamRead 32 4 (some 2) = .upTo 4 ∧
    groupOk arithE.vtype (8, .one) = true ∧ cvtOk false (arith.vec 0) arithE.vtype .same 4 8 = true ∧
    (Tag.ofCode (18 : BitVec 5).toNat).isSome = true := by decide

/-- v4 to v8 with fp32 tags for the functions. -/
def floating : State := vector (entryOf 0x6910C000 4 []) fun v => { v with tag := Vector.replicate 32 .fp32 }

theorem witness_RotationsAndFunctions : vrotOk .lin false (floating.vec 0) arithE.vtype 4 8 = true ∧
    groupOk arithE.vtype (4, .pair) = true ∧ groupOk arithE.vtype (8, .one) = true ∧
    fnOk Tag.composite (floating.vec 0) arithE.vtype 8 none = true ∧ fnInstr1 .exp 4 8 0 = some (.vfnExp 4 8 0) ∧
    fnInstr2 .div 4 8 (.vv 12) 0 = some (.vfnDiv 4 8 (.vv 12) 0) ∧
    fnOk Tag.composite (floating.vec 0) arithE.vtype 8 (some (.vv 12)) = true ∧
    fnOk Tag.user (floating.vec 0) arithE.vtype 8 (some (.vv 12)) = true ∧ (floating.vec 0).ftrap = 0 := by decide
theorem witness_FoldScanAndMaskResults : groupOk arithE.vtype (4, .one) = true ∧ WellFormed (redInstr .sum 4 8 (.vv 12) 0) = true ∧
    redTag .sum (arith.vec 0) arithE.vtype 8 (.vv 12) = some .int32 ∧ groupOk arithE.vtype (4, .wide) = true ∧ arithE.vl ≠ 0 ∧
    (arith.vec 0).ftrap = 0 ∧ WellFormed (.vredScanAdd 4 8 (.vv 12) 0) = true ∧ Tag.int32.cls = .integer ∧
    redTag .max (arith.vec 0) arithE.vtype 8 (.vv 12) = some .int32 := by decide
/-- `vred.redsum.w` into a 64-bit group. -/
theorem witness_FoldScanAndMaskResults_wide : (redWTag ({ arith.vec 0 with tag := ((arith.vec 0).tag.set 4 .int64).set 12 .int64 } : Vec)
    arithE.vtype 8 12).isSome = true := by decide
theorem witness_PermuteResults : groupOk arithE.vtype (4, .one) = true ∧
    arithE.vl.toNat ≠ 0 ∧ 3 < vlmaxOf (arith.vec 0).lanes arithE.vtype ∧ vlmaxOf (arith.vec 0).lanes arithE.vtype ≤ 16 := by decide

/-! ## Witnesses: vector memory, streams, scales -/

/-- Context 0 executes `arithE` at SEW sew with x(A) = 0x3000 captured, over registers in which v12 and v13 hold a record of one
dimension of 8 elements of tag `code`, 16 bytes apart. -/
def shaped (sew : BitVec 24) (code : Nat) (mxs : Bool) (ops : List W64) : State :=
  vector { entryOf 0x91140F00 4 ops with vtype := sew } fun v => { v with
    v := v.v.set 12 (BitVec.ofNat 4096 (2 ^ 64 * (1 + 4 * code + (if mxs then 2 ^ 13 else 0)) + 2 ^ 128 * (8 + 2 ^ 21 + 2 ^ 42) +
      2 ^ 192 * (if mxs then 2048 else 16)))
    e := v.e.set 0 0x80 }
def shapedE (sew : BitVec 24) (ops : List W64) : Entry := { entryOf 0x91140F00 4 ops with vtype := sew }
/-- `vld.unit` at 0x3000 with 4 elements of 32 bits. -/
def loading : State := shaped 0x050002 18 false [0x3000, 4]

/-- Without pending accesses and requests nothing holds a vector access back. -/
theorem quiet_holds {s : State} {k : Nat} (ha : (s.front k).acc = []) (hr : s.requests = []) (e : Entry) (c : Cls)
    (spots : List (Nat × Nat)) : s.vecHeld k e c spots = false := by
  rw [State.vecHeld, ha, hr]; rfl

/-- Its entry moves, and no older access holds it back from any bytes. -/
theorem loading_moves : loading.Moves 0 0 4 (shapedE 0x050002 [0x3000, 4]) ∧ (shapedE 0x050002 [0x3000, 4]).fpx = none ∧
    (loading.vec 0).bad = [] ∧ (∀ spots, loading.vecHeld 0 (shapedE 0x050002 [0x3000, 4]) 15 spots = false) :=
  ⟨moves_of rfl rfl rfl, rfl, rfl, quiet_holds rfl rfl _ _⟩
theorem witness_VectorLoads : groupOk (0x050002 : VType) (4, .one) = true ∧
    (∀ n, n < 4 → loading.checkOwn 0 .load (0x3000 + BitVec.ofNat 64 (n * 4)) 4 = .ok (0x3000 + n * 4, false) ∧
      isDomain (0x3000 + n * 4) = false ∧ loading.uecc (0x3000 + n * 4) 4 = false ∧ 0 = loading.readLE (0x3000 + n * 4) 4) ∧
    offsetsOk (loading.vec 0) (0x050002 : VType) 20 = true ∧ loading.HandlerOk 0 ∧
    loading.mayTrap 0 (shapedE 0x050002 [0x3000, 4]) = true ∧
    (∀ y ∈ (loading.vec 0).infl, y.flags &&& (loading.vec 0).ftrap = 0) := by unfold State.HandlerOk; decide
/-- An element in the middle of the instruction fails: the last line of memory ends below it. -/
theorem witness_VectorLoads_trap : loading.checkOwn 0 .load (BitVec.ofNat 64 loading.dataLimit) 4 = .error 14 ∧
    loading.checkOwn 0 .load (BitVec.ofNat 64 (loading.dataLimit - 4)) 4 = .ok (loading.dataLimit - 4, false) := by decide
theorem witness_VectorLoads_shape : (loading.vec 0).lanes ≠ 0 ∧
    (match readShape .load ((loading.vec 0).recordWord 12) with | .ok t => !t.mxs && decide (t.tag.width = 32) | .error _ => false) = true ∧
    ((shaped 0x050000 2 true [0x3000]).vec 0).lanes ≠ 0 ∧
    (match readShape .load (((shaped 0x050000 2 true [0x3000]).vec 0).recordWord 12) with
      | .ok t => t.mxs && decide (t.tag.width = 8) | .error _ => false) = true ∧
    (match (shaped 0x050000 2 true [0x3000]).segLoad 0 ((shaped 0x050000 2 true [0x3000]).segCheck 0 .load 0x3000 (segSize .e4m3)) with | .bytes _ => true | _ => false) = true ∧
    ((vector (entryOf 0x91140F00 4 []) fun v => { v with grant := 0 }).vec 0).lanes = 0 := by decide
theorem witness_VectorStores :
    (∀ n, n < 4 → loading.findElem 0 false .store (0x3000 + BitVec.ofNat 64 (n * 4)) 4 = .at_ (0x3000 + n * 4)) ∧
    loading.findElem 0 false .store (BitVec.ofNat 64 loading.dataLimit) 4 = .fault 14 ∧
    (loading.storeVec 0 (shapedE 0x050002 [0x3000, 4]) 15 0x3000 0x3000 (bytesLE 4 0)).1.HandlerOk 0 ∧
    (loading.storeVec 0 (shapedE 0x050002 [0x3000, 4]) 15 0x3000 0x3000 (bytesLE 4 0)).1.mayTrap 0 (shapedE 0x050002 [0x3000, 4]) = true ∧
    loading.MemOk ∧ loading.KeysOk ∧ loading.checkOwn 0 .store (BitVec.ofNat 64 loading.dataLimit) 4 = .error 14 ∧
    (match readShape .store ((loading.vec 0).recordWord 12) with | .ok t => decide (t.tag.width = 32) | .error _ => false) = true := by
  unfold State.MemOk State.KeysOk State.HandlerOk; decide
/-- `vst.mx` of one segment of e4m3. -/
def segment : State := vector { entryOf 0x9C280F80 4 [0x3000] with vtype := 0x050000 } fun v => { v with tag := Vector.replicate 32 .e4m3 }
def segmentE : Entry := { entryOf 0x9C280F80 4 [0x3000] with vtype := 0x050000 }
theorem segment_moves : segment.Moves 0 0 4 segmentE ∧ segmentE.fpx = none ∧ (segment.vec 0).bad = [] ∧
    ∀ spots, segment.vecHeld 0 segmentE 15 spots = false := ⟨moves_of rfl rfl rfl, rfl, rfl, quiet_holds rfl rfl _ _⟩
theorem witness_VectorStores_segments : ((segment.vec 0).tagOf 16).isMx = true ∧ (Kinds.of (segment.vec 0) segmentE false 4 0).start % 1024 = 0 ∧
    (Kinds.of (segment.vec 0) segmentE false 4 0).start < (Kinds.of (segment.vec 0) segmentE false 4 0).vl ∧
    segment.segCheck 0 .store 0x3000 (segSize .e4m3) = .ok [(0x3000, segSize .e4m3)] ∧ isDomain 0x3000 = false ∧
    isDomain (0x3000 + segSize .e4m3) = false ∧ 0x3000 + segSize .e4m3 ≤ 2 ^ 44 ∧ segment.MemOk ∧ segment.KeysOk ∧
    segment.segCheck 0 .store (BitVec.ofNat 64 segment.dataLimit) (segSize .e4m3) = .error 14 ∧ segment.HandlerOk 0 ∧
    segment.mayTrap 0 segmentE = true := by unfold State.MemOk State.KeysOk State.HandlerOk; decide
/-- What the access of the segment changes can be written: its scale, its zeros and its four elements. -/
theorem witness_VectorStores_patches : (segment.writePatches (some 0) segment.live ((segPatches [(0x3000, 20)] 20
    (segWrites (VRun.of (segment.vec 0) segmentE false 4) 0 16 .e4m3 0)).map (·.2))).isSome = true := by decide
/-- Stream 2 of context 0 bound, as an output stream with the entries given, with room for a thread. -/
def bound (out : Bool) (buf : List StreamEntry) : State := vector (entryOf 0xA0900000 4 [1]) fun v =>
  { v with s := v.s.set 2 (some (boundTo out buf)) }
theorem witness_Streams_bind : (loading.vec 0).stream 2 = none ∧ loading.unwritten 0 2 = false ∧
    (freeStream loading 0 2).threadCount (coreOf 0) < 16 ∧ ((bound true []).vec 0).stream 2 = some (boundTo true []) ∧
    (boundTo true []).fault = none ∧ (bound true []).unwritten 0 2 = false ∧ (bound true [⟨0, 5, 0⟩]).unwritten 0 2 = true ∧
    (bound true []).mayTrap 0 (entryOf 0xA0900000 4 [1]) = true ∧ (bound true []).HandlerOk 0 := by unfold State.HandlerOk; decide
theorem bound_moves (out : Bool) (buf : List StreamEntry) : (bound out buf).Moves 0 0 4 (entryOf 0xA0900000 4 [1]) ∧
    ((bound out buf).vec 0).bad = [] := ⟨moves_of rfl rfl rfl, rfl⟩
/-- The record of v12 as a stream's record of either direction (bit 7 of word 1). -/
theorem witness_Streams_record : (match readShape (.stream false) ((loading.vec 0).recordWord 12) with | .ok _ => true | .error _ => false) = true ∧
    (match readShape (.stream true) (((shaped 0x050002 (18 + 32) false []).vec 0).recordWord 12) with | .ok _ => true | .error _ => false) = true := by
  decide
theorem witness_Streams_writes : ((bound true [⟨0, 5, 0⟩]).vec 0).stream 2 = some (boundTo true [⟨0, 5, 0⟩]) ∧
    (boundTo true [⟨0, 5, 0⟩]).out = true ∧ (boundTo true [⟨0, 5, 0⟩]).fault = none ∧ (boundTo true [⟨0, 5, 0⟩]).buf ≠ [] ∧
    (0 < 4 ∧ 4 ≤ 4) ∧ (1 + 4) * (32 / 8) ≤ 4096 ∧ 4096 < ((List.replicate 1024 (⟨0, 5, 0⟩ : StreamEntry)).length + 4) * (32 / 8) := by decide
theorem witness_Streams_thread : (bound false []).findStream 0 2 (boundTo false []) .load (BitVec.ofNat 64 (bound false []).dataLimit) = .fault 14 ∧
    (bound true [⟨0, 5, 0⟩]).findStream 0 2 (boundTo true [⟨0, 5, 0⟩]) .store 0x3000 = .at_ 0x3000 ∧ isDomain 0x3000 = false ∧
    (bound false []).streamReady 0 (boundTo false []) = true ∧ (0 + 1) * (boundTo false []).size ≤ 4096 ∧
    (boundTo false []).addr 0 = some 0x3000 ∧ (bound false []).check 0 true 0x200 false .load 0x3000 (boundTo false []).size = .ok (0x3000, false) ∧
    (bound false []).check 0 true 0x200 false .load (BitVec.ofNat 64 (bound false []).dataLimit) 4 = .error 14 ∧
    (bound true [⟨0, 5, 0⟩]).streamReady 0 (boundTo true [⟨0, 5, 0⟩]) = true ∧
    (bound true [⟨0, 5, 0⟩]).check 0 true 0x200 false .store 0x3000 (boundTo true []).size = .ok (0x3000, false) ∧
    ((bound true [⟨0, 5, 0⟩]).write none 0 0x3000 (bytesLE (boundTo true []).size 5)).isSome = true := by decide
theorem witness_ScaleRegisters : ((4 : W64).toNat ≤ 256 ∧ 256 < (257 : W64).toNat) ∧
    (∀ j, j < 4 → loading.checkOwn 0 .load (0x3000 + BitVec.ofNat 64 j) 1 = .ok (0x3000 + j, false) ∧
      loading.findElem 0 false .store (0x3000 + BitVec.ofNat 64 j) 1 = .at_ (0x3000 + j)) ∧ loading.HandlerOk 0 ∧
    loading.mayTrap 0 (shapedE 0x050002 [0x3000, 4]) = true ∧
    VType.sew (0x050000 : VType) = 8 ∧ groupOk (0x050000 : VType) (4, .one) = true ∧ ((segment.vec 0).tagOf 4).width = 8 := by
  unfold State.HandlerOk; decide
/-! ## Witnesses: engine threads and the array -/

theorem witness_EngineCommands : (user []).Issues 0 [7, 10, 11] [7] ∧ copySize (.copy 7 0x3000 0x4000 0) = 0 ∧
    2 ^ 40 ≤ copySize (.copy 7 0x3000 0x4000 (2 ^ 40)) ∧ copyOverlaps (.copy 7 0x3000 0x3001 2) = true ∧
    copyOverlaps (.copy 7 0x3000 0x3002 2) = false ∧ (user []).threadRoom ((user []).newThread 0 (.copy 7 0x3000 0x3002 2) 15) = true ∧
    (user []).Issues 0 [7, 10, 11, 12, 13] [7] ∧ (drone [(10, 0x3000), (7, 2)]).Issues 1024 [10, 7] [7] ∧ controlOk 7 = true ∧
    controlOk 0x80 = false ∧ (0x3000 : W64).toNat % 64 = 0 ∧ (0x3001 : W64).toNat % 64 ≠ 0 ∧ (drone [(10, 0x3000)]).vecBusy 1024 = false ∧
    (drone [(10, 0x3000)]).HandlerOk 1024 := by unfold State.Issues State.RegsReady State.HandlerOk; decide

/-- A thread of context 0. -/
def threadOf (kind : ThreadKind) (started : Bool) : Thread :=
  { id := 0, agent := 0, po := 0, kind := kind, cls := 15, aspace := 0x200, sup := false, gen := 0, started := started, sent := none,
    pos := 0, err := none }
def threaded (kind : ThreadKind) (started : Bool) : State := { user [] with threads := [threadOf kind started], threadSeq := 1 }

theorem witness_EngineThreads_start : (threaded (.copy 7 0x3000 0x4000 2) false).thread 0 = some (threadOf (.copy 7 0x3000 0x4000 2) false) ∧
    (threaded (.copy 7 0x3000 0x4000 2) false).forkHeld 0 0 15 = false ∧
    (∀ g ∈ (threadOf (.copy 7 0x3000 0x4000 2) false).checkers, (threaded (.copy 7 0x3000 0x4000 2) false).checkerBusy g 0
      (threadOf (.copy 7 0x3000 0x4000 2) false).ranges = false) ∧ copyToken (.copy 7 0x3000 0x4000 2) ≠ none ∧
    wldHeld (threaded (.wld 7 0x3000 3 0 0 7) false) (threadOf (.wld 7 0x3000 3 0 0 7) false) 3 = false ∧
    partFits WeightSet.reset 0 0 7 = true ∧ partFits WeightSet.reset 1 0 7 = false := by decide
theorem witness_EngineThreads_copy : copyToken (.copy 7 0x3000 0x4000 2) = some 7 ∧ (0 : BitVec 2) = (threaded (.copy 7 0x3000 0x4000 2) true).live ∧
    (threadOf (.copy 7 0x3000 0x4000 2) true).err = none ∧ (threadOf (.copy 7 0x3000 0x4000 2) true).pos < 2 ∧
    (∀ q ∈ (threaded (.copy 7 0x3000 0x4000 2) true).requests, q.readBy (.written 0) = false) ∧
    (∀ q ∈ (threaded (.copy 7 0x3000 0x4000 2) true).arrived, q.owner ≠ .written 0) ∧
    ((List.range 2).foldl (fun (o : Option State) j => o.bind fun x => x.write none x.live (0x3000 + j) [0])
      (some (threaded (.copy 7 0x3000 0x4000 2) true))).isSome = true ∧
    (∀ j, j < 2 → (threaded (.copy 7 0x3000 0x4000 2) true).check 0 true 0x200 false .load (0x4000 + BitVec.ofNat 64 j) 1 = .ok (0x4000 + j, false) ∧
      (threaded (.copy 7 0x3000 0x4000 2) true).check 0 true 0x200 false .store (0x3000 + BitVec.ofNat 64 j) 1 = .ok (0x3000 + j, false)) ∧
    (threaded (.copy 7 0x3000 0x4000 2) true).occupied = [] ∧
    (match (threaded (.copy 7 0x3000 (BitVec.ofNat 64 (user []).dataLimit) 2) true).byteFound
      (threadOf (.copy 7 0x3000 (BitVec.ofNat 64 (user []).dataLimit) 2) true)
      (copyByte (.copy 7 0x3000 (BitVec.ofNat 64 (user []).dataLimit) 2) 0) with | .fail _ => true | _ => false) = true := by decide
/-- Context 0 with the completion value of a thread that it has not read. -/
def joining : State :=
  let s := user []
  s.setFront 0 { s.front 0 with tokens := [⟨7, 2, 0⟩], pend := 0x80 }
theorem witness_EngineThreads_join : joining.actor = .front 0 false ∧ (joining.front 0).tokens = [⟨7, 2, 0⟩] ∧ (7 : XReg) ≠ 0 ∧
    (joining.front 0).isPend 7 = true := by decide
/-- The lines of scales of a weight set stand in memory, or the first of them past its end. -/
theorem witness_EngineThreads_weights :
    ((threaded (.wld 7 0x3000 3 1 0 7) true).lineProbes (threadOf (.wld 7 0x3000 3 1 0 7) true) 0x3000 (wldBytes 1 0)).all
      (fun p => match p.found with | .at_ _ => true | _ => false) = true ∧ (writePart WeightSet.reset 1 0 7 []).isSome = true ∧
    indicesOk (List.replicate 96 0) 1 = false ∧
    (firstFault ((threaded (.wld 7 0x3000 3 1 0 7) true).lineProbes (threadOf (.wld 7 0x3000 3 1 0 7) true)
      (BitVec.ofNat 64 (user []).dataLimit) 64)).isSome = true := by decide

theorem witness_QueueEntries_array : isDrone 1024 = true ∧ WellFormed (.matAnchor 1 9) = true ∧ (drone [(9, 508)]).Issues 1024 [9] [] ∧
    (508 : W64).toNat ≤ 508 ∧ ((drone [(9, 508)]).cluster 0).queue.length < 8 ∧ 508 < (509 : W64).toNat ∧
    8 ≤ ((array (List.replicate 8 ⟨0xB8520080, 0x1000, 5, 0⟩) id).cluster 0).queue.length ∧ (drone [(9, 509)]).HandlerOk 1024 := by
  unfold State.Issues State.RegsReady State.HandlerOk; decide

/-- `mat.mma fd0, ac0, ws0` at the head of the queue of drone 0, with slot 0 full or not and weight set 0 valid in a type or not. -/
def mma (full valid : Bool) : State :=
  array [⟨0xB8000040, 0x1000, 0, 0⟩] fun x => { x with
    fd := x.fd.set 0 { Slot.reset with full := full, code := 15 }
    ws := if valid then [(0, { WeightSet.reset with state := .valid, btag := 7, sp := 0 })] else [] }
def mmaE : QEntry := ⟨0xB8000040, 0x1000, 0, 0⟩

theorem witness_ArrayInstructions_commands : (array [⟨0xB8520080, 0x1000, 5, 0⟩] id).actor = .array 0 ∧
    ((array [⟨0xB8520080, 0x1000, 5, 0⟩] id).front (droneOf 0)).held = false ∧ ((array [⟨0xB94000C1, 0x1000, 5, 0⟩] id).cluster 0).mma = none ∧
    ((array [⟨0xB94000C1, 0x1000, 5, 0⟩] fun x => { x with mma := some ⟨⟨0xB8000040, 0x1000, 0, 0⟩, 0, Tile.reset⟩ }).cluster 0).mma ≠ none := by decide
theorem witness_ArrayInstructions_mma : decodeWord mmaE.word = .ok (.matMma 0 0 0 0 false false) ∧
    mmaWaits (mma false true) 0 mmaE 0 0 0 0 = true ∧ (mma false true).peerFatal (droneOf 0) = false ∧
    (mma true true).arrayMayStart 0 = true ∧ mmaPresence ((mma false true).cluster 0) 0 0 0 = true ∧
    mmaWaits (mma true false) 0 mmaE 0 0 0 0 = false ∧ (((mma true false).cluster 0).weights 0).state ≠ .valid ∧
    (mma true false).HandlerOk (droneOf 0) ∧ mmaWaits (mma true true) 0 mmaE 0 0 0 0 = false ∧
    (((mma true true).cluster 0).weights 0).state = .valid ∧ (mma true true).locators 0 = [] ∧
    ((mma true true).cluster 0).mma = none ∧ ((mma true true).cluster 0).stalled = false := by unfold State.HandlerOk; decide
/-- An MMA in progress at a cell, stalled or not. -/
def running (pos : Nat) (stalled : Bool) : State :=
  let s := mma true true
  s.setCluster 0 { s.cluster 0 with queue := [], mma := some ⟨mmaE, pos, Tile.reset⟩, stalled := stalled }
theorem witness_ArrayInstructions_complete : decodeWord (0xB8000040 : InstrWord) = .ok (.matMma 0 0 0 0 false false) ∧
    ((running 131072 false).cluster 0).mma = some ⟨mmaE, 131072, Tile.reset⟩ ∧ 0 < 131072 ∧ ((0 : BitVec 1).toNat < 2) ∧
    ((running 0 true).cluster 0).stalled = true ∧ ((running 0 false).cluster 0).stalled = false ∧ (running 0 false).HandlerOk (droneOf 0) := by
  unfold State.HandlerOk; decide
/-- The last cell of a row takes the product of 1.5 and 1.0; a cell just below the carry needs a bellows entry for it, for which
there is room or not. -/
def lastCell (room : Nat) : Pass :=
  runRow { WeightSet.reset with state := .valid, btag := 7, sp := 0, cells := [(4095, 0x40)] }
    [{ Slot.reset with full := true, code := 6, elems := [(0, 3)] }] 254 room (fun _ => false) 4095
    ⟨[(4095, { TileCell.zero with v := 0x7FFFFFF })], 0, false, none⟩
theorem witness_ArrayInstructions_row : (lastCell 4096).stop = none ∧ (lastCell 0).stop = some (.full 4095) ∧
    ((running 4095 false).cluster 0).mayStall 0 = false := by decide +kernel
theorem witness_ArrayInstructions_stall : (({ (running 4095 false).cluster 0 with
    belpol := true
    ac := ((running 4095 false).cluster 0).ac.set 1 { Tile.reset with
      cells := [(0, { TileCell.zero with c := 1 })], ready := 1, opened := true } } : Cluster)).mayStall 0 = true := by decide

/-- Feeding at SEW 8 and draining at SEW 32 by context 0, with quarter 0 of tile 0 ready or not. -/
def feeding (vt : VType) (full : Bool) (ready : BitVec 4) : State :=
  let s := vector { entryOf 0xB890B140 4 [0] with vtype := vt } fun v => { v with tag := (v.tag.set 8 .int8).set 4 .int32 }
  s.setCluster 0 { s.cluster 0 with
    fd := (s.cluster 0).fd.set 1 { Slot.reset with full := full }, ac := (s.cluster 0).ac.set 0 { Tile.reset with ready := ready } }

theorem feeding_moves (vt : VType) (full : Bool) (ready : BitVec 4) :
    (feeding vt full ready).Moves 0 0 4 { entryOf 0xB890B140 4 [0] with vtype := vt } ∧ ((feeding vt full ready).vec 0).bad = [] :=
  ⟨moves_of rfl rfl rfl, rfl⟩
theorem witness_FeedAndDrain : VType.sew (0x050000 : VType) = 8 ∧ (((feeding 0x050000 false 0).vec 0).tagOf 8).width = 8 ∧
    feedWordOk 0 = true ∧ (((feeding 0x050000 false 0).cluster 0).fd.getD 1 Slot.reset).full = false ∧ slotTypeOk 2 = true ∧
    (((feeding 0x050000 true 0).cluster 0).fd.getD 1 Slot.reset).full = true ∧ (feeding 0x050000 true 0).peerFatal 0 = false ∧
    drainWordOk 0 = true ∧ drainTagOk (((feeding 0x050002 false 1).vec 0).tagOf 4) = true ∧
    (((feeding 0x050002 false 1).vec 0).tagOf 4).width = VType.sew (0x050002 : VType) ∧
    (((feeding 0x050002 false 1).cluster 0).ac.getD 0 Tile.reset).ready.getLsbD (coreOf 0 % 4) = true ∧
    (((feeding 0x050002 false 0).cluster 0).ac.getD 0 Tile.reset).ready.getLsbD (coreOf 0 % 4) = false ∧
    (feeding 0x050002 false 1).locators 0 = [] ∧ (((feeding 0x050000 false 0).cluster 0).fd.getD 1 Slot.reset).elems.wf = true ∧ groupOk (0x050002 : VType) (4, .one) = true := by decide

/-! ## Witnesses: commands with records, launches -/

/-- Context 0 with a launch record of LANES 1 at 0x3000 (R300), the launch queues ready or not, and operands in x10 and x11. -/
def enqueuing (ready : Bool) (b : W64) : State :=
  let s := super [(10, 0x3000), (11, b)]
  let put (m : Memory) (p v : Nat) : Memory := (bytesLE 8 v).zipIdx.foldl (fun m q => m.write (p + q.2) q.1) m
  let s := { s with mem := put (put (put (put s.mem 0x3000 0x1000) 0x3018 0x4000) 0x3030 0x200) 0x3038 (2 ^ 14) }
  let s := s.setCluster 0 { s.cluster 0 with ready := true }
  { s with ready := if ready then 255 else 0, flash := { s.flash with routes := [(3, [0])] } }

theorem witness_RecordCommands : (enqueuing true 2).Issues 0 [10] [5] ∧ RecordAt (enqueuing true 2) 0 0x3000 0x3000 ∧
    (enqueuing true 2).issuerOk 0 (recordOf (enqueuing true 2) 0x3000) = true ∧ (enqueuing true 2).ready.getLsbD 6 = true ∧
    (enqueuing true 2).recordOk (recordOf (enqueuing true 2) 0x3000) = true ∧ (recordOf (enqueuing true 2) 0x3000).prio = 0 ∧
    ((enqueuing true 2).queue 0).length < 256 ∧ ¬ (enqueuing false 2).ready.getLsbD 6 = true ∧ (enqueuing true 2).Issues 0 [10, 11] [5] ∧
    (enqueuing true 2).domainBusy 0 = false ∧ (2 : W64).extractLsb' 11 5 = 0 ∧ (2 : W64).extractLsb' 19 45 = 0 ∧
    ((2 : W64).extractLsb' 0 11).toNat = (enqueuing true 2).flash.deviceId ∧ ((2 : W64).extractLsb' 16 3).toNat = 0 ∧
    ((3 : W64).extractLsb' 0 11).toNat ≠ (enqueuing true 3).flash.deviceId ∧ (enqueuing true 3).routed 3 = true ∧
    (enqueuing true 4).routed 4 = false ∧ ((0x800 : W64).extractLsb' 11 5 ≠ 0) ∧
    256 ≤ (List.replicate 256 wide).length ∧ asking.domainBusy 0 = true := by unfold State.Issues State.RegsReady RecordAt; decide
/-- A user-mode issuer may not send a record with SUP, nor one of another address space. -/
theorem witness_RecordCommands_issuer : (user []).issuerOk 0 (recordWith (1 <<< 13)) = false ∧
    (user []).issuerOk 0 { recordWith 0 with aspace := 0x201 } = false := by decide

theorem witness_AnchoredAddAndNotify : (user [(20, 0x3000)]).Issues 0 [20, 8, 8 + 1] [6] ∧
    (((user [(20, 0x3000), (9, 1 <<< 42)]).front 0).xr 9).extractLsb' 42 21 ≠ 0 ∧ (((user [(20, 0x3000)]).front 0).xr 9).extractLsb' 42 21 = 0 ∧
    (user [(20, 0x3000)]).checkVa 0 false 0x200 false .store 0x3000 16 = .ok (0x3000, false) ∧
    (user [(20, 0x3000)]).checkVa 0 false 0x200 false .store (1 <<< 44) 16 = .ok (2 ^ 44, false) ∧ slotOf (2 ^ 44) ≠ 0 ∧ slotOf 0x3000 = 0 ∧
    (isSp 0x3000 && (user [(20, 0x3000)]).fenced 0 0x3000) = false ∧ isDomain 0x3000 = false ∧ (user []).vecBusy 0 = false ∧
    (user []).HandlerOk 0 ∧ (user []).checkVa 0 false 0x200 false .store (3 <<< 45) 16 = .ok (3 * 2 ^ 45, false) ∧
    isDomain (3 * 2 ^ 45) = true ∧ (user []).routed (deviceOf (3 * 2 ^ 45)) = false ∧ (enqueuing true 0).routed (deviceOf (3 * 2 ^ 45)) = true ∧
    (user []).checkVa 0 false 0x200 false .store (1 <<< 46) 16 = .ok (2 ^ 46, false) ∧ deviceOf (2 ^ 46) = (user []).flash.deviceId ∧
    (user [(12, 0x3000)]).Issues 0 [12, 13] [] ∧ (user []).checkVa 0 false 0x200 false .store 0x3000 8 = .ok (0x3000, false) ∧
    (user []).checkOwn 0 .store 0x3000 8 = .ok (0x3000, false) ∧ (3 * 2 ^ 45 / 2 ^ 44 : Nat) % 2 = 0 := by
  unfold State.Issues State.RegsReady State.HandlerOk; decide
theorem witness_AnchoredAddAndNotify_threads :
    (threaded (.add96 6 0x3000 0x3000 5) true).thread 0 = some (threadOf (.add96 6 0x3000 0x3000 5) true) ∧ dataOf 0x3000 < (user []).dataLimit ∧
    (threaded (.add96 6 0x3000 0x3000 5) true).uecc 0x3000 16 = false ∧
    (BitVec.ofNat 128 ((threaded (.add96 6 0x3000 0x3000 5) true).readLE 0x3000 16)).extractLsb' 96 10 = (5 : BitVec 128).extractLsb' 96 10 ∧
    (BitVec.ofNat 128 ((threaded (.add96 6 0x3000 0x3000 5) true).readLE 0x3000 16)).extractLsb' 96 10 ≠ (1 <<< 96 : BitVec 128).extractLsb' 96 10 ∧
    ((threaded (.add96 6 0x3000 0x3000 5) true).write none 0 0x3000 (bytesLE 16 5)).isSome = true ∧
    ({ threaded (.add96 6 0x3000 0x3000 5) true with uncor := [0x3000] } : State).uecc 0x3000 16 = true ∧
    (user []).dataLimit ≤ dataOf (user []).dataLimit ∧ isSp (user []).dataLimit = false ∧
    (threaded (.notify 0x3000 0x3000 5) false).forkHeld 0 0 15 = false ∧
    ((threadOf (.notify 0x3000 0x3000 5) false).checkers.any fun g => (threaded (.notify 0x3000 0x3000 5) false).checkerBusy g 0
      (threadOf (.notify 0x3000 0x3000 5) false).ranges) = false ∧
    ((threaded (.notify 0x3000 0x3000 5) false).notifyWrite 0 0x3000 5).isSome = true := by decide

/-- A record in queue 0, eligible or still waiting for the word at AFTADDR to reach AFTVAL, with cluster 0 ready. -/
def awaiting (eligible : Option W64) (aftaddr aftval : W64) : State :=
  let s := user []
  let s := s.setCluster 0 { s.cluster 0 with ready := true }
  { s with queues := s.queues.set 0 [⟨0, { recordWith (1 <<< 14) with aftaddr := aftaddr, aftval := aftval }, eligible, none, none, false⟩] }
def awaited (eligible : Option W64) (aftaddr aftval : W64) : Queued :=
  ⟨0, { recordWith (1 <<< 14) with aftaddr := aftaddr, aftval := aftval }, eligible, none, none, false⟩

theorem witness_Launches_dependency : (awaiting none 0x3000 1).queued 0 = some (awaited none 0x3000 1) ∧
    (awaiting none 0x3000 1).check deviceAgent true 0x200 false .load 0x3000 8 = .ok (0x3000, false) ∧
    (awaiting none 0x3000 1).uecc 0x3000 8 = false ∧ (awaiting none 0x3000 1).readLE 0x3000 8 < (1 : W64).toNat ∧
    (0 : W64).toNat ≤ (awaiting none 0x3000 0).readLE 0x3000 8 ∧
    (awaiting none 0x3001 0).check deviceAgent true 0x200 false .load 0x3001 8 = .error 6 := by decide
theorem witness_Launches_place : (user []).head = none ∧ (user []).chosen = none ∧
    (({ awaiting (some 0) 0 0 with chosen := some 0 } : State).chosen = some (awaited (some 0) 0 0).seq ∧
      ({ awaiting (some 0) 0 0 with chosen := some 0 } : State).queued 0 = some (awaited (some 0) 0 0)) ∧ (awaiting (some 0) 0 0).head = some (awaited (some 0) 0 0) ∧
    (awaiting (some 0) 0 0).fits (awaited (some 0) 0 0) [] = some ([0], [0]) ∧ (launched true).head = some wide ∧
    (launched true).fits wide [] = none := by decide

/-- The launch on context 0, which runs or has halted. -/
def ending (r : Run) (p : Placed) : State :=
  let s := user []
  { s.setFront 0 { s.front 0 with run := r, launch := some 1 } with placed := [p] }

theorem witness_Launches_end : (ending .halted (launchOn 0)).placedBy 1 = some (launchOn 0) ∧
    (ending .running (launchOn 0)).allHalted (launchOn 0) = false ∧ (ending .halted (launchOn 0)).allHalted (launchOn 0) = true ∧
    (launchOn 0).stopping = false ∧ (ending .halted (launchOn 0)).devWaits 1 = false ∧ (launchOn 0).gang = none ∧
    (ending .halted (launchOn 0)).gangAnswer (launchOn 0) = none ∧
    (ending .halted (launchOn 0)).cbTarget (launchOn 0).record 0 = some 0x4000 ∧ isDomain 0x4000 = false ∧
    ((ending .halted (launchOn 0)).write none 0 0x4000 (bytesLE 8 0)).isSome = true ∧
    ((awaiting none 0 0).core 0).arb = false ∧ (({ (user []).core 0 with arb := true } : Core)).arb = true := by decide

/-- A launch of context 0 with PRE, being stopped, with the areas at 0x5000 (the word at CBADDR + 16). -/
def stoppingLaunch : Placed := { launchOn (1 <<< 31 ||| 1 <<< 14) with stopping := true }
def stopping (stopped : Bool) : State :=
  let s := ending .running stoppingLaunch
  let s := s.setFront 0 { s.front 0 with stopped := stopped }
  { s with mem := (bytesLE 8 0x5000).zipIdx.foldl (fun m q => m.write (0x4010 + q.2) q.1) s.mem }

theorem witness_Preemption_request : (user []).head = none ∧ (launched true).head = some wide ∧
    (launched true).fits wide (launched true).stoppingSeqs = none ∧
    ((launched true).chooseVictims wide ((launched true).candidates wide.record.prio) []).isSome = true := by decide
theorem witness_Preemption_stop : (stopping false).placedBy 1 = some stoppingLaunch ∧ stoppingLaunch.stopping = true ∧ stoppingLaunch.saved = none ∧
    (stopping false).allHalted stoppingLaunch = false ∧ ((stopping false).vec 0).outFault = none ∧ (stopping false).isStopped 0 = false ∧
    ((stopping false).front 0).preempt = false ∧ (stopping false).stopDrained 0 = true ∧ ((stopping false).vec 0).grantChanges = false ∧
    ((stopping false).vec 0).infl = [] ∧ (stopping true).isStopped 0 = true ∧ (stopping true).arrived = [] ∧
    (ending .halted stoppingLaunch).allHalted stoppingLaunch = true := by decide
theorem witness_Preemption_save : (match (stopping true).saveBase stoppingLaunch with | .at_ pa => decide (pa = 0x4010) | _ => false) = true ∧
    (stopping true).readLE 0x4010 8 = 0x5000 ∧
    (((stopping true).savePlan stoppingLaunch 0x5000).all fun x => match (stopping true).check x.1 true 0x200 false .store x.2.1 8 with
      | .ok (pa, false) => decide (pa = x.2.1.toNat) | _ => false) = true ∧
    (stopping true).arrived = [] ∧ (stopping true).stuck = [] := by decide

/-- Two contexts of which one can stop and the other has not been asked. -/
def stoppingTwo : State :=
  let s := stopping false
  let s := { s with placed := [{ stoppingLaunch with members := [0, 1] }] }
  let s := s.setFront 1 { s.front 0 with preempt := false }
  s.setFront 0 { s.front 0 with preempt := true }
theorem witness_Preemption_stops : stoppingTwo.stopsNow 0 = true ∧ stoppingTwo.stopDrained 0 = true ∧ stoppingTwo.isStopped 1 = false ∧
    (stoppingTwo.front 1).preempt = false ∧ stoppingTwo.allHalted { stoppingLaunch with members := [0, 1] } = false ∧
    stoppingTwo.placedBy 1 = some { stoppingLaunch with members := [0, 1] } ∧ (stoppingTwo.vec 1).outFault = none := by decide

/-- A launch whose areas have been written, and one that restarts from an area at 0x5000 with its mark set. -/
def savedNothing : Saved := { grants := [0], addrs := [[]], halted := [false], fatal := false }
def restarting : State :=
  let s := stopping false
  let s := { s with placed := [{ stoppingLaunch with stopping := false, restoring := some savedNothing }] }
  { s with mem := s.mem.write (0x5000 + 0x1C7) 0x80 }
theorem witness_Preemption_saved : (ending .running { stoppingLaunch with saved := some savedNothing }).devWaits 1 = false ∧
    (ending .running { stoppingLaunch with saved := some savedNothing }).arrived = [] ∧
    (ending .running { stoppingLaunch with saved := some savedNothing }).placedBy 1 = some { stoppingLaunch with saved := some savedNothing } := by
  decide
theorem witness_Preemption_restart : restarting.placedBy 1 = some { stoppingLaunch with stopping := false, restoring := some savedNothing } ∧
    restarting.devWaits 1 = false ∧ restarting.arrived = [] ∧
    (({ stoppingLaunch with restoring := some savedNothing } : Placed).resumed savedNothing) = [(0, 0, 0)] ∧ restarting.lanesBack 0 0 = true ∧
    restarting.readLE 0x4010 8 = 0x5000 ∧
    (BitVec.ofNat 64 (restarting.foundValue 8 (restarting.areaWord { stoppingLaunch with restoring := some savedNothing } 0x5000 0 0x1C0))).getLsbD 63 = true ∧
    ((areaOffsets 0 0 fun _ => 0).all fun off => match restarting.areaWord { stoppingLaunch with restoring := some savedNothing } 0x5000 0 off with
      | .at_ _ => true | _ => false) = true := by decide

/-! ## Witnesses: snapshots, power, the board, the fabric -/

/-- A drain descriptor at 0x3000, of the first batt, with the destination 0x20000 and no hold word. -/
def descriptor : State :=
  let s := super [(10, 0x3000)]
  let put (m : Memory) (p v : Nat) : Memory := (bytesLE 8 v).zipIdx.foldl (fun m q => m.write (p + q.2) q.1) m
  { s with mem := put (put s.mem 0x3000 0x20000) 0x3010 0x10000 }
theorem witness_Snapshots_take : (user []).HandlerOk 0 ∧ ((user []).front 0).status.getLsbD 0 = false ∧
    ((super []).front 0).status.getLsbD 0 = true ∧ descriptor.Issues 0 [10] [5] ∧ descriptor.domainBusy 0 = false ∧
    RecordAt descriptor 0 0x3000 0x3000 ∧
    descriptor.descOk 0 (SnapSlot.ofBytes (bytesLE 64 (descriptor.readLE 0x3000 64)) (descriptor.front 0) 0x3000 0)
      (BitVec.ofNat 64 (descriptor.readLE 0x3038 8)) = true ∧
    (descriptor.occupied.any fun x => x.gen = 1) = false ∧ descriptor.freeSlot = some 1 ∧ descriptor.flash.thr ≤ descriptor.free ∧
    1 < descriptor.free ∧ ({ descriptor with flash := { descriptor.flash with thr := 2000 } } : State).free < 2000 ∧
    asking.domainBusy 0 = true ∧ (snapped.occupied.any fun x => x.gen = 0) = true ∧ descriptor.MemOk ∧ descriptor.KeysOk := by
  unfold State.Issues State.RegsReady State.HandlerOk RecordAt State.MemOk State.KeysOk; decide
/-- A slot at each stage of its life. -/
def slotted (k : SnapSlot) : State := { snapped with slots := snapped.slots.set 0 (some k) }
theorem witness_Snapshots_slot : (slotted slot0).slot 1 = some slot0 ∧ slot0.sealed = false ∧
    ({ slot0 with sealed := true } : SnapSlot).sealed = true ∧
    (slotted slot0).swept 0 = false ∧ ((slotted slot0).sweepList.foldl (fun (x : State) a => x.raise 0 a) (slotted slot0)).swept 0 = true ∧
    (match (slotted { slot0 with sealed := true }).fullMove 1 0 |>.slot 1 with
      | some x => x.sealed && !x.fulled && decide (x.len.toNat / 64 ≤ x.pos) | none => false) = true ∧
    (slotted { slot0 with sealed := true }).devWaits (snapOwner 1) = false ∧
    ({ slot0 with fulled := true } : SnapSlot).hold = 0 ∧ slot0.ctrl.getLsbD 1 = false ∧ (slotted slot0).uecc 0x3000 64 = false ∧
    (slotted slot0).check deviceAgent true 0x200 false .store 0x6000 64 = .ok (0x6000, false) ∧
    ((slotted { slot0 with batts := [(0, 0)] }).write none 1 0x6000 (bytesLE 64 0)).isSome = true ∧
    (slotted slot0).check deviceAgent true 0x200 false .load 0x7000 8 = .ok (0x7000, false) ∧ (slotted slot0).uecc 0x7000 8 = false ∧
    (slotted slot0).readLE 0x7000 8 = 0 := by decide
/-- A slot with two lines to go through. -/
def filling : State := slotted { slot0 with sealed := true, batts := [(0, 0)], aspace := 0x200, dest := 0x6000, base := 0, len := 128 }
theorem witness_Snapshots_line : filling.fullingError 1 = none ∧ 0 < 128 / 64 ∧ filling.devWaits (snapOwner 1) = false ∧
    (match filling.slot 1 with | some k => decide ((filling.fullLine 1 k 0).2 = 0) | none => false) = true := by
  decide
/-- A subscription of sensor 1 on both crossings of 50. -/
def subscribed (above window : Bool) : State :=
  { user [] with subs := (user []).subs.set 2 (some ⟨0x3000, 1, true, true, 50, 5, above, none, window, 0⟩) }
theorem witness_PowerAndSensors : (subscribed false false).subs.getD 2 none = some ⟨0x3000, 1, true, true, 50, 5, false, none, false, 0⟩ ∧
    (1 : Nat) < 8 ∧ (∀ j, j < 8 → j ≠ 2 → (subscribed false false).subs.getD j none = none) ∧ (50 : Nat) ≤ 50 ∧ (44 : Nat) + 5 < 50 ∧
    (({ subscribed false false with sensors := Store.put [] 1 50 } : State).notifyWrite 0 0x3000 0).isSome = true := by decide
theorem witness_PowerAndSensors_window : (subscribed true true).subs.getD 2 none = some ⟨0x3000, 1, true, true, 50, 5, true, none, true, 0⟩ ∧
    (none : Option Bool) ≠ some true ∧ ((subscribed true true).notifyWrite 0 0x3000 (crossingWord 2 ⟨0x3000, 1, true, true, 50, 5, true, none, true, 0⟩ true 0)).isSome = true := by
  decide
theorem witness_PowerAndSensors_errors : ((user []).core 0).lanemap.getLsbD 7 = false ∧ (user []).flash.retireLog.length < 256 ∧
    256 ≤ (List.replicate 256 (0, 0, 0)).length ∧ ((user []).cluster 0).droopth ≠ 0 ∧ ((user []).cluster 0).droopth.toNat ≤ 40 ∧
    39 < ((user []).cluster 0).droopth.toNat ∧ ((user []).cluster 0).stretch = 0 ∧ 0 < ({ (user []).cluster 0 with stretch := 6 } : Cluster).stretch ∧
    0 < ({ (user []).cluster 0 with half := 64 } : Cluster).half := by decide
/-- `user` in reset. -/
def held : State := { user [] with inReset := true }
theorem witness_Board : held.inReset = true ∧ (user []).inReset = false ∧ (1 < (2 : Nat)) ∧
    (∃ b ∈ [0], (user []).ready.getLsbD b = false) ∧ (∀ b ∈ [0], ({ user [] with ready := 1 } : State).ready.getLsbD b = true) ∧
    ({ (user []).flash with timeMaster := 2 } : Flash).timeMaster = (user []).flash.deviceId ∧
    ({ user [] with trcpost := some 0 } : State).trcpost = some 0 := by decide

/-- `user`, with main memory ready for requests. -/
def serving : State := { user [] with ready := 8 }
theorem witness_FabricPackets_requests : serving.inReset = false ∧ serving.ready.getLsbD 3 = true ∧
    ((Store.get [] serving.responses 3).find? fun p => p.1 = 7) = none ∧ 0x3000 + 16 ≤ serving.dataLimit ∧ serving.uecc 0x3000 16 = false ∧
    ¬ (user []).ready.getLsbD 3 = true ∧ ¬ serving.dataLimit + 8 ≤ serving.dataLimit ∧
    ({ serving with uncor := [0x3000] } : State).uecc 0x3000 16 = true ∧ (serving.write none 0 0x3000 (bytesLE 8 5)).isSome = true ∧
    (amoNew 1 0 5 0).isSome = true ∧ (amoNew 9 0 5 1).isNone = true ∧
    ((Store.get [] ({ serving with responses := [(3, [(7, .status 0)])] } : State).responses 3).find? fun p => p.1 = 7) = some (7, .status 0) ∧
    3 ∉ serving.flash.hosts ∧ ({ serving with ready := 255 } : State).ready.getLsbD 6 = true := by decide
theorem witness_FabricPackets_responses : asking.requests.find? (fun x => x.rseq = 0) = some ⟨0, 3, .store 0 0 15 [(3 * 2 ^ 45, 4)]⟩ ∧
    ({ user [] with requests := [⟨0, 3, .access 0⟩] } : State).requests.find? (fun x => x.rseq = 0) = some ⟨0, 3, .access 0⟩ ∧
    ({ threaded (.add96 6 (3 <<< 45) (3 * 2 ^ 45) 5) true with requests := [⟨0, 3, .thread 0⟩] } : State).thread 0 =
      some (threadOf (.add96 6 (3 <<< 45) (3 * 2 ^ 45) 5) true) := by decide
theorem witness_FabricPackets_links : (user []).portless 3 = true ∧ (enqueuing true 0).portless 3 = false ∧
    (∀ r ∈ (user []).requests, r.dst ≠ 3) ∧ (user []).packets = [] ∧
    ({ (enqueuing true 0) with flash := { (enqueuing true 0).flash with timeMaster := 3 } } : State).routed 3 = true ∧
    (user []).ready.getLsbD 2 = false ∧ (enqueuing true 0).ready.getLsbD 2 = true := by decide
/-- A packet that has been sent again 32 times. -/
theorem witness_FabricPackets_replays : ∃ p : Packet, ∃ x ∈ p.replays, 32 ≤ x := ⟨({ port := 0, seq := 0, replays := [32], dst := 3, rseq := 0, what := .timing } : Packet), 32, by decide⟩

/-! ## Witnesses of further clauses -/

/-- A write over a line boundary, of the last byte of one line and the first of the next. -/
theorem witness_WriteResults_lines : ((user []).write none 0 0x303F [1, 2]).isSome = true ∧ 0x303F / 64 ≤ 0xC1 ∧ 64 * 0xC1 < 0x303F + [1#8, 2].length := by
  decide
/-- An `amo` and a segment that are pending. -/
theorem witness_PendingPerforms_kinds : amoNew 1 0 5 0 = some 5 ∧ amoNew 9 0 5 1 = none ∧
    ((pending (.amo 1 9 5 0) 0x3000).front 0).acc[0]? = some ⟨.amo 1 9 5 0, 0, 0x1000, 0x3000, 0x3000, 15, 0, none, false⟩ ∧
    (pending (.amo 1 9 5 0) 0x3000).accBlocked 0 [] ⟨.amo 1 9 5 0, 0, 0x1000, 0x3000, 0x3000, 15, 0, none, false⟩ = false ∧
    ((pending (.amo 1 9 5 0) 0x3000).write (some 0) 0 0x3000 (bytesLE 8 5)).isSome = true ∧
    ((pending (.segment [⟨0x3000, 1, 0xFF⟩]) 0x3000).front 0).acc[0]? =
      some ⟨.segment [⟨0x3000, 1, 0xFF⟩], 0, 0x1000, 0x3000, 0x3000, 15, 0, none, false⟩ ∧
    ((pending (.segment [⟨0x3000, 1, 0xFF⟩]) 0x3000).writePatches (some 0) 0 [⟨0x3000, 1, 0xFF⟩]).isSome = true := by decide
/-- The bits of a subscription record: NOTIFYBASE at 0x3000 with subscription 0, whose record is valid or all zero. -/
def notified : State := { super [] with mem := (super []).mem.write 0x3009 1 }
theorem witness_CsrWriteEffects_notify : (0x3001 : W64).getLsbD 0 = true ∧ notified.notifybase.getLsbD 0 = false ∧
    (0x3001 : W64).toNat / 256 * 256 + 32 ≤ notified.dataLimit ∧ notified.uecc 0x3000 32 = false ∧ (notified.readByte 0x3008).toNat ≤ 10 ∧
    notified.readLE 0x3000 8 % 8 = 0 ∧ 1 ≤ (notified.readByte 0x3009).toNat ∧ (notified.readByte 0x3009).toNat ≤ 3 ∧
    (∀ j, j < 6 → notified.readByte (0x3000 + 10 + j) = 0) ∧ ¬ 1 ≤ ((super []).readByte 0x3009).toNat := by decide
theorem witness_DebugWriteEffects_sources : ({ super [] with trgctl := 3 } : State).trgctl.getLsbD 0 = true ∧
    ({ super [] with trgctl := 3 } : State).trgctl.getLsbD 1 = true ∧ (super []).trig.getLsbD 0 = false ∧
    ({ super [] with trig := 3 } : State).trig.getLsbD 0 = true ∧ ({ super [] with trig := 3 } : State).trig.getLsbD 1 = true := by decide
/-- An agent of a launch that has faulted. -/
def fatalLaunch (s : State) : State :=
  { s.setFront 0 { s.front 0 with launch := some 1 } with placed := [{ launchOn 0 with fatal := true }] }
theorem witness_WaitForEvent_fatal : (fatalLaunch (user [(5, 0x3000)])).peerFatal 0 = true ∧ (fatalLaunch (user [(5, 0x3000)])).HandlerOk 0 ∧
    (fatalLaunch (user [(5, 0x3000)])).vecBusy 0 = false := by unfold State.HandlerOk; decide
/-- Stream 2 of context 0 is bound for output and holds a fault of its entry, told or not. -/
def faulty (told : Bool) (run : Run) : State :=
  let s := user []
  let s := s.setVec 0 { s.vec 0 with
    s := (s.vec 0).s.set 2 (some { boundTo true [⟨0, 5, 0⟩] with fault := some ⟨0, 7, 0x3000⟩, told := told }) }
  s.setFront 0 { s.front 0 with run := run }
theorem witness_YieldAndHalt_fault : ((faulty false .running).vec 0).retry.outFault = some ⟨0, 7, 0x3000⟩ ∧
    ((faulty false .halting).vec 0).outFault = some ⟨0, 7, 0x3000⟩ ∧ ((faulty false .halting).front 0).run = .halting ∧
    (faulty false .running).vecBusy 0 = false ∧ (faulty false .running).HandlerOk 0 ∧ ((faulty true .running).vec 0).retry.outFault = none := by
  unfold State.HandlerOk; decide +kernel
theorem witness_Translations_waits : (super []).stuck = [] ∧ (super []).threads = [] ∧ (pending (.load 4 true 9) 0x3000).fronts.any (fun p => !p.2.acc.isEmpty) = true ∧
    inWindow 0x3000 = false ∧ (threaded (.notify 0x3000 0x3000 5) false).threads ≠ [] ∧
    (match (user []).walk 0 0x3000 4 with | .ok _ => false | .error _ => true) = true ∧ canonical (1 <<< 60) = false := by decide

/-- `mat.feed` of a full slot, or `mat.drain` of a quarter that is not ready, at the head of the VIQ. -/
def feedWaits : State := (feeding 0x050000 true 0).setVec 0 { (feeding 0x050000 true 0).vec 0 with
  viq := [{ entryOf 0xB890B140 4 [0] with vtype := 0x050000 }], infl := [] }
theorem witness_VectorIssueAndCommit_presence : decodeWord 0xB890B140 = .ok (.matFeed 1 8 11) ∧
    feedWaits.presencePending 0 (.matFeed 1 8 11) = true ∧ feedWaits.peerFatal 0 = false ∧ (fatalLaunch feedWaits).peerFatal 0 = true ∧
    feedWaits.vectorRests 0 = false ∧ issueTest feedWaits 0 { entryOf 0xB890B140 4 [0] with vtype := 0x050000 } = none ∧
    (fatalLaunch feedWaits).HandlerOk 0 ∧ (fatalLaunch feedWaits).elementsDone 0 = true := by unfold State.HandlerOk; decide
theorem witness_VectorIssueAndCommit_stream : (bound true [⟨0, 5, 0⟩]).streamPending 0 (.strmFree 2) = true ∧
    ({ bound true [] with } : State).streamPending 0 (.strmFree 2) = false := by decide

/-! ## Witnesses: values -/

theorem witness_ElementValues : rmOf 0x050002 ≤ 5 ∧ Tag.fp32.cls ≠ .angle ∧ (∀ e, Val.zero false ≠ .fin 0 e) ∧ Tag.fp32.cls = .float ∧
    (floatRow .fp32).isSome = true ∧ (readVal 0x050002 .fp32 0x7FC00000).isNan = true ∧ (readVal 0x050002 .fp32 0).isNan = false ∧
    (Tag.int32.cls = .integer ∧ 7 < 2 ^ Tag.int32.width) := ⟨by decide, by decide, fun _ => by simp, rfl, rfl, by decide⟩
theorem witness_ElementValues_angles : Tag.ang16.cls = .angle ∧ Tag.int16.cls = .integer ∧ Tag.int16.width = Tag.ang16.width ∧
    Tag.int16 ≠ .ang16 ∧ 0xFFFF < 2 ^ Tag.ang16.width := by decide
/-- A scale of 0x80 and one of 255, a float and a grid, and the pointers of `vop.cvt`. -/
theorem witness_ConversionValues : rmOf 0x050002 ≤ 5 ∧ (isMxTag .e4m3 ≠ isMxTag .fp32) ∧ Tag.ptr64.cls = .pointer ∧ Tag.fp32.cls = .float ∧
    Tag.int32.cls = .integer ∧ (floatRow .e4m3).isSome = true ∧ (Vec.reset.e.getD 0 0).toNat ≠ 255 := ⟨by decide, by decide, rfl, rfl, rfl, rfl, by decide⟩
theorem witness_FunctionValues_rotation : (16 ∈ [8, 16, 32]) ∧ 1 ≤ 1 ∧ 31 + 1 ≤ 32 ∧ rmOf 0x050001 ≤ 5 ∧ rotTagsOk .cir false .q14 .ang16 = true ∧
    rotTagsOk .hyp true .fp16 .q14 = true ∧ (readVal 0x050001 .fp16 0x7C00).isInf = true ∧ (readVal 0x050001 .fp16 0x3C00).isInf = false ∧
    (readVal 0x050001 .fp16 0x3C00).isNan = false ∧ rotTagsOk .lin false .int32 .int32 = true ∧
    (|intValue .int32 5| < 2 ^ (42 - 8) ∧ |intValue .int32 7| < 2 ^ 8 - 1) ∧ ¬ |intValue .int32 255| < 2 ^ 8 - 1 ∧
    intValue .int32 255 < 2 ^ 8 := by decide
theorem witness_FunctionValues_special : intValue .q15 0x8000 < 0 ∧ intValue .q15 0 = 0 ∧ Tag.fp32.cls = .float ∧
    readVal 0x050002 .fp32 0 = .zero false ∧ readVal 0x050002 .fp32 0xFF800000 = .inf true ∧
    (readVal 0x050002 .fp32 0x7FC00000).isNan = true ∧ readVal 0x050002 .fp32 0xBF800000 = .fin (-2 ^ 23) (-23) ∧
    readVal 0x050002 .fp32 0x3F800000 = .fin (2 ^ 23) (-23) ∧ (0x050002 : VType).getLsbD 20 = false := by decide
/-- The operands of the exact results: 1, 4 with its root 2, and one and a half turns. -/
theorem witness_FunctionValues_exact : (Val.fin (2 ^ 23) (-23)).rat = 1 ∧ (Val.fin (2 ^ 23) (-21)).rat = 2 ^ 2 ∧
    (Val.fin (2 ^ 23) (-22)).rat = 2 ∧ ReadAs 0x050002 .fp32 0x40000000 (.fin (2 ^ 23) (-22)) ∧ (Val.fin (3 * 2 ^ 22) (-23)).rat = 6 / 4 := by
  refine ⟨by norm_num [Val.rat], by norm_num [Val.rat], by norm_num [Val.rat], ?_, by norm_num [Val.rat]⟩
  norm_num [ReadAs, floatRow, Stands, FloatRow.rat, Val.rat]
theorem witness_FunctionValues_micro : Tag.user .q14 = true ∧ (16 ∈ [8, 16, 32]) ∧ (List.replicate 8 (0 : ℤ)).length = 8 ∧
    ((1#5 ++ 0#27 : BitVec 32).extractLsb' 27 5).toNat = 1 ∧ ((16#5 ++ 0#27 : BitVec 32).extractLsb' 27 5).toNat = 16 ∧
    ((0#32).extractLsb' 27 5 = 0) ∧ (2 : ℚ) ^ (-18 + 18 : ℤ) ≤ |((1 : ℤ) : ℚ)| ∧ |((1 : ℤ) : ℚ)| < (2 : ℚ) ^ (-18 + 18 + 1 : ℤ) ∧
    (|(1 : ℤ)| < 2 ^ 63) := by
  refine ⟨rfl, by decide, rfl, by decide, by decide, by decide, by norm_num, by norm_num, by norm_num⟩

/-- The weight set and the slot of `lastCell`. -/
def oneWeight : WeightSet := { WeightSet.reset with state := .valid, btag := 7, sp := 0, cells := [(4095, 0x40)] }
def oneSlot : List Slot := [{ Slot.reset with full := true, code := 6, elems := [(0, 3)] }]
/-- A pass of one cell over 2^27 − 1: it needs one bellows entry. -/
def lastOld : TileCell := { TileCell.zero with v := 0x7FFFFFF }
theorem witness_ArrayValues_pass : oneWeight.sp ≠ 3 ∧ oneWeight.btag ≠ 0 ∧ (WeightSet.reset.btag = 0 ∨ WeightSet.reset.btag ≠ 0) ∧
    (passCell oneWeight oneSlot 254 0 4095).2.2 = false ∧ (passCell oneWeight oneSlot 0 0 4095).2.2 = true ∧ 4096 - 4095 % 4096 = 1 ∧
    belEntries (lastOld.add (passCell oneWeight oneSlot 254 0 4095)).c = 1 ∧ belEntries lastOld.c = 0 ∧
    (lastOld.add (passCell oneWeight oneSlot 254 0 4095)).c ≠ lastOld.c ∧ (1 : ℤ) ≤ 1 ∧ (0 : ℤ) < 1 := by decide +kernel
theorem witness_ArrayValues_drain : rmOf 0x050002 ≤ 5 ∧ drainTagOk .fp32 = true ∧ drainTagOk .int32 = true ∧ drainTagOk .uint64 = true ∧
    (Store.get TileCell.zero Tile.reset.cells 0).inv = false ∧ ({ TileCell.zero with inv := true } : TileCell).inv = true ∧
    (-512 ≤ (Tile.reset.anc.toNat : ℤ) - 254 - Tile.reset.f) ∧ -2 ^ 95 ≤ TileCell.zero.v.toInt + 2 ^ 28 * TileCell.zero.c ∧
    TileCell.zero.v.toInt + 2 ^ 28 * TileCell.zero.c < 2 ^ 95 ∧ 1023 < 1024 := by decide

/-- `loading` from an address, with an uncorrectable error in its bytes or not. -/
def loadingAt (va : W64) (bad : Bool) : State := { shaped 0x050002 18 false [va, 4] with uncor := if bad then [0x3000] else [] }
theorem witness_VectorLoads_faults : (loadingAt 0x3000 true).findElem 0 false .load 0x3000 4 = .fault 10 ∧
    (Kinds.of ((loadingAt 0x3000 true).vec 0) (shapedE 0x050002 [0x3000, 4]) false 4 0).active 0 = true ∧
    (loadingAt 0x3001 false).findElem 0 false .load 0x3001 4 = .fault 6 ∧
    (loadingAt 0x3000 true).HandlerOk 0 ∧ (loadingAt 0x3000 true).mayTrap 0 (shapedE 0x050002 [0x3000, 4]) = true := by unfold State.HandlerOk; decide
/-- `vld.ff` whose element 1 lies beyond memory. -/
theorem witness_VectorLoads_first : (Kinds.of (loading.vec 0) (shapedE 0x050002 [0x3000, 4]) false 4 0).hi =
      (Kinds.of (loading.vec 0) (shapedE 0x050002 [0x3000, 4]) false 4 0).vl ∧
    (Kinds.of (loading.vec 0) (shapedE 0x050002 [0x3000, 4]) false 4 0).active 1 = true ∧
    loading.findElem 0 false .load (BitVec.ofNat 64 loading.dataLimit - 4 + BitVec.ofNat 64 (1 * 4)) 4 = .fault 14 ∧
    loading.findElem 0 false .load (BitVec.ofNat 64 loading.dataLimit - 4 + BitVec.ofNat 64 (0 * 4)) 4 = .at_ (loading.dataLimit - 4) := by decide

/-- `bound`, with a fault of its first entry held, told or not. -/
def boundFault (told : Bool) : State := vector (entryOf 0xA0900000 4 [1]) fun v =>
  { v with s := v.s.set 2 (some { boundTo true [⟨0, 5, 0⟩] with fault := some ⟨0, 7, 0x3000⟩, told := told }) }
theorem witness_Streams_fault :
    ((boundFault false).vec 0).stream 2 = some { boundTo true [⟨0, 5, 0⟩] with fault := some ⟨0, 7, 0x3000⟩, told := false } ∧
    (boundFault false).HandlerOk 0 ∧ (boundFault false).mayTrap 0 (entryOf 0xA0900000 4 [1]) = true ∧
    ((boundFault true).vec 0).stream 2 = some { boundTo true [⟨0, 5, 0⟩] with fault := some ⟨0, 7, 0x3000⟩, told := true } := by
  unfold State.HandlerOk; decide
/-- The walk ends after its entries; a stream over another device; and a stream of an agent that has taken a fatal trap. -/
def boundAway : State :=
  let s := bound true [⟨0, 5, 0⟩]
  { s.setVec 0 { s.vec 0 with s := (s.vec 0).s.set 2 (some { boundTo true [⟨0, 5, 0⟩] with base := 3 <<< 45 }) } with
    flash := { s.flash with routes := [(3, [0])] } }
theorem witness_Streams_ends : ({ boundTo false [] with word1 := 0x1010 } : Stream).addr (8 * 8 * 8) = none ∧ ((bound false []).front 0).stopped = false ∧
    boundAway.findStream 0 2 { boundTo true [⟨0, 5, 0⟩] with base := 3 <<< 45 } .store (3 <<< 45) = .at_ (3 * 2 ^ 45) ∧
    boundAway.streamReady 0 { boundTo true [⟨0, 5, 0⟩] with base := 3 <<< 45 } = true ∧
    (bound true [⟨0, 5, 0⟩]).findStream 0 2 (boundTo true [⟨0, 5, 0⟩]) .store (BitVec.ofNat 64 (user []).dataLimit) = .fault 14 := by decide
/-- Bytes of another device that have come for the thread of a stream. -/
def boundArrived : State :=
  let s := bound false []
  { s with flash := { s.flash with routes := [(3, [0])] }, arrived := [⟨.stream 0 2, 3 * 2 ^ 45, 4, .data [1, 2, 3, 4]⟩] }
theorem witness_Streams_arrived : boundArrived.checkVa 0 true 0x200 false .load (3 <<< 45) 4 = .ok (3 * 2 ^ 45, false) ∧
    boundArrived.arrivedFor (.stream 0 2) (3 * 2 ^ 45) 4 = some (.data [1, 2, 3, 4]) ∧ deviceOf (3 * 2 ^ 45) ≠ boundArrived.flash.deviceId := by decide
theorem witness_EngineThreads_stuck : (threaded (.copy 7 0x3000 0x4000 2) true).stuck = [] := rfl
theorem witness_QueueEntries_started : ((running 0 false).cluster 0).mma.isSome = true ∧
    8 ≤ (List.replicate 7 mmaE).length + (if ((running 0 false).cluster 0).mma.isSome then 1 else 0) := by decide

theorem witness_RecordCommands_waits : ({ enqueuing true 2 with requests := asking.requests } : State).domainBusy 0 = true ∧
    RecordAt { enqueuing true 2 with requests := asking.requests } 0 0x3000 0x3000 ∧
    ({ enqueuing true 2 with requests := asking.requests } : State).accBlocked 0 []
      ⟨.load 64 false 0, 0, 0x1000, 0x3000, 0x3000, 15, 0, none, false⟩ = false := by unfold RecordAt; decide
/-- `user`, whose page is of type IO. -/
def ioPage : State := { user [] with mem := (user []).mem.write 0x200007 0x40 }
/-- Context 0 in a launch that may not reach the slice of core 1. -/
def closedSlice : State :=
  let s := fatalLaunch (user [])
  s.setCore 1 { s.core 1 with fence := [1] }
theorem witness_AnchoredAddAndNotify_traps : (user []).checkVa 0 false 0x200 false .store (1 <<< 60) 16 = .error 14 ∧
    (user []).checkVa 0 false 0x200 false .store 0x3001 8 = .error 6 ∧
    ioPage.checkVa 0 false 0x200 false .store 0x3000 8 = .ok (0x3000, true) ∧
    closedSlice.checkVa 0 false 0x200 false .store 0xFFFFF00000200000 16 = .ok (spBase + 2 ^ 21, false) ∧ slotOf (spBase + 2 ^ 21) = 0 ∧
    (isSp (spBase + 2 ^ 21) && closedSlice.fenced 0 (spBase + 2 ^ 21)) = true ∧ closedSlice.HandlerOk 0 ∧
    (user []).checkOwn 0 .store (BitVec.ofNat 64 (user []).dataLimit) 8 = .error 14 ∧
    (user []).checkVa 0 false 0x200 false .store (BitVec.ofNat 64 (user []).dataLimit) 8 = .ok ((user []).dataLimit, false) := by
  unfold State.HandlerOk; decide
theorem witness_AnchoredAddAndNotify_away : (threaded (.add96 6 (3 <<< 45) (3 * 2 ^ 45) 5) true).thread 0 =
    some (threadOf (.add96 6 (3 <<< 45) (3 * 2 ^ 45) 5) true) ∧ isDomain (3 * 2 ^ 45) = true := by decide
/-- A record whose after-dependency cannot be read, in its queue. -/
theorem witness_Launches_fault : (awaiting none 0x3001 1).queued 0 = some (awaited none 0x3001 1) ∧
    (awaiting none 0x3001 1).devRead 0 0x200 false 0x3001 8 = .fault 6 ∧ ({ launchOn 0 with last := some 0 } : Placed).last = some 0 := by decide

/-- A word of a save stalls. -/
theorem witness_Preemption_stalled : ∃ s : State, ∃ x ∈ s.stuck, ∃ a, x.by_ = .save 1 a :=
  ⟨{ user [] with stuck := [⟨.save 1 0, 0x3000, [0]⟩] }, _, List.mem_singleton.mpr rfl, 0, rfl⟩
/-- A restart whose area lies beyond memory, one without its mark, and one whose context had halted. -/
def restartAt (base : Nat) (halted : Bool) : State :=
  let p := { stoppingLaunch with stopping := false, restoring := some { savedNothing with halted := [halted] } }
  { user [] with placed := [p], mem := (bytesLE 8 base).zipIdx.foldl (fun m q => m.write (0x4010 + q.2) q.1) (user []).mem }
theorem witness_Preemption_areas : stoppingLaunch.agents.Nodup ∧ (∀ a ∈ stoppingLaunch.agents, isDrone a = false) ∧
    (restartAt (user []).dataLimit false).areaWord stoppingLaunch (BitVec.ofNat 64 (user []).dataLimit) 0 0 = .fault 14 ∧
    (restartAt (user []).dataLimit false).readLE 0x4010 8 ≠ 0 ∧ 0 ∈ areaOffsets 0 0 (fun _ => 0) ∧
    (BitVec.ofNat 64 ((restartAt 0x5000 true).foundValue 8 ((restartAt 0x5000 true).areaWord stoppingLaunch 0x5000 0 0x1C0))).getLsbD 63 = false ∧
    [true].getD 0 false = true := by decide

theorem witness_Snapshots_sweep : (slotted slot0).saving 0 = false ∧ (threaded (.notify 0x3000 0x3000 5) false).threads.all (fun x => decide (x.id + 2048 < 2 ^ 40)) = true ∧
    (stopping true).saving 0 = true := by decide
/-- A slot without copied batts and a device without reserve: a line that is unreadable, and one whose write stalls. -/
def starving : State :=
  let s := slotted { slot0 with sealed := true, aspace := 0x200, dest := 0x6000, len := 128 }
  { s with flash := { s.flash with resv := 0 } }
theorem witness_Snapshots_stall : ({ starving with uncor := [0] } : State).uecc (2 ^ 44) 64 = true ∧ starving.stuck = [] ∧
    (starving.write none 1 0x6000 (bytesLE 64 0)).isNone = true := by decide
theorem witness_PowerAndSensors_stuck : (subscribed false false).stuck = [] ∧ spBase ≤ 2 ^ 60 ∧ 0x3000 < spBase ∧
    (64 * 192) ∈ ({ user [] with cor := [0x3000] } : State).cor ∧ (64 * 192) ∉ (user []).cor := by decide

/-- Requests of device 3 for a range over the end of memory, for one with an error, and for two ranges. -/
theorem witness_FabricPackets_runs : (∃ q ∈ [(serving.dataLimit, 8)], serving.dataLimit < q.1 % 2 ^ 44 + q.2) ∧
    (∀ q ∈ [(0x3000, 8), (0x5000, 8)], q.1 % 2 ^ 44 + q.2 ≤ serving.dataLimit ∧ serving.uecc (q.1 % 2 ^ 44) q.2 = false) ∧
    (∃ q ∈ [(0x3000, 8)], ({ serving with uncor := [0x3000] } : State).uecc (q.1 % 2 ^ 44) q.2 = true) ∧
    (serving.writePatches none 0 [⟨0x3000, 5, 0xFF⟩, ⟨0x5000, 6, 0x0F⟩]).isSome = true ∧
    (({ snapped with flash := { snapped.flash with resv := 0 }, ready := 8 } : State).write none 1 0x3000 (bytesLE 8 5)).isNone = true ∧
    (({ snapped with flash := { snapped.flash with resv := 0 }, ready := 8 } : State).writePatches none 1 [⟨0x3000, 5, 0xFF⟩]).isNone = true := by
  decide
theorem witness_FabricPackets_enqueue : ({ serving with ready := 255 } : State).ready.getLsbD 6 = true ∧ 3 ∉ serving.flash.hosts ∧
    (LaunchRec.ofBytes (List.replicate 57 0 ++ [0x20] ++ List.replicate 6 0)).ctrl.getLsbD 13 = true ∧
    serving.ready.getLsbD 6 = false := by decide
/-- A load that has been sent to device 3, with request 0. -/
def sentLoad : State :=
  let s := user []
  { s.setFront 0 { s.front 0 with acc := [⟨.load 4 true 9, 0, 0x1000, 3 <<< 45, 3 * 2 ^ 45, 15, 0, some 0, false⟩] } with
    requests := [⟨0, 3, .access 0⟩] }
theorem witness_FabricPackets_lost : sentLoad.portless 3 = true ∧
    sentLoad.requests.filter (fun x => decide (x.dst = 3)) = [⟨0, 3, .access 0⟩] ∧
    (∀ x ∈ sentLoad.requests, x.rseq = 0 → x = ⟨0, 3, .access 0⟩) ∧ sentLoad.vecBusy 0 = false := by decide
/-- The waiters of a request: bytes, the runs of a segment, a store, an enqueue, and an access that is pending. -/
theorem witness_FabricPackets_waiters : Request.waiter ⟨0, 3, .bytes (.vector 0) (3 * 2 ^ 45) 8⟩ = .bytes (.vector 0) (3 * 2 ^ 45) 8 ∧
    Request.waiter ⟨0, 3, .segment (.vector 0) [(3 * 2 ^ 45, 2)]⟩ = .segment (.vector 0) ([(3 * 2 ^ 45, [1, 2])].map fun q : Nat × List Byte => (q.1, q.2.length)) ∧
    (NgReply.data [1, 2] = .data ([(3 * 2 ^ 45, [1, 2])].flatMap fun q : Nat × List Byte => q.2)) ∧
    Request.waiter ⟨0, 3, .enq 0 5⟩ = .enq 0 5 ∧ Request.waiter ⟨0, 3, .entry 0 2⟩ = .entry 0 2 ∧
    ((sentLoad.front 0).acc = [⟨.load 4 true 9, 0, 0x1000, 3 <<< 45, 3 * 2 ^ 45, 15, 0, some 0, false⟩]) ∧ sentLoad.vecBusy 0 = false ∧
    ({ sentLoad with requests := [] } : State).HandlerOk 0 := by unfold State.HandlerOk; decide

/-! ## Single steps of the vector side and the array (the expected values are the spec's worked examples, or by hand) -/

/-- Sets elements of a group. -/
def Vec.filled (v : Vec) (w : Nat) (base : VReg) (l : List Nat) : Vec :=
  l.zipIdx.foldl (fun v p =>
    let x := place v.lanes w base p.2
    { v with v := v.v.setIfInBounds x.1 (putBits (v.v.getD x.1 0) x.2.2 w p.1) }) v

/-- Elements of a group of context 0. -/
def State.elems (s : State) (w : Nat) (base : VReg) (n : Nat) : List Nat := (List.range n).map ((s.vec 0).elem (s.vec 0).lanes w base)

/-- The example of R165: `vop.add.vi v4, v8, -3, m1` with TA = 1 and MA = 0. -/
def exampleMask : State :=
  vector { entryOf 0x6911D011 10 [] with vtype := 0x050042 } fun v =>
    { (v.filled 32 8 (List.range 16)).filled 32 4 (List.replicate 16 0x77777777) with m := v.m.set 1 0x3F5 }
theorem test_step_vop_mask : (after (exec (.vopAdd 4 8 (.vi (-3)) 1) exampleMask)).elems 32 4 16 =
    [0xFFFFFFFD, 0x77777777, 0xFFFFFFFF, 0x77777777, 1, 2, 3, 4, 5, 6, 0xFFFFFFFF, 0xFFFFFFFF, 0xFFFFFFFF, 0xFFFFFFFF, 0xFFFFFFFF, 0xFFFFFFFF] ∧
    ((after (exec (.vopAdd 4 8 (.vi (-3)) 1) exampleMask)).vec 0).flags = 0 := by decide

/-- The example of R165: `vop.shr.rnd.narrow v2, v8, v6` with SAT and RNE raises NX and SA. -/
def exampleNarrow : State :=
  vector { entryOf 0x689064A8 4 [] with vtype := 0x0D0001 } fun v =>
    { (v.filled 32 8 [1000, 1004, 2 ^ 32 - 12, 1000000]).filled 16 6 [3, 3, 3, 3] with
      tag := ((v.tag.set 6 .int16).set 8 .int32).set 9 .int32 }
theorem test_step_vop_narrow : (after (exec (.vopShrRnd 2 8 (.narrow 6) 0) exampleNarrow)).elems 16 2 4 = [125, 126, 0xFFFE, 32767] ∧
    ((after (exec (.vopShrRnd 2 8 (.narrow 6) 0) exampleNarrow)).vec 0).flags = 0b0110000 ∧
    ((after (exec (.vopShrRnd 2 8 (.narrow 6) 0) exampleNarrow)).vec 0).tag.getD 2 .int32 = .int16 := by decide

/-- The program of R245: `vrot.cir.rot.g v4, v6, 0, 4` on q14 pairs and ang16 angles. -/
def exampleRotate : State :=
  vector { entryOf 0x710C0188 2 [] with vtype := 0x050001 } fun v =>
    { ((v.filled 16 4 [0x4000, 0x4000]).filled 16 5 [0, 0]).filled 16 6 [0x1555, 0x9555] with
      tag := ((v.tag.set 4 .q14).set 5 .q14).set 6 .ang16 }
theorem test_step_vrot : (after (exec (.vrotCirRot 4 6 0 3 true 0) exampleRotate)).elems 16 4 2 = [0x39D7, 0xC629] ∧
    (after (exec (.vrotCirRot 4 6 0 3 true 0) exampleRotate)).elems 16 5 2 = [0x1B66, 0xE49A] ∧
    (after (exec (.vrotCirRot 4 6 0 3 true 0) exampleRotate)).elems 16 6 2 = [0x034F, 0x034F] ∧
    ((after (exec (.vrotCirRot 4 6 0 3 true 0) exampleRotate)).vec 0).flags = 0x10 := by decide

/-- R39: fp32 1.0 + 2^-24 under RNE is 1.0, with NX. -/
def exampleRound : State :=
  vector (entryOf 0x6910C000 1 []) fun v => { (v.filled 32 8 [0x3F800000]).filled 32 12 [0x33800000] with tag := Vector.replicate 32 .fp32 }
theorem test_step_vop_float : (after (exec (.vopAdd 4 8 (.vv 12) 0) exampleRound)).elems 32 4 1 = [0x3F800000] ∧
    ((after (exec (.vopAdd 4 8 (.vv 12) 0) exampleRound)).vec 0).flags = 0x10 := by decide

/-- R172: the sum of the active elements on the initial value, in element 0. -/
def exampleSum : State := vector (entryOf 0x80887008 4 [100]) fun v => v.filled 32 4 [1, 2, 3, 4]
theorem test_step_vred : (after (exec (.vredRedsum 2 4 (.vx 7) 0) exampleSum)).elems 32 2 2 = [110, 0] := by decide

/-- R199: the transposition of 7 elements into 3 columns. -/
def exampleReshape : State := vector (entryOf 0x891091C8 7 [3]) fun v => v.filled 32 8 [10, 11, 12, 13, 14, 15, 16]
theorem test_step_vperm : (after (exec (.vpermReshape 4 8 9) exampleReshape)).elems 32 4 7 = [10, 13, 16, 11, 14, 0, 12] := by decide

/-- R180: a unit load reads little-endian elements, and a store puts them back. -/
def exampleLoad : State :=
  let s := vector (entryOf 0x91140F00 2 [0x3000]) id
  { s with mem := ((s.mem.write 0x3000 1).write 0x3001 2).write 0x3004 0xFF }
theorem test_step_vld : (after (exec (.vldUnit 4 10 15 0 0) exampleLoad)).elems 32 4 2 = [0x201, 0xFF] := by decide
theorem test_step_vst : (after (exec (.vstUnit 4 10 15 0 0) (vector (entryOf 0x91140F00 2 [0x3000]) fun v => v.filled 32 4 [0x201, 5]))).readLE 0x3000 8 =
    0x500000201 := by decide

/-- The worked pass of R229: 1.5 and -1.5 of e2m1 against 1.0 and 0.515625 of q6, under anchor 253. -/
theorem test_step_mma : TileCell.zero.add (passCell
    { WeightSet.reset with state := .valid, btag := 7, sp := 0, cells := (Memory.write [] 0 0x40).write (32 * 4096) 0x21 }
    [{ Slot.reset with full := true, code := 6, elems := (Memory.write [] 0 3).write 32 0xB, scales := Slot.reset.scales.set 1 125 }]
    253 0 0) = { TileCell.zero with v := 334, x := true } := by decide

/-- R213: a copy of two bytes, at its completion. -/
theorem test_step_copy :
    let s := threaded (.copy 7 0x3000 0x4000 2) true
    let t := after (exec (.copyComplete 0) { s with mem := (s.mem.write 0x4000 0xAB).write 0x4001 0xCD })
    t.readLE 0x3000 2 = 0xCDAB ∧ (t.front 0).tokens = [⟨7, 2, 0⟩] ∧ t.threads = [] := by decide
/-- R307, R25: a placed launch starts at its entry with x3 holding ARG. -/
theorem test_step_launch : ((after (exec .launchPlace (awaiting (some 0) 0 0))).front 0).pc = 0x1000 ∧
    ((after (exec .launchPlace (awaiting (some 0) 0 0))).front 0).run = .running := by
  decide
/-- R152: a context at SEW 32 with one lane group asks for 100 elements and gets VLMAX = 16. -/
theorem test_step_setl : ((after (exec (.vcfgSetl 7 5 6) (wanting true))).front 0).xr 7 = 16 ∧
    ((after (exec (.vcfgSetl 7 5 6) (wanting true))).vec 0).vl = 16 := by decide
/-- R349: the add on equal exponents, with the answer 0. -/
theorem test_step_add96 : (after (exec (.add96Perform 0) (threaded (.add96 6 0x3000 0x3000 5) true))).readLE 0x3000 16 = 5 ∧
    ((after (exec (.add96Perform 0) (threaded (.add96 6 0x3000 0x3000 5) true))).front 0).xr 6 = 0 := by decide
/-- R144: the snapshot freezes generation 0 and makes 1 live. -/
theorem test_step_snap : (after (exec (.sysSnap 5 10) descriptor)).live = 1 ∧ ((after (exec (.sysSnap 5 10) descriptor)).front 0).curgen = 1 := by
  decide +kernel
/-- R401: the identification of the JTAG port. -/
theorem test_step_idcode : (after (exec .jtagIdcode (user []))).jtag = 0x1C460AB5 := by decide

end Sys2Proof.Machine
end

section
/-! PROOFS. The holders of the lane groups in LANEPART, and the board (R27, R87, R382, R395, R399, R401, R402). -/
namespace Sys2Proof.Machine

/-! ## LANEPART -/

/-- A new holder of group j replaces the three bits of G(j). -/
theorem getLsbD_setHolder (lp : BitVec 24) (j h : Nat) {n : Nat} (hn : n < 24) :
    (setHolder lp j h).getLsbD n = if 3 * j ≤ n ∧ n < 3 * j + 3 then (h % 8).testBit (n - 3 * j) else lp.getLsbD n := by
  have seven (m : Nat) : Nat.testBit 7 m = decide (m < 3) := Nat.testBit_two_pow_sub_one 3 m
  have high (m : Nat) (hm : 3 ≤ m) : (h % 8).testBit m = false :=
    Nat.testBit_lt_two_pow (lt_of_lt_of_le (Nat.mod_lt h (by omega)) (Nat.pow_le_pow_right (by omega) hm : 2 ^ 3 ≤ 2 ^ m))
  simp only [setHolder, BitVec.getLsbD_or, BitVec.getLsbD_and, BitVec.getLsbD_not, BitVec.getLsbD_shiftLeft,
    BitVec.getLsbD_ofNat, hn, seven, decide_true, Bool.true_and]
  by_cases hlo : n < 3 * j
  · simp [hlo]
  · by_cases hhi : n < 3 * j + 3
    · simp [show n - 3 * j < 3 by omega, show n - 3 * j < 24 by omega, show 3 * j ≤ n by omega, hhi, hlo]
    · simp [high (n - 3 * j) (by omega), show ¬ n - 3 * j < 3 by omega, hhi]

/-- G(i) after a group has been given a holder (R87). -/
theorem laneHolder_setHolder (lp : BitVec 24) (h : Nat) {i j : Nat} (hi : i < 8) :
    laneHolder (setHolder lp j h) i = if i = j then h % 8 else laneHolder lp i := by
  have bits : (setHolder lp j h).extractLsb' (3 * i) 3 = if i = j then BitVec.ofNat 3 (h % 8) else lp.extractLsb' (3 * i) 3 := by
    apply BitVec.eq_of_getLsbD_eq
    intro k hk
    rw [BitVec.getLsbD_extractLsb', getLsbD_setHolder lp j h (by omega)]
    by_cases hij : i = j
    · rw [if_pos hij, if_pos (by omega), BitVec.getLsbD_ofNat, hij, Nat.add_sub_cancel_left]
    · simp [hij, hk, show ¬ (3 * j ≤ 3 * i + k ∧ 3 * i + k < 3 * j + 3) by omega]
  unfold laneHolder
  rw [bits]
  split
  · simp
  · rfl

/-- G(i) after a holder has been written to each group of a list that passes a test. -/
theorem laneHolder_foldl_setHolder (c : Nat → Prop) [DecidablePred c] (f : Nat → Nat) {i : Nat} (hi : i < 8) :
    ∀ (l : List Nat) (lp : BitVec 24),
      laneHolder (l.foldl (fun lp j => if c j then setHolder lp j (f j) else lp) lp) i =
        if i ∈ l ∧ c i then f i % 8 else laneHolder lp i
  | [], lp => by simp
  | j :: l, lp => by
    rw [List.foldl_cons, laneHolder_foldl_setHolder c f hi l]
    by_cases hij : i = j
    · subst hij
      by_cases hc : c i <;> simp [hc, laneHolder_setHolder lp (f i) hi]
    · by_cases hc : c j <;> simp [hc, hij, laneHolder_setHolder lp (f j) hi]

/-! ## The cores after a boot (R27, R87, R382) -/

/-- A table after the keys of a list that pass a test have been set. -/
theorem Store.get_foldl_put {α : Type} (d : α) (c : Nat → Prop) [DecidablePred c] (f : Nat → α) (i : Nat) :
    ∀ (l : List Nat) (m : Store α),
      Store.get d (l.foldl (fun (m : Store α) g => if c g then m else m.put g (f g)) m) i =
        if i ∈ l ∧ ¬ c i then f i else Store.get d m i
  | [], m => by simp
  | g :: l, m => by
    rw [List.foldl_cons, Store.get_foldl_put d c f i l]
    by_cases hig : i = g
    · subst hig
      by_cases hc : c i <;> simp [hc]
    · by_cases hc : c g <;> simp [hc, hig, Store.get_put]

/-- The one bit of 1 <<< k. -/
theorem getLsbD_one_shiftLeft {w : Nat} (k : Nat) {j : Nat} (hj : j < w) : (1#w <<< k).getLsbD j = true ↔ k = j := by
  rw [← BitVec.twoPow_eq, BitVec.getLsbD_twoPow]
  simp
  omega

/-- The bits that the entries of a log set. -/
theorem getLsbD_foldl_retire {j : Nat} (hj : j < 8) :
    ∀ (l : List (Nat × Nat × Nat)) (m : BitVec 8),
      (l.foldl (fun m e => m ||| (1#8 <<< e.2.1)) m).getLsbD j = true ↔ m.getLsbD j = true ∨ ∃ e ∈ l, e.2.1 = j
  | [], m => by simp
  | e :: l, m => by
    rw [List.foldl_cons, getLsbD_foldl_retire hj l, BitVec.getLsbD_or, Bool.or_eq_true, getLsbD_one_shiftLeft e.2.1 hj]
    simp [or_assoc]

/-- The groups that the flash retires: those of the signed image, and those of the log (R27, R382). -/
theorem getLsbD_flashRetired (f : Flash) (g : Nat) {j : Nat} (hj : j < 8) :
    (flashRetired f g).getLsbD j = true ↔
      (((f.laneMap.find? fun (p : Nat × BitVec 8) => p.1 = g).map fun (p : Nat × BitVec 8) => p.2).getD 0).getLsbD j = true ∨
        ∃ x : Nat × Nat × Nat, x ∈ f.retireLog ∧ x.1 = g ∧ x.2.1 = j := by
  simp [flashRetired, getLsbD_foldl_retire hj, and_assoc]

/-- A core after a boot: as at reset where the flash retires none of its groups. -/
theorem State.core_boot (s : State) {g : Nat} (hg : g < 256) :
    s.boot.core g = if flashRetired s.flash g = 0 then Core.reset else Core.boot s.flash g := by
  show Store.get Core.reset s.boot.cores g = _
  simp only [State.boot]
  rw [Store.get_foldl_put]
  by_cases h : flashRetired s.flash g = 0 <;> simp [h, hg]

theorem State.core_boot_lanemap (s : State) {g : Nat} (hg : g < 256) : (s.boot.core g).lanemap = flashRetired s.flash g := by
  rw [State.core_boot s hg]
  split
  · rename_i h
    exact h.symm
  · rfl

/-- After a boot a retired group has holder 7, and every other one is free. -/
theorem State.core_boot_holder (s : State) {g j : Nat} (hg : g < 256) (hj : j < 8) :
    laneHolder (s.boot.core g).lanepart j = if (s.boot.core g).lanemap.getLsbD j then 7 else 4 := by
  have free : laneHolder Core.reset.lanepart j = 4 := by
    revert j
    decide
  rw [State.core_boot_lanemap s hg, State.core_boot s hg]
  split
  · rename_i h
    simp [h, free]
  · simp [Core.boot, laneHolder_foldl_setHolder, hj, free]

/-- Beside its lane groups a core is at its reset value after a boot. -/
theorem State.core_boot_rest (s : State) {g : Nat} (hg : g < 256) :
    { s.boot.core g with lanemap := 0, lanepart := Core.reset.lanepart } = Core.reset := by
  rw [State.core_boot s hg]
  split <;> rfl

theorem State.core_inReset (s : State) (b : Bool) (g : Nat) : State.core { s with inReset := b } g = s.core g := rfl

/-! ## READY (R399) -/

/-- The bits of READY that a list numbers. -/
def readyMask (needs : List Nat) : BitVec 8 := needs.foldr (fun b m => 1#8 <<< b ||| m) 0

theorem getLsbD_readyMask (j : Nat) (hj : j < 8) : ∀ needs : List Nat, (readyMask needs).getLsbD j = true ↔ j ∈ needs
  | [] => by simp [readyMask]
  | b :: needs => by
    have ih := getLsbD_readyMask j hj needs
    unfold readyMask at ih ⊢
    rw [List.foldr_cons, BitVec.getLsbD_or, Bool.or_eq_true, ih, List.mem_cons, getLsbD_one_shiftLeft b hj, eq_comm]

/-- The bits of a mask are all set. -/
theorem and_readyMask (r : BitVec 8) {needs : List Nat} (hn : ∀ b ∈ needs, b < 8) :
    r &&& readyMask needs = readyMask needs ↔ ∀ b ∈ needs, r.getLsbD b = true := by
  constructor
  · intro h b hb
    have hm := (getLsbD_readyMask b (hn b hb) needs).mpr hb
    rw [← h, BitVec.getLsbD_and, Bool.and_eq_true] at hm
    exact hm.1
  · intro h
    apply BitVec.eq_of_getLsbD_eq
    intro j hj
    rw [BitVec.getLsbD_and]
    by_cases hb : j ∈ needs
    · simp [h j hb]
    · simp [Bool.eq_false_iff.mpr (mt (getLsbD_readyMask j hj needs).mp hb)]

/-- What BRINGUP_FUNCTION_READY does for a function with a bit in READY (R399). -/
theorem exec_bringup {s : State} {fn : ReadyFn} (hfn : ∀ c, fn ≠ .cluster c)
    (hclk : fn = .clock → s.flash.timeMaster = s.flash.deviceId) :
    exec (.bringupFunctionReady fn) s = .next
      (if s.inReset = false ∧ s.ready &&& (readyBits fn).2 = (readyBits fn).2 then { s with ready := s.ready ||| (readyBits fn).1 }
       else s) := by
  show execBringupFunctionReady fn s = _
  unfold execBringupFunctionReady
  by_cases hr : s.inReset = true
  · simp [hr]
  · by_cases hb : s.ready &&& (readyBits fn).2 = (readyBits fn).2
    all_goals cases fn with
    | cluster c => exact absurd rfl (hfn c)
    | clock => simp [hr, hb, hclk rfl]
    | _ => simp [hr, hb]

/-- A cluster has no bit in READY; it becomes ready by itself (R399). -/
theorem exec_bringup_cluster {s : State} {c : Nat} (hr : s.inReset = false) (hc : c < 64) :
    exec (.bringupFunctionReady (.cluster c)) s = .next (s.setCluster c { s.cluster c with ready := true }) := by
  show execBringupFunctionReady (.cluster c) s = _
  simp [execBringupFunctionReady, hr, hc]

/-- A function with bit k, which needs other bits, sets it once they are set, and does nothing before. -/
theorem exec_bringup_bit {s : State} {fn : ReadyFn} {k : Nat} {needs : List Nat} (hfn : ∀ c, fn ≠ .cluster c)
    (hclk : fn = .clock → s.flash.timeMaster = s.flash.deviceId) (hbits : readyBits fn = (1#8 <<< k, readyMask needs))
    (hn : ∀ b ∈ needs, b < 8) :
    (s.inReset = false → (∀ b ∈ needs, s.ready.getLsbD b = true) →
        exec (.bringupFunctionReady fn) s = .next { s with ready := s.ready ||| (1#8 <<< k) }) ∧
      ((∃ b ∈ needs, s.ready.getLsbD b = false) → exec (.bringupFunctionReady fn) s = .next s) := by
  rw [exec_bringup hfn hclk, hbits]
  constructor
  · intro hr hset
    rw [if_pos ⟨hr, (and_readyMask _ hn).mpr hset⟩]
  · rintro ⟨b, hb, hclear⟩
    rw [if_neg]
    rintro ⟨-, hset⟩
    rw [(and_readyMask _ hn).mp hset b hb] at hclear
    cases hclear

/-! ## The trace and the sideband (R395, R401) -/

/-- After POST records the trace clears RUN and sets DONE, and nothing else changes (R395). -/
theorem exec_tracePostEnd {s : State} (hpost : s.trcpost = some 0) (hflag : s.trcflags.getLsbD 2 = false) :
    ∃ t, exec .tracePostEnd s = .next t ∧ t.trcctl.getLsbD 12 = false ∧ t.trcctl.getLsbD 13 = true ∧
      (∀ j, j < 64 → j ≠ 12 → j ≠ 13 → t.trcctl.getLsbD j = s.trcctl.getLsbD j) ∧
      { t with trcctl := s.trcctl, trcpost := s.trcpost } = s := by
  have hended : s.traceEnded = true := by
    unfold State.traceEnded
    rw [hpost, hflag]
    rfl
  have bit (j k : Nat) (hj : j < 64) : (1#64 <<< k).getLsbD j = decide (k = j) :=
    Bool.eq_iff_iff.mpr ((getLsbD_one_shiftLeft k hj).trans decide_eq_true_iff.symm)
  have after (j : Nat) (hj : j < 64) : ((s.trcctl &&& ~~~(1#64 <<< 12)) ||| (1#64 <<< 13)).getLsbD j =
      (s.trcctl.getLsbD j && !decide (12 = j) || decide (13 = j)) := by
    rw [BitVec.getLsbD_or, BitVec.getLsbD_and, BitVec.getLsbD_not, bit j 12 hj, bit j 13 hj, decide_eq_true hj, Bool.true_and]
  refine ⟨_, show execTracePostEnd s = _ from if_pos hended, ?_, ?_, fun j hj h12 h13 => ?_, rfl⟩
  · exact (after 12 (by decide)).trans (by simp)
  · exact (after 13 (by decide)).trans (by simp)
  · exact (after j hj).trans (by simp [h12.symm, h13.symm])

/-- SMB_RESET with 1 < n, or with 0 out of reset, does nothing (R401). -/
theorem exec_smbReset_none {s : State} {n : Nat} (h : 1 < n ∨ (n = 0 ∧ s.inReset = false)) : exec (.smbReset n) s = .next s := by
  show execSmbReset n s = _
  unfold execSmbReset
  rcases h with h | ⟨rfl, hr⟩
  · rw [if_neg (by omega), if_neg (by omega)]
  · simp [hr]

theorem exec_smbReset_hold (s : State) : exec (.smbReset 1) s = .next { s.boot with inReset := true } :=
  show execSmbReset 1 s = _ from if_pos rfl

theorem exec_smbReset_release {s : State} (h : s.inReset = true) : exec (.smbReset 0) s = .next s.boot := by
  show execSmbReset 0 s = _
  simp [execSmbReset, h]

theorem exec_smbPowerLimit (s : State) (n : Nat) :
    exec (.smbPowerLimit (some n)) s = .next { s with powerLimit := if 300 ≤ n ∧ n ≤ 1500 then n else s.powerLimit } := by
  show execSmbPowerLimit (some n) s = _
  unfold execSmbPowerLimit
  by_cases h : 300 ≤ n ∧ n ≤ 1500 <;> simp [h]

theorem exec_smbSensorRead (s : State) (n : Nat) :
    exec (.smbSensorRead n) s = .next { s with sbReply := if n ≤ 10 then bytesLE 4 (s.sensor n) else s.sbReply } := by
  show execSmbSensorRead n s = _
  unfold execSmbSensorRead
  split <;> rfl

theorem exec_smbFlashImage (s : State) (image : Flash) (signed : Bool) :
    exec (.smbFlashImage image signed) s = .next { s with flash := if s.inReset && signed then image else s.flash } := by
  show execSmbFlashImage image signed s = _
  unfold execSmbFlashImage
  split <;> rfl

/-- Settles O59: the lanes of a booted core are those that the flash leaves, READY takes a bit once its needs are set, and each
event of the sideband and the port does what its rule says. -/
theorem board : Obligations.Board := by
  unfold Obligations.Board
  intro s fn image signed n retired boots bit
  have lanes (t : State) (ht : ∀ g, t.core g = s.boot.core g) (g j : Nat) (hg : g < 256) (hj : j < 8) :
      ((t.core g).lanemap.getLsbD j = true ↔ retired g j) ∧
        laneHolder (t.core g).lanepart j = (if (t.core g).lanemap.getLsbD j then 7 else 4) ∧
        { t.core g with lanemap := 0, lanepart := Core.reset.lanepart } = Core.reset := by
    rw [ht, s.core_boot_holder hg hj, s.core_boot_lanemap hg]
    exact ⟨getLsbD_flashRetired s.flash g hj, rfl, s.core_boot_rest hg⟩
  have booted := lanes s.boot fun _ => rfl
  have held := lanes { s.boot with inReset := true } (State.core_inReset s.boot true)
  refine ⟨⟨s.boot, rfl, rfl, rfl, rfl, booted⟩, ⟨{ s.boot with inReset := true }, exec_smbReset_hold s, rfl, rfl, rfl, held⟩,
    fun h => ⟨s.boot, exec_smbReset_release h, rfl, rfl, rfl, booted⟩, exec_smbReset_none,
    ?power, ?flash, ?mem, ?gen, ?ngurid, ?launch, ?trace, ?clock, ?cluster, exec_tracePostEnd, rfl, rfl, exec_smbPowerLimit s n,
    exec_smbSensorRead s n, rfl, exec_smbFlashImage s image signed, rfl, rfl, rfl, rfl⟩
  case clock =>
    rintro rfl hmaster
    exact exec_bringup_bit (needs := []) nofun (fun _ => hmaster) (by decide) (by decide)
  case cluster =>
    rintro c rfl hc hr
    exact exec_bringup_cluster hr hc
  all_goals
    rintro rfl
    exact exec_bringup_bit nofun nofun (by decide) (by decide)

end Sys2Proof.Machine
end

section
/-! PROOFS. What a write of memory leaves alone beside memory itself (R138, R305, R362, R380). -/
namespace Sys2Proof.Machine

/-- A part of the state in which the bytes, their generations and errors, the snapshots, the device counters and the monitors
have no share. -/
def BesideMemory {τ : Type} (p : State → τ) : Prop :=
  ∀ (s : State) (mem : Memory) (bgen : Store (BitVec 2)) (marks : Store (BitVec 4)) (slots : Vector (Option SnapSlot) 3)
    (uncor cor : List Nat) (dvc : Vector W64 16) (fronts : Store Front),
    p { s with mem := mem, bgen := bgen, marks := marks, slots := slots, uncor := uncor, cor := cor, dvc := dvc, fronts := fronts } = p s

section
variable {τ : Type} {p : State → τ} {s t : State}

theorem BesideMemory.splitBatt (hp : BesideMemory p) {sel : SnapSlot → Bool} {o : Option Nat} {b : Nat}
    (h : s.splitBatt sel o b = some t) : p t = p s := by
  have count (u : State) (code : Nat) : p (u.countDevice code 1024) = p u := by
    unfold State.countDevice
    split
    · exact hp u ..
    · rfl
  unfold State.splitBatt at h
  split at h
  · split at h
    · cases h
    · cases h
      rw [count, count]
      exact hp s ..
  · cases h
    rfl

theorem BesideMemory.splitFor (hp : BesideMemory p) {g : BitVec 2} {data : Nat} (h : s.splitFor g data = some t) : p t = p s := by
  unfold State.splitFor at h
  dsimp only at h
  split at h
  · exact hp.splitBatt h
  · obtain ⟨u, hu, hf⟩ := Option.bind_eq_some_iff.mp h
    exact foldl_bind_keeps (P := fun x => p x = p s) (fun _ _ _ hx he => (hp.splitBatt he).trans hx) _ _ _
      (fun x hx => by cases hx; exact hp.splitBatt hu) hf

theorem BesideMemory.storeByte (hp : BesideMemory p) {g : BitVec 2} {pa : Nat} {v : Byte} (h : s.storeByte g pa v = some t) :
    p t = p s := by
  unfold State.storeByte at h
  split at h
  · cases h
    exact hp s ..
  · obtain ⟨u, hu, rfl⟩ := Option.map_eq_some_iff.mp h
    refine (hp _ ..).trans ((foldl_keeps p (fun x k => ?_) _ u).trans (hp.splitFor hu))
    exact hp x ..

theorem BesideMemory.storeBytes (hp : BesideMemory p) {g : BitVec 2} :
    ∀ {bytes : List Byte} {s : State} {pa : Nat}, s.storeBytes g pa bytes = some t → p t = p s
  | [], _, _, h => by cases h; rfl
  | _ :: _, _, _, h => by
    obtain ⟨u, hu, ht⟩ := Option.bind_eq_some_iff.mp h
    exact (hp.storeBytes ht).trans (hp.storeByte hu)

theorem BesideMemory.healRange (hp : BesideMemory p) (s : State) (g : BitVec 2) (pa n : Nat) : p (s.healRange g pa n) = p s := by
  unfold State.healRange State.healWhole
  split
  · rfl
  · exact hp s ..

theorem BesideMemory.touchMonitors (hp : BesideMemory p) (s : State) (who : Option Nat) (line : Nat) :
    p (s.touchMonitors who line) = p s := by
  unfold State.touchMonitors
  split
  · exact hp s ..
  · rfl

/-- A write keeps what has no share in memory, if the marks of the words that the device reads again keep it. -/
theorem BesideMemory.write (hp : BesideMemory p) (hdue : ∀ (s : State) (line : Nat), p (s.markDue line) = p s) {who : Option Nat}
    {g : BitVec 2} {pa : Nat} {bytes : List Byte} (h : s.write who g pa bytes = some t) : p t = p s := by
  obtain ⟨u, hu, rfl⟩ := Option.map_eq_some_iff.mp h
  unfold State.wrote
  rw [foldl_keeps p fun s line => (hdue _ line).trans (hp.touchMonitors s who line), hp.healRange, hp.storeBytes hu]

end

/-! ## The queues and the placed launches -/

theorem State.markDue_placed (s : State) (line : Nat) : (s.markDue line).placed = s.placed := by
  unfold State.markDue
  dsimp only
  split <;> split <;> rfl

theorem State.write_placed {s t : State} {who : Option Nat} {g : BitVec 2} {pa : Nat} {bytes : List Byte}
    (h : s.write who g pa bytes = some t) : t.placed = s.placed :=
  BesideMemory.write (p := State.placed) (fun _ _ _ _ _ _ _ _ _ => rfl) State.markDue_placed h

/-- The records that wait in the queues, in order. -/
def State.waiting (s : State) : List Queued := s.queues.toList.flatMap id

theorem State.queued_eq (s : State) (seq : Nat) : s.queued seq = s.waiting.find? fun q => q.seq = seq := rfl

/-- Changes the waiting records one by one. -/
def State.mapWaiting (s : State) (f : Queued → Queued) : State :=
  { s with queues := s.queues.map fun (l : List Queued) => l.map f }

theorem State.waiting_mapWaiting (s : State) (f : Queued → Queued) : (s.mapWaiting f).waiting = s.waiting.map f := by
  rw [State.waiting, State.mapWaiting, Vector.toList_map]
  simp [State.waiting]

/-- The record with a number after a change that keeps the numbers. -/
theorem State.queued_mapWaiting (s : State) {f : Queued → Queued} (hf : ∀ q, (f q).seq = q.seq) (seq : Nat) :
    (s.mapWaiting f).queued seq = (s.queued seq).map f := by
  rw [State.queued_eq, State.waiting_mapWaiting, List.find?_map, State.queued_eq]
  simp only [Function.comp_def, hf]

/-- No record with a number waits once it has left its queue. -/
theorem State.queued_unqueue (s : State) (seq : Nat) : (s.unqueue seq).queued seq = none := by
  simp [State.queued, State.unqueue]

/-- A record whose after-dependency lies in a line is read again (R305). -/
def Queued.markDue (q : Queued) (line : Nat) : Queued := if q.line = some line then { q with due := true } else q

theorem Queued.markDue_seq (q : Queued) (line : Nat) : (q.markDue line).seq = q.seq := by
  unfold Queued.markDue
  split <;> rfl

/-- A line that is written takes no record out of its queue (R305). -/
theorem State.queued_markDue (s : State) (line seq : Nat) :
    ∃ f : Queued → Queued, (s.markDue line).queued seq = (s.queued seq).map f := by
  unfold State.markDue
  dsimp only
  split
  · have kept := s.queued_mapWaiting (f := fun q => q.markDue line) (fun q => q.markDue_seq line) seq
    refine ⟨fun q => q.markDue line, ?_⟩
    split <;> exact kept
  · refine ⟨id, ?_⟩
    rw [Option.map_id]
    split <;> rfl

theorem State.write_queued_none {s t : State} {who : Option Nat} {g : BitVec 2} {pa : Nat} {bytes : List Byte} {seq : Nat}
    (h : s.write who g pa bytes = some t) (hs : s.queued seq = none) : t.queued seq = none := by
  have same : (t.queued seq = none) = (s.queued seq = none) :=
    BesideMemory.write (p := fun s => s.queued seq = none) (fun _ _ _ _ _ _ _ _ _ => rfl)
      (fun s line => by
        obtain ⟨f, hf⟩ := s.queued_markDue line seq
        rw [hf, Option.map_eq_none_iff]) h
  rw [same]
  exact hs

end Sys2Proof.Machine
end

section
/-! PROOFS. What an access of the device finds, and the read of an after-dependency (R121, R305, R311). -/
namespace Sys2Proof.Machine

/-! ## Accesses on this device -/

/-- The check of an address of another device leaves it as it is (R121, R339). -/
theorem State.check_domain {s : State} {a : Nat} {far : Bool} {aspace : W64} {sup : Bool} {k : Acc} {va : W64} {size pa pa' : Nat}
    {io io' : Bool} (hva : s.checkVa a far aspace sup k va size = .ok (pa, io)) (hd : isDomain pa = true)
    (hdev : deviceOf pa ≠ s.flash.deviceId) (h : s.check a far aspace sup k va size = .ok (pa', io')) : pa' = pa := by
  simp only [isDomain, Bool.and_eq_true, decide_eq_true_eq] at hd
  obtain ⟨hlo, hhi⟩ := hd
  have hsp : isSp pa = false := by simpa [isSp] using hhi
  by_cases hslot : pa / 2 ^ 44 % 2 = 1
  · simp only [State.check, hva, hsp, State.checkPa, hlo, hslot] at h
    cases h
  · by_cases hr : s.routed (deviceOf pa) = true
    · simp only [State.check, hva, hsp, State.checkPa, hlo, hslot, hdev, hr] at h
      cases h
      rfl
    · simp only [State.check, hva, hsp, State.checkPa, hlo, hslot, hdev, hr] at h
      cases h

/-- Bytes of this device are not asked for (R342). -/
theorem State.checkFor_local {s : State} {o : Owner} {a : Nat} {far : Bool} {aspace : W64} {sup : Bool} {k : Acc} {va : W64}
    {size n pa : Nat} {io : Bool} (h : s.check a far aspace sup k va size = .ok (pa, io)) (hd : isDomain pa = false) :
    s.checkFor o a far aspace sup k va size n = .ok (pa, io) := by
  cases hva : s.checkVa a far aspace sup k va size with
  | error c => simp [State.check, hva] at h
  | ok r =>
    obtain ⟨pa', io'⟩ := r
    simp only [State.checkFor, hva]
    split
    · rename_i hcond
      simp only [Bool.and_eq_true, decide_eq_true_eq] at hcond
      obtain ⟨⟨hd', hdev⟩, -⟩ := hcond
      rw [State.check_domain hva hd' hdev h, hd'] at hd
      cases hd
    · exact h

/-- A load of this device whose checks pass finds its bytes in memory (R121). -/
theorem State.findBytes_local {s : State} {o : Owner} {a : Nat} {far : Bool} {aspace : W64} {sup : Bool} {va : W64} {size n pa : Nat}
    (h : s.check a far aspace sup .load va size = .ok (pa, false)) (hd : isDomain pa = false) (hu : s.uecc pa n = false) :
    s.findBytes o a far aspace sup .load va size n = .at_ pa := by
  simp [State.findBytes, State.checkFor_local h hd, hd, hu]

/-! ## The read of an after-dependency (R305) -/

theorem exec_eligibilityRead (s : State) {seq : Nat} {i : Instr} (h : i = .launchEligibilityRead seq ∨ i = .aftdepPollTimer seq) :
    exec i s = .next (s.eligibilityRead seq) := by
  rcases h with rfl | rfl <;> rfl

theorem State.queued_watch (s : State) (seq : Nat) (line : Option Nat) :
    (s.watch seq line).queued seq = (s.queued seq).map fun q => { q with line := line, due := false } := by
  have h := s.queued_mapWaiting (f := fun q => if q.seq = seq then { q with line := line, due := false } else q)
    (fun q => by split <;> rfl) seq
  refine h.trans (Option.map_congr fun q hq => ?_)
  exact if_pos (by simpa using List.find?_some hq)

theorem State.queued_makeEligible (s : State) (seq : Nat) :
    (s.makeEligible seq).queued seq = (s.queued seq).map fun q => { q with eligible := some s.time } := by
  have h := s.queued_mapWaiting (f := fun q => if q.seq = seq then { q with eligible := some s.time } else q)
    (fun q => by split <;> rfl) seq
  refine h.trans (Option.map_congr fun q hq => ?_)
  exact if_pos (by simpa using List.find?_some hq)

/-- The state once the word has been found at an address of this device. -/
def State.watched (s : State) (seq pa : Nat) : State :=
  ((s.dropArrived (.device seq)).watch seq (some (lineOf pa))).noteBytes pa 8 false

theorem State.queued_watched (s : State) (seq pa : Nat) :
    (s.watched seq pa).queued seq = (s.queued seq).map fun q => { q with line := some (pa / 64), due := false } :=
  State.queued_watch (s.dropArrived (.device seq)) seq (some (lineOf pa))

/-- The word that a read finds on this device decides whether its record is eligible. -/
theorem State.eligibilityRead_at {s : State} {q : Queued} {pa : Nat} (hq : s.queued q.seq = some q) (he : q.eligible = none)
    (hread : s.devRead q.seq q.record.aspace q.record.sup q.record.aftaddr 8 = .at_ pa) :
    s.eligibilityRead q.seq = if q.record.aftval.toNat ≤ s.readLE pa 8 then (s.watched q.seq pa).makeEligible q.seq
      else s.watched q.seq pa := by
  unfold State.eligibilityRead
  simp only [hq, he, hread]
  rfl

/-- The record after the read. -/
theorem State.queued_eligibilityRead {s : State} {q : Queued} {pa : Nat} (hq : s.queued q.seq = some q) (he : q.eligible = none)
    (hread : s.devRead q.seq q.record.aspace q.record.sup q.record.aftaddr 8 = .at_ pa) :
    (s.eligibilityRead q.seq).queued q.seq = some { q with
      line := some (pa / 64), due := false, eligible := if q.record.aftval.toNat ≤ s.readLE pa 8 then some s.time else none } := by
  rw [State.eligibilityRead_at hq he hread]
  split
  · rw [State.queued_makeEligible, State.queued_watched, hq]
    rfl
  · rw [State.queued_watched, hq, ← he]
    rfl

/-- A state with the queues, the arrived bytes and the notes of the account of another. -/
def State.readsOf (u s : State) : State := { u with queues := s.queues, arrived := s.arrived, touches := s.touches }

theorem State.readsOf_watched (s u : State) (seq pa : Nat) : (u.watched seq pa).readsOf s = u.readsOf s := rfl

theorem State.readsOf_makeEligible (s u : State) (seq : Nat) : (u.makeEligible seq).readsOf s = u.readsOf s := rfl

/-- What the read leaves unchanged. -/
theorem State.readsOf_eligibilityRead {s : State} {q : Queued} {pa : Nat} (hq : s.queued q.seq = some q) (he : q.eligible = none)
    (hread : s.devRead q.seq q.record.aspace q.record.sup q.record.aftaddr 8 = .at_ pa) :
    (s.eligibilityRead q.seq).readsOf s = s := by
  rw [State.eligibilityRead_at hq he hread]
  split
  · rw [State.readsOf_makeEligible, State.readsOf_watched]
    rfl
  · rw [State.readsOf_watched]
    rfl

/-! ## Counters and the trigger leave the launches alone -/

@[simp] theorem State.countDevice_placed (s : State) (code k : Nat) : (s.countDevice code k).placed = s.placed := by
  unfold State.countDevice
  split <;> rfl

@[simp] theorem State.countDevice_queued (s : State) (code k seq : Nat) : (s.countDevice code k).queued seq = s.queued seq := by
  unfold State.countDevice
  split <;> rfl

@[simp] theorem State.fire_placed (s : State) (src : Nat) : (s.fire src).placed = s.placed := by
  unfold State.fire
  split <;> rfl

@[simp] theorem State.fire_queued (s : State) (src seq : Nat) : (s.fire src).queued seq = s.queued seq := by
  unfold State.fire
  split <;> rfl

/-! ## A launch that fails before placement (R305, R310, R311) -/

/-- The gang fault word changes a placed launch in its own word alone. -/
theorem State.writeGang_placed (s : State) (p : Placed) (w : W64) :
    ∃ g, (s.writeGang p w).placed = (s.setPlaced { p with gang := g }).placed := by
  unfold State.writeGang
  split
  · exact ⟨none, State.countDevice_placed _ _ _⟩
  · split
    · exact ⟨none, rfl⟩
    · split
      · exact ⟨none, rfl⟩
      · split
        · rename_i u hu
          exact ⟨none, (State.fire_placed _ _).trans (congrArg (List.map _) (State.write_placed hu))⟩
        · exact ⟨some w, rfl⟩

theorem State.writeGang_mem {s : State} {p : Placed} (w : W64) (h : p ∈ s.placed) :
    ∃ g, { p with gang := g } ∈ (s.writeGang p w).placed := by
  obtain ⟨g, hg⟩ := s.writeGang_placed p w
  exact ⟨g, hg ▸ List.mem_map.mpr ⟨p, h, if_pos rfl⟩⟩

theorem State.writeGang_queued_none {s : State} (p : Placed) (w : W64) {seq : Nat} (h : s.queued seq = none) :
    (s.writeGang p w).queued seq = none := by
  unfold State.writeGang
  split
  · exact (State.countDevice_queued _ _ _ _).trans h
  · split
    · exact h
    · split
      · exact h
      · split
        · rename_i u hu
          have hkept : u.queued seq = none := State.write_queued_none hu h
          exact (State.fire_queued _ _ _).trans hkept
        · exact h

/-- A launch that fails before placement leaves its queue, and stands among the placed launches without units. -/
theorem State.failUnplaced_queued_placed (s : State) (q : Queued) (c : Nat) :
    (s.failUnplaced q c).queued q.seq = none ∧
      ∃ p ∈ (s.failUnplaced q c).placed, p.seq = q.seq ∧ p.record = q.record ∧ p.members = [] ∧ p.clusters = [] := by
  unfold State.failUnplaced
  refine ⟨State.writeGang_queued_none _ _ (State.queued_unqueue s q.seq), ?_⟩
  dsimp only
  generalize hp : Placed.mk q.seq _ _ _ _ _ _ _ _ _ _ _ = p
  obtain ⟨g, hg⟩ := State.writeGang_mem (s := { s.unqueue q.seq with placed := s.placed ++ [p] })
    (gangWord 0 (BitVec.ofNat 29 c) false true) (List.mem_append_right s.placed (List.mem_singleton_self p))
  subst hp
  exact ⟨_, hg, rfl, rfl, rfl, rfl⟩

theorem State.eligibilityRead_fault {s : State} {q : Queued} {c : Nat} (hq : s.queued q.seq = some q) (he : q.eligible = none)
    (hread : s.devRead q.seq q.record.aspace q.record.sup q.record.aftaddr 8 = .fault c) :
    (s.eligibilityRead q.seq).queued q.seq = none ∧
      ∃ p ∈ (s.eligibilityRead q.seq).placed, p.seq = q.seq ∧ p.record = q.record ∧ p.members = [] ∧ p.clusters = [] := by
  have hfail : s.eligibilityRead q.seq = (s.dropArrived (.device q.seq)).failUnplaced q c := by
    unfold State.eligibilityRead
    simp only [hq, he, hread]
    rfl
  rw [hfail]
  exact State.failUnplaced_queued_placed _ q c

end Sys2Proof.Machine
end

section
/-! PROOFS. The placement of a record and the end of a launch (R25, R302, R307, R310). -/
namespace Sys2Proof.Machine

/-! ## Folds in which each element writes the part of its own key -/

section
variable {σ τ β κ : Type} {f : σ → β → σ} {key : β → κ} {p : σ → τ}

/-- A part of the state that no element of a list writes stays. -/
theorem foldl_other {k : κ} (hother : ∀ s x, key x ≠ k → p (f s x) = p s) :
    ∀ (l : List β) (s : σ), k ∉ l.map key → p (l.foldl f s) = p s
  | [], _, _ => rfl
  | x :: l, s, h => by
    rw [List.map_cons, List.mem_cons, not_or] at h
    exact (foldl_other hother l (f s x) h.2).trans (hother s x (Ne.symm h.1))

/-- A part of the state that an element of a list writes holds what the last one of its key has written. -/
theorem foldl_last {k : κ} {v : τ → β → τ} (hother : ∀ s x, key x ≠ k → p (f s x) = p s)
    (hself : ∀ s x, key x = k → p (f s x) = v (p s) x)
    (hlast : ∀ a x y, v (v a x) y = v a y) :
    ∀ (l : List β) (s : σ), k ∈ l.map key → ∃ x ∈ l, key x = k ∧ p (l.foldl f s) = v (p s) x
  | [], _, h => by simp at h
  | x :: l, s, h => by
    rw [List.foldl_cons]
    by_cases hl : k ∈ l.map key
    · obtain ⟨y, hy, hk, hp⟩ := foldl_last hother hself hlast l (f s x) hl
      refine ⟨y, List.mem_cons_of_mem x hy, hk, hp.trans ?_⟩
      by_cases hx : key x = k
      · rw [hself s x hx, hlast]
      · rw [hother s x hx]
    · have hx : key x = k := by
        rw [List.map_cons, List.mem_cons] at h
        exact (h.resolve_right hl).symm
      exact ⟨x, List.mem_cons_self, hx, (foldl_other hother l (f s x) hl).trans (hself s x hx)⟩

end

/-! ## The units that a record takes (R307) -/

/-- The contexts that a record takes on a cluster are those of the cluster's cores. -/
theorem State.pickCores_lt {s : State} {ign : List Nat} {q : Queued} {a c : Nat} {l : List Nat} (hc : c < 64)
    (h : s.pickCores ign q a c = some l) : ∀ k ∈ l, k < 1024 := by
  unfold State.pickCores at h
  dsimp only at h
  split at h
  · have hl : ∀ {b : Bool} {m : List Nat}, (if b then some m else none) = some l → m = l := by
      intro b m hb
      cases b <;> simp_all
    rw [← hl h]
    refine List.foldlRecOn (motive := fun (st : List Nat × Nat) => ∀ k ∈ st.1, k < 1024) _ _ (by simp) ?_
    intro st hst x hx k hk
    split at hk
    · rcases List.mem_append.mp hk with hk | hk
      · exact hst k hk
      · obtain ⟨hk, -⟩ := List.mem_filter.mp (List.mem_of_mem_take hk)
        obtain ⟨j, hj, rfl⟩ := List.mem_map.mp hk
        rw [List.mem_range] at hj hx
        omega
    · exact hst k hk
  · cases h

/-- The members that a record takes are contexts. -/
theorem State.fits_lt {s : State} {q : Queued} {ign ms cs : List Nat} (h : s.fits q ign = some (ms, cs)) : ∀ k ∈ ms, k < 1024 := by
  unfold State.fits at h
  dsimp only at h
  split at h
  · rw [Option.some_inj] at h
    rw [show ms = (ms, cs).1 from rfl, ← h]
    refine List.foldlRecOn (motive := fun (st : List Nat × List Nat) => ∀ k ∈ st.1, k < 1024) _ _ (by simp) ?_
    intro st hst c hc
    split
    · exact hst
    · split
      · rename_i l hl
        intro k hk
        rcases List.mem_append.mp hk with hk | hk
        · exact hst k hk
        · exact State.pickCores_lt (List.mem_range.mp hc) hl k hk
      · exact hst
  · cases h

/-! ## Placement (R25, R307) -/

/-- The part of the state that the start of an agent does not touch. -/
def State.ledger (s : State) : Vector (List Queued) 8 × List Placed × Option Nat × Memory := (s.queues, s.placed, s.chosen, s.mem)

theorem State.queued_of_ledger {s t : State} (h : t.ledger = s.ledger) (seq : Nat) : t.queued seq = s.queued seq := by
  have hq : t.queues = s.queues := congrArg (·.1) h
  rw [State.queued, hq]
  rfl

/-- A record leaves its queue and stands among the placed launches (R307). -/
def State.enlist (s : State) (q : Queued) (members clusters : List Nat) : State :=
  let p : Placed :=
    { seq := q.seq, record := q.record, eligible := q.eligible.getD s.time, members := members, clusters := clusters,
      fatal := false, gang := none, stopping := false, savePos := 0, saved := none, restoring := none, last := none }
  ({ (s.unqueue q.seq) with placed := s.placed ++ [p], chosen := none }).countDevice 0x48 1

/-- The contexts of a record start. -/
def State.placeContexts (s : State) (r : LaunchRec) (seq : Nat) (members : List Nat) : State :=
  members.zipIdx.foldl (fun (s : State) x => s.placeContext r seq x.1 x.2) s

/-- The drones of a record with a DENTRY start. -/
def State.placeDrones (s : State) (r : LaunchRec) (seq : Nat) (clusters : List Nat) : State :=
  if r.dentry = 0 then s else clusters.zipIdx.foldl (fun (s : State) x => s.placeDrone r seq x.1 x.2) s

/-- The arbiters of the cores of the members write LANEPART (R334). -/
def State.arbitrateAll (s : State) (members : List Nat) : State :=
  ((members.map coreOf).eraseDups).foldl (fun (s : State) g => s.arbitrate g) s

/-- The placement of a record that has not been pre-empted. -/
theorem State.place_eq (s : State) {q : Queued} (ms cs : List Nat) (h : q.saved = none) :
    s.place q ms cs =
      ((((s.enlist q ms cs).placeContexts q.record q.seq ms).placeDrones q.record q.seq cs).arbitrateAll ms) := by
  unfold State.place
  rw [h]
  rfl

/-! The arbiter changes cores alone. -/

theorem State.arbitrateAll_keeps {τ : Type} {p : State → τ} (hp : ∀ (s : State) g c, p (s.setCore g c) = p s) (s : State) (ms : List Nat) :
    p (s.arbitrateAll ms) = p s :=
  foldl_keeps p (fun s g => hp s g _) _ s

/-! Starting contexts. -/

theorem State.placeContext_ledger (s : State) (r : LaunchRec) (seq k m : Nat) : (s.placeContext r seq k m).ledger = s.ledger := rfl

theorem State.placeContext_live (s : State) (r : LaunchRec) (seq k m : Nat) : (s.placeContext r seq k m).live = s.live := rfl

theorem State.placeContexts_ledger (s : State) (r : LaunchRec) (seq : Nat) (ms : List Nat) :
    (s.placeContexts r seq ms).ledger = s.ledger :=
  foldl_keeps State.ledger (fun s (x : Nat × Nat) => s.placeContext_ledger r seq x.1 x.2) _ s

theorem State.placeContexts_live (s : State) (r : LaunchRec) (seq : Nat) (ms : List Nat) :
    (s.placeContexts r seq ms).live = s.live :=
  foldl_keeps State.live (fun s (x : Nat × Nat) => s.placeContext_live r seq x.1 x.2) _ s

theorem State.placeContext_cluster (s : State) (r : LaunchRec) (seq k m c : Nat) :
    (s.placeContext r seq k m).cluster c = s.cluster c := rfl

theorem State.placeContexts_cluster (s : State) (r : LaunchRec) (seq : Nat) (ms : List Nat) (c : Nat) :
    (s.placeContexts r seq ms).cluster c = s.cluster c :=
  foldl_keeps (fun s => s.cluster c) (fun s (x : Nat × Nat) => s.placeContext_cluster r seq x.1 x.2 c) _ s

theorem State.front_placeContext_other (s : State) (r : LaunchRec) (seq k m : Nat) {a : Nat} (h : a ≠ k) :
    (s.placeContext r seq k m).front a = s.front a := by
  rw [State.placeContext, State.setVec_front, State.front_setFront, if_neg h]

/-- An agent that is no member of a record keeps its front. -/
theorem State.front_placeContexts_other (s : State) (r : LaunchRec) (seq : Nat) {ms : List Nat} {a : Nat} (h : a ∉ ms) :
    (s.placeContexts r seq ms).front a = s.front a :=
  foldl_other (key := Prod.fst) (p := fun s => s.front a)
    (fun s x hx => s.front_placeContext_other r seq x.1 x.2 (Ne.symm hx)) _ s (by rwa [List.zipIdx_map_fst])

/-- A context that starts: its front, its vector side, and the live generation, for its place in the launch. -/
def startContext (r : LaunchRec) (seq : Nat) (u : Front × Vec × BitVec 2) (x : Nat × Nat) : Front × Vec × BitVec 2 :=
  (u.1.place Front.reset r r.entry u.2.2 seq x.2, Vec.reset, u.2.2)

/-- A member starts with the values of the record and its place in the launch (R25, R302). -/
theorem State.placeContexts_member (s : State) (r : LaunchRec) (seq : Nat) {ms : List Nat} {k : Nat} (h : k ∈ ms) :
    ∃ m : Nat, ms[m]? = some k ∧ (s.placeContexts r seq ms).front k = (s.front k).place Front.reset r r.entry s.live seq m ∧
      (s.placeContexts r seq ms).vec k = Vec.reset := by
  obtain ⟨⟨k', m⟩, hx, rfl, hp⟩ := foldl_last (k := k) (key := Prod.fst)
    (f := fun (s : State) (x : Nat × Nat) => s.placeContext r seq x.1 x.2)
    (p := fun s => (s.front k, s.vec k, s.live)) (v := startContext r seq)
    (fun s x hx => by
      rw [s.front_placeContext_other r seq x.1 x.2 (Ne.symm hx), State.placeContext, State.vec_setVec, if_neg (Ne.symm hx)]
      rfl)
    (fun s x hx => by
      subst hx
      rw [State.placeContext, State.setVec_front, State.front_setFront_self, State.vec_setVec_self]
      rfl)
    (fun _ _ _ => rfl) ms.zipIdx s (by rwa [List.zipIdx_map_fst])
  obtain ⟨hfront, hvec, -⟩ := Prod.ext_iff.mp hp |>.imp id Prod.ext_iff.mp
  exact ⟨m, List.mk_mem_zipIdx_iff_getElem?.mp hx, hfront, hvec⟩

/-! Starting drones. -/

theorem State.placeDrone_ledger (s : State) (r : LaunchRec) (seq c m : Nat) : (s.placeDrone r seq c m).ledger = s.ledger := rfl

theorem State.placeDrone_vec (s : State) (r : LaunchRec) (seq c m k : Nat) : (s.placeDrone r seq c m).vec k = s.vec k := rfl

theorem State.placeDrones_ledger (s : State) (r : LaunchRec) (seq : Nat) (cs : List Nat) :
    (s.placeDrones r seq cs).ledger = s.ledger := by
  unfold State.placeDrones
  split
  · rfl
  · exact foldl_keeps State.ledger (fun s (x : Nat × Nat) => s.placeDrone_ledger r seq x.1 x.2) _ s

theorem State.placeDrones_vec (s : State) (r : LaunchRec) (seq : Nat) (cs : List Nat) (k : Nat) :
    (s.placeDrones r seq cs).vec k = s.vec k := by
  unfold State.placeDrones
  split
  · rfl
  · exact foldl_keeps (fun s => s.vec k) (fun s (x : Nat × Nat) => s.placeDrone_vec r seq x.1 x.2 k) _ s

theorem droneOf_ne {c d : Nat} (h : c ≠ d) : droneOf c ≠ droneOf d := by
  unfold droneOf
  omega

theorem State.front_placeDrone (s : State) (r : LaunchRec) (seq c m a : Nat) :
    (s.placeDrone r seq c m).front a =
      if a = droneOf c then (s.front a).place Front.resetDrone r r.dentry s.live seq m else s.front a := by
  unfold State.placeDrone
  rw [State.setCluster_front]
  show (s.setFront (droneOf c) _).front a = _
  rw [State.front_setFront]
  split
  · subst_vars
    rfl
  · rfl

/-- An agent that is no drone of a record keeps its front. -/
theorem State.front_placeDrones_other (s : State) (r : LaunchRec) (seq : Nat) {cs : List Nat} {a : Nat}
    (h : r.dentry = 0 ∨ ∀ c ∈ cs, a ≠ droneOf c) : (s.placeDrones r seq cs).front a = s.front a := by
  unfold State.placeDrones
  split
  · rfl
  · rename_i hr
    refine foldl_other (key := fun x : Nat × Nat => droneOf x.1) (p := fun s => s.front a)
      (fun s x hx => (s.front_placeDrone r seq x.1 x.2 a).trans (if_neg (Ne.symm hx))) _ s ?_
    rintro hm
    obtain ⟨x, hx, rfl⟩ := List.mem_map.mp hm
    have hc : x.1 ∈ cs := by
      rw [← List.zipIdx_map_fst 0 cs]
      exact List.mem_map_of_mem hx
    exact h.resolve_left hr x.1 hc rfl

/-- The array of a cluster when its drone is placed (R25, R218). -/
def Cluster.emptied (x : Cluster) (live : BitVec 2) : Cluster :=
  { x with
    fd := Vector.replicate 4 { Slot.reset with gen := live }, ac := Vector.replicate 2 { Tile.reset with gen := live }
    belfull := false, queue := [], mma := none, stalled := false }

/-- A drone that starts: its front, its cluster, and the live generation, for its place in the launch. -/
def startDrone (r : LaunchRec) (seq : Nat) (u : Front × Cluster × BitVec 2) (x : Nat × Nat) : Front × Cluster × BitVec 2 :=
  (u.1.place Front.resetDrone r r.dentry u.2.2 seq x.2, u.2.1.emptied u.2.2, u.2.2)

/-- The drone of a cluster starts with the values of the record, and its array is empty. -/
theorem State.placeDrones_member (s : State) (r : LaunchRec) (seq : Nat) {cs : List Nat} {c : Nat} (hr : r.dentry ≠ 0) (h : c ∈ cs) :
    ∃ m : Nat, cs[m]? = some c ∧
      (s.placeDrones r seq cs).front (droneOf c) = (s.front (droneOf c)).place Front.resetDrone r r.dentry s.live seq m ∧
      (s.placeDrones r seq cs).cluster c = (s.cluster c).emptied s.live := by
  rw [State.placeDrones, if_neg hr]
  obtain ⟨⟨c', m⟩, hx, rfl, hp⟩ := foldl_last (k := c) (key := Prod.fst)
    (f := fun (s : State) (x : Nat × Nat) => s.placeDrone r seq x.1 x.2)
    (p := fun s => (s.front (droneOf c), s.cluster c, s.live)) (v := startDrone r seq)
    (fun s x hx => by
      rw [s.front_placeDrone, if_neg (droneOf_ne (Ne.symm hx)), State.placeDrone, State.cluster_setCluster, if_neg (Ne.symm hx)]
      rfl)
    (fun s x hx => by
      subst hx
      rw [s.front_placeDrone, if_pos rfl, State.placeDrone, State.cluster_setCluster_self]
      rfl)
    (fun _ _ _ => rfl) cs.zipIdx s (by rwa [List.zipIdx_map_fst])
  obtain ⟨hfront, hcluster, -⟩ := Prod.ext_iff.mp hp |>.imp id Prod.ext_iff.mp
  exact ⟨m, List.mk_mem_zipIdx_iff_getElem?.mp hx, hfront, hcluster⟩

theorem Cluster.emptied_fd (x : Cluster) (live : BitVec 2) (j : Nat) (hj : j < 4) : ((x.emptied live).fd.getD j Slot.reset).full = false := by
  simp [Cluster.emptied, Vector.getD, hj, Slot.reset]

theorem Cluster.emptied_ac (x : Cluster) (live : BitVec 2) (j : Nat) (hj : j < 2) : ((x.emptied live).ac.getD j Tile.reset).opened = false := by
  simp [Cluster.emptied, Vector.getD, hj, Tile.reset]

/-! The whole placement. -/

/-- The values of a start are those of R25 and R302. -/
theorem Front.place_eq_startedFront (s : State) (a : Nat) (r : LaunchRec) (entry : W64) (seq m : Nat) :
    (s.front a).place (if isDrone a then Front.resetDrone else Front.reset) r entry s.live seq m = startedFront s a r entry seq m := by
  have hsup : (BitVec.ofBool r.sup).zeroExtend 5 = if r.ctrl.getLsbD 13 then (1 : BitVec 5) else 0 := by
    unfold LaunchRec.sup
    cases r.ctrl.getLsbD 13 <;> rfl
  simp only [Front.place, startedFront, hsup]

theorem isDrone_droneOf (c : Nat) : isDrone (droneOf c) = true := by
  simp [isDrone, droneOf]

@[simp] theorem State.countDevice_front (s : State) (code k a : Nat) : (s.countDevice code k).front a = s.front a := by
  unfold State.countDevice
  split <;> rfl

@[simp] theorem State.countDevice_live (s : State) (code k : Nat) : (s.countDevice code k).live = s.live := by
  unfold State.countDevice
  split <;> rfl

@[simp] theorem State.countDevice_chosen (s : State) (code k : Nat) : (s.countDevice code k).chosen = s.chosen := by
  unfold State.countDevice
  split <;> rfl

@[simp] theorem State.countDevice_cluster (s : State) (code k c : Nat) : (s.countDevice code k).cluster c = s.cluster c := by
  unfold State.countDevice
  split <;> rfl

theorem State.enlist_cluster (s : State) (q : Queued) (ms cs : List Nat) (c : Nat) : (s.enlist q ms cs).cluster c = s.cluster c :=
  State.countDevice_cluster _ _ _ _

theorem State.enlist_front (s : State) (q : Queued) (ms cs : List Nat) (a : Nat) : (s.enlist q ms cs).front a = s.front a :=
  State.countDevice_front _ _ _ _

theorem State.enlist_live (s : State) (q : Queued) (ms cs : List Nat) : (s.enlist q ms cs).live = s.live :=
  State.countDevice_live _ _ _

theorem State.enlist_chosen (s : State) (q : Queued) (ms cs : List Nat) : (s.enlist q ms cs).chosen = none :=
  State.countDevice_chosen _ _ _

theorem State.place_ledger (s : State) {q : Queued} (ms cs : List Nat) (h : q.saved = none) :
    (s.place q ms cs).ledger = (s.enlist q ms cs).ledger := by
  rw [s.place_eq ms cs h, State.arbitrateAll_keeps (p := State.ledger) (fun _ _ _ => rfl), State.placeDrones_ledger, State.placeContexts_ledger]

/-- A record that is placed has left its queue (R307). -/
theorem State.place_queued (s : State) {q : Queued} (ms cs : List Nat) (h : q.saved = none) :
    (s.place q ms cs).queued q.seq = none :=
  (State.queued_of_ledger (s.place_ledger ms cs h) q.seq).trans
    ((State.countDevice_queued _ _ _ _).trans (State.queued_unqueue s q.seq))

/-- A member of a placed record. -/
theorem State.place_member (s : State) {q : Queued} {ms cs : List Nat} (h : q.saved = none) {k : Nat} (hk : k ∈ ms) (hlt : k < 1024) :
    ∃ m : Nat, ms[m]? = some k ∧ (s.place q ms cs).front k = startedFront s k q.record q.record.entry q.seq m ∧
      (s.place q ms cs).vec k = Vec.reset := by
  have hnone : ∀ c ∈ cs, k ≠ droneOf c := fun c _ => by
    unfold droneOf
    omega
  obtain ⟨m, hm, hfront, hvec⟩ := (s.enlist q ms cs).placeContexts_member q.record q.seq hk
  refine ⟨m, hm, ?_, ?_⟩
  · rw [s.place_eq ms cs h, State.arbitrateAll_keeps (p := fun s => s.front k) (fun _ _ _ => rfl),
      State.front_placeDrones_other _ _ _ (.inr hnone), hfront, State.enlist_front, State.enlist_live,
      ← Front.place_eq_startedFront]
    simp [isDrone, Nat.not_le.mpr hlt]
  · rw [s.place_eq ms cs h, State.arbitrateAll_keeps (p := fun s => s.vec k) (fun _ _ _ => rfl), State.placeDrones_vec, hvec]

/-- A drone of a placed record, and its cluster. -/
theorem State.place_drone (s : State) {q : Queued} {ms cs : List Nat} (h : q.saved = none) (hms : ∀ k ∈ ms, k < 1024)
    (hr : q.record.dentry ≠ 0) {c : Nat} (hc : c ∈ cs) :
    (∃ m : Nat, cs[m]? = some c ∧
      (s.place q ms cs).front (droneOf c) = startedFront s (droneOf c) q.record q.record.dentry q.seq m) ∧
      (s.place q ms cs).cluster c = (s.cluster c).emptied s.live := by
  have hnot : droneOf c ∉ ms := fun hm => by
    have := hms _ hm
    unfold droneOf at this
    omega
  have hlive : ((s.enlist q ms cs).placeContexts q.record q.seq ms).live = s.live :=
    (State.placeContexts_live _ _ _ _).trans (s.enlist_live q ms cs)
  obtain ⟨m, hm, hfront, hcluster⟩ := ((s.enlist q ms cs).placeContexts q.record q.seq ms).placeDrones_member q.record q.seq hr hc
  refine ⟨⟨m, hm, ?_⟩, ?_⟩
  · rw [s.place_eq ms cs h, State.arbitrateAll_keeps (p := fun s => s.front (droneOf c)) (fun _ _ _ => rfl), hfront,
      hlive, State.front_placeContexts_other _ _ _ hnot, State.enlist_front, ← Front.place_eq_startedFront,
      isDrone_droneOf, if_pos rfl]
  · rw [s.place_eq ms cs h, State.arbitrateAll_keeps (p := fun s => s.cluster c) (fun _ _ _ => rfl), hcluster, hlive,
      State.placeContexts_cluster, State.enlist_cluster]

/-- Any other agent keeps its front. -/
theorem State.place_other (s : State) {q : Queued} {ms cs : List Nat} (h : q.saved = none) {a : Nat} (hms : a ∉ ms)
    (hcs : q.record.dentry = 0 ∨ ∀ c ∈ cs, a ≠ droneOf c) : (s.place q ms cs).front a = s.front a := by
  rw [s.place_eq ms cs h, State.arbitrateAll_keeps (p := fun s => s.front a) (fun _ _ _ => rfl),
    State.front_placeDrones_other _ _ _ hcs, State.front_placeContexts_other _ _ _ hms, State.enlist_front]

/-- The launch that a placed record becomes. -/
theorem State.place_placed (s : State) {q : Queued} (ms cs : List Nat) (h : q.saved = none) :
    ∃ p : Placed, (s.place q ms cs).placed = s.placed ++ [p] ∧ p.seq = q.seq ∧ p.record = q.record ∧ p.members = ms ∧
      p.clusters = cs ∧ p.fatal = false ∧ p.stopping = false :=
  ⟨_, (congrArg (fun l => l.2.1) (s.place_ledger ms cs h)).trans (State.countDevice_placed _ _ _), rfl, rfl, rfl, rfl, rfl, rfl⟩

theorem State.place_mem (s : State) {q : Queued} (ms cs : List Nat) (h : q.saved = none) : (s.place q ms cs).mem = s.mem :=
  (congrArg (fun l => l.2.2.2) (s.place_ledger ms cs h)).trans (State.countDevice_mem _ _ _)

theorem State.place_chosen (s : State) {q : Queued} (ms cs : List Nat) (h : q.saved = none) : (s.place q ms cs).chosen = none :=
  (congrArg (fun l => l.2.2.1) (s.place_ledger ms cs h)).trans (s.enlist_chosen q ms cs)

/-! ## LAUNCH_PLACE -/

theorem exec_launchPlace (s : State) : exec .launchPlace s = execLaunchPlace s := rfl

theorem exec_launchPlace_none {s : State} (h : s.head = none) : exec .launchPlace s = .next s := by
  rw [exec_launchPlace, execLaunchPlace, h]

theorem exec_launchPlace_waits {s : State} {q : Queued} (hq : s.head = some q) (h : s.fits q [] = none) : exec .launchPlace s = .next s := by
  rw [exec_launchPlace, execLaunchPlace, hq]
  dsimp only
  rw [h]

theorem exec_launchPlace_placed {s : State} {q : Queued} {ms cs : List Nat} (hq : s.head = some q) (h : s.fits q [] = some (ms, cs)) :
    exec .launchPlace s = .next (s.place q ms cs) := by
  rw [exec_launchPlace, execLaunchPlace, hq]
  dsimp only
  rw [h]

/-- A chosen head stays the head (R306). -/
theorem State.head_chosen {s : State} {q : Queued} (hc : s.chosen = some q.seq) (hq : s.queued q.seq = some q) :
    s.head = some q ∧ s.choose = s := by
  have hb : s.chosen.bind s.queued = some q := by rw [hc, Option.bind_some, hq]
  exact ⟨by rw [State.head, hb], by rw [State.choose, hb]; rfl⟩

theorem State.choose_none {s : State} (h : s.chosen = none) : s.choose = { s with chosen := s.best.map (·.seq) } := by
  rw [State.choose, h]
  rfl

end Sys2Proof.Machine
end

section
/-! PROOFS. The end of a launch, the lane arbiter, and the statement about launches (R305 to R314). -/
namespace Sys2Proof.Machine

/-! ## The end of a launch (R310) -/

/-- The front of an agent whose launch has ended. -/
def Front.released (f : Front) : Front :=
  { f with run := .idle, launch := none, preempt := false, stopped := false, frozen := false, freezing := false }

/-- The agents of a launch that ends are released. -/
theorem State.front_endLaunch (s : State) (p : Placed) {a : Nat} (h : a ∈ p.agents) :
    ((s.endLaunch p).front a) = (s.front a).released := by
  obtain ⟨x, -, -, hx⟩ := foldl_last (key := id) (k := a) (f := fun (s : State) b => s.setFront b (s.front b).released)
    (p := fun s => s.front a) (v := fun f _ => f.released)
    (fun s b hb => (s.front_setFront b a _).trans (if_neg (Ne.symm hb)))
    (fun s b hb => by subst hb; exact s.front_setFront_self _ _)
    (fun _ _ _ => rfl) p.agents (s.dropArrived (.device p.seq)) (by rwa [List.map_id])
  exact hx

theorem State.endLaunch_mem (s : State) (p : Placed) : (s.endLaunch p).mem = s.mem :=
  foldl_keeps State.mem (f := fun (s : State) b => s.setFront b (s.front b).released) (fun _ _ => rfl) p.agents
    (s.dropArrived (.device p.seq))

theorem State.endLaunch_placed (s : State) (p : Placed) : ∀ x ∈ (s.endLaunch p).placed, x.seq ≠ p.seq := by
  intro x hx
  exact of_decide_eq_true (List.mem_filter.mp hx).2

/-- A launch has ended (R310): memory is that of a state, no placed launch has its number, and its agents are idle. -/
def LaunchEnded (p : Placed) (u t : State) : Prop :=
  t.mem = u.mem ∧ (∀ x ∈ t.placed, x.seq ≠ p.seq) ∧ ∀ a ∈ p.agents, (t.front a).run = .idle ∧ (t.front a).launch = none

theorem State.launchEnded (s : State) (p : Placed) : LaunchEnded p s (s.endLaunch p) := by
  refine ⟨s.endLaunch_mem p, s.endLaunch_placed p, fun a ha => ?_⟩
  rw [s.front_endLaunch p ha]
  exact ⟨rfl, rfl⟩

theorem exec_launchEnd (s : State) (seq : Nat) : exec (.launchEnd seq) s = execLaunchEnd seq s := rfl

/-- LAUNCH_END waits while an agent runs or the launch is being stopped (R310). -/
theorem exec_launchEnd_waits {s : State} {p : Placed} (hp : s.placedBy p.seq = some p)
    (h : s.allHalted p = false ∨ p.stopping = true) : exec (.launchEnd p.seq) s = .next s := by
  rw [exec_launchEnd, execLaunchEnd, hp]
  rcases h with h | h <;> simp [h]

/-- LAUNCH_END adds to the completion word once every agent has halted and no gang fault word is on its way (R310). -/
theorem exec_launchEnd_adds {s : State} {p : Placed} (hp : s.placedBy p.seq = some p) (hh : s.allHalted p = true)
    (hs : p.stopping = false) (hw : s.devWaits p.seq = false) (hg : p.gang = none) (ha : s.gangAnswer p = none) :
    exec (.launchEnd p.seq) s = .next (s.completionAdd p) := by
  rw [exec_launchEnd, execLaunchEnd, hp]
  simp [hh, hs, hw, hg, ha]

/-- A completion word without an address is lost, and the launch ends (R310). -/
theorem State.completionAdd_lost {s : State} {p : Placed} (h : s.cbTarget p.record 0 = none) :
    LaunchEnded p s (s.completionAdd p) := by
  have hended := (s.countDevice 0x4B 1).launchEnded p
  rw [LaunchEnded, State.countDevice_mem] at hended
  rw [State.completionAdd, h]
  exact hended

/-! The generation of the add is that of the agent that halted last, or the live one (R369). -/

theorem State.lastGen_some (s : State) {p : Placed} {a : Nat} (h : p.last = some a) : s.lastGen p = (s.front a).curgen := by
  rw [State.lastGen, h]
  rfl

theorem State.lastGen_none (s : State) {p : Placed} (h : p.last = none) : s.lastGen p = s.live := by
  rw [State.lastGen, h]
  rfl

/-- The sum in the completion word, modulo 2^64 (R310). -/
theorem completion_sum (n : Nat) (r : LaunchRec) :
    (BitVec.ofNat 64 n + r.cwinc).toNat = (n + (r.ctrl.extractLsb' 32 32).toNat) % 2 ^ 64 := by
  unfold LaunchRec.cwinc
  rw [BitVec.toNat_add, BitVec.toNat_ofNat, BitVec.toNat_setWidth_of_le (by omega), Nat.mod_add_mod]

/-- The add performs on this device, and the launch ends (R310). -/
theorem State.completionAdd_performs {s u : State} {p : Placed} {pa : Nat} (h : s.cbTarget p.record 0 = some pa)
    (hd : isDomain pa = false)
    (hw : s.write none (s.lineGen pa (s.newest (s.lastGen p) (s.genRange pa 8))) pa
      (bytesLE 8 ((s.readLE pa 8 + (p.record.ctrl.extractLsb' 32 32).toNat) % 2 ^ 64)) = some u) :
    LaunchEnded p u (s.completionAdd p) := by
  have hadd : s.completionAdd p = (u.noteBytes pa 8 true).endLaunch p := by
    rw [State.completionAdd, h]
    simp only [hd, completion_sum, hw]
    rfl
  rw [hadd]
  exact (u.noteBytes pa 8 true).launchEnded p

/-! ## The lane arbiter (R313, R314) -/

section
variable {K : Nat → Prop}

/-- A table whose keys have a property keeps it when such a key is set. -/
theorem Store.put_keys {α : Type} {a : Nat} (x : α) (ha : K a) : ∀ {m : Store α}, (∀ p ∈ m, K p.1) → ∀ p ∈ m.put a x, K p.1
  | [], _ => by simpa [Store.put] using ha
  | (k, v) :: m, h => by
    obtain ⟨hk, hm⟩ := List.forall_mem_cons.mp h
    unfold Store.put
    split
    · exact List.forall_mem_cons.mpr ⟨ha, h⟩
    · split
      · exact List.forall_mem_cons.mpr ⟨hk, hm⟩
      · exact List.forall_mem_cons.mpr ⟨hk, Store.put_keys x ha hm⟩

/-- A round gives groups to contexts that have a claim. -/
theorem targetRound_keys {order : List Claim} (ho : ∀ c ∈ order, K c.q) {st : Store Nat × Nat} (h : ∀ p ∈ st.1, K p.1) :
    ∀ p ∈ (targetRound order st).1, K p.1 := by
  refine List.foldlRecOn (motive := fun (st : Store Nat × Nat) => ∀ p ∈ st.1, K p.1) _ _ h ?_
  intro st hst c hc
  split
  · exact Store.put_keys _ (ho c hc) hst
  · exact hst

theorem mem_of_mem_claimOrder {l : List Claim} {c : Claim} (h : c ∈ claimOrder l) : c ∈ l := by
  obtain ⟨_, -, hc⟩ := List.mem_flatMap.mp h
  exact List.mem_of_mem_filter hc

/-- Only contexts that have a claim have a target (R313). -/
theorem arbiterTargets_keys {l : List Claim} (hl : ∀ c ∈ l, K c.q) (n : Nat) : ∀ p ∈ arbiterTargets l n, K p.1 := by
  unfold arbiterTargets
  refine List.foldlRecOn (motive := fun (st : Store Nat × Nat) => ∀ p ∈ st.1, K p.1) _ _ ?_
    (fun st hst _ _ => targetRound_keys (fun c hc => hl c (mem_of_mem_claimOrder hc)) hst)
  exact List.foldlRecOn (motive := fun (t : Store Nat) => ∀ p ∈ t, K p.1) _ _ nofun
    (fun t ht c hc => Store.put_keys _ (hl c hc) ht)

/-- A kept group stays with a context that has a target (R314). -/
theorem keptLanes_holders {t : Store Nat} (ht : ∀ p ∈ t, K p.1) (c : Core) (avail : List Nat) : ∀ x ∈ keptLanes c avail t, K x.2 := by
  intro x hx
  obtain ⟨p, hp, hx⟩ := List.mem_flatMap.mp hx
  obtain ⟨j, -, rfl⟩ := List.mem_map.mp hx
  exact ht p hp

/-- An assigned group goes to a context that has a target (R314). -/
theorem assignLanes_holders {t : Store Nat} (ht : ∀ p ∈ t, K p.1) {kept : List (Nat × Nat)} (hk : ∀ x ∈ kept, K x.2)
    (rest : List Nat) : ∀ x ∈ assignLanes t kept rest, K x.2 := by
  unfold assignLanes
  refine List.foldlRecOn (motive := fun (st : List (Nat × Nat) × List Nat) => ∀ x ∈ st.1, K x.2) _ _ hk ?_
  intro st hst p hp x hx
  rcases List.mem_append.mp hx with hx | hx
  · exact hst x hx
  · obtain ⟨j, -, rfl⟩ := List.mem_map.mp hx
    exact ht p hp

end

/-- The groups that the arbiter gives, each with its context (R314). -/
def arbiterGiven (c : Core) (l : List Claim) : List (Nat × Nat) :=
  let avail := (List.range 8).filter fun j => !c.lanemap.getLsbD j && laneHolder c.lanepart j ≠ 5
  let t := arbiterTargets l avail.length
  let kept := keptLanes c avail t
  assignLanes t kept (avail.filter fun j => !(kept.any fun x => x.1 = j))

/-- The holder that the arbiter writes for a group (R314). -/
def arbiterHolder (c : Core) (l : List Claim) (j : Nat) : Nat :=
  if c.lanemap.getLsbD j then 7
  else if laneHolder c.lanepart j = 5 then 5
  else (((arbiterGiven c l).find? fun x => x.1 = j).map (·.2)).getD 4

theorem laneHolder_arbiterLanepart (c : Core) (l : List Claim) {j : Nat} (hj : j < 8) :
    laneHolder (arbiterLanepart c l) j = arbiterHolder c l j % 8 := by
  have h := laneHolder_foldl_setHolder (fun _ => True) (arbiterHolder c l) hj (List.range 8) 0
  simp only [List.mem_range, hj, and_self, if_true] at h
  exact h

/-- A claim is one of a context that is placed on the core. -/
theorem State.claims_placedOn (s : State) (g : Nat) : ∀ c ∈ s.claims g, c.q ∈ s.placedOn g := by
  intro c hc
  obtain ⟨q, hq, rfl⟩ := List.mem_map.mp hc
  exact hq

theorem State.placedOn_lt {s : State} {g q : Nat} (h : q ∈ s.placedOn g) : q < 4 :=
  List.mem_range.mp (List.mem_of_mem_filter h)

/-- A group that is neither retired nor parked is free or goes to a context that is placed on the core (R314). -/
theorem State.arbiterHolder_cases (s : State) (g : Nat) {j : Nat} (hr : (s.core g).lanemap.getLsbD j = false)
    (hp : laneHolder (s.core g).lanepart j ≠ 5) :
    arbiterHolder (s.core g) (s.claims g) j = 4 ∨ arbiterHolder (s.core g) (s.claims g) j ∈ s.placedOn g := by
  have given : ∀ x ∈ arbiterGiven (s.core g) (s.claims g), x.2 ∈ s.placedOn g :=
    assignLanes_holders (K := (· ∈ s.placedOn g)) (arbiterTargets_keys (s.claims_placedOn g) _)
      (keptLanes_holders (arbiterTargets_keys (s.claims_placedOn g) _) _ _) _
  unfold arbiterHolder
  rw [hr, if_neg Bool.false_ne_true, if_neg hp]
  cases hf : (arbiterGiven (s.core g) (s.claims g)).find? fun x => x.1 = j with
  | none => exact .inl rfl
  | some x => exact .inr (given x (List.mem_of_find?_eq_some hf))

/-- The core whose holders the arbiter has recomputed, and no other (R313). -/
theorem State.arbitrate_onlyCore (s : State) (g : Nat) : s.OnlyCore (s.arbitrate g) g :=
  ⟨fun h hh => (s.core_setCore g h _).trans (if_neg hh), rfl⟩

theorem State.core_arbitrate (s : State) (g : Nat) :
    (s.arbitrate g).core g = { s.core g with lanepart := arbiterLanepart (s.core g) (s.claims g), arb := false } :=
  s.core_setCore_self g _

/-- The holders that the arbiter leaves (R314). -/
theorem State.arbitrate_holders (s : State) (g : Nat) {j : Nat} (hj : j < 8) :
    ((s.core g).lanemap.getLsbD j = true → laneHolder ((s.arbitrate g).core g).lanepart j = 7) ∧
      ((s.core g).lanemap.getLsbD j = false → laneHolder (s.core g).lanepart j = 5 →
        laneHolder ((s.arbitrate g).core g).lanepart j = 5) ∧
      ((s.core g).lanemap.getLsbD j = false → laneHolder (s.core g).lanepart j ≠ 5 →
        laneHolder ((s.arbitrate g).core g).lanepart j = 4 ∨ laneHolder ((s.arbitrate g).core g).lanepart j ∈ s.placedOn g) := by
  rw [s.core_arbitrate]
  dsimp only
  rw [laneHolder_arbiterLanepart _ _ hj]
  refine ⟨fun hr => ?_, fun hr hp => ?_, fun hr hp => ?_⟩
  · simp [arbiterHolder, hr]
  · simp [arbiterHolder, hr, hp]
  · rcases s.arbiterHolder_cases g hr hp with h | h
    · exact .inl (by rw [h])
    · rw [Nat.mod_eq_of_lt (by have := State.placedOn_lt h; omega)]
      exact .inr h

theorem exec_laneArbiterRecompute (s : State) (g : Nat) :
    exec (.laneArbiterRecompute g) s = .next (if (s.core g).arb then s.arbitrate g else s) := rfl

/-! ## The statement -/

/-- Settles O55: a read decides about its record or fails it; placement writes each unit by its last start; a launch ends in one
write and releases its agents; and the arbiter gives groups only to contexts that have a claim. -/
theorem launches : Obligations.Launches := by
  unfold Obligations.Launches
  refine ⟨fun s q i hq he hi => ⟨fun pa hcheck hd hu => ?_, fun c hc => ?_⟩, fun s => exec_launchPlace_none, fun s q => State.head_chosen,
    fun s => State.choose_none, fun s q hq => ⟨exec_launchPlace_waits hq, fun ms cs hfits hsaved => ?_⟩,
    fun s p hp => ⟨exec_launchEnd_waits hp, fun hh hs hw hg ha => ⟨fun hcb => ?_, fun pa u hcb hd hwrite => ?_⟩⟩,
    fun s g => ⟨fun harb => ?_, fun harb => ?_⟩⟩
  · have hread : s.devRead q.seq q.record.aspace q.record.sup q.record.aftaddr 8 = .at_ pa := State.findBytes_local hcheck hd hu
    exact ⟨_, exec_eligibilityRead s hi, State.readsOf_eligibilityRead hq he hread, State.queued_eligibilityRead hq he hread⟩
  · exact ⟨_, exec_eligibilityRead s hi, State.eligibilityRead_fault hq he hc⟩
  · have hms := State.fits_lt hfits
    refine ⟨_, exec_launchPlace_placed hq hfits, fun k hk => s.place_member hsaved hk (hms k hk), fun hr c hc => ?_,
      fun a => s.place_other hsaved, s.place_queued ms cs hsaved, s.place_placed ms cs hsaved, s.place_mem ms cs hsaved,
      s.place_chosen ms cs hsaved⟩
    obtain ⟨hfront, hcluster⟩ := s.place_drone hsaved hms hr hc
    rw [hcluster]
    exact ⟨hfront, rfl, rfl, Cluster.emptied_fd _ _, Cluster.emptied_ac _ _⟩
  · exact ⟨_, exec_launchEnd_adds hp hh hs hw hg ha, State.completionAdd_lost hcb⟩
  · refine ⟨_, exec_launchEnd_adds hp hh hs hw hg ha, State.completionAdd_performs hcb hd ?_⟩
    cases hl : p.last with
    | some a => rw [hl] at hwrite; rw [s.lastGen_some hl]; exact hwrite
    | none => rw [hl] at hwrite; rw [s.lastGen_none hl]; exact hwrite
  · rw [exec_laneArbiterRecompute, harb]
    rfl
  · exact ⟨_, by rw [exec_laneArbiterRecompute, harb]; rfl, s.arbitrate_onlyCore g, s.core_arbitrate g,
      fun j hj => s.arbitrate_holders g hj⟩

end Sys2Proof.Machine
end
section
/-! PROOFS. Exact values as rational numbers: rounding, and the arithmetic of values (R32 to R43, R46, R403). -/
namespace Sys2Proof.Machine

/-! ## Rounding (R39) -/

theorem rounded_intCast (rm : Nat) (n : ℤ) : rounded rm (n : ℚ) = n := by simp [rounded]

theorem rounded_eq_floor_or (rm : Nat) (x : ℚ) : rounded rm x = ⌊x⌋ ∨ (rounded rm x = ⌊x⌋ + 1 ∧ x ≠ ⌊x⌋) := by
  by_cases hd : x - ⌊x⌋ = 0
  · simp [rounded, hd]
  · have hx : x ≠ ⌊x⌋ := fun h => hd (by linarith)
    have pick (p : Prop) [Decidable p] (a b : ℤ) (ha : a = ⌊x⌋ ∨ a = ⌊x⌋ + 1) (hb : b = ⌊x⌋ ∨ b = ⌊x⌋ + 1) :
        (if p then a else b) = ⌊x⌋ ∨ (if p then a else b) = ⌊x⌋ + 1 := by split <;> assumption
    suffices rounded rm x = ⌊x⌋ ∨ rounded rm x = ⌊x⌋ + 1 from this.imp_right fun h => ⟨h, hx⟩
    simp only [rounded, hd, if_false]
    split <;> simp only [pick, true_or, or_true]

/-- Rounding passes no integer. -/
theorem le_rounded {rm : Nat} {x : ℚ} {n : ℤ} (h : (n : ℚ) ≤ x) : n ≤ rounded rm x := by
  have := Int.le_floor.mpr h
  rcases rounded_eq_floor_or rm x with hr | ⟨hr, _⟩ <;> omega

theorem rounded_le {rm : Nat} {x : ℚ} {n : ℤ} (h : x ≤ n) : rounded rm x ≤ n := by
  rcases rounded_eq_floor_or rm x with hr | ⟨hr, hx⟩
  · have : ⌊x⌋ ≤ n := by exact_mod_cast (Int.floor_le x).trans h
    omega
  · have hlt : ((⌊x⌋ : ℤ) : ℚ) < x := lt_of_le_of_ne (Int.floor_le x) hx.symm
    have : ⌊x⌋ < n := by exact_mod_cast hlt.trans_le h
    omega

theorem two_zpow_pos (k : ℤ) : (0 : ℚ) < 2 ^ k := zpow_pos (by norm_num) k

/-- A power of two whose exponent is a natural number. -/
theorem two_zpow_toNat {k : ℤ} (h : 0 ≤ k) : (2 : ℚ) ^ k = ((2 ^ k.toNat : Nat) : ℚ) := by
  conv_lhs => rw [← Int.toNat_of_nonneg h]
  rw [zpow_natCast]
  push_cast
  rfl

theorem sub_floor_div (m : ℤ) {n : Nat} (hn : 0 < n) : (m : ℚ) / n - ⌊(m : ℚ) / n⌋ = ((m % n : ℤ) : ℚ) / n := by
  have hn' : (0 : ℚ) < n := by exact_mod_cast hn
  rw [Rat.floor_intCast_div_natCast, div_sub' hn'.ne', div_left_inj' hn'.ne', Int.emod_def]
  push_cast
  ring

/-- The choice between the two neighbours of m / 2H, by the remainder of m (R39). -/
theorem rounded_div (rm : Nat) (m : ℤ) {H : Nat} (hH : 0 < H) (hr : m % (2 * H : Nat) ≠ 0) :
    rounded rm ((m : ℚ) / (2 * H : Nat)) =
      let lo := m / (2 * H : Nat)
      let r := m % (2 * H : Nat)
      match rm with
      | 1 => if m < 0 then lo + 1 else lo
      | 2 => lo
      | 3 => lo + 1
      | 4 => if r < H ∨ (r = H ∧ m < 0) then lo else lo + 1
      | 5 => if lo % 2 = 1 then lo else lo + 1
      | _ => if r < H ∨ (r = H ∧ lo % 2 = 0) then lo else lo + 1 := by
  have hHq : (0 : ℚ) < H := by exact_mod_cast hH
  have hN : ((2 * H : Nat) : ℚ) = 2 * H := by push_cast; rfl
  have hp : (0 : ℚ) < (2 * H : Nat) := by rw [hN]; positivity
  have hd := sub_floor_div m (n := 2 * H) (by omega)
  have hfl : ⌊(m : ℚ) / (2 * H : Nat)⌋ = m / (2 * H : Nat) := Rat.floor_intCast_div_natCast m _
  rw [hfl] at hd
  have d0 : (m : ℚ) / (2 * H : Nat) - (m / (2 * H : Nat) : ℤ) ≠ 0 := by
    rw [hd]
    exact div_ne_zero (by exact_mod_cast hr) hp.ne'
  have dlt : (m : ℚ) / (2 * H : Nat) - (m / (2 * H : Nat) : ℤ) < 1 / 2 ↔ m % (2 * H : Nat) < H := by
    rw [hd, div_lt_iff₀ hp, hN, show (1 / 2 : ℚ) * (2 * H) = ((H : ℤ) : ℚ) by push_cast; ring, Int.cast_lt]
  have deq : (m : ℚ) / (2 * H : Nat) - (m / (2 * H : Nat) : ℤ) = 1 / 2 ↔ m % (2 * H : Nat) = H := by
    rw [hd, div_eq_iff hp.ne', hN, show (1 / 2 : ℚ) * (2 * H) = ((H : ℤ) : ℚ) by push_cast; ring, Int.cast_inj]
  have xneg : (m : ℚ) / (2 * H : Nat) < 0 ↔ m < 0 := by rw [div_lt_iff₀ hp, zero_mul, Int.cast_lt_zero]
  simp only [rounded, hfl, d0, if_false, dlt, deq, xneg] <;> rfl

/-- The model's rounding on integers is the rounding of the rational number, inexact where the two differ. -/
theorem roundTo_eq (rm : Nat) (g m e : ℤ) {x : ℚ} (hx : x = m * 2 ^ e / 2 ^ g) :
    roundTo rm g m e = (rounded rm x, decide ((rounded rm x : ℚ) ≠ x)) := by
  have two0 : (2 : ℚ) ≠ 0 := by norm_num
  by_cases hge : g ≤ e
  · have hint : x = ((m * (2 ^ (e - g).toNat : Nat) : ℤ) : ℚ) := by
      rw [hx, mul_div_assoc, ← zpow_sub₀ two0, two_zpow_toNat (by omega)]
      push_cast
      rfl
    rw [hint, rounded_intCast]
    simp [roundTo, hge]
  · obtain ⟨k, hk⟩ : ∃ k : Nat, (g - e).toNat = k + 1 := ⟨(g - e).toNat - 1, by omega⟩
    have hpow : 2 ^ (k + 1) = 2 * 2 ^ k := by ring
    have hdiv : x = (m : ℚ) / (2 * 2 ^ k : Nat) := by
      have h2 : (2 : ℚ) ^ g = 2 ^ e * (2 * 2 ^ k : Nat) := by
        rw [← hpow, ← hk, ← two_zpow_toNat (by omega), ← zpow_add₀ two0]
        congr 1
        omega
      rw [hx, h2, mul_comm (m : ℚ), mul_div_mul_left _ _ (two_zpow_pos e).ne']
    have hH : 0 < 2 ^ k := by positivity
    simp only [roundTo, hge, if_false, hk, floorShift, Nat.add_sub_cancel, hpow]
    generalize 2 ^ k = H at *
    by_cases hr : m % (2 * H : Nat) = 0
    · have hlo : x = ((m / (2 * H : Nat) : ℤ) : ℚ) := by
        rw [hdiv, Int.cast_div (Int.dvd_of_emod_eq_zero hr) (by positivity)]
        rfl
      simp only [hr, if_true, hlo, rounded_intCast, ne_eq, not_true, decide_false]
    · have hne : ∀ n : ℤ, (n : ℚ) ≠ x := by
        intro n hn
        refine hr (Int.emod_eq_zero_of_dvd ⟨n, ?_⟩)
        have : (m : ℚ) = (2 * H : Nat) * n := by rw [hn, hdiv]; field_simp
        exact_mod_cast this
      simp only [hr, if_false, hne, ne_eq, not_false_eq_true, decide_true, Prod.mk.injEq, and_true]
      rw [hdiv, rounded_div rm m hH hr]
      generalize m / (2 * H : Nat) = lo
      generalize m % (2 * H : Nat) = r
      rcases rm with _ | _ | _ | _ | _ | _ | rm <;> grind

end Sys2Proof.Machine
end
section
namespace Sys2Proof.Machine

/-! ## Flags -/

theorem Flags.when_decide (p : Prop) [Decidable p] (f : Flags) : Flags.when (decide p) f = flagIf p f := by
  simp [Flags.when, flagIf]

/-! ## Values that stand for rational numbers -/

/-- A value that is not a finite value of significand 0. -/
def Val.Normal (v : Val) : Prop := ∀ e, v ≠ .fin 0 e

theorem Val.normal_fin {m e : ℤ} : (Val.fin m e).Normal ↔ m ≠ 0 := by
  constructor
  · rintro h rfl
    exact h e rfl
  · rintro h e' ⟨⟩
    exact h rfl

theorem Val.normal_nan (s : Bool) : (Val.nan s).Normal := nofun
theorem Val.normal_inf (s : Bool) : (Val.inf s).Normal := nofun
theorem Val.normal_zero (s : Bool) : (Val.zero s).Normal := nofun

/-- A value that is a zero or finite. -/
def Val.Finite (v : Val) : Prop := v.isNan = false ∧ v.isInf = false

theorem Val.rat_fin (m e : ℤ) : (Val.fin m e).rat = m * 2 ^ e := rfl
@[simp] theorem Val.rat_zero (s : Bool) : (Val.zero s).rat = 0 := rfl

theorem Val.rat_fin_ne {m e : ℤ} (h : m ≠ 0) : (Val.fin m e).rat ≠ 0 :=
  mul_ne_zero (by exact_mod_cast h) (two_zpow_pos e).ne'

theorem Val.rat_fin_neg {m e : ℤ} : (Val.fin m e).rat < 0 ↔ m < 0 := by
  rw [rat_fin, mul_neg_iff]
  have := two_zpow_pos e
  simp [this, this.not_gt]

theorem Val.stands_fin {m e : ℤ} (h : m ≠ 0) : Stands (.fin m e) (m * 2 ^ e) :=
  ⟨fun h0 => absurd h0 (rat_fin_ne h), fun _ => ⟨m, e, rfl, rfl⟩⟩

theorem Val.stands_mk (m e : ℤ) : Stands (Val.mk m e) (m * 2 ^ e) := by
  unfold Val.mk
  split
  · next h => exact ⟨fun _ => rfl, fun hx => absurd (by simp [h]) hx⟩
  · next h => exact Val.stands_fin h

theorem Val.stands_normal {v : Val} {x : ℚ} (h : Stands v x) : v.Normal := by
  by_cases hx : x = 0
  · rw [h.1 hx]
    exact normal_zero _
  · obtain ⟨m, e, rfl, hr⟩ := h.2 hx
    rw [normal_fin]
    rintro rfl
    exact hx (by rw [← hr]; simp [rat_fin])

theorem Val.stands_rat {v : Val} {x : ℚ} (h : Stands v x) : v.rat = x := by
  by_cases hx : x = 0
  · rw [h.1 hx, hx]
    rfl
  · obtain ⟨m, e, rfl, hr⟩ := h.2 hx
    exact hr

theorem Val.stands_finite {v : Val} {x : ℚ} (h : Stands v x) : v.Finite := by
  by_cases hx : x = 0
  · rw [h.1 hx]
    exact ⟨rfl, rfl⟩
  · obtain ⟨m, e, rfl, -⟩ := h.2 hx
    exact ⟨rfl, rfl⟩

/-- A finite value of another sign of zero stands for its number in the encoding to a grid. -/
theorem Val.finite_cases {v : Val} (hf : v.Finite) (hn : v.Normal) : (∃ s, v = .zero s) ∨ ∃ m e, v = .fin m e ∧ m ≠ 0 := by
  obtain ⟨h1, h2⟩ := hf
  cases v with
  | nan s => simp [isNan] at h1
  | inf s => simp [isInf] at h2
  | zero s => exact .inl ⟨s, rfl⟩
  | fin m e => exact .inr ⟨m, e, rfl, normal_fin.mp hn⟩

/-! ## Grids: integer, fixed and angle tags (R32 to R34, R42) -/

theorem gridBits_eq (t : Tag) : gridBits t = t.frac := by cases t <;> rfl

theorem Tag.saturate_eq (t : Tag) (v : ℤ) :
    t.saturate v = (max (intLo t) (min (intHi t) v), flagIf (max (intLo t) (min (intHi t) v) ≠ v) 32) := by
  have hle : intLo t ≤ intHi t := by cases t <;> decide
  show (if v < intLo t then (intLo t, Flags.sa) else if intHi t < v then (intHi t, Flags.sa) else (v, Flags.none)) = _
  split
  · next h =>
    have : max (intLo t) (min (intHi t) v) = intLo t := by omega
    rw [this, flagIf, if_pos (by omega)]
    rfl
  · split
    · next h1 h2 =>
      have : max (intLo t) (min (intHi t) v) = intHi t := by omega
      rw [this, flagIf, if_pos (by omega)]
      rfl
    · next h1 h2 =>
      have : max (intLo t) (min (intHi t) v) = v := by omega
      rw [this, flagIf, if_neg (by simp)]
      rfl

/-- What the narrowing of R33 keeps of an integer count of a grid. -/
def gridCount (vt : VType) (t : Tag) (n : ℤ) : ℤ :=
  if t.cls = .fixed ∨ (t.cls = .integer ∧ vt.getLsbD 19 = true) then max (intLo t) (min (intHi t) n) else n

theorem narrow_eq (vt : VType) (t : Tag) (n : ℤ) :
    narrow vt t n = (residue t (gridCount vt t n), flagIf (gridCount vt t n ≠ n) 32) := by
  have wraps : (wrapN t.width n, Flags.none) = (residue t n, flagIf (n ≠ n) 32) := by rw [flagIf, if_neg (by simp)]; rfl
  have hsat : vt.sat = vt.getLsbD 19 := rfl
  unfold narrow gridCount
  rw [Tag.saturate_eq, hsat]
  cases t.cls with
  | fixed => rfl
  | integer => cases vt.getLsbD 19 with
    | true => rfl
    | false => exact wraps
  | _ => exact wraps

theorem narrow_zero {vt : VType} {t : Tag} : narrow vt t 0 = (0, Flags.none) := by
  have h : gridCount vt t 0 = 0 := by
    have : max (intLo t) (min (intHi t) 0) = 0 := by cases t <;> decide
    rw [gridCount, this, ite_self]
  rw [narrow_eq, h, flagIf, if_neg (by simp)]
  simp [residue, Flags.none]

/-- The model's rounding to the grid of a tag, in units of that grid. -/
theorem roundTo_grid (rm : Nat) (t : Tag) (m e : ℤ) :
    roundTo rm (-(t.frac : ℤ)) m e = (rounded rm ((Val.fin m e).rat * 2 ^ gridBits t),
      decide ((rounded rm ((Val.fin m e).rat * 2 ^ gridBits t) : ℚ) ≠ (Val.fin m e).rat * 2 ^ gridBits t)) := by
  refine roundTo_eq rm _ m e ?_
  rw [gridBits_eq, zpow_neg, div_inv_eq_mul, zpow_natCast]
  rfl

theorem encode_grid_fin {vt : VType} {t : Tag} (ht : t.fmt = none) (m e : ℤ) :
    GridWritten vt t (Val.fin m e).rat (encode vt t (.fin m e)) := by
  unfold encode
  rw [ht]
  dsimp only
  rw [roundTo_grid, narrow_eq, Flags.when_decide]
  rfl

/-- A finite value on the grid of a tag is written as the narrowing of its count (R33). -/
theorem encode_grid_int {vt : VType} {t : Tag} (ht : t.fmt = none) {v : Val} (hf : v.Finite) {n : ℤ}
    (h : v.rat * 2 ^ gridBits t = n) : encode vt t v = narrow vt t n := by
  unfold encode
  rw [ht]
  cases v with
  | nan s => exact absurd hf.1 (by simp [Val.isNan])
  | inf s => exact absurd hf.2 (by simp [Val.isInf])
  | zero s =>
    have : n = 0 := by simpa using h.symm
    rw [this, narrow_zero]
  | fin m e =>
    dsimp only
    rw [roundTo_grid, h, rounded_intCast, Flags.when_decide, flagIf, if_neg (by simp)]
    simp

theorem encodeR42_converted (vt : VType) (t : Tag) (v : Val) : GridConverted vt t v (encodeR42 vt t v) := by
  unfold encodeR42 GridConverted
  cases v with
  | nan s => rfl
  | inf s => rfl
  | zero s =>
    have h0 : intLo t ≤ 0 ∧ 0 ≤ intHi t := by cases t <;> decide
    have := rounded_intCast (rmOf vt) 0
    push_cast at this
    simp [this, h0, residue, flagIf, Flags.none]
  | fin m e =>
    dsimp only
    rw [roundTo_grid, Flags.when_decide]
    rw [show t.lo = intLo t from rfl, show t.hi = intHi t from rfl, show vt.rm = rmOf vt from rfl]
    dsimp only
    generalize rounded (rmOf vt) ((Val.fin m e).rat * 2 ^ gridBits t) = n
    by_cases hlo : n < intLo t
    · have hn : max (intLo t) (min (intHi t) n) = intLo t := by omega
      rw [if_neg (by omega), if_pos hlo, hn]
      rfl
    · by_cases hhi : intHi t < n
      · have hle : intLo t ≤ intHi t := by cases t <;> decide
        have hn : max (intLo t) (min (intHi t) n) = intHi t := by omega
        rw [if_neg (by omega), if_neg hlo, if_pos hhi, hn]
        rfl
      · rw [if_pos (by omega), if_neg hlo, if_neg hhi]
        rfl

end Sys2Proof.Machine
end
section
/-! PROOFS. The float formats: what a code is read as, and how a value is written (R35 to R37, R39 to R41, R43). -/
namespace Sys2Proof.Machine

/-! ## The table of R35 -/

/-- A format of the model and a row of the table of R35 that say the same. -/
structure FloatFmt.Matches (f : FloatFmt) (r : FloatRow) : Prop where
  eb : f.ebits = r.eb
  p : f.mbits = r.p
  bias : f.bias = r.bias
  p_pos : 1 ≤ r.p
  max : f.maxCode = r.maxCode
  max_pos : 0 < r.maxCode
  max_lt : r.maxCode < 2 ^ (r.eb + r.p)
  maxValue : r.maxValue = r.rat r.maxCode
  inf : r.inf = if f.ieee then some f.infCode else none
  nan : r.nan = if f.nanCode then some f.canonNan else none
  inf_next : f.ieee = true → f.infCode = r.maxCode + 1
  nan_next : f.ieee = false → f.nanCode = true → r.maxCode + 2 = 2 ^ (r.eb + r.p)
  nan_none : f.nanCode = false → r.maxCode + 1 = 2 ^ (r.eb + r.p)
  nan_ieee : f.ieee = true → f.nanCode = true

/-- Every float tag has its row (R35). -/
theorem Tag.fmt_floatRow (t : Tag) :
    (t.fmt = none ∧ floatRow t = none) ∨ ∃ f r, t.fmt = some f ∧ floatRow t = some r ∧ f.Matches r := by
  have row {f r} (hf : t.fmt = some f) (hr : floatRow t = some r) (h : f.Matches r) :
      (t.fmt = none ∧ floatRow t = none) ∨ ∃ f r, t.fmt = some f ∧ floatRow t = some r ∧ f.Matches r := .inr ⟨f, r, hf, hr, h⟩
  cases t
  case fp32 | fp16 | bf16 | e5m2 | e4m3 | e3m2 | e2m3 | e2m1 =>
    refine row rfl rfl ⟨rfl, rfl, rfl, by decide, by decide, by decide, by decide, ?_, rfl, rfl, by decide, by decide, by decide, by decide⟩
    norm_num [FloatRow.rat]
  all_goals exact .inl ⟨rfl, rfl⟩

theorem Tag.fmt_of_floatRow {t : Tag} {r : FloatRow} (h : floatRow t = some r) : ∃ f, t.fmt = some f ∧ f.Matches r := by
  obtain ⟨-, hr⟩ | ⟨f, r', hf, hr, hm⟩ := t.fmt_floatRow
  · rw [hr] at h
    cases h
  · rw [hr] at h
    cases h
    exact ⟨f, hf, hm⟩

theorem Tag.fmt_none_iff (t : Tag) : t.fmt = none ↔ floatRow t = none := by
  obtain ⟨hf, hr⟩ | ⟨f, r, hf, hr, -⟩ := t.fmt_floatRow <;> simp [hf, hr]

end Sys2Proof.Machine
end

section
/-! PROOFS. The magnitudes of the rows of R35: codes without a sign. -/
open Sys2Proof.Machine

/-- The value of an unsigned code, with no bound on its exponent. -/
def FloatRow.mag (r : FloatRow) (c : Nat) : ℚ :=
  if c / 2 ^ r.p = 0 then (2 : ℚ) ^ (1 - r.bias) * ((c % 2 ^ r.p : Nat) / 2 ^ r.p)
  else (2 : ℚ) ^ (((c / 2 ^ r.p : Nat) : ℤ) - r.bias) * (1 + (c % 2 ^ r.p : Nat) / 2 ^ r.p)

/-- The fields of a code are those of its magnitude. -/
theorem FloatRow.fields (r : FloatRow) (c : Nat) :
    c / 2 ^ r.p % 2 ^ r.eb = c % 2 ^ (r.eb + r.p) / 2 ^ r.p ∧ c % 2 ^ r.p = c % 2 ^ (r.eb + r.p) % 2 ^ r.p := by
  rw [Nat.add_comm, pow_add]
  exact ⟨(Nat.mod_mul_right_div_self c _ _).symm, (Nat.mod_mul_right_mod c _ _).symm⟩

theorem FloatRow.rat_eq (r : FloatRow) (c : Nat) :
    r.rat c = (if c / 2 ^ (r.eb + r.p) % 2 = 1 then -1 else 1) * r.mag (c % 2 ^ (r.eb + r.p)) := by
  obtain ⟨hE, hM⟩ := r.fields c
  simp only [FloatRow.rat, FloatRow.mag, hE, hM]

/-- A significand on the grid of a biased exponent k + 1, up to the carry into the next. -/
theorem FloatRow.mag_grid (r : FloatRow) {k q : Nat} (hk : k = 0 ∨ 2 ^ r.p ≤ q) (hq : q ≤ 2 ^ (r.p + 1)) :
    r.mag (k * 2 ^ r.p + q) = q * (2 : ℚ) ^ ((k : ℤ) + 1 - r.bias - r.p) := by
  have hB : 0 < 2 ^ r.p := by positivity
  have two0 : (2 : ℚ) ≠ 0 := by norm_num
  have hBq : (2 : ℚ) ^ r.p ≠ 0 := by positivity
  have hdiv (j : Nat) (hj : j < 2 ^ r.p) (n : Nat) : (n * 2 ^ r.p + j) / 2 ^ r.p = n ∧ (n * 2 ^ r.p + j) % 2 ^ r.p = j := by
    rw [Nat.mul_comm, Nat.mul_add_div hB, Nat.mul_add_mod, Nat.div_eq_of_lt hj, Nat.mod_eq_of_lt hj]
    exact ⟨rfl, rfl⟩
  have hexp (n : ℤ) : (2 : ℚ) ^ (n - r.bias - r.p) = 2 ^ (n - r.bias) / 2 ^ r.p := by
    rw [zpow_sub₀ two0 _ (r.p : ℤ), zpow_natCast]
  have h2 : 2 ^ (r.p + 1) = 2 * 2 ^ r.p := by ring
  by_cases hlow : q < 2 ^ r.p
  · have hk0 : k = 0 := by omega
    subst hk0
    obtain ⟨hd, hm⟩ := hdiv q hlow 0
    rw [FloatRow.mag, hd, hm, if_pos rfl, hexp]
    push_cast
    ring_nf
  · obtain ⟨j, rfl⟩ : ∃ j, q = 2 ^ r.p + j := ⟨q - 2 ^ r.p, by omega⟩
    by_cases hj : j < 2 ^ r.p
    · obtain ⟨hd, hm⟩ := hdiv j hj (k + 1)
      rw [show k * 2 ^ r.p + (2 ^ r.p + j) = (k + 1) * 2 ^ r.p + j by ring, FloatRow.mag, hd, hm, if_neg (by omega), hexp]
      push_cast
      field_simp
    · have hj' : j = 2 ^ r.p := by omega
      subst hj'
      obtain ⟨hd, hm⟩ := hdiv 0 hB (k + 2)
      rw [show k * 2 ^ r.p + (2 ^ r.p + 2 ^ r.p) = (k + 2) * 2 ^ r.p + 0 by ring, FloatRow.mag, hd, hm, if_neg (by omega), hexp]
      have : ((k + 2 : Nat) : ℤ) - r.bias = ((k : ℤ) + 1 - r.bias) + 1 := by push_cast; ring
      rw [this, zpow_add_one₀ two0]
      push_cast
      field_simp
      ring

theorem FloatRow.mag_strictMono (r : FloatRow) : StrictMono r.mag := by
  refine strictMono_nat_of_lt_succ fun c => ?_
  have hB : 0 < 2 ^ r.p := by positivity
  have h2 : 2 ^ (r.p + 1) = 2 * 2 ^ r.p := by ring
  have hc := Nat.div_add_mod' c (2 ^ r.p)
  have hm := Nat.mod_lt c hB
  obtain ⟨k, q, hk, hq, hkq⟩ : ∃ k q, (k = 0 ∨ 2 ^ r.p ≤ q) ∧ q < 2 ^ (r.p + 1) ∧ k * 2 ^ r.p + q = c := by
    cases hE : c / 2 ^ r.p with
    | zero => exact ⟨0, c % 2 ^ r.p, .inl rfl, by omega, by rw [hE] at hc; exact hc⟩
    | succ k =>
      refine ⟨k, 2 ^ r.p + c % 2 ^ r.p, .inr (by omega), by omega, ?_⟩
      rw [hE, Nat.succ_mul] at hc
      omega
  rw [← hkq, Nat.add_assoc, r.mag_grid hk hq.le, r.mag_grid (by omega) hq]
  exact mul_lt_mul_of_pos_right (by push_cast; linarith) (two_zpow_pos _)

theorem FloatRow.mag_zero (r : FloatRow) : r.mag 0 = 0 := by simp [FloatRow.mag]

theorem FloatRow.mag_pos (r : FloatRow) {c : Nat} (h : c ≠ 0) : 0 < r.mag c := by
  rw [← r.mag_zero]
  exact r.mag_strictMono (by omega)

theorem Sys2Proof.Machine.FloatFmt.Matches.maxValue_eq {f : FloatFmt} {r : FloatRow} (h : f.Matches r) : r.maxValue = r.mag r.maxCode := by
  rw [h.maxValue, r.rat_eq, Nat.div_eq_of_lt h.max_lt, Nat.mod_eq_of_lt h.max_lt]
  simp

end
section
/-! PROOFS. How float codes are read and written (R35 to R37, R39 to R41, R43). -/
namespace Sys2Proof.Machine

/-! ## Reading (R35 to R37, R43) -/

/-- A finite value that is not 0, with the number and the sign of a code. -/
def FiniteOf (r : FloatRow) (c : Nat) (v : Val) : Prop :=
  ∃ m e, v = .fin m e ∧ m ≠ 0 ∧ v.rat = r.rat c ∧ (m < 0 ↔ c / 2 ^ (r.eb + r.p) % 2 = 1)

/-- What the decoder of a format gives for each magnitude (R35). -/
structure DecodesAs (r : FloatRow) (c : Nat) (v : Val) : Prop where
  zero : c % 2 ^ (r.eb + r.p) = 0 → v = .zero (decide (c / 2 ^ (r.eb + r.p) % 2 = 1))
  inf : r.inf = some (c % 2 ^ (r.eb + r.p)) → v = .inf (decide (c / 2 ^ (r.eb + r.p) % 2 = 1))
  nan : r.inf ≠ some (c % 2 ^ (r.eb + r.p)) → r.maxCode < c % 2 ^ (r.eb + r.p) →
    v = .nan (decide (c % 2 ^ (r.eb + r.p) % 2 ^ r.p < 2 ^ (r.p - 1)))
  fin : c % 2 ^ (r.eb + r.p) ≠ 0 → c % 2 ^ (r.eb + r.p) ≤ r.maxCode → FiniteOf r c v

/-- A significand q with the sign of a code, on the grid of its magnitude. -/
theorem finiteOf_grid (r : FloatRow) {c k q : Nat} (hk : k = 0 ∨ 2 ^ r.p ≤ q) (hq : q ≤ 2 ^ (r.p + 1))
    (h : k * 2 ^ r.p + q = c % 2 ^ (r.eb + r.p)) (h0 : q ≠ 0) {e : ℤ} (he : e = (k : ℤ) + 1 - r.bias - r.p) :
    FiniteOf r c (.fin (if c / 2 ^ (r.eb + r.p) % 2 = 1 then -(q : ℤ) else q) e) := by
  refine ⟨_, _, rfl, by split <;> omega, ?_, by split <;> omega⟩
  rw [r.rat_eq, ← h, r.mag_grid hk hq, Val.rat_fin, he]
  split <;> push_cast <;> ring

/-- The value of the fields of a code that is neither an infinity nor a NaN. -/
def fieldsVal (r : FloatRow) (neg : Bool) (ex m : Nat) : Val :=
  let sgn (q : Nat) : ℤ := if neg then -(q : ℤ) else q
  if ex = 0 then (if m = 0 then .zero neg else .fin (sgn m) (1 - r.bias - r.p)) else .fin (sgn (2 ^ r.p + m)) (ex - r.bias - r.p)

theorem finiteOf_fieldsVal (r : FloatRow) {c ex m : Nat} (h : ex * 2 ^ r.p + m = c % 2 ^ (r.eb + r.p)) (hm : m < 2 ^ r.p)
    (h0 : c % 2 ^ (r.eb + r.p) ≠ 0) : FiniteOf r c (fieldsVal r (decide (c / 2 ^ (r.eb + r.p) % 2 = 1)) ex m) := by
  have hnext : 2 ^ (r.p + 1) = 2 * 2 ^ r.p := by ring
  unfold fieldsVal
  simp only [decide_eq_true_eq]
  cases ex with
  | zero =>
    rw [Nat.zero_mul, Nat.zero_add] at h
    rw [if_pos rfl, if_neg (by omega)]
    exact finiteOf_grid r (k := 0) (.inl rfl) (by omega) (by omega) (by omega) (by push_cast; ring)
  | succ k =>
    rw [Nat.succ_mul] at h
    rw [if_neg (by omega)]
    exact finiteOf_grid r (k := k) (.inr (by omega)) (by omega) (by omega) (by omega) (by push_cast; ring)

/-- The last exponent holds the magnitudes from the code of infinity on. -/
theorem last_exponent {A B ex m mag : Nat} (hs : ex * B + m = mag) (hex : ex < A) (hm : m < B) :
    (ex = A - 1 ↔ (A - 1) * B ≤ mag) ∧ ((A - 1) * B ≤ mag → mag = (A - 1) * B + m) := by
  have hlast : (A - 1) * B ≤ mag → ex = A - 1 := by
    intro hle
    by_contra hne
    have := Nat.mul_le_mul_right B (show ex + 1 ≤ A - 1 by omega)
    rw [Nat.succ_mul] at this
    omega
  refine ⟨⟨?_, hlast⟩, fun h => by rw [← hlast h]; exact hs.symm⟩
  rintro rfl
  omega

theorem FloatFmt.Matches.decode {f : FloatFmt} {r : FloatRow} (h : f.Matches r) (c : Nat) : DecodesAs r c (f.decode c) := by
  obtain ⟨hE, hM⟩ := r.fields c
  have hA : 0 < 2 ^ r.eb := by positivity
  have hAB : 2 ^ (r.eb + r.p) = 2 ^ r.eb * 2 ^ r.p := pow_add ..
  have hlt : c % 2 ^ (r.eb + r.p) < 2 ^ (r.eb + r.p) := Nat.mod_lt _ (by positivity)
  have hsplit := Nat.div_add_mod' (c % 2 ^ (r.eb + r.p)) (2 ^ r.p)
  have hMlt : c % 2 ^ (r.eb + r.p) % 2 ^ r.p < 2 ^ r.p := Nat.mod_lt _ (by positivity)
  obtain ⟨htop, hrest⟩ := last_exponent hsplit (Nat.div_lt_of_lt_mul (by rw [Nat.mul_comm, ← hAB]; exact hlt)) hMlt
  have hlast : (2 ^ r.eb - 1) * 2 ^ r.p + 2 ^ r.p = 2 ^ (r.eb + r.p) := by
    rw [hAB, ← Nat.succ_mul]
    congr 1
    omega
  have hhalf : 2 ^ (r.p - 1) * 2 = 2 ^ r.p := by rw [← pow_succ, Nat.sub_add_cancel h.p_pos]
  have hhalf0 : 0 < 2 ^ (r.p - 1) := by positivity
  have hinf : f.infCode = (2 ^ r.eb - 1) * 2 ^ r.p := by rw [FloatFmt.infCode, h.eb, h.p]
  have hfin := finiteOf_fieldsVal r hsplit hMlt
  have hdec : f.decode c = if f.ieee = true ∧ (2 ^ r.eb - 1) * 2 ^ r.p ≤ c % 2 ^ (r.eb + r.p) then
      (if c % 2 ^ (r.eb + r.p) % 2 ^ r.p = 0 then .inf (decide (c / 2 ^ (r.eb + r.p) % 2 = 1))
        else .nan (decide (c % 2 ^ (r.eb + r.p) % 2 ^ r.p < 2 ^ (r.p - 1))))
      else if f.ieee = false ∧ f.nanCode = true ∧ (2 ^ r.eb - 1) * 2 ^ r.p ≤ c % 2 ^ (r.eb + r.p) ∧
        c % 2 ^ (r.eb + r.p) % 2 ^ r.p = 2 ^ r.p - 1 then .nan false
      else fieldsVal r (decide (c / 2 ^ (r.eb + r.p) % 2 = 1)) (c % 2 ^ (r.eb + r.p) / 2 ^ r.p) (c % 2 ^ (r.eb + r.p) % 2 ^ r.p) := by
    simp only [FloatFmt.decode, fieldsVal, h.eb, h.p, h.bias, hE, hM, ← htop, Bool.and_eq_true, decide_eq_true_eq,
      Bool.not_eq_true', and_assoc]
  have hr := h.inf
  have hn1 := h.inf_next
  have hn2 := h.nan_next
  have hn3 := h.nan_none
  have hmp := h.max_pos
  refine ⟨fun h0 => ?_, fun hi => ?_, fun hi hm => ?_, fun h0 hm => ?_⟩ <;> rw [hdec] <;> clear hdec
  · rw [h0] at hrest hMlt hsplit ⊢
    rw [Nat.zero_mod] at hrest hMlt hsplit ⊢
    have hieee : ¬ (f.ieee = true ∧ (2 ^ r.eb - 1) * 2 ^ r.p ≤ 0) := fun ⟨hi, _⟩ => by
      have := hn1 hi
      omega
    rw [if_neg hieee, if_neg (by omega), Nat.zero_div]
    rfl
  · rw [hr] at hi
    split at hi
    · next hieee =>
      have hmag := Option.some.inj hi
      rw [if_pos ⟨hieee, by omega⟩, if_pos (by omega)]
    · cases hi
  · rw [hr] at hi
    by_cases hieee : f.ieee = true
    · rw [if_pos hieee, ne_eq, Option.some.injEq] at hi
      have := hn1 hieee
      rw [if_pos ⟨hieee, by omega⟩, if_neg (by omega)]
    · rw [Bool.not_eq_true] at hieee
      have hnan : f.nanCode = true := by
        by_contra hnan
        have := hn3 (by simpa using hnan)
        omega
      have := hn2 hieee hnan
      rw [if_neg (by simp [hieee]), if_pos ⟨hieee, hnan, by omega, by omega⟩, decide_eq_false (by omega)]
  · rw [if_neg ?_, if_neg ?_]
    · exact hfin h0
    · rintro ⟨hieee, hnan, hI, hlastm⟩
      have := hn2 hieee hnan
      omega
    · rintro ⟨hieee, hI⟩
      have := hn1 hieee
      omega

theorem FloatFmt.Matches.subnormal {f : FloatFmt} {r : FloatRow} (h : f.Matches r) (c : Nat) :
    f.subnormal c = decide (c % 2 ^ (r.eb + r.p) ≠ 0 ∧ c % 2 ^ (r.eb + r.p) < 2 ^ r.p) := by
  obtain ⟨hE, hM⟩ := r.fields c
  have hsplit := Nat.div_add_mod' (c % 2 ^ (r.eb + r.p)) (2 ^ r.p)
  rw [FloatFmt.subnormal, h.eb, h.p, hE, hM, Bool.eq_iff_iff, decide_eq_true_iff, ← Nat.div_eq_zero_iff_lt (by positivity)]
  simp only [Bool.and_eq_true, decide_eq_true_eq, bne_iff_ne, ne_eq, and_comm (a := ¬ c % 2 ^ (r.eb + r.p) = 0)]
  refine and_congr_right fun h0 => ?_
  rw [h0] at hsplit
  omega

theorem value_grid {t : Tag} (ht : t.fmt = none) (c : Nat) : value t c = Val.mk (intValue t c) (-(gridBits t : ℤ)) := by
  unfold value
  rw [ht, gridBits_eq]
  rfl

theorem readVal_grid {t : Tag} (ht : t.fmt = none) (vt : VType) (c : Nat) :
    readVal vt t c = Val.mk (intValue t c) (-(gridBits t : ℤ)) := by
  unfold readVal
  rw [ht]
  exact value_grid ht c

theorem Tag.flushes_eq (t : Tag) : t.flushes = decide (t.cls = .float) := by cases t <;> rfl

/-- What an operand is read as (R35 to R37, R43). -/
theorem readVal_readAs (vt : VType) (t : Tag) (c : Nat) : ReadAs vt t c (readVal vt t c) := by
  obtain ⟨hf, hr⟩ | ⟨f, r, hf, hr, h⟩ := t.fmt_floatRow
  · unfold ReadAs
    rw [readVal_grid hf, hr]
    have := Val.stands_mk (intValue t c) (-(gridBits t : ℤ))
    rw [zpow_neg, zpow_natCast, ← div_eq_mul_inv] at this
    exact this
  · have hd := h.decode c
    have hneg : decide (c / 2 ^ (f.ebits + f.mbits) % 2 = 1) = decide (c / 2 ^ (r.eb + r.p) % 2 = 1) := by rw [h.eb, h.p]
    unfold ReadAs readVal
    rw [hf, hr]
    dsimp only
    rw [h.subnormal, Tag.flushes_eq, hneg, show vt.fzIn = vt.getLsbD 12 from rfl]
    simp only [Bool.and_eq_true, decide_eq_true_eq]
    by_cases h0 : c % 2 ^ (r.eb + r.p) = 0
    · rw [if_pos (.inl h0), if_neg (by simp [h0])]
      exact hd.zero h0
    · by_cases hfl : (vt.getLsbD 12 = true ∧ t.cls = .float) ∧ c % 2 ^ (r.eb + r.p) < 2 ^ r.p
      · obtain ⟨⟨h1, h2⟩, h3⟩ := hfl
        rw [if_pos (.inr ⟨h1, h2, h3⟩), if_pos ⟨⟨h1, h2⟩, h0, h3⟩]
      · rw [if_neg (by tauto), if_neg (c := (vt.getLsbD 12 = true ∧ t.cls = .float) ∧ _) (by tauto)]
        split
        · next hi => exact hd.inf hi
        · next hi =>
          split
          · next hn => exact hd.nan hi hn
          · next hn =>
            obtain ⟨m, e, hv, hm, hrat, -⟩ := hd.fin h0 (by omega)
            rw [← hrat, hv]
            exact Val.stands_fin hm

end Sys2Proof.Machine
end
section
/-! PROOFS. How values are written (R33, R34, R39 to R43). -/
namespace Sys2Proof.Machine

/-! ## The exponent of a value, and rounding of magnitudes -/

theorem topExp_bounds {m : ℤ} (hm : m ≠ 0) (e : ℤ) :
    (2 : ℚ) ^ topExp m e ≤ |(m : ℚ) * 2 ^ e| ∧ |(m : ℚ) * 2 ^ e| < (2 : ℚ) ^ (topExp m e + 1) := by
  have two0 : (2 : ℚ) ≠ 0 := by norm_num
  have h0 : m.natAbs ≠ 0 := by omega
  have hlo : ((2 ^ Nat.log2 m.natAbs : Nat) : ℚ) ≤ m.natAbs := by exact_mod_cast Nat.log2_self_le h0
  have hhi : (m.natAbs : ℚ) < ((2 ^ (Nat.log2 m.natAbs + 1) : Nat) : ℚ) := by exact_mod_cast Nat.lt_log2_self
  have habs : |(m : ℚ) * 2 ^ e| = (m.natAbs : ℚ) * 2 ^ e := by
    rw [abs_mul, abs_of_pos (two_zpow_pos e), Nat.cast_natAbs, Int.cast_abs]
  have hpow (n : Nat) : (2 : ℚ) ^ ((n : ℤ) + e) = ((2 ^ n : Nat) : ℚ) * 2 ^ e := by
    rw [zpow_add₀ two0, zpow_natCast]
    push_cast
    rfl
  have hsucc : topExp m e + 1 = ((Nat.log2 m.natAbs + 1 : Nat) : ℤ) + e := by unfold topExp; push_cast; ring
  rw [habs, hsucc, hpow, topExp, hpow]
  exact ⟨mul_le_mul_of_nonneg_right hlo (two_zpow_pos e).le, mul_lt_mul_of_pos_right hhi (two_zpow_pos e)⟩

theorem topExp_lt_iff {m : ℤ} (hm : m ≠ 0) (e k : ℤ) : topExp m e < k ↔ |(m : ℚ) * 2 ^ e| < (2 : ℚ) ^ k := by
  obtain ⟨hlo, hhi⟩ := topExp_bounds hm e
  have two1 : (1 : ℚ) < 2 := by norm_num
  constructor
  · intro h
    exact hhi.trans_le (zpow_le_zpow_right₀ two1.le (by omega))
  · intro h
    exact (zpow_lt_zpow_iff_right₀ two1).mp (hlo.trans_lt h)

theorem le_natAbs_rounded {rm : Nat} {x : ℚ} {n : Nat} (h : (n : ℚ) ≤ |x|) : n ≤ (rounded rm x).natAbs := by
  rcases le_abs.mp h with h | h
  · have : (n : ℤ) ≤ rounded rm x := le_rounded (by exact_mod_cast h)
    omega
  · have : rounded rm x ≤ -(n : ℤ) := rounded_le (by push_cast; linarith)
    omega

theorem natAbs_rounded_le {rm : Nat} {x : ℚ} {n : Nat} (h : |x| ≤ n) : (rounded rm x).natAbs ≤ n := by
  obtain ⟨h1, h2⟩ := abs_le.mp h
  have : -(n : ℤ) ≤ rounded rm x := le_rounded (by push_cast; linarith)
  have : rounded rm x ≤ (n : ℤ) := rounded_le (by exact_mod_cast h2)
  omega

/-- A rounded value keeps the sign of the number. -/
theorem rounded_sign (rm : Nat) (x : ℚ) (g : ℤ) :
    (if x < 0 then -1 else 1) * |(rounded rm (x / 2 ^ g) : ℚ) * 2 ^ g| = rounded rm (x / 2 ^ g) * 2 ^ g := by
  have hg := two_zpow_pos g
  split
  · next h =>
    have : rounded rm (x / 2 ^ g) ≤ 0 := rounded_le (by push_cast; exact (div_neg_of_neg_of_pos h hg).le)
    rw [abs_of_nonpos (mul_nonpos_of_nonpos_of_nonneg (by exact_mod_cast this) hg.le)]
    ring
  · next h =>
    have : 0 ≤ rounded rm (x / 2 ^ g) := le_rounded (by push_cast; exact div_nonneg (not_lt.mp h) hg.le)
    rw [abs_of_nonneg (mul_nonneg (by exact_mod_cast this) hg.le)]
    ring

theorem abs_div_zpow (x : ℚ) (g : ℤ) : |x / 2 ^ g| = |x| / 2 ^ g := by rw [abs_div, abs_of_pos (two_zpow_pos g)]

theorem Flags.when_decide_and (p q : Prop) [Decidable p] [Decidable q] (f : Flags) :
    Flags.when (decide p && decide q) f = flagIf (p ∧ q) f := by
  simp [Flags.when, flagIf]

theorem FloatFmt.signed_eq {f : FloatFmt} {r : FloatRow} (h : f.Matches r) (p : Prop) [Decidable p] (c : Nat) :
    f.signed (decide p) c = r.code p c := by
  unfold FloatFmt.signed FloatRow.code
  rw [h.eb, h.p]
  simp only [decide_eq_true_eq]

theorem FloatFmt.overflow_eq {f : FloatFmt} {r : FloatRow} (h : f.Matches r) (rm : Nat) (p : Prop) [Decidable p] :
    f.overflow rm (decide p) = r.code p (match r.inf with
      | none => r.maxCode
      | some inf => match rm with
        | 1 | 5 => r.maxCode
        | 2 => if p then inf else r.maxCode
        | 3 => if p then r.maxCode else inf
        | _ => inf) := by
  unfold FloatFmt.overflow
  simp only [FloatFmt.signed_eq h, h.inf, h.max, decide_eq_true_eq]
  cases f.ieee with
  | false => rfl
  | true => rcases rm with _ | _ | _ | _ | _ | _ | rm <;> by_cases hp : p <;> simp [hp]

/-- The grid on which a value of exponent `top` is rounded, as a biased exponent k + 1, and its rounded significand. -/
theorem rounded_on_grid {rm : Nat} {r : FloatRow} {x : ℚ} {top g : ℤ} (hlo : (2 : ℚ) ^ top ≤ |x|) (hhi : |x| < (2 : ℚ) ^ (top + 1))
    (hg : g = max (top - r.p) (1 - r.bias - r.p)) :
    ∃ k : Nat, g + r.p + r.bias - 1 = k ∧ (k = 0 ∨ 2 ^ r.p ≤ (rounded rm (x / 2 ^ g)).natAbs) ∧
      (rounded rm (x / 2 ^ g)).natAbs ≤ 2 ^ (r.p + 1) := by
  have two0 : (2 : ℚ) ≠ 0 := by norm_num
  have two1 : (1 : ℚ) ≤ 2 := by norm_num
  refine ⟨(g + r.p + r.bias - 1).toNat, by omega, ?_, ?_⟩
  · by_cases h : top - r.p ≤ 1 - r.bias - r.p
    · exact .inl (by omega)
    · refine .inr (le_natAbs_rounded ?_)
      rw [abs_div_zpow, le_div_iff₀ (two_zpow_pos g), show g = top - r.p by omega]
      push_cast
      rwa [← zpow_natCast, ← zpow_add₀ two0, add_sub_cancel]
  · refine natAbs_rounded_le ?_
    rw [abs_div_zpow, div_le_iff₀ (two_zpow_pos g)]
    push_cast
    rw [← zpow_natCast, ← zpow_add₀ two0]
    exact hhi.le.trans (zpow_le_zpow_right₀ two1 (by push_cast; omega))

/-- A code with a sign, in range. -/
theorem code_fields (r : FloatRow) {c : Nat} (hc : c < 2 ^ (r.eb + r.p)) (neg : Prop) [Decidable neg] :
    r.code neg c < 2 ^ (r.eb + r.p + 1) ∧ (2 ^ (r.eb + r.p) ≤ r.code neg c ↔ neg) ∧ r.code neg c % 2 ^ (r.eb + r.p) = c ∧
      r.rat (r.code neg c) = (if neg then -1 else 1) * r.mag c := by
  have h2 : 2 ^ (r.eb + r.p + 1) = 2 * 2 ^ (r.eb + r.p) := by ring
  have hN : 0 < 2 ^ (r.eb + r.p) := by positivity
  rw [r.rat_eq]
  by_cases h : neg
  · simp only [FloatRow.code, h, if_true, iff_true, Nat.add_mod_left, Nat.mod_eq_of_lt hc, Nat.add_div_left c hN,
      Nat.div_eq_of_lt hc]
    exact ⟨by omega, by omega, trivial, by norm_num⟩
  · simp only [FloatRow.code, h, if_false, iff_false, Nat.mod_eq_of_lt hc, Nat.div_eq_of_lt hc]
    exact ⟨by omega, by omega, trivial, by norm_num⟩

/-- The code of a rounded significand on its grid tells its magnitude. -/
theorem mag_of_grid (r : FloatRow) {k : Nat} {q g : ℤ} (hk : g + r.p + r.bias - 1 = k) (hkq : k = 0 ∨ 2 ^ r.p ≤ q.natAbs)
    (hq : q.natAbs ≤ 2 ^ (r.p + 1)) : r.mag (k * 2 ^ r.p + q.natAbs) = |(q : ℚ) * 2 ^ g| := by
  rw [r.mag_grid hkq hq, abs_mul, abs_of_pos (two_zpow_pos g), Nat.cast_natAbs, Int.cast_abs]
  congr 2
  omega

theorem FloatFmt.encodeFin_written {vt : VType} {t : Tag} {f : FloatFmt} {r : FloatRow} (h : f.Matches r)
    {m e : ℤ} (hm : m ≠ 0) :
    FloatWritten vt t r (Val.fin m e).rat (f.encodeFin vt.rm (vt.fzOut && t.flushes) m e) := by
  have two0 : (2 : ℚ) ≠ 0 := by norm_num
  have hneg : (Val.fin m e).rat < 0 ↔ m < 0 := Val.rat_fin_neg
  obtain ⟨hlo, hhi⟩ := topExp_bounds hm e
  rw [← Val.rat_fin m e] at hlo hhi
  refine ⟨topExp m e, hlo, hhi, ?_⟩
  have hx (g : ℤ) := roundTo_eq (rmOf vt) g m e (x := (Val.fin m e).rat / 2 ^ g) rfl
  unfold FloatFmt.encodeFin
  dsimp only
  rw [h.p, h.bias, h.max, show vt.rm = rmOf vt from rfl, show vt.fzOut = vt.getLsbD 11 from rfl, Tag.flushes_eq, hx, hx]
  generalize (Val.fin m e).rat = x at *
  generalize topExp m e = top at *
  have hfree := le_natAbs_rounded (rm := rmOf vt) (x := x / 2 ^ (top - r.p)) (n := 2 ^ r.p) <| by
    rw [abs_div_zpow, le_div_iff₀ (two_zpow_pos _)]
    push_cast
    rwa [← zpow_natCast, ← zpow_add₀ two0, add_sub_cancel]
  have hpos : 0 < 2 ^ r.p := by positivity
  obtain ⟨k, hk, hkq, hq⟩ := rounded_on_grid (r := r) (rm := rmOf vt) hlo hhi rfl
  dsimp only
  rw [hk]
  rw [decide_eq_decide.mpr (topExp_lt_iff (show rounded (rmOf vt) (x / 2 ^ (top - r.p)) ≠ 0 by omega) (top - r.p) (1 - r.bias))]
  have hmag := mag_of_grid r hk hkq hq
  have hu : (rounded (rmOf vt) (x / 2 ^ max (top - ↑r.p) (1 - r.bias - ↑r.p)) : ℚ) ≠ x / 2 ^ max (top - ↑r.p) (1 - r.bias - ↑r.p) ↔
    (rounded (rmOf vt) (x / 2 ^ max (top - ↑r.p) (1 - r.bias - ↑r.p)) : ℚ) * 2 ^ max (top - ↑r.p) (1 - r.bias - ↑r.p) ≠ x :=
    not_congr (eq_div_iff (two_zpow_pos _).ne')
  rw [decide_eq_decide.mpr hu]
  have hcode (q : ℤ) : ((k : ℤ) * (2 ^ r.p : Nat) + q.natAbs).toNat = k * 2 ^ r.p + q.natAbs := by omega
  have hsign : decide (m < 0) = decide (x < 0) := decide_eq_decide.mpr hneg.symm
  have hmax0 := h.max_pos
  rw [hcode, hsign, FloatFmt.signed_eq h, FloatFmt.signed_eq h, FloatFmt.overflow_eq h]
  simp only [Bool.and_eq_true, decide_eq_true_eq, and_assoc]
  split
  · rfl
  · split
    · next hover =>
      rw [h.maxValue_eq, ← hmag, r.mag_strictMono.lt_iff_lt] at hover
      have hq0 : rounded (rmOf vt) (x / 2 ^ max (top - ↑r.p) (1 - r.bias - ↑r.p)) ≠ 0 := fun h0 => by
        rw [h0] at hover hkq
        obtain rfl | hk0 := hkq <;> omega
      rw [if_pos ⟨hq0, hover⟩]
      rfl
    · next hover =>
      rw [h.maxValue_eq, ← hmag, r.mag_strictMono.lt_iff_lt] at hover
      obtain ⟨hc1, hc2, hc3, hc4⟩ := code_fields r ((not_lt.mp hover).trans_lt h.max_lt) (x < 0)
      rw [if_neg (fun hc => hover hc.2)]
      refine ⟨hc1, hc2, hc3.le.trans (not_lt.mp hover), ?_, ?_⟩
      · rw [hc4, hmag]
        exact rounded_sign _ _ _
      · rw [Flags.when_decide, Flags.when_decide_and]
        rfl

theorem FloatFmt.signed_bool {f : FloatFmt} {r : FloatRow} (h : f.Matches r) (s : Bool) (c : Nat) :
    f.signed s c = r.code (s = true) c := by
  rw [← FloatFmt.signed_eq h, Bool.decide_eq_true]

theorem encode_grid_special {vt : VType} {t : Tag} (ht : t.fmt = none) {v : Val} (hv : ∀ m e, v ≠ .fin m e) :
    encode vt t v = encodeR42 vt t v := by
  unfold encode
  rw [ht]
  cases v with
  | fin m e => exact absurd rfl (hv m e)
  | _ => rfl

/-- Every value but a finite 0 is written as R33 to R36 and R39 to R43 say. -/
theorem encode_written (vt : VType) (t : Tag) {v : Val} (hv : v.Normal) : Written vt t v (encode vt t v) := by
  obtain ⟨hf, hr⟩ | ⟨f, r, hf, hr, h⟩ := t.fmt_floatRow
  · unfold Written
    rw [hr]
    cases v with
    | fin m e => exact encode_grid_fin hf m e
    | _ => rw [encode_grid_special hf (by simp)]; exact encodeR42_converted vt t _
  · unfold Written encode
    rw [hr, hf]
    cases v with
    | fin m e => exact f.encodeFin_written h (Val.normal_fin.mp hv)
    | nan s =>
      show (if f.nanCode then (f.canonNan, Flags.none) else (0, Flags.nv)) = _
      rw [h.nan]
      cases f.nanCode <;> rfl
    | inf s =>
      show (if f.ieee then (f.signed s f.infCode, Flags.none) else (f.signed s f.maxCode, Flags.ov)) = _
      rw [h.inf, FloatFmt.signed_bool h, FloatFmt.signed_bool h, h.max]
      cases f.ieee <;> rfl
    | zero s =>
      show (f.signed s 0, Flags.none) = (r.code (s = true) 0, 0)
      rw [FloatFmt.signed_bool h]
      rfl

end Sys2Proof.Machine
end
section
/-! PROOFS. The arithmetic of values (R36, R161, R162, R403). -/
namespace Sys2Proof.Machine

theorem readVal_normal (vt : VType) (t : Tag) (c : Nat) : (readVal vt t c).Normal := by
  have h := readVal_readAs vt t c
  unfold ReadAs at h
  split at h
  · dsimp only at h
    split at h
    · rw [h]; exact Val.normal_zero _
    · split at h
      · rw [h]; exact Val.normal_inf _
      · split at h
        · rw [h]; exact Val.normal_nan _
        · exact Val.stands_normal h
  · exact Val.stands_normal h

/-! ## Negation and scaling -/

theorem Val.negate_normal {v : Val} (h : v.Normal) : v.negate.Normal := by
  cases v with
  | fin m e => rw [normal_fin] at h; exact normal_fin.mpr (neg_ne_zero.mpr h)
  | _ => exact nofun

theorem Val.scale_normal {v : Val} (h : v.Normal) (k : ℤ) : (v.scale k).Normal := by
  cases v with
  | fin m e => rw [normal_fin] at h; exact normal_fin.mpr h
  | _ => exact nofun

theorem Val.rat_negate (v : Val) : v.negate.rat = -v.rat := by
  cases v with
  | fin m e => show ((-m : ℤ) : ℚ) * 2 ^ e = -((m : ℚ) * 2 ^ e); push_cast; ring
  | _ => exact neg_zero.symm

theorem Val.rat_abs (v : Val) : v.abs.rat = |v.rat| := by
  cases v with
  | fin m e =>
    show ((m.natAbs : ℤ) : ℚ) * 2 ^ e = |(m : ℚ) * 2 ^ e|
    rw [abs_mul, abs_of_pos (two_zpow_pos e), Int.natCast_natAbs, Int.cast_abs]
  | _ => exact abs_zero.symm

theorem Val.scale_scaledBy {v : Val} (h : v.Normal) (k : ℤ) : ScaledBy k v (v.scale k) := by
  cases v with
  | fin m e =>
    have := stands_fin (e := e + k) (normal_fin.mp h)
    rwa [zpow_add₀ (by norm_num : (2 : ℚ) ≠ 0), ← mul_assoc] at this
  | _ => rfl

/-! ## Sums and products -/

theorem addFin_rat (m1 e1 m2 e2 : ℤ) :
    ((addFin m1 e1 m2 e2).1 : ℚ) * 2 ^ (addFin m1 e1 m2 e2).2 = m1 * 2 ^ e1 + m2 * 2 ^ e2 := by
  have part (m e : ℤ) (h : min e1 e2 ≤ e) : (m : ℚ) * ((2 ^ (e - min e1 e2).toNat : Nat) : ℚ) * 2 ^ min e1 e2 = m * 2 ^ e := by
    rw [← two_zpow_toNat (by omega), mul_assoc, ← zpow_add₀ (by norm_num : (2 : ℚ) ≠ 0), sub_add_cancel]
  unfold addFin
  dsimp only
  push_cast
  have h1 := part m1 e1 (min_le_left ..)
  have h2 := part m2 e2 (min_le_right ..)
  push_cast at h1 h2
  rw [add_mul, h1, h2]

/-- The exact sum of two finite values, at least one of which is no zero. -/
theorem stands_sum {v : Val} {x y : ℚ} {rm : Nat} (h0 : x + y = 0 → v = .zero (decide (rm = 2))) (h : x + y ≠ 0 → Stands v (x + y)) :
    if x + y = 0 then v = .zero (decide (rm = 2)) else Stands v (x + y) := by
  split
  · next hs => exact h0 hs
  · next hs => exact h hs

theorem Val.add_sumIs {a b : Val} (ha : a.Normal) (hb : b.Normal) (rm : Nat) : SumIs rm a b (a.add rm b).1 (a.add rm b).2 := by
  cases a with
  | nan s => cases b <;> exact ⟨rfl, rfl⟩
  | inf s =>
    cases b with
    | inf z =>
      show if s = z then _ else _
      by_cases h : s = z <;> simp [Val.add, h, Val.isNan, Flags.none, Flags.nv]
    | _ => exact ⟨rfl, rfl⟩
  | zero s =>
    cases b with
    | fin m e =>
      have hm := rat_fin_ne (e := e) (normal_fin.mp hb)
      refine ⟨rfl, stands_sum (fun h => absurd h (by simpa using hm)) fun _ => ?_⟩
      rw [rat_zero, zero_add]
      exact stands_fin (normal_fin.mp hb)
    | _ => exact ⟨rfl, rfl⟩
  | fin m e =>
    cases b with
    | fin m2 e2 =>
      have hs := addFin_rat m e m2 e2
      have h2 := (two_zpow_pos (addFin m e m2 e2).2).ne'
      refine ⟨?_, stands_sum (fun h => ?_) fun h => ?_⟩
      · show (if _ then _ else _ : Val × Flags).2 = 0
        split <;> rfl
      all_goals
        rw [Val.rat_fin, Val.rat_fin, ← hs] at h
      · show (if _ then _ else _ : Val × Flags).1 = _
        have h0 : (addFin m e m2 e2).1 = 0 := by exact_mod_cast (mul_eq_zero.mp h).resolve_right h2
        rw [if_pos h0]
      · show Stands (if _ then _ else _ : Val × Flags).1 _
        have h0 : (addFin m e m2 e2).1 ≠ 0 := fun h0 => h (by rw [h0]; simp)
        rw [if_neg h0, Val.rat_fin, Val.rat_fin, ← hs]
        exact stands_fin h0
    | zero s =>
      have hm := rat_fin_ne (e := e) (normal_fin.mp ha)
      refine ⟨rfl, stands_sum (fun h => absurd h (by simpa using hm)) fun _ => ?_⟩
      rw [rat_zero, add_zero]
      exact stands_fin (normal_fin.mp ha)
    | _ => exact ⟨rfl, rfl⟩

theorem Val.mul_productIs {a b : Val} (ha : a.Normal) (hb : b.Normal) : ProductIs a b (a.mul b).1 (a.mul b).2 := by
  cases a with
  | fin m e =>
    cases b with
    | fin m2 e2 =>
      refine ⟨rfl, ?_⟩
      have := stands_fin (e := e + e2) (mul_ne_zero (normal_fin.mp ha) (normal_fin.mp hb))
      rw [zpow_add₀ (by norm_num : (2 : ℚ) ≠ 0)] at this
      push_cast at this
      rw [rat_fin, rat_fin, mul_mul_mul_comm]
      exact this
    | _ => exact ⟨rfl, rfl⟩
  | _ => cases b <;> exact ⟨rfl, rfl⟩

theorem Val.add_normal {a b : Val} (ha : a.Normal) (hb : b.Normal) (rm : Nat) : (a.add rm b).1.Normal := by
  cases a with
  | fin m e =>
    cases b with
    | fin m2 e2 =>
      show (if _ then _ else _ : Val × Flags).1.Normal
      split
      · exact normal_zero _
      · next h => exact normal_fin.mpr h
    | zero s => exact ha
    | _ => exact nofun
  | inf s =>
    cases b with
    | inf z =>
      show (if _ then _ else _ : Val × Flags).1.Normal
      split
      · exact normal_inf _
      · exact normal_nan _
    | _ => exact nofun
  | zero s =>
    cases b with
    | fin m e => exact hb
    | _ => exact nofun
  | nan s => cases b <;> exact nofun

theorem Val.mul_normal {a b : Val} (ha : a.Normal) (hb : b.Normal) : (a.mul b).1.Normal := by
  cases a with
  | fin m e =>
    cases b with
    | fin m2 e2 => exact normal_fin.mpr (mul_ne_zero (normal_fin.mp ha) (normal_fin.mp hb))
    | _ => exact nofun
  | _ => cases b <;> exact nofun

/-- On zeros and finite values the sum is exact and raises nothing. -/
theorem Val.add_finite {a b : Val} (ha : a.Finite) (hb : b.Finite) (hna : a.Normal) (hnb : b.Normal) (rm : Nat) :
    (a.add rm b).1.Finite ∧ (a.add rm b).1.rat = a.rat + b.rat ∧ (a.add rm b).2 = 0 := by
  have h := Val.add_sumIs hna hnb rm
  have stands {v : Val} {x : ℚ} (hv : if x = 0 then v = .zero (decide (rm = 2)) else Stands v x) : v.Finite ∧ v.rat = x := by
    split at hv
    · next h0 => rw [hv, h0]; exact ⟨⟨rfl, rfl⟩, rfl⟩
    · exact ⟨stands_finite hv, stands_rat hv⟩
  obtain ⟨s, rfl⟩ | ⟨m, e, rfl, -⟩ := finite_cases ha hna <;> obtain ⟨z, rfl⟩ | ⟨m2, e2, rfl, -⟩ := finite_cases hb hnb
  · exact ⟨⟨rfl, rfl⟩, (add_zero _).symm, rfl⟩
  all_goals exact ⟨(stands h.2).1, (stands h.2).2, h.1⟩

theorem Val.mul_finite {a b : Val} (ha : a.Finite) (hb : b.Finite) (hna : a.Normal) (hnb : b.Normal) :
    (a.mul b).1.Finite ∧ (a.mul b).1.rat = a.rat * b.rat ∧ (a.mul b).2 = 0 := by
  have h := Val.mul_productIs hna hnb
  obtain ⟨s, rfl⟩ | ⟨m, e, rfl, -⟩ := finite_cases ha hna <;> obtain ⟨z, rfl⟩ | ⟨m2, e2, rfl, -⟩ := finite_cases hb hnb
  · exact ⟨⟨rfl, rfl⟩, (mul_zero _).symm, rfl⟩
  · exact ⟨⟨rfl, rfl⟩, (zero_mul _).symm, rfl⟩
  · exact ⟨⟨rfl, rfl⟩, (mul_zero _).symm, rfl⟩
  · exact ⟨stands_finite h.2, stands_rat h.2, h.1⟩

theorem Val.negate_finite {v : Val} (h : v.Finite) : v.negate.Finite := by
  obtain ⟨h1, h2⟩ := h
  cases v <;> exact ⟨h1, h2⟩

theorem Val.scale_finite {v : Val} (h : v.Finite) (k : ℤ) : (v.scale k).Finite := by
  obtain ⟨h1, h2⟩ := h
  cases v <;> exact ⟨h1, h2⟩

theorem Val.scale_rat (v : Val) (k : ℤ) : (v.scale k).rat = v.rat * 2 ^ k := by
  cases v with
  | fin m e =>
    show (m : ℚ) * 2 ^ (e + k) = m * 2 ^ e * 2 ^ k
    rw [zpow_add₀ (by norm_num : (2 : ℚ) ≠ 0), mul_assoc]
  | _ => exact (zero_mul _).symm

theorem Val.abs_finite {v : Val} (h : v.Finite) : v.abs.Finite := by
  obtain ⟨h1, h2⟩ := h
  cases v with
  | inf s => cases h2
  | _ => exact ⟨h1, rfl⟩

theorem Val.abs_normal {v : Val} (h : v.Normal) : v.abs.Normal := by
  cases v with
  | fin m e => exact normal_fin.mpr (by have := normal_fin.mp h; omega)
  | _ => exact nofun

/-! ## Order (R161, R162) -/

theorem Val.lt_iff {a b : Val} (ha : a.isNan = false) (hb : b.isNan = false) : a.lt b = true ↔ Below a b := by
  have zeroLt {m e : ℤ} : 0 < m ↔ 0 < (Val.fin m e).rat := by rw [rat_fin, mul_pos_iff_of_pos_right (two_zpow_pos e), Int.cast_pos]
  cases a with
  | nan s => cases ha
  | inf s =>
    cases b with
    | nan z => cases hb
    | _ => cases s <;> simp [Val.lt, Below]
  | zero s =>
    cases b with
    | nan z => cases hb
    | fin m e => exact decide_eq_true_iff.trans zeroLt
    | _ => simp [Val.lt, Below]
  | fin m e =>
    cases b with
    | nan z => cases hb
    | fin m2 e2 =>
      show decide ((addFin m e (-m2) e2).1 < 0) = true ↔ (Val.fin m e).rat < (Val.fin m2 e2).rat
      have hs := addFin_rat m e (-m2) e2
      push_cast at hs
      have hp := two_zpow_pos (addFin m e (-m2) e2).2
      rw [decide_eq_true_iff, rat_fin, rat_fin, ← sub_neg (a := (m : ℚ) * 2 ^ e), sub_eq_add_neg, ← neg_mul, ← hs, mul_neg_iff]
      simp [hp, hp.not_gt]
    | zero s => exact decide_eq_true_iff.trans rat_fin_neg.symm
    | inf s => simp [Val.lt, Below]

theorem Val.eqv_iff (a b : Val) : a.eqv b = true ↔ Alike a b := by
  unfold Val.eqv Alike
  by_cases ha : a.isNan = true
  · simp [ha]
  · by_cases hb : b.isNan = true
    · simp [hb]
    · rw [Bool.not_eq_true] at ha hb
      rw [← lt_iff ha hb, ← lt_iff hb ha, ha, hb]
      simp

/-- Order on values as an order on the extended rationals. -/
theorem below_asymm {a b : Val} (h : Below a b) : ¬ Below b a := by
  cases a <;> cases b <;> simp_all [Below, le_of_lt]

theorem below_or_alike {a b : Val} (ha : a.isNan = false) (hb : b.isNan = false) : ¬ Below b a ↔ Below a b ∨ Alike a b := by
  have := @below_asymm a b
  unfold Alike
  tauto

/-- Of a value with a sign and one without, the first is below unless both are zeros. -/
theorem below_of_signs {a b : Val} (ha : a.Normal) (hb : b.Normal) (hnan : b.isNan = false) (hna : a.neg? = true)
    (hnb : b.neg? = false) (h : ¬ Below a b) : a = .zero true ∧ b = .zero false := by
  have pos {m e : ℤ} (hm : (Val.fin m e).Normal) (h : (Val.fin m e).neg? = false) : 0 < (Val.fin m e).rat := by
    have h0 := Val.normal_fin.mp hm
    have h1 : ¬ m < 0 := of_decide_eq_false h
    exact mul_pos (by exact_mod_cast (by omega : 0 < m)) (two_zpow_pos e)
  cases b with
  | nan z => cases hnan
  | inf z =>
    cases hnb
    cases a <;> simp_all [Below, Val.neg?]
  | zero z =>
    cases hnb
    cases a with
    | fin m e => exact absurd (Val.rat_fin_neg.mpr (of_decide_eq_true hna)) h
    | _ => simp_all [Below, Val.neg?]
  | fin m2 e2 =>
    have := pos hb hnb
    cases a with
    | fin m e => exact absurd ((Val.rat_fin_neg.mpr (of_decide_eq_true hna)).trans this) h
    | zero z => exact absurd this h
    | _ => simp_all [Below, Val.neg?]

/-- One value is less than another, with −0 below +0 (R161). -/
def lessThan (x y : Val) : Prop := Below x y ∨ (Alike x y ∧ x = .zero true ∧ y = .zero false)

theorem lessThan_irrefl (x : Val) : ¬ lessThan x x := by
  rintro (h | ⟨-, h1, h2⟩)
  · exact below_asymm h h
  · rw [h1] at h2; cases h2

theorem lessThan_asymm {x y : Val} (h : lessThan x y) : ¬ lessThan y x := by
  rcases h with h | ⟨⟨-, -, h1, h2⟩, rfl, rfl⟩
  · rintro (h' | ⟨⟨-, -, h1, h2⟩, -, -⟩)
    · exact below_asymm h h'
    · exact h2 h
  · rintro (h' | ⟨-, h', -⟩)
    · exact h2 h'
    · cases h'

/-- The test that `pick` makes. -/
theorem pick_test {a b : Val} (ha : a.Normal) (hb : b.Normal) (hna : a.isNan = false) (hnb : b.isNan = false) :
    (a.lt b || (!b.lt a && a.neg? && !b.neg?)) = true ↔ lessThan a b := by
  unfold lessThan Alike
  rw [Bool.or_eq_true, Val.lt_iff hna hnb, Bool.and_eq_true, Bool.and_eq_true, Bool.not_eq_true', Bool.not_eq_true',
    ← Bool.not_eq_true, Val.lt_iff hnb hna]
  refine or_congr_right' fun hab => ⟨fun ⟨⟨hba, h1⟩, h2⟩ => ?_, ?_⟩
  · exact ⟨⟨hna, hnb, hab, hba⟩, below_of_signs ha hb hnb h1 h2 hab⟩
  · rintro ⟨⟨-, -, -, hba⟩, rfl, rfl⟩
    exact ⟨⟨hba, rfl⟩, rfl⟩

theorem Val.pick_pickIs {a b : Val} (ha : a.Normal) (hb : b.Normal) (larger : Bool) : PickIs larger a b (a.pick larger b) := by
  unfold PickIs Val.pick
  change if _ then (if _ then _ else _) else if _ then _ else (_ ∧ ∀ w, w = a ∨ w = b → if larger then ¬ lessThan _ w else ¬ lessThan w _)
  by_cases hna : a.isNan = true
  · rw [if_pos hna, if_pos hna]
    by_cases hnb : b.isNan = true
    · rw [if_pos hnb, if_pos hnb]
      rfl
    · rw [if_neg hnb, if_neg hnb]
  · rw [if_neg hna, if_neg hna]
    by_cases hnb : b.isNan = true
    · rw [if_pos hnb, if_pos hnb]
    · rw [if_neg hnb, if_neg hnb]
      have test := pick_test ha hb (by simpa using hna) (by simpa using hnb)
      generalize (a.lt b || (!b.lt a && a.neg? && !b.neg?)) = less at *
      cases less <;> cases larger <;>
        simp_all [lessThan_irrefl, lessThan_asymm]

theorem Val.pick_normal {a b : Val} (ha : a.Normal) (hb : b.Normal) (larger : Bool) : (a.pick larger b).Normal := by
  unfold Val.pick
  have pick {p : Prop} [Decidable p] {x y : Val} (hx : x.Normal) (hy : y.Normal) : (if p then x else y).Normal := by
    split <;> assumption
  exact pick (pick (normal_nan _) hb) (pick ha (pick ha hb))

/-! ## Flags of operands -/

theorem sigOf_nil : sigOf [] = 0 := rfl

theorem sigOf_cons (v : Val) (l : List Val) : sigOf (v :: l) = v.sigFlag ||| sigOf l := by
  have hor : (1 : Flags) ||| sigOf l = 1 := by
    unfold sigOf flagIf
    split <;> rfl
  cases v with
  | nan s =>
    cases s with
    | true =>
      rw [show (Val.nan true).sigFlag = 1 from rfl, hor]
      simp [sigOf, flagIf]
    | false => simp [sigOf, flagIf, Val.sigFlag, Flags.none]
  | _ => simp [sigOf, flagIf, Val.sigFlag, Flags.none]

end Sys2Proof.Machine
end
section
/-! PROOFS. The functions of `vop` on elements (R36, R46, R160 to R162). -/
namespace Sys2Proof.Machine

/-! ## Flags of operands, and what is written -/

theorem Flags.or_zero (f : Flags) : f ||| 0 = f := BitVec.or_zero

theorem Flags.zero_or (f : Flags) : 0 ||| f = f := BitVec.zero_or

theorem Flags.or_third (f g a b d : Flags) : f ||| g ||| d ||| (a ||| b) = f ||| g ||| (a ||| b ||| d) := by ac_rfl

theorem sigOf_two (a b : Val) : sigOf [a, b] = a.sigFlag ||| b.sigFlag := by
  rw [sigOf_cons, sigOf_cons, sigOf_nil, Flags.or_zero]

theorem sigOf_three (a b d : Val) : sigOf [a, b, d] = a.sigFlag ||| b.sigFlag ||| d.sigFlag := by
  rw [sigOf_cons, sigOf_two b d, BitVec.or_assoc]

theorem encodeWith_gives {vt : VType} {t : Tag} {v : Val} (hv : v.Normal) (fl : Flags) :
    Gives vt t v fl (encodeWith vt t (v, fl)) := ⟨encode vt t v, encode_written vt t hv, rfl⟩

theorem encode_gives {vt : VType} {t : Tag} {v : Val} (hv : v.Normal) : Gives vt t v 0 (encode vt t v) :=
  ⟨encode vt t v, encode_written vt t hv, by rw [Flags.or_zero]⟩

/-! ## What each function computes from the values of its operands -/

theorem operandVal_eq {tR : Tag} (h : tR.cls ≠ .angle) (vt : VType) (p : Bool) (t : Tag) (c : Nat) :
    operandVal vt p tR t c = readVal vt t c := by
  simp [operandVal, h]

section
variable {vt : VType} {w : Nat} {ta tb td tR : Tag} {ca cb cd : Nat} (hR : tR.cls ≠ .angle)
include hR

theorem vopElement_add : vopElement .add vt w ta tb td tR ca cb cd =
    let r := (readVal vt ta ca).add (rmOf vt) (readVal vt tb cb)
    encodeWith vt tR (r.1, r.2 ||| sigOf [readVal vt ta ca, readVal vt tb cb]) := by
  rw [sigOf_two, ← operandVal_eq hR, ← operandVal_eq hR]
  rfl

theorem vopElement_sub : vopElement .sub vt w ta tb td tR ca cb cd =
    let r := (readVal vt ta ca).add (rmOf vt) (readVal vt tb cb).negate
    encodeWith vt tR (r.1, r.2 ||| sigOf [readVal vt ta ca, readVal vt tb cb]) := by
  rw [sigOf_two, ← operandVal_eq hR, ← operandVal_eq hR]
  rfl

theorem vopElement_rsub : vopElement .rsub vt w ta tb td tR ca cb cd =
    let r := (readVal vt tb cb).add (rmOf vt) (readVal vt ta ca).negate
    encodeWith vt tR (r.1, r.2 ||| sigOf [readVal vt ta ca, readVal vt tb cb]) := by
  rw [sigOf_two, ← operandVal_eq hR, ← operandVal_eq hR]
  rfl

theorem vopElement_mul : vopElement .mul vt w ta tb td tR ca cb cd =
    let r := (readVal vt ta ca).mul (readVal vt tb cb)
    encodeWith vt tR (r.1, r.2 ||| sigOf [readVal vt ta ca, readVal vt tb cb]) := by
  rw [sigOf_two, ← operandVal_eq hR vt true, ← operandVal_eq hR vt true]
  rfl

theorem vopElement_macc : vopElement .macc vt w ta tb td tR ca cb cd =
    let p := (readVal vt ta ca).mul (readVal vt tb cb)
    let r := (readVal vt td cd).add (rmOf vt) p.1
    encodeWith vt tR (r.1, r.2 ||| p.2 ||| sigOf [readVal vt ta ca, readVal vt tb cb, readVal vt td cd]) := by
  rw [sigOf_three, ← operandVal_eq hR vt true ta, ← operandVal_eq hR vt true tb]
  dsimp only
  rw [← Flags.or_third]
  rfl

theorem vopElement_nmsac : vopElement .nmsac vt w ta tb td tR ca cb cd =
    let p := (readVal vt ta ca).mul (readVal vt tb cb)
    let r := (readVal vt td cd).add (rmOf vt) p.1.negate
    encodeWith vt tR (r.1, r.2 ||| p.2 ||| sigOf [readVal vt ta ca, readVal vt tb cb, readVal vt td cd]) := by
  rw [sigOf_three, ← operandVal_eq hR vt true ta, ← operandVal_eq hR vt true tb]
  dsimp only
  rw [← Flags.or_third]
  rfl

theorem vopElement_avg : vopElement .avg vt w ta tb td tR ca cb cd =
    let r := (readVal vt ta ca).add (rmOf vt) (readVal vt tb cb)
    encodeWith vt tR (r.1.scale (-1), r.2 ||| sigOf [readVal vt ta ca, readVal vt tb cb]) := by
  rw [sigOf_two, ← operandVal_eq hR, ← operandVal_eq hR]
  rfl

theorem vopElement_min : vopElement .min vt w ta tb td tR ca cb cd =
    encodeWith vt tR ((readVal vt ta ca).pick false (readVal vt tb cb), sigOf [readVal vt ta ca, readVal vt tb cb]) := by
  rw [sigOf_two, ← Flags.zero_or (_ ||| _), ← operandVal_eq hR vt false, ← operandVal_eq hR vt false]
  rfl

theorem vopElement_max : vopElement .max vt w ta tb td tR ca cb cd =
    encodeWith vt tR ((readVal vt ta ca).pick true (readVal vt tb cb), sigOf [readVal vt ta ca, readVal vt tb cb]) := by
  rw [sigOf_two, ← Flags.zero_or (_ ||| _), ← operandVal_eq hR vt false, ← operandVal_eq hR vt false]
  rfl

theorem vopElement_sll :
    vopElement .sll vt w ta tb td tR ca cb cd = encode vt tR ((readVal vt ta ca).scale (cb % ta.width : Nat)) := by
  rw [← operandVal_eq hR vt false]
  rfl

theorem vopElement_shrRnd :
    vopElement .shrRnd vt w ta tb td tR ca cb cd = encode vt tR ((readVal vt ta ca).scale (-((cb % ta.width : Nat) : ℤ))) := by
  rw [← operandVal_eq hR vt false]
  rfl

/-- `neg` and `abs` on a tag that is no float. -/
theorem vopElement_neg (ht : ta.cls ≠ .float) : vopElement .neg vt w ta tb td tR ca cb cd =
    encodeWith vt tR ((readVal vt ta ca).negate, sigOf [readVal vt ta ca, readVal vt tb cb]) := by
  rw [sigOf_two, ← Flags.zero_or (_ ||| _), ← operandVal_eq hR vt false, ← operandVal_eq hR vt false]
  exact if_neg ht

theorem vopElement_abs (ht : ta.cls ≠ .float) : vopElement .abs vt w ta tb td tR ca cb cd =
    encodeWith vt tR ((readVal vt ta ca).abs, sigOf [readVal vt ta ca, readVal vt tb cb]) := by
  rw [sigOf_two, ← Flags.zero_or (_ ||| _), ← operandVal_eq hR vt false, ← operandVal_eq hR vt false]
  exact if_neg ht

end

/-! ## Bits, shifts and the upper half of a product -/

theorem sextN_eq_toInt (w c : Nat) : sextN w c = (BitVec.ofNat w c).toInt := by
  unfold sextN
  rw [BitVec.toInt_eq_toNat_cond, BitVec.toNat_ofNat]
  cases w with
  | zero => simp
  | succ w =>
    have h2 : 2 ^ (w + 1) = 2 * 2 ^ w := by ring
    rw [Nat.add_sub_cancel]
    split <;> split <;> omega

theorem width_pos (t : Tag) : 0 < t.width := by cases t <;> decide

/-- A count of the grid of a tag is written as its narrowing (R33). -/
theorem narrow_written {vt : VType} {t : Tag} (n : ℤ) : GridWritten vt t ((n : ℚ) / 2 ^ gridBits t) (narrow vt t n) := by
  unfold GridWritten
  rw [div_mul_cancel₀ _ (by positivity : (2 : ℚ) ^ gridBits t ≠ 0)]
  dsimp only
  rw [rounded_intCast, narrow_eq]
  simp [gridCount, flagIf]

/-- The exact value of an integer code, as the upper half of a product reads it (R160). -/
theorem intValue_eq {t : Tag} {c : Nat} (hc : c < 2 ^ t.width) : intValue t c = if t.signed then sextN t.width c else (c : ℤ) := by
  unfold intValue sextN
  rw [Nat.mod_eq_of_lt hc]

/-! ## Compares (R162) -/

theorem cmpElement_values {vt : VType} {ta tb tR : Tag} (hR : tR.cls ≠ .angle) (ca cb : Nat) :
    let a := readVal vt ta ca
    let b := readVal vt tb cb
    cmpElement .cmpEq vt ta tb tR ca cb = (a.eqv b, sigOf [a, b]) ∧
    cmpElement .cmpNe vt ta tb tR ca cb = (!a.eqv b, sigOf [a, b]) ∧
    cmpElement .cmpLt vt ta tb tR ca cb =
      (!(a.isNan || b.isNan) && a.lt b, sigOf [a, b] ||| flagIf (a.isNan = true ∨ b.isNan = true) 1) ∧
    cmpElement .cmpLe vt ta tb tR ca cb =
      (!(a.isNan || b.isNan) && !b.lt a, sigOf [a, b] ||| flagIf (a.isNan = true ∨ b.isNan = true) 1) := by
  have hnan (a b : Val) : Flags.when (a.isNan || b.isNan) Flags.nv = flagIf (a.isNan = true ∨ b.isNan = true) 1 := by
    simp [Flags.when, flagIf, Flags.nv]
  simp only [cmpElement, if_neg hR, sigOf_two, ← hnan]
  exact ⟨trivial, trivial, trivial, trivial⟩

theorem not_nan_and (a b : Val) (x : Bool) :
    (!(a.isNan || b.isNan) && x) = true ↔ a.isNan = false ∧ b.isNan = false ∧ x = true := by
  simp [and_assoc]

theorem below_not_nan {a b : Val} (h : Below a b) : a.isNan = false ∧ b.isNan = false := by
  cases a <;> cases b <;> simp_all [Below, Val.isNan]

/-! ## Signs of floats (R161) -/

theorem signElement_eq {vt : VType} {t : Tag} {r : FloatRow} (h : floatRow t = some r) (hf : t.cls = .float) (c : Nat) (f : VopFn) :
    signElement f vt t c =
      let a := readVal vt t c
      if a.isNan then (r.nan.getD 0, sigOf [a])
      else
        let mag := if a.isZero then 0 else c % 2 ^ (r.eb + r.p)
        if f = .neg then (r.code (a.neg? = false) mag, 0) else (mag, 0) := by
  obtain ⟨m, hm, hmat⟩ := Tag.fmt_of_floatRow h
  have hnan : canonicalNan t = r.nan.getD 0 := by
    unfold canonicalNan
    rw [hm, hmat.nan]
    dsimp only
    cases m.nanCode <;> rfl
  have hsig : (readVal vt t c).sigFlag = sigOf [readVal vt t c] := by rw [sigOf_cons, sigOf_nil, Flags.or_zero]
  have htop : t.width - 1 = r.eb + r.p := by cases t <;> cases hf <;> cases h <;> rfl
  unfold signElement FloatRow.code
  dsimp only
  rw [hnan, hsig, htop]
  split
  · rfl
  · split
    · cases (readVal vt t c).neg? <;> rfl
    · rfl

/-! ## Grid tags -/

theorem readVal_finite {t : Tag} (ht : t.fmt = none) (vt : VType) (c : Nat) : (readVal vt t c).Finite := by
  rw [readVal_grid ht]
  exact Val.stands_finite (Val.stands_mk _ _)

theorem fmt_none_of_grid {t : Tag} (h : t.cls = .integer ∨ t.cls = .fixed) : t.fmt = none ∧ t.cls ≠ .float := by
  cases t <;> simp_all [Tag.cls, Tag.fmt]

theorem sigFlag_finite {v : Val} (h : v.Finite) : v.sigFlag = 0 := by
  obtain ⟨h1, -⟩ := h
  cases v with
  | nan s => cases h1
  | _ => rfl

/-- A zero of either sign is written alike in a grid tag, so that some value that stands for the number is written as the value is. -/
theorem exists_stands {t : Tag} (ht : t.fmt = none) (vt : VType) {u : Val} (hf : u.Finite) (hn : u.Normal) :
    ∃ v, Stands v u.rat ∧ encode vt t u = encode vt t v := by
  obtain ⟨s, rfl⟩ | ⟨m, e, rfl, hm⟩ := Val.finite_cases hf hn
  · refine ⟨.zero false, ⟨fun _ => rfl, fun h => absurd rfl h⟩, ?_⟩
    rw [encode_grid_special ht (by simp), encode_grid_special ht (by simp)]
    rfl
  · exact ⟨_, Val.stands_fin hm, rfl⟩

/-- An exact result on a grid, written with no flag of an operand. -/
theorem encodeWith_grid_gives {t : Tag} (ht : t.fmt = none) (vt : VType) {u : Val} (hf : u.Finite) (hn : u.Normal) :
    ∃ v, Stands v u.rat ∧ Gives vt t v 0 (encodeWith vt t (u, 0)) := by
  obtain ⟨v, hv, he⟩ := exists_stands ht vt hf hn
  refine ⟨v, hv, encode vt t v, encode_written vt t (Val.stands_normal hv), ?_⟩
  rw [← he]
  rfl

/-! ## The statement on any two tags -/

theorem rmOf_eq (vt : VType) : vt.rm = rmOf vt := rfl

theorem mixedElements : MixedElements := by
  unfold MixedElements
  intro vt w ta tb td tR ca cb cd _ hR
  dsimp only
  have na := readVal_normal vt ta ca
  have nb := readVal_normal vt tb cb
  have nd := readVal_normal vt td cd
  have nna := Val.negate_normal na
  have nnb := Val.negate_normal nb
  have np := Val.mul_normal na nb
  have hprod := Val.mul_productIs na nb
  refine ⟨⟨_, _, Val.add_sumIs na nb _, ?add⟩, ⟨_, _, Val.add_sumIs na nnb _, ?sub⟩, ⟨_, _, Val.add_sumIs nb nna _, ?rsub⟩,
    ⟨_, _, hprod, ?mul⟩, ⟨_, _, _, _, hprod, Val.add_sumIs nd np _, ?macc⟩,
    ⟨_, _, _, _, hprod, Val.add_sumIs nd (Val.negate_normal np) _, ?nmsac⟩,
    ⟨_, _, _, Val.add_sumIs na nb _, Val.scale_scaledBy (Val.add_normal na nb _) _, ?avg⟩,
    ⟨_, Val.pick_pickIs na nb _, ?min⟩, ⟨_, Val.pick_pickIs na nb _, ?max⟩,
    fun _ => ⟨_, Val.scale_scaledBy na _, ?shrRnd⟩, fun hta htb htR => ?signs, fun f hf hcls => ?floats,
    fun _ _ hca => ⟨⟨_, Val.scale_scaledBy na _, ?sll⟩, ?srl, ?sra⟩, fun hia hib hca hcb => ?mulh, rfl, rfl, rfl, ?eq, ?ne, ?lt, ?le⟩
  case add => rw [vopElement_add hR]; exact encodeWith_gives (Val.add_normal na nb _) _
  case sub => rw [vopElement_sub hR]; exact encodeWith_gives (Val.add_normal na nnb _) _
  case rsub => rw [vopElement_rsub hR]; exact encodeWith_gives (Val.add_normal nb nna _) _
  case mul => rw [vopElement_mul hR]; exact encodeWith_gives np _
  case macc => rw [vopElement_macc hR]; exact encodeWith_gives (Val.add_normal nd np _) _
  case nmsac => rw [vopElement_nmsac hR]; exact encodeWith_gives (Val.add_normal nd (Val.negate_normal np) _) _
  case avg => rw [vopElement_avg hR]; exact encodeWith_gives (Val.scale_normal (Val.add_normal na nb _) _) _
  case min => rw [vopElement_min hR]; exact encodeWith_gives (Val.pick_normal na nb _) _
  case max => rw [vopElement_max hR]; exact encodeWith_gives (Val.pick_normal na nb _) _
  case shrRnd => rw [vopElement_shrRnd hR]; exact encode_gives (Val.scale_normal na _)
  case sll => rw [vopElement_sll hR]; exact encode_gives (Val.scale_normal na _)
  case srl => exact narrow_written _
  case sra => 
    rw [← sextN_eq_toInt]
    exact narrow_written _
  case signs =>
    subst htb htR
    obtain ⟨hfmt, hcls⟩ := fmt_none_of_grid hta
    have hf := readVal_finite hfmt vt ca
    rw [vopElement_neg hR hcls, vopElement_abs hR hcls, sigOf_two, sigFlag_finite hf, sigFlag_finite (readVal_finite hfmt vt cb),
      ← Val.rat_negate, ← Val.rat_abs]
    exact ⟨encodeWith_grid_gives hfmt vt (Val.negate_finite hf) nna, encodeWith_grid_gives hfmt vt (Val.abs_finite hf) (Val.abs_normal na)⟩
  case floats =>
    have hneg : vopElement .neg vt w ta tb td tR ca cb cd = signElement .neg vt ta ca := if_pos hcls
    have habs : vopElement .abs vt w ta tb td tR ca cb cd = signElement .abs vt ta ca := if_pos hcls
    rw [hneg, habs, signElement_eq hf hcls, signElement_eq hf hcls]
    refine ⟨fun h => ⟨if_pos h, if_pos h⟩, fun h => ?_⟩
    have hnan : ¬ (readVal vt ta ca).isNan = true := by rw [h]; exact Bool.false_ne_true
    exact ⟨(if_neg hnan).trans (if_pos rfl), (if_neg hnan).trans (if_neg nofun)⟩
  case mulh =>
    rw [intValue_eq hca, intValue_eq hcb]
    rfl
  all_goals obtain ⟨heq, hne, hlt, hle⟩ := cmpElement_values (vt := vt) hR (ta := ta) (tb := tb) ca cb
  case eq =>
    rw [heq]
    exact ⟨Val.eqv_iff _ _, (Flags.or_zero _).symm⟩
  case ne =>
    rw [hne, ← Val.eqv_iff]
    exact ⟨by simp, (Flags.or_zero _).symm⟩
  case lt =>
    rw [hlt]
    refine ⟨(not_nan_and _ _ _).trans ⟨fun ⟨ha, hb, h⟩ => (Val.lt_iff ha hb).mp h, fun h => ?_⟩, rfl⟩
    obtain ⟨ha, hb⟩ := below_not_nan h
    exact ⟨ha, hb, (Val.lt_iff ha hb).mpr h⟩
  case le =>
    rw [hle]
    have test {a b : Val} (ha : a.isNan = false) (hb : b.isNan = false) : (!b.lt a) = true ↔ Below a b ∨ Alike a b := by
      rw [← below_or_alike ha hb, ← Val.lt_iff hb ha, Bool.not_eq_true', Bool.not_eq_true]
    refine ⟨(not_nan_and _ _ _).trans ⟨fun ⟨ha, hb, h⟩ => (test ha hb).mp h, fun h => ?_⟩, rfl⟩
    obtain ⟨ha, hb⟩ : (readVal vt ta ca).isNan = false ∧ (readVal vt tb cb).isNan = false :=
      h.elim below_not_nan fun h => ⟨h.1, h.2.1⟩
    exact ⟨ha, hb, (test ha hb).mpr h⟩

end Sys2Proof.Machine
end
section
/-! PROOFS. Elements of integer and angle tags in plain arithmetic (R33, R46, R160, R162). -/
namespace Sys2Proof.Machine

/-! ## Exact results on a grid -/

/-- A finite exact result that lies on the grid of its tag is written as the narrowing of its count. -/
theorem encodeWith_count {t : Tag} (ht : t.fmt = none) (vt : VType) {u : Val} (hf : u.Finite) {n : ℤ}
    (h : u.rat * 2 ^ gridBits t = n) {fl : Flags} (hfl : fl = 0) : encodeWith vt t (u, fl) = narrow vt t n := by
  unfold encodeWith
  rw [encode_grid_int ht hf h, hfl]
  dsimp only
  rw [Flags.or_zero]

theorem narrow_in_range {vt : VType} {t : Tag} {n : ℤ} (hlo : intLo t ≤ n) (hhi : n ≤ intHi t) :
    narrow vt t n = (residue t n, 0) := by
  have h : gridCount vt t n = n := by
    unfold gridCount
    rw [show max (intLo t) (min (intHi t) n) = n by omega, ite_self]
  rw [narrow_eq, h, flagIf, if_neg (by simp)]

theorem narrow_integer {t : Tag} (ht : t.cls = .integer) (vt : VType) (n : ℤ) : narrow vt t n = intResult vt t n := by
  have hle : intLo t ≤ intHi t := by cases t <;> decide
  have hrange : max (intLo t) (min (intHi t) n) ≠ n ↔ ¬ (intLo t ≤ n ∧ n ≤ intHi t) := by omega
  rw [narrow_eq]
  unfold gridCount intResult
  rw [show vt.sat = vt.getLsbD 19 from rfl]
  cases vt.getLsbD 19 with
  | true =>
    rw [if_pos (.inr ⟨ht, rfl⟩), if_pos rfl]
    simp only [flagIf, hrange, ite_not]
  | false => simp [ht, flagIf]

theorem intValue_range (t : Tag) (c : Nat) : intLo t ≤ intValue t c ∧ intValue t c ≤ intHi t := by
  have hlt := Nat.mod_lt c (show 0 < 2 ^ t.width by positivity)
  have h2 : 2 ^ t.width = 2 * 2 ^ (t.width - 1) := by rw [← pow_succ', Nat.sub_add_cancel (width_pos t)]
  unfold intLo intHi intValue
  split
  · split <;> omega
  · omega

/-! ## Order on finite values -/

theorem below_iff_rat {a b : Val} (ha : a.Finite) (hb : b.Finite) : Below a b ↔ a.rat < b.rat := by
  obtain ⟨ha1, ha2⟩ := ha
  obtain ⟨hb1, hb2⟩ := hb
  cases a <;> cases b <;> simp_all [Below, Val.isNan, Val.isInf]

theorem lt_eq_rat {a b : Val} (ha : a.Finite) (hb : b.Finite) : a.lt b = decide (a.rat < b.rat) := by
  rw [Bool.eq_iff_iff, Val.lt_iff ha.1 hb.1, below_iff_rat ha hb, decide_eq_true_iff]

theorem eqv_eq_rat {a b : Val} (ha : a.Finite) (hb : b.Finite) : a.eqv b = decide (a.rat = b.rat) := by
  rw [Bool.eq_iff_iff, Val.eqv_iff, decide_eq_true_iff, Alike, below_iff_rat ha hb, below_iff_rat hb ha]
  simp [ha.1, hb.1, le_antisymm_iff, and_comm]

theorem pick_finite {a b : Val} (ha : a.Finite) (hb : b.Finite) (larger : Bool) :
    (a.pick larger b).Finite ∧ (a.pick larger b).rat = if larger then max a.rat b.rat else min a.rat b.rat := by
  have hval : a.pick larger b = if (a.lt b || (!b.lt a && a.neg? && !b.neg?)) != larger then a else b := by
    unfold Val.pick
    rw [if_neg (by simp [ha.1]), if_neg (by simp [hb.1])]
  rw [hval, lt_eq_rat ha hb, lt_eq_rat hb ha]
  have pick (p : Bool) : (if p then a else b).Finite ∧ (if p then a else b).rat = if p then a.rat else b.rat := by
    cases p
    · exact ⟨hb, rfl⟩
    · exact ⟨ha, rfl⟩
  refine ⟨(pick _).1, (pick _).2.trans ?_⟩
  rcases lt_trichotomy a.rat b.rat with h | h | h <;> cases larger <;> simp [h, h.le, h.not_gt]

/-! ## Integers of one tag -/

theorem integer_facts {t : Tag} (ht : t.cls = .integer) :
    t.fmt = none ∧ gridBits t = 0 ∧ t.cls ≠ .angle ∧ t.cls ≠ .float := by
  cases t <;> simp_all [Tag.cls, Tag.fmt, gridBits]

theorem readVal_integer {t : Tag} (ht : t.cls = .integer) (vt : VType) (c : Nat) :
    (readVal vt t c).rat = intValue t c := by
  obtain ⟨hf, hg, -⟩ := integer_facts ht
  rw [readVal_grid hf, Val.stands_rat (Val.stands_mk _ _), hg]
  simp

section
variable {vt : VType} {t : Tag} (ht : t.cls = .integer)
include ht

/-- What an exact result that is an integer is written as, where no operand has raised a flag. -/
theorem encodeWith_integer {u : Val} (hf : u.Finite) {n : ℤ} (h : u.rat = n) {fl : Flags} (hfl : fl = 0) :
    encodeWith vt t (u, fl) = intResult vt t n := by
  obtain ⟨hfmt, hgrid, -⟩ := integer_facts ht
  rw [encodeWith_count hfmt vt hf (n := n) (by rw [hgrid, h]; simp) hfl, narrow_integer ht]

theorem encodeWith_sum {a b : Val} (ha : a.Finite) (hb : b.Finite) (hna : a.Normal) (hnb : b.Normal) {x y : ℤ}
    (hx : a.rat = x) (hy : b.rat = y) {fl : Flags} (hfl : fl = 0) (rm : Nat) :
    encodeWith vt t ((a.add rm b).1, (a.add rm b).2 ||| fl) = intResult vt t (x + y) := by
  obtain ⟨hf, hr, h0⟩ := Val.add_finite ha hb hna hnb rm
  exact encodeWith_integer ht hf (by rw [hr, hx, hy]; push_cast; rfl) (by rw [h0, hfl]; rfl)

theorem intResult_in_range {n : ℤ} {c : Nat} (h : n = intValue t c) : intResult vt t n = (residue t n, 0) := by
  rw [← narrow_integer ht, narrow_in_range (h ▸ (intValue_range t c).1) (h ▸ (intValue_range t c).2)]

end

theorem rat_negate_int {v : Val} {n : ℤ} (h : v.rat = n) : v.negate.rat = (-n : ℤ) := by
  rw [Val.rat_negate, h]
  push_cast
  rfl

/-- Settles O34: on one integer tag the operands, the exact results and the results that are written are integers. -/
theorem integerElements : Obligations.IntegerElements := by
  unfold Obligations.IntegerElements
  intro vt t ca cb cd ht hca hcb hcd
  dsimp only
  obtain ⟨hfmt, hgrid, hR, hcls⟩ := integer_facts ht
  have fin := readVal_finite hfmt vt
  have nor := readVal_normal vt t
  have rat := readVal_integer ht vt
  have nfin (c : Nat) := Val.negate_finite (fin c)
  have nnor (c : Nat) := Val.negate_normal (nor c)
  have nrat (c : Nat) := rat_negate_int (rat c)
  have sig2 (a b : Nat) : sigOf [readVal vt t a, readVal vt t b] = 0 := by
    rw [sigOf_two, sigFlag_finite (fin a), sigFlag_finite (fin b)]; rfl
  have sig3 (a b d : Nat) : sigOf [readVal vt t a, readVal vt t b, readVal vt t d] = 0 := by
    rw [sigOf_three, sigFlag_finite (fin a), sigFlag_finite (fin b), sigFlag_finite (fin d)]; rfl
  obtain ⟨prodF, prodR, prod0⟩ := Val.mul_finite (fin ca) (fin cb) (nor ca) (nor cb)
  have prodN := Val.mul_normal (nor ca) (nor cb)
  have prodI : ((readVal vt t ca).mul (readVal vt t cb)).1.rat = ((intValue t ca * intValue t cb : ℤ) : ℚ) := by
    rw [prodR, rat, rat]; push_cast; rfl
  obtain ⟨heq, hne, hlt, hle⟩ := cmpElement_values (vt := vt) hR (ta := t) (tb := t) ca cb
  rw [(fin ca).1, (fin cb).1, lt_eq_rat (fin ca) (fin cb), rat, rat, sig2] at hlt
  rw [(fin ca).1, (fin cb).1, lt_eq_rat (fin cb) (fin ca), rat, rat, sig2] at hle
  simp only [← decide_not, not_lt] at hle
  rw [eqv_eq_rat (fin ca) (fin cb), rat, rat, sig2] at heq hne
  refine ⟨?add, ?sub, ?rsub, ?min, ?max, ?and, ?or, ?xor, ?sll, ?srl, ?sra, ?neg, ?abs, ?mul, ?mulh, ?macc, ?nmsac, ?eq, ?ne, ?lt, ?le⟩
  case add =>
    rw [vopElement_add hR]
    exact encodeWith_sum ht (fin ca) (fin cb) (nor ca) (nor cb) (rat ca) (rat cb) (sig2 ca cb) _
  case sub =>
    rw [vopElement_sub hR, sub_eq_add_neg]
    exact encodeWith_sum ht (fin ca) (nfin cb) (nor ca) (nnor cb) (rat ca) (nrat cb) (sig2 ca cb) _
  case rsub =>
    rw [vopElement_rsub hR, sub_eq_add_neg]
    exact encodeWith_sum ht (fin cb) (nfin ca) (nor cb) (nnor ca) (rat cb) (nrat ca) (sig2 ca cb) _
  case min =>
    obtain ⟨hf, hr⟩ := pick_finite (fin ca) (fin cb) false
    rw [rat, rat, if_neg Bool.false_ne_true, ← Int.cast_min] at hr
    rw [vopElement_min hR, encodeWith_integer ht hf hr (sig2 ca cb)]
    exact (min_choice (intValue t ca) (intValue t cb)).elim (intResult_in_range ht) (intResult_in_range ht)
  case max =>
    obtain ⟨hf, hr⟩ := pick_finite (fin ca) (fin cb) true
    rw [rat, rat, if_pos rfl, ← Int.cast_max] at hr
    rw [vopElement_max hR, encodeWith_integer ht hf hr (sig2 ca cb)]
    exact (max_choice (intValue t ca) (intValue t cb)).elim (intResult_in_range ht) (intResult_in_range ht)
  case and => exact Prod.ext (Nat.mod_eq_of_lt (Nat.and_lt_two_pow _ hcb)) rfl
  case or => exact Prod.ext (Nat.mod_eq_of_lt (Nat.or_lt_two_pow hca hcb)) rfl
  case xor => exact Prod.ext (Nat.mod_eq_of_lt (Nat.xor_lt_two_pow hca hcb)) rfl
  case sll =>
    rw [vopElement_sll hR, ← narrow_integer ht]
    refine encode_grid_int hfmt (Val.scale_finite (fin ca) _) ?_
    rw [Val.scale_rat, rat, hgrid, zpow_natCast]
    push_cast
    ring
  case srl => rw [← narrow_integer ht]; rfl
  case sra => rw [← narrow_integer ht, ← sextN_eq_toInt]; rfl
  case neg => rw [vopElement_neg hR hcls]; exact encodeWith_integer ht (nfin ca) (nrat ca) (sig2 ca cb)
  case abs =>
    rw [vopElement_abs hR hcls]
    exact encodeWith_integer ht (Val.abs_finite (fin ca)) (by rw [Val.rat_abs, rat, Int.natCast_natAbs, Int.cast_abs]) (sig2 ca cb)
  case mul => rw [vopElement_mul hR]; exact encodeWith_integer ht prodF prodI (by rw [prod0, sig2]; rfl)
  case mulh => rw [intValue_eq hca, intValue_eq hcb]; rfl
  case macc =>
    rw [vopElement_macc hR]
    dsimp only
    rw [BitVec.or_assoc]
    exact encodeWith_sum ht (fin cd) prodF (nor cd) prodN (rat cd) prodI (by rw [prod0, sig3]; rfl) _
  case nmsac =>
    rw [vopElement_nmsac hR, sub_eq_add_neg]
    dsimp only
    rw [BitVec.or_assoc]
    exact encodeWith_sum ht (fin cd) (Val.negate_finite prodF) (nor cd) (Val.negate_normal prodN) (rat cd) (rat_negate_int prodI)
      (by rw [prod0, sig3]; rfl) _
  case eq => exact heq.trans (by simp)
  case ne => exact hne.trans (by simp)
  case lt => exact hlt.trans (by simp [flagIf])
  case le => exact hle.trans (by simp [flagIf])

/-! ## Angles (R33, R46) -/

theorem angle_facts {t : Tag} (ht : t.cls = .angle) : t.fmt = none ∧ gridBits t = t.width ∧ t.signed = false ∧ t.cls ≠ .float := by
  cases t <;> simp_all [Tag.cls, Tag.fmt, gridBits, Tag.width, Tag.signed]

theorem residue_congr {t : Tag} {x y : ℤ} (h : x ≡ y [ZMOD (2 ^ t.width : Nat)]) : residue t x = residue t y := by
  unfold residue
  rw [h]

theorem sextN_modEq (w c : Nat) : sextN w c ≡ c [ZMOD (2 ^ w : Nat)] := by
  have h : ((c % 2 ^ w : Nat) : ℤ) ≡ c [ZMOD (2 ^ w : Nat)] := by
    rw [Int.natCast_mod]
    exact Int.mod_modEq _ _
  unfold sextN
  split
  · exact h
  · exact Int.sub_modulus_modEq_iff.mpr h

/-- An operand of a function whose result is an angle: some number of angle units that has the residue of a count. -/
def Units (tR : Tag) (v : Val) (n : ℤ) : Prop :=
  v.Finite ∧ v.Normal ∧ ∃ k : ℤ, v.rat * 2 ^ gridBits tR = k ∧ k ≡ n [ZMOD (2 ^ tR.width : Nat)]

theorem encodeWith_units {vt : VType} {tR : Tag} (hR : tR.cls = .angle) {v : Val} {n : ℤ} (h : Units tR v n) {fl : Flags}
    (hfl : fl = 0) : encodeWith vt tR (v, fl) = (residue tR n, 0) := by
  obtain ⟨hf, -, k, hk, hmod⟩ := h
  have hcount : gridCount vt tR k = k := by simp [gridCount, hR]
  rw [encodeWith_count (angle_facts hR).1 vt hf hk hfl, narrow_eq, hcount, flagIf, if_neg (by simp), residue_congr hmod]

theorem Units.of_int {tR : Tag} {v : Val} (hf : v.Finite) (hn : v.Normal) {n : ℤ} (h : v.rat * 2 ^ gridBits tR = n) : Units tR v n :=
  ⟨hf, hn, n, h, rfl⟩

theorem Units.negate {tR : Tag} {v : Val} {n : ℤ} (h : Units tR v n) : Units tR v.negate (-n) := by
  obtain ⟨hf, hn, k, hk, hmod⟩ := h
  exact ⟨Val.negate_finite hf, Val.negate_normal hn, -k, by rw [Val.rat_negate, neg_mul, hk]; push_cast; rfl, hmod.neg⟩

theorem Units.add {tR : Tag} {a b : Val} {x y : ℤ} (ha : Units tR a x) (hb : Units tR b y) (rm : Nat) :
    Units tR (a.add rm b).1 (x + y) ∧ (a.add rm b).2 = 0 := by
  obtain ⟨haf, han, k, hk, hka⟩ := ha
  obtain ⟨hbf, hbn, l, hl, hlb⟩ := hb
  obtain ⟨hf, hr, h0⟩ := Val.add_finite haf hbf han hbn rm
  exact ⟨⟨hf, Val.add_normal han hbn rm, k + l, by rw [hr, add_mul, hk, hl]; push_cast; rfl, hka.add hlb⟩, h0⟩

/-- An angle as it stands in a product. -/
theorem readVal_angle {t : Tag} (ht : t.cls = .angle) {c : Nat} (hc : c < 2 ^ t.width) (vt : VType) :
    (readVal vt t c).rat * 2 ^ gridBits t = c := by
  obtain ⟨hfmt, -, hs, -⟩ := angle_facts ht
  have hcount : intValue t c = c := by rw [intValue_eq hc, hs]; rfl
  rw [readVal_grid hfmt, Val.stands_rat (Val.stands_mk _ _), hcount, zpow_neg, zpow_natCast, inv_mul_cancel_right₀ (by positivity)]
  rfl

/-- An operand beside a result that is an angle: angle units, of an integer too (R46). -/
theorem operandVal_units {tR t : Tag} (hR : tR.cls = .angle) (ht : t = tR ∨ (t.cls = .integer ∧ t.width = tR.width)) {c : Nat}
    (hc : c < 2 ^ tR.width) (vt : VType) : Units tR (operandVal vt false tR t c) c := by
  obtain ⟨hfmt, hg, -⟩ := angle_facts hR
  obtain rfl | ⟨hi, hw⟩ := ht
  · have hval : operandVal vt false t t c = readVal vt t c := by simp [operandVal, hR]
    rw [hval]
    exact Units.of_int (readVal_finite hfmt vt c) (readVal_normal vt t c) (readVal_angle hR hc vt)
  · have hval : operandVal vt false tR t c = Val.mk (sextN t.width c) (-(t.width : ℤ)) := by simp [operandVal, hR, hi]
    have hst := Val.stands_mk (sextN t.width c) (-(t.width : ℤ))
    rw [hval]
    refine ⟨Val.stands_finite hst, Val.stands_normal hst, sextN t.width c, ?_, by rw [hw]; exact sextN_modEq _ _⟩
    rw [Val.stands_rat hst, hg, hw, zpow_neg, zpow_natCast, inv_mul_cancel_right₀ (by positivity)]

theorem operandVal_product (vt : VType) (tR t : Tag) (c : Nat) : operandVal vt true tR t c = readVal vt t c := by simp [operandVal]

/-- The product of an angle and an integer, in angle units (R46). -/
theorem product_units {tR : Tag} {a b : Val} {x y : ℤ} (ha : a.Finite) (hb : b.Finite) (hna : a.Normal) (hnb : b.Normal)
    (h : a.rat * b.rat * 2 ^ gridBits tR = (x * y : ℤ)) : Units tR (a.mul b).1 (x * y) ∧ (a.mul b).2 = 0 := by
  obtain ⟨hf, hr, h0⟩ := Val.mul_finite ha hb hna hnb
  exact ⟨Units.of_int hf (Val.mul_normal hna hnb) (by rw [hr, h]), h0⟩

theorem angleElements : AngleElements := by
  unfold AngleElements
  intro vt ta tb td tR ca cb cd _ hR hta htb hca hcb
  dsimp only
  have ha := operandVal_units hR hta hca vt
  have hb := operandVal_units hR htb hcb vt
  have sig {a b : Val} {x y : ℤ} (ha : Units tR a x) (hb : Units tR b y) : a.sigFlag ||| b.sigFlag = 0 := by
    rw [sigFlag_finite ha.1, sigFlag_finite hb.1]; rfl
  have sum {a b : Val} {x y : ℤ} (ha : Units tR a x) (hb : Units tR b y) {fl : Flags} (hfl : fl = 0) :
      encodeWith vt tR ((a.add vt.rm b).1, (a.add vt.rm b).2 ||| fl) = (residue tR (x + y), 0) := by
    obtain ⟨hu, h0⟩ := ha.add hb vt.rm
    exact encodeWith_units hR hu (by rw [h0, hfl]; rfl)
  have product {a b : Nat} {x y : ℤ} (hfa : (readVal vt ta a).Finite) (hfb : (readVal vt tb b).Finite)
      (h : (readVal vt ta a).rat * (readVal vt tb b).rat * 2 ^ gridBits tR = (x * y : ℤ)) :
      vopElement .mul vt tR.width ta tb td tR a b cd = (residue tR (x * y), 0) := by
    obtain ⟨hu, h0⟩ := product_units hfa hfb (readVal_normal vt ta a) (readVal_normal vt tb b) h
    have hmul : vopElement .mul vt tR.width ta tb td tR a b cd = encodeWith vt tR (((readVal vt ta a).mul (readVal vt tb b)).1,
        ((readVal vt ta a).mul (readVal vt tb b)).2 ||| ((readVal vt ta a).sigFlag ||| (readVal vt tb b).sigFlag)) := by
      rw [← operandVal_product vt tR, ← operandVal_product vt tR]
      rfl
    rw [hmul]
    exact encodeWith_units hR hu (by rw [h0, sigFlag_finite hfa, sigFlag_finite hfb]; rfl)
  refine ⟨sum ha hb (sig ha hb), ?sub, ?rsub, fun h => ?neg, fun h1 h2 => ?mulInt, fun h1 h2 => ?intMul, ?eq, ?ne⟩
  case sub => rw [sub_eq_add_neg]; exact sum ha hb.negate (sig ha hb)
  case rsub => rw [sub_eq_add_neg]; exact sum hb ha.negate (sig ha hb)
  case neg =>
    subst h
    have hneg : vopElement .neg vt ta.width ta tb td ta ca cb cd = encodeWith vt ta ((operandVal vt false ta ta ca).negate,
        0 ||| ((operandVal vt false ta ta ca).sigFlag ||| (operandVal vt false ta tb cb).sigFlag)) := if_neg (angle_facts hR).2.2.2
    rw [hneg, sig ha hb]
    exact encodeWith_units hR ha.negate rfl
  case mulInt =>
    subst h1
    obtain ⟨hi, -⟩ := htb.resolve_left h2
    exact product (readVal_finite (angle_facts hR).1 vt ca) (readVal_finite (integer_facts hi).1 vt cb) (by
      rw [mul_right_comm, readVal_angle hR hca, readVal_integer hi]; push_cast; rfl)
  case intMul =>
    subst h2
    obtain ⟨hi, -⟩ := hta.resolve_left h1
    exact product (readVal_finite (integer_facts hi).1 vt ca) (readVal_finite (angle_facts hR).1 vt cb) (by
      rw [mul_assoc, readVal_angle hR hcb, readVal_integer hi]; push_cast; rfl)
  all_goals
    have hwa : ca % 2 ^ ta.width = ca := Nat.mod_eq_of_lt (by rcases hta with rfl | ⟨-, h⟩; exacts [hca, h ▸ hca])
    have hwb : cb % 2 ^ tb.width = cb := Nat.mod_eq_of_lt (by rcases htb with rfl | ⟨-, h⟩; exacts [hcb, h ▸ hcb])
    unfold cmpElement
    rw [if_pos hR, hwa, hwb]
  case eq => rfl
  case ne => simp [Flags.none]

/-- Settles O35: reading and writing by the table of R35, the functions by exact values, and angles by residues. -/
theorem elementValues : Obligations.ElementValues :=
  ⟨⟨readVal_readAs, fun vt t _ _ hv => encode_written vt t hv⟩, mixedElements, angleElements⟩

end Sys2Proof.Machine
end
section
/-! PROOFS. Conversions of elements and the class bits (R42, R48, R49, R164, R165). -/
namespace Sys2Proof.Machine

/-! ## The value that a conversion encodes -/

theorem isMxTag_eq (t : Tag) : isMxTag t = t.isMx := by cases t <;> rfl

theorem sigOf_one (a : Val) : sigOf [a] = a.sigFlag := by rw [sigOf_cons, sigOf_nil, Flags.or_zero]

/-- The value of an element under its scale (R48, R164). -/
def ScaledValue (v : Vec) (vt : VType) (ts td : Tag) (i c : Nat) (x : Val) : Prop :=
  if isMxTag ts = isMxTag td then x = readVal vt ts c
  else if (v.scale vt i).toNat = 255 then x.isNan = true
  else ScaledBy (if isMxTag ts then ((v.scale vt i).toNat : ℤ) - 127 else 127 - ((v.scale vt i).toNat : ℤ)) (readVal vt ts c) x

theorem cvtValue_flags (v : Vec) (vt : VType) (ts td : Tag) (i c : Nat) : (cvtValue v vt ts td i c).2 = sigOf [readVal vt ts c] := by
  rw [sigOf_one]
  unfold cvtValue
  dsimp only
  split
  · rfl
  · split <;> rfl

theorem cvtValue_normal (v : Vec) (vt : VType) (ts td : Tag) (i c : Nat) : (cvtValue v vt ts td i c).1.Normal := by
  unfold cvtValue
  dsimp only
  split
  · exact readVal_normal vt ts c
  · split
    · exact Val.normal_nan _
    · exact Val.scale_normal (readVal_normal vt ts c) _

theorem cvtValue_scaled (v : Vec) (vt : VType) (ts td : Tag) (i c : Nat) :
    ScaledValue v vt ts td i c (cvtValue v vt ts td i c).1 := by
  unfold ScaledValue cvtValue
  rw [isMxTag_eq, isMxTag_eq]
  dsimp only
  split
  · rfl
  · unfold Vec.scaleOf scaleExp
    by_cases h : v.scale vt i = 255#8
    · rw [if_pos h, if_pos (by rw [h]; rfl)]
      rfl
    · have h255 : ¬ (v.scale vt i).toNat = 255 := fun hn => h (BitVec.eq_of_toNat_eq hn)
      rw [if_neg h, if_neg h255]
      dsimp only
      rw [neg_sub]
      exact Val.scale_scaledBy (readVal_normal vt ts c) _

/-! ## Saturating conversions -/

theorem Flags.ov_bit (f : Flags) : (f &&& Flags.ov) ≠ 0 ↔ f.getLsbD 2 = true := by
  revert f
  decide

theorem cvtSat_grid {v : Vec} {vt : VType} {ts td : Tag} {i c : Nat} (ht : td.fmt = none) :
    let x := (cvtValue v vt ts td i c).1
    let sig := sigOf [readVal vt ts c]
    let n := rounded (rmOf vt) (x.rat * 2 ^ gridBits td)
    let held := max (intLo td) (min (intHi td) n)
    cvtSatElement v vt ts td i c = match x with
      | .nan _ => (0, 1)
      | .inf neg => (residue td (if neg then intLo td else intHi td), 32 ||| sig)
      | _ => (residue td held, flagIf (held ≠ n) 32 ||| flagIf ((n : ℚ) ≠ x.rat * 2 ^ gridBits td) 16 ||| sig) := by
  unfold cvtSatElement
  rw [ht]
  dsimp only
  rw [cvtValue_flags]
  cases (cvtValue v vt ts td i c).1 with
  | nan s => rfl
  | inf s => rfl
  | zero s =>
    have h0 : rounded (rmOf vt) ((Val.zero s).rat * 2 ^ gridBits td) = 0 := by simpa using rounded_intCast (rmOf vt) 0
    have hheld : max (intLo td) (min (intHi td) 0) = 0 := by cases td <;> decide
    dsimp only
    rw [h0, hheld]
    simp [residue, flagIf]
  | fin m e =>
    dsimp only
    rw [roundTo_grid, Tag.saturate_eq, Flags.when_decide]
    rfl

theorem cvtSat_float {v : Vec} {vt : VType} {ts td : Tag} {i c : Nat} {f : FloatFmt} {r : FloatRow} (ht : td.fmt = some f)
    (h : f.Matches r) :
    let x := (cvtValue v vt ts td i c).1
    let sig := sigOf [readVal vt ts c]
    let q := encode vt td x
    cvtSatElement v vt ts td i c =
      if x.isInf then (r.code (x.neg? = true) r.maxCode, 4 ||| sig)
      else if q.2.getLsbD 2 then (r.code (x.neg? = true) r.maxCode, 4 ||| 16 ||| sig) else (q.1, q.2 ||| sig) := by
  have finite (x : Val) (hx : x.isInf = false) (g : Flags) :
      (if ((encode vt td x).2 &&& Flags.ov) ≠ 0 then (f.signed x.neg? f.maxCode, Flags.ov ||| Flags.nx ||| g)
        else ((encode vt td x).1, (encode vt td x).2 ||| g)) =
      if x.isInf then (r.code (x.neg? = true) r.maxCode, 4 ||| g)
      else if (encode vt td x).2.getLsbD 2 then (r.code (x.neg? = true) r.maxCode, 4 ||| 16 ||| g)
      else ((encode vt td x).1, (encode vt td x).2 ||| g) := by
    rw [hx, if_neg Bool.false_ne_true, FloatFmt.signed_bool h, h.max]
    simp only [Flags.ov_bit]
    rfl
  unfold cvtSatElement
  rw [ht]
  dsimp only
  rw [cvtValue_flags]
  generalize (cvtValue v vt ts td i c).1 = x
  cases x with
  | inf s => 
    dsimp only
    rw [FloatFmt.signed_bool h, h.max]
    rfl
  | _ => exact finite _ rfl _

/-! ## Class bits (R165) -/

theorem fclassBits_eq {t : Tag} {f : FloatRow} (h : floatRow t = some f) (c : Nat) :
      let mag := c % 2 ^ (f.eb + f.p)
      let neg := decide (c / 2 ^ (f.eb + f.p) % 2 = 1)
      fclassBits t c = 2 ^ (
        if f.inf = some mag then (if neg then 0 else 7)
        else if f.maxCode < mag then (if mag % 2 ^ f.p < 2 ^ (f.p - 1) then 8 else 9)
        else if mag = 0 then (if neg then 3 else 4)
        else if mag < 2 ^ f.p then (if neg then 2 else 5) else if neg then 1 else 6) := by
  obtain ⟨m, hm, hmat⟩ := Tag.fmt_of_floatRow h
  have hd := hmat.decode c
  unfold fclassBits
  rw [hm]
  dsimp only
  by_cases hi : f.inf = some (c % 2 ^ (f.eb + f.p))
  · rw [if_pos hi, hd.inf hi]
    dsimp only
    split <;> rfl
  · rw [if_neg hi]
    by_cases hn : f.maxCode < c % 2 ^ (f.eb + f.p)
    · rw [if_pos hn, hd.nan hi hn]
      dsimp only
      simp only [decide_eq_true_eq]
      split <;> rfl
    · rw [if_neg hn]
      by_cases h0 : c % 2 ^ (f.eb + f.p) = 0
      · rw [if_pos h0, hd.zero h0]
        dsimp only
        split <;> rfl
      · obtain ⟨k, e, hv, -, -, hneg⟩ := hd.fin h0 (by omega)
        rw [if_neg h0, hv]
        dsimp only
        rw [hmat.subnormal]
        simp only [decide_eq_true_eq, hneg, h0, ne_eq, not_false_eq_true, true_and]
        split <;> split <;> rfl

theorem cvtElement_value {ts td : Tag} (hs : ts.cls ≠ .pointer) (hd : td.cls ≠ .pointer) (v : Vec) (vt : VType) (i c : Nat) :
    let x := (cvtValue v vt ts td i c).1
    let q := if (ts.cls = .float ∨ ts.cls = .smallFloat) ∧ (td.cls = .integer ∨ td.cls = .fixed) then encodeR42 vt td x else encode vt td x
    cvtElement v vt ts td i c = (q.1, q.2 ||| sigOf [readVal vt ts c]) := by
  unfold cvtElement
  dsimp only
  rw [cvtValue_flags, if_neg (by simp [hs, hd])]
  simp only [Bool.and_eq_true, Bool.or_eq_true, decide_eq_true_eq]

theorem convertedElements : ConvertedElements := by
  unfold ConvertedElements
  intro v vt ts td i c _
  dsimp only
  have hx := cvtValue_scaled v vt ts td i c
  have hn := cvtValue_normal v vt ts td i c
  refine ⟨fun h => ?pointer, fun hs hd => ⟨_, _, hx, cvtElement_value hs hd v vt i c, fun hf hg => ?toGrid, fun h => ?others⟩,
    ⟨_, hx, fun hg => cvtSat_grid (fmt_none_of_grid hg).1, fun f hf => ?sat⟩, fun f hf => fclassBits_eq hf c⟩
  case pointer => exact if_pos (by simpa using h)
  case toGrid => rw [if_pos ⟨hf, hg⟩]; exact encodeR42_converted vt td _
  case others => rw [if_neg h]; exact encode_written vt td hn
  case sat =>
    obtain ⟨m, hm, hmat⟩ := Tag.fmt_of_floatRow hf
    exact ⟨_, encode_written vt td hn, cvtSat_float hm hmat⟩

/-- Settles O38: the value under its scale, written by R42 or by R33 to R43; saturation; and one class bit. -/
theorem conversionValues : Obligations.ConversionValues := convertedElements

end Sys2Proof.Machine
end
section
/-! PROOFS. What the matrix array adds, and what a drain reads of it (R52, R54, R220 to R222, R229 to R237). -/
namespace Sys2Proof.Machine

/-! ## Integers of slot bytes and weight cells (R220, R221) -/

theorem FloatFmt.decode_exponent {f : FloatFmt} {c : Nat} {m e : ℤ} (h : f.decode c = .fin m e) : 1 - f.bias - f.mbits ≤ e := by
  unfold FloatFmt.decode at h
  dsimp only at h
  split at h
  · split at h <;> cases h
  · split at h
    · cases h
    · split at h
      · split at h <;> cases h
        exact le_refl _
      · next hne =>
        cases h
        omega

/-- The integer of a float code on a grid that holds all its values. -/
theorem gridInt_eq {t : Tag} {r : FloatRow} (h : floatRow t = some r) (hinf : r.inf = none) {n : Nat} (hn : 0 ≤ 1 - r.bias - r.p + n)
    (c : Nat) : if r.maxCode < c % 2 ^ (r.eb + r.p) then gridInt t n c = none
      else ∃ i : ℤ, gridInt t n c = some i ∧ (i : ℚ) = r.rat c * 2 ^ n := by
  obtain ⟨f, hf, hm⟩ := Tag.fmt_of_floatRow h
  have hd := hm.decode c
  have hval : value t c = f.decode c := by unfold value; rw [hf]
  unfold gridInt
  rw [hval]
  split
  · next hmax => rw [hd.nan (by rw [hinf]; exact nofun) hmax]
  · next hmax =>
    by_cases h0 : c % 2 ^ (r.eb + r.p) = 0
    · rw [hd.zero h0]
      refine ⟨0, rfl, ?_⟩
      rw [r.rat_eq, h0, r.mag_zero]
      simp
    · obtain ⟨m, e, hv, -, hrat, -⟩ := hd.fin h0 (by omega)
      have he := FloatFmt.decode_exponent hv
      rw [hm.bias, hm.p] at he
      refine ⟨_, by rw [hv], ?_⟩
      rw [← hrat, hv, Val.rat_fin, mul_assoc, ← zpow_natCast, ← zpow_add₀ (by norm_num : (2 : ℚ) ≠ 0), two_zpow_toNat (by omega)]
      push_cast
      rfl

theorem slotIntegers (b : Byte) :
    let float (t : Tag) (n : Nat) (o : Option ℤ) : Prop := ∀ f, floatRow t = some f →
      if f.maxCode < b.toNat % 2 ^ (f.eb + f.p) then o = none else ∃ i : ℤ, o = some i ∧ (i : ℚ) = f.rat b.toNat * 2 ^ n
    slotInt 0 b = some b.toInt ∧ slotInt 7 b = some b.toInt ∧ slotInt 15 b = some (b.extractLsb' 0 4).toInt ∧
    slotInt 23 b = some (b.extractLsb' 0 4).toInt ∧ float .e2m1 1 (slotInt 6 b) ∧ float .e2m3 3 (slotInt 5 b) ∧
    float .e3m2 4 (slotInt 4 b) ∧ float .e4m3 9 (slotInt 2 b) ∧
    cellInt 0 b = b.toInt ∧ cellInt 7 b = b.toInt ∧ float .e2m3 3 (some (cellInt 5 b)) ∧ float .e2m1 1 (some (cellInt 6 b)) := by
  have byte : sextN 8 b.toNat = b.toInt := by rw [sextN_eq_toInt, BitVec.ofNat_toNat, BitVec.setWidth_eq]
  have nibble : sextN 4 b.toNat = (b.extractLsb' 0 4).toInt := by
    rw [sextN_eq_toInt, BitVec.ofNat_toNat]
    congr 1
  have total {t : Tag} {r : FloatRow} (h : floatRow t = some r) (hinf : r.inf = none) {n : Nat} (hn : 0 ≤ 1 - r.bias - r.p + n)
      (hmax : ¬ r.maxCode < b.toNat % 2 ^ (r.eb + r.p)) :
      if r.maxCode < b.toNat % 2 ^ (r.eb + r.p) then some ((gridInt t n b.toNat).getD 0) = none
      else ∃ i : ℤ, some ((gridInt t n b.toNat).getD 0) = some i ∧ (i : ℚ) = r.rat b.toNat * 2 ^ n := by
    have := gridInt_eq h hinf hn b.toNat
    rw [if_neg hmax] at this ⊢
    obtain ⟨i, hi, hr⟩ := this
    exact ⟨i, by rw [hi]; rfl, hr⟩
  refine ⟨congrArg some byte, congrArg some byte, congrArg some nibble, congrArg some nibble, fun f hf => ?_, fun f hf => ?_, fun f hf => ?_,
    fun f hf => ?_, byte, byte, fun f hf => ?_, fun f hf => ?_⟩ <;> cases hf
  · exact gridInt_eq rfl rfl (by decide) _
  · exact gridInt_eq rfl rfl (by decide) _
  · exact gridInt_eq rfl rfl (by decide) _
  · exact gridInt_eq rfl rfl (by decide) _
  · exact total (t := .e2m3) rfl rfl (by decide) (by dsimp only; omega)
  · exact total (t := .e2m1) rfl rfl (by decide) (by dsimp only; omega)

/-! ## The sum of one cell (R229, R230) -/

theorem kBlocks_eq {sp : BitVec 2} (h : sp ≠ 3) : kBlocks sp = (if sp = 0 then 8 else if sp = 1 then 16 else 32) ∧
    256 / kBlocks sp = (if sp = 0 then 32 else if sp = 1 then 16 else 8) ∧ 256 / kBlocks sp * kBlocks sp = 256 := by
  revert h; revert sp; decide

/-- The K-block of a cell's position (R222, R230). -/
theorem WeightSet.kPos_block (w : WeightSet) (h : w.sp ≠ 3) (k n : Nat) : w.kPos k n / 32 = k / (256 / kBlocks w.sp) := by
  rw [(kBlocks_eq h).2.1]
  unfold WeightSet.kPos sparseN
  by_cases h0 : w.sp = 0
  · rw [if_pos h0, if_pos h0]
  · rw [if_neg h0, if_neg h0]
    have hidx (d : BitVec 3) (x : Store (BitVec 3)) (a : Nat) := (Store.get d x a).isLt
    by_cases h1 : w.sp = 1
    · rw [if_pos h1, if_pos h1]
      have := hidx (BitVec.ofNat 3 (k % 4)) w.idx (4096 * k + n)
      omega
    · rw [if_neg h1, if_neg h1]
      have := hidx (BitVec.ofNat 3 (k % 2)) w.idx (4096 * k + n)
      omega

/-- An induction along a fold over the numbers below n. -/
theorem foldl_range_keeps {β : Type} {f : β → Nat → β} (P : Nat → β → Prop) {b : β} (h0 : P 0 b) :
    ∀ {n : Nat}, (∀ i, i < n → ∀ s, P i s → P (i + 1) (f s i)) → P n ((List.range n).foldl f b)
  | 0, _ => h0
  | n + 1, h => by
    rw [List.range_succ, List.foldl_append]
    exact h n (by omega) _ (foldl_range_keeps P h0 fun i hi => h i (by omega))

/-- The partial sum of a block: what the first j rows give, or none once one of them is missing. -/
def PartialSum (a : Nat → Option ℤ) (g : Nat → ℤ) (j : Nat) (o : Option ℤ) : Prop :=
  (o = none ↔ ∃ i, i < j ∧ a i = none) ∧ ∀ y, o = some y → y = ∑ i ∈ Finset.range j, (a i).getD 0 * g i

theorem foldl_partialSum {a : Nat → Option ℤ} {g : Nat → ℤ} {F : Option ℤ → Nat → Option ℤ} (hnone : ∀ j, F none j = none)
    (hsome : ∀ y j, F (some y) j = (a j).map fun x => y + x * g j) (n : Nat) :
    PartialSum a g n ((List.range n).foldl F (some 0)) := by
  refine foldl_range_keeps (PartialSum a g) ⟨by simp, fun y hy => by simpa using hy.symm⟩ fun j _ o ⟨hmissing, hsum⟩ => ?_
  cases o with
  | none =>
    obtain ⟨i, hi, ha⟩ := hmissing.mp rfl
    rw [hnone]
    exact ⟨⟨fun _ => ⟨i, by omega, ha⟩, fun _ => rfl⟩, nofun⟩
  | some y =>
    have hbefore (i : Nat) (hi : i < j) : a i ≠ none := fun ha => nomatch hmissing.mpr ⟨i, hi, ha⟩
    rw [hsome]
    cases ha : a j with
    | none => exact ⟨⟨fun _ => ⟨j, by omega, ha⟩, fun _ => rfl⟩, nofun⟩
    | some x =>
      refine ⟨⟨nofun, fun ⟨i, hi, hai⟩ => ?_⟩, fun z hz => ?_⟩
      · obtain hlt | rfl : i < j ∨ i = j := by omega
        · exact absurd hai (hbefore i hlt)
        · rw [ha] at hai
          cases hai
      · rw [Finset.sum_range_succ, ha, ← hsum y rfl]
        exact (Option.some.inj hz).symm

theorem blockSum_partial (w : WeightSet) (slots : List Slot) (row n kb : Nat) :
    let rows := 256 / kBlocks w.sp
    PartialSum (fun j => slotInt (slots.headD Slot.reset).code (slotElem slots row (w.kPos (rows * kb + j) n)))
      (fun j => cellInt w.btag (w.cells.read (4096 * (rows * kb + j) + n))) rows (blockSum w slots row n kb) := by
  refine foldl_partialSum (fun _ => rfl) (fun y j => ?_) _
  dsimp only
  cases slotInt (slots.headD Slot.reset).code (slotElem slots row (w.kPos (256 / kBlocks w.sp * kb + j) n)) <;> rfl

/-- The positions of a K-block. -/
theorem sum_block {R b : Nat} (hR : 0 < R) {N : Nat} (hN : R * b + R ≤ N) (F : Nat → ℤ) :
    ∑ k ∈ (Finset.range N).filter (fun k => k / R = b), F k = ∑ j ∈ Finset.range R, F (R * b + j) := by
  have hdiv (k : Nat) : k / R = b ↔ R * b ≤ k ∧ k < R * b + R := by
    rw [Nat.div_eq_iff hR, Nat.mul_comm b R]
    omega
  refine Finset.sum_nbij' (fun k => k - R * b) (fun j => R * b + j) ?_ ?_ ?_ ?_ ?_ <;>
    simp only [Finset.mem_filter, Finset.mem_range, hdiv] <;> intro k hk
  · omega
  · omega
  · omega
  · omega
  · rw [Nat.add_sub_cancel' hk.2.1]

/-- A sum scaled up is an integer. -/
theorem floor_scale_up (p : ℤ) {s : ℤ} (hs : 0 ≤ s) :
    ⌊(p : ℚ) * 2 ^ s⌋ = p * (2 ^ s.toNat : Nat) ∧ ((⌊(p : ℚ) * 2 ^ s⌋ : ℤ) : ℚ) = p * 2 ^ s := by
  have h : (p : ℚ) * 2 ^ s = ((p * (2 ^ s.toNat : Nat) : ℤ) : ℚ) := by
    rw [two_zpow_toNat hs]
    push_cast
    rfl
  rw [h, Int.floor_intCast]
  exact ⟨rfl, rfl⟩

/-- A sum scaled down is floored, and loses something unless the power divides it (R229). -/
theorem floor_scale_down (p : ℤ) {s : ℤ} (hs : ¬ 0 ≤ s) :
    ⌊(p : ℚ) * 2 ^ s⌋ = floorShift p (-s).toNat ∧
      (((⌊(p : ℚ) * 2 ^ s⌋ : ℤ) : ℚ) = p * 2 ^ s ↔ floorShift p (-s).toNat * (2 ^ (-s).toNat : Nat) = p) := by
  have hpow : (2 : ℚ) ^ s = ((2 ^ (-s).toNat : Nat) : ℚ)⁻¹ := by
    rw [← two_zpow_toNat (by omega), ← zpow_neg, neg_neg]
  have hp : ((2 ^ (-s).toNat : Nat) : ℚ) ≠ 0 := by positivity
  have hfloor : ⌊(p : ℚ) * 2 ^ s⌋ = floorShift p (-s).toNat := by
    rw [hpow, ← div_eq_mul_inv]
    exact Rat.floor_intCast_div_natCast _ _
  refine ⟨hfloor, ?_⟩
  rw [hfloor, hpow, eq_mul_inv_iff_mul_eq₀ hp]
  exact_mod_cast Iff.rfl

/-- What the pass has gathered of a cell after m blocks: whether one was bad, and else the floored sums and whether one lost something. -/
def Gathered (bad : Nat → Prop) (x : Nat → ℚ) (m : Nat) (u : ℤ × Bool × Bool) : Prop :=
  (u.2.2 = true ↔ ∃ b, b < m ∧ bad b) ∧
    ((∀ b, b < m → ¬ bad b) → u.1 = ∑ b ∈ Finset.range m, ⌊x b⌋ ∧ (u.2.1 = true ↔ ∃ b, b < m ∧ ((⌊x b⌋ : ℤ) : ℚ) ≠ x b))

theorem Gathered.bad {bad : Nat → Prop} {x : Nat → ℚ} {m : Nat} {u : ℤ × Bool × Bool} (hb : bad m) :
    Gathered bad x (m + 1) (u.1, u.2.1, true) :=
  ⟨⟨fun _ => ⟨m, by omega, hb⟩, fun _ => rfl⟩, fun h => absurd hb (h m (by omega))⟩

theorem exists_lt_succ {p : Nat → Prop} {m : Nat} : (∃ b, b < m + 1 ∧ p b) ↔ (∃ b, b < m ∧ p b) ∨ p m := by
  constructor
  · rintro ⟨b, hb, hp⟩
    obtain hlt | rfl : b < m ∨ b = m := by omega
    · exact .inl ⟨b, hlt, hp⟩
    · exact .inr hp
  · rintro (⟨b, hb, hp⟩ | hp)
    · exact ⟨b, by omega, hp⟩
    · exact ⟨m, by omega, hp⟩

theorem Gathered.good {bad : Nat → Prop} {x : Nat → ℚ} {m : Nat} {u : ℤ × Bool × Bool} (h : Gathered bad x m u) (hb : ¬ bad m)
    {l : Bool} (hl : l = true ↔ ((⌊x m⌋ : ℤ) : ℚ) ≠ x m) : Gathered bad x (m + 1) (u.1 + ⌊x m⌋, u.2.1 || l, u.2.2) := by
  obtain ⟨h1, h2⟩ := h
  refine ⟨by rw [exists_lt_succ, ← h1]; simp [hb], fun hall => ?_⟩
  obtain ⟨h3, h4⟩ := h2 fun b hlt => hall b (by omega)
  exact ⟨by rw [Finset.sum_range_succ, ← h3], by rw [exists_lt_succ, ← h4, ← hl, Bool.or_eq_true]⟩

theorem passCell_gathered (w : WeightSet) (slots : List Slot) (anc : BitVec 9) (row n : Nat) {sum : Nat → ℤ} {missing : Nat → Prop}
    (hsum : ∀ b, b < kBlocks w.sp → (blockSum w slots row n b = none ↔ missing b) ∧ ∀ y, blockSum w slots row n b = some y → y = sum b) :
    let eA (b : Nat) : Byte := ((slots.getD (b / 8) Slot.reset).scales).getD (b % 8) 127
    let s (b : Nat) : ℤ := (eA b).toNat + (w.scale b n).toNat - anc.toNat
    Gathered (fun b => eA b = 255 ∨ w.scale b n = 255 ∨ 40 < s b ∨ missing b) (fun b => sum b * 2 ^ s b) (kBlocks w.sp)
      (passCell w slots anc row n) := by
  intro eA s
  unfold passCell
  refine foldl_range_keeps (Gathered _ _) ⟨by simp, fun _ => by simp⟩ fun b hb u hu => ?_
  obtain ⟨hnone, hsome⟩ := hsum b hb
  dsimp only
  cases hbs : blockSum w slots row n b with
  | none => exact .bad (.inr (.inr (.inr (hnone.mp hbs))))
  | some p =>
    have hm : ¬ missing b := fun h => by
      rw [hnone.mpr h] at hbs
      cases hbs
    obtain rfl := hsome p hbs
    show Gathered _ _ (b + 1) (if (decide (eA b = 255) || decide (w.scale b n = 255) || decide (40 < s b)) = true then _
      else if 0 ≤ s b then _ else _)
    simp only [Bool.or_eq_true, decide_eq_true_eq, or_assoc]
    by_cases hbad : eA b = 255 ∨ w.scale b n = 255 ∨ 40 < s b
    · rw [if_pos hbad]
      exact .bad (by tauto)
    · rw [if_neg hbad]
      have hgood : ¬ (eA b = 255 ∨ w.scale b n = 255 ∨ 40 < s b ∨ missing b) := by tauto
      by_cases hs : 0 ≤ s b
      · obtain ⟨hfl, hex⟩ := floor_scale_up (sum b) hs
        have := hu.good hgood (l := false) (by simpa using hex)
        rw [if_pos hs]
        rwa [Bool.or_false, hfl] at this
      · obtain ⟨hfl, hex⟩ := floor_scale_down (sum b) hs
        rw [if_neg hs]
        rw [← hfl]
        exact hu.good hgood (by rw [bne_iff_ne, ne_eq, ne_eq, hex, hfl])

/-- A cell that is not bad in any block receives the floored sums of its blocks (R229, R230). -/
theorem passSum (w : WeightSet) (slots : List Slot) (anc : BitVec 9) (row n : Nat) (hsp : w.sp ≠ 3) :
    let a (k : Nat) : Option ℤ := slotInt (slots.headD Slot.reset).code (slotElem slots row (w.kPos k n))
    let sum (b : Nat) : ℤ := ∑ k ∈ (Finset.range 256).filter (fun k => w.kPos k n / 32 = b),
      (a k).getD 0 * cellInt w.btag (w.cells.read (4096 * k + n))
    let eA (b : Nat) : Byte := ((slots.getD (b / 8) Slot.reset).scales).getD (b % 8) 127
    let s (b : Nat) : ℤ := (eA b).toNat + (w.scale b n).toNat - anc.toNat
    Gathered (fun b => eA b = 255 ∨ w.scale b n = 255 ∨ 40 < s b ∨ ∃ k, k < 256 ∧ w.kPos k n / 32 = b ∧ a k = none)
      (fun b => sum b * 2 ^ s b) (kBlocks w.sp) (passCell w slots anc row n) := by
  intro a sum eA s
  refine passCell_gathered w slots anc row n fun b hb => ?_
  obtain ⟨hmissing, hvalue⟩ := blockSum_partial w slots row n b
  obtain ⟨hk, hrows, htotal⟩ := kBlocks_eq hsp
  have hR : 0 < 256 / kBlocks w.sp := by rw [hrows]; split <;> [omega; (split <;> omega)]
  have hN : 256 / kBlocks w.sp * b + 256 / kBlocks w.sp ≤ 256 := by
    have := Nat.mul_le_mul_left (256 / kBlocks w.sp) (show b + 1 ≤ kBlocks w.sp by omega)
    rwa [htotal, Nat.mul_succ] at this
  constructor
  · rw [hmissing]
    constructor
    · rintro ⟨j, hj, ha⟩
      refine ⟨_, by omega, ?_, ha⟩
      rw [w.kPos_block hsp, Nat.mul_add_div hR, Nat.div_eq_of_lt hj, Nat.add_zero]
    · rintro ⟨k, hk, hb, ha⟩
      rw [w.kPos_block hsp] at hb
      have := Nat.div_add_mod k (256 / kBlocks w.sp)
      rw [hb] at this
      exact ⟨k % (256 / kBlocks w.sp), Nat.mod_lt _ hR, by dsimp only; rw [this]; exact ha⟩
  · intro y hy
    rw [hvalue y hy]
    simp only [sum, w.kPos_block hsp]
    exact (sum_block hR hN fun k => (a k).getD 0 * cellInt w.btag (w.cells.read (4096 * k + n))).symm

/-! ## Cells and the bellows (R229, R233) -/

theorem TileCell.add_bad (c : TileCell) (p : ℤ × Bool) : c.add (p.1, p.2, true) = { c with inv := true } := rfl

theorem TileCell.add_good (c : TileCell) (t : ℤ) (lossy : Bool) :
    let u := c.add (t, lossy, false)
    u.v = BitVec.ofInt 28 (c.v.toInt + t) ∧ u.v.toInt + 2 ^ 28 * u.c = c.v.toInt + 2 ^ 28 * c.c + t ∧
      u.x = (c.x || lossy) ∧ u.inv = c.inv := by
  refine ⟨rfl, ?_, rfl, rfl⟩
  show (BitVec.ofInt 28 (c.v.toInt + t)).toInt +
    2 ^ 28 * (c.c + (c.v.toInt + t - (BitVec.ofInt 28 (c.v.toInt + t)).toInt) / 2 ^ 28) = _
  rw [BitVec.toInt_ofInt]
  have : (2 ^ 28 : ℤ) ∣ c.v.toInt + t - (c.v.toInt + t).bmod (2 ^ 28) := by
    have := Int.dvd_self_sub_bmod (x := c.v.toInt + t) (m := 2 ^ 28)
    exact_mod_cast this
  omega

theorem belEntries_ceil (c : ℤ) : (belEntries c : ℤ) = ⌈(|c| : ℚ) / 32767⌉ := by
  have h : (|(c : ℚ)|) / 32767 = ((|c| : ℤ) : ℚ) / (32767 : Nat) := by push_cast; rfl
  rw [h, Rat.ceil_intCast_div_natCast, belEntries, Int.abs_eq_natAbs]
  omega

/-! ## One cell of a pass (R233, R234) -/

section
variable {room : Nat} {unread : Nat → Bool} {p : Pass} {key : Nat} {x : ℤ × Bool × Bool}

/-- A cell that has an entry, or needs none, receives its sum. -/
theorem Pass.step_adds {old new : TileCell} (hold : Store.get TileCell.zero p.cells key = old) (hnew : old.add x = new)
    (hstop : p.stop = none) (hread : ¬ (new.c ≠ old.c ∧ unread key = true))
    (h0 : (0 : ℤ) ≤ p.used + belEntries new.c - belEntries old.c) (hroom : (p.used : ℤ) + belEntries new.c - belEntries old.c ≤ room) :
    let q := p.step room unread key x
    q.stop = none ∧ (∀ z, Store.get TileCell.zero q.cells z = if z = key then new else Store.get TileCell.zero p.cells z) ∧
      (q.used : ℤ) = p.used + belEntries new.c - belEntries old.c ∧
      (p.full = true ∨ (p.used < room ∧ q.used = room) → q.full = true) := by
  unfold Pass.step
  rw [hold]
  dsimp only
  rw [hnew]
  by_cases hsame : new = old
  · rw [if_pos hsame]
    refine ⟨hstop, fun z => ?_, by rw [hsame]; omega, by rintro (h | h); exacts [h, absurd h.2 h.1.ne]⟩
    split
    · next hz => rw [hz, hold, hsame]
    · rfl
  · rw [if_neg hsame, if_neg (by simpa using hread), if_neg (by omega)]
    refine ⟨hstop, fun z => Store.get_put .., by dsimp only; omega, ?_⟩
    rintro (h | h)
    · simp [h]
    · simpa using .inr h.2

/-- A cell whose entry is unreadable stops the pass. -/
theorem Pass.step_bad {old new : TileCell} (hold : Store.get TileCell.zero p.cells key = old) (hnew : old.add x = new)
    (hread : new.c ≠ old.c ∧ unread key = true) : p.step room unread key x = { p with stop := some (.bad key) } := by
  unfold Pass.step
  rw [hold]
  dsimp only
  rw [hnew, if_neg (fun h => hread.1 (by rw [h])), if_pos (by simpa using hread)]

/-- A cell for which the bellows has no entry stops the pass. -/
theorem Pass.step_full {old new : TileCell} (hold : Store.get TileCell.zero p.cells key = old) (hnew : old.add x = new)
    (hused : p.used ≤ room) (hread : ¬ (new.c ≠ old.c ∧ unread key = true))
    (hroom : (room : ℤ) < p.used + belEntries new.c - belEntries old.c) :
    p.step room unread key x = { p with full := true, stop := some (.full key) } := by
  have hne : ¬ new = old := by
    rintro rfl
    omega
  unfold Pass.step
  rw [hold]
  dsimp only
  rw [hnew, if_neg hne, if_neg (by simpa using hread), if_pos (by omega)]

/-- Once the bellows was full, the pass remembers it. -/
theorem Pass.step_keeps_full (h : p.full = true) : (p.step room unread key x).full = true := by
  unfold Pass.step
  dsimp only
  split
  · exact h
  · split
    · exact h
    · split
      · rfl
      · simp [h]

end

/-! ## The pass of a row -/

section
variable (f : Nat → ℤ × Bool × Bool) (room : Nat) (unread : Nat → Bool) (pos : Nat) (t : Pass)

/-- One step of the pass of a row, unless it has stopped. -/
def rowStep (p : Pass) (n : Nat) : Pass := if p.stop.isSome then p else p.step room unread (pos + n) (f (pos + n))

/-- The cell at distance i of the row's start, before its merge and after it. -/
def oldCell (i : Nat) : TileCell := Store.get TileCell.zero t.cells (pos + i)
/-- The cell at distance i of the row's start after its merge. -/
def newCell (i : Nat) : TileCell := (oldCell pos t i).add (f (pos + i))

/-- The bellows entries that the tile holds once i cells have been merged. -/
def needOf (i : Nat) : ℤ := t.used + ∑ j ∈ Finset.range i, ((belEntries (newCell f pos t j).c : ℤ) - belEntries (oldCell pos t j).c)

/-- A merge that meets an unreadable entry. -/
def MeetsBad (i : Nat) : Prop := (newCell f pos t i).c ≠ (oldCell pos t i).c ∧ unread (pos + i) = true

/-- The first i cells of the row have been merged, and no other has changed. -/
def Added (i : Nat) (p : Pass) : Prop :=
  ∀ z, Store.get TileCell.zero p.cells z = if pos ≤ z ∧ z < pos + i then newCell f pos t (z - pos) else Store.get TileCell.zero t.cells z

/-- The pass stands behind its first i cells. -/
structure Going (i : Nat) (p : Pass) : Prop where
  stop : p.stop = none
  added : Added f pos t i p
  used : (p.used : ℤ) = needOf f pos t i
  full : ∀ j, j < i → needOf f pos t j < room → needOf f pos t (j + 1) = room → p.full = true

variable {f room unread pos t}

theorem needOf_succ (i : Nat) :
    needOf f pos t (i + 1) = needOf f pos t i + belEntries (newCell f pos t i).c - belEntries (oldCell pos t i).c := by
  unfold needOf
  rw [Finset.sum_range_succ]
  ring

theorem Going.cell {i : Nat} {p : Pass} (h : Going f room pos t i p) : Store.get TileCell.zero p.cells (pos + i) = oldCell pos t i := by
  rw [h.added, if_neg (by omega)]
  rfl

theorem Going.next {i : Nat} {p : Pass} (h : Going f room pos t i p) (hi : needOf f pos t i ≤ room) (h0 : 0 ≤ needOf f pos t (i + 1))
    (hs : ¬ MeetsBad f unread pos t i) (hr : needOf f pos t (i + 1) ≤ room) :
    Going f room pos t (i + 1) (rowStep f room unread pos p i) := by
  have hneed := needOf_succ (f := f) (pos := pos) (t := t) i
  have hused := h.used
  obtain ⟨hstop, hcells, hu, hfull⟩ := Pass.step_adds (x := f (pos + i)) (unread := unread) (room := room) h.cell rfl h.stop hs
    (by rw [h.used]; unfold newCell at hneed; omega) (by rw [h.used]; unfold newCell at hneed; omega)
  unfold rowStep
  rw [if_neg (by simp [h.stop])]
  refine ⟨hstop, fun z => ?_, by rw [hu, hneed, h.used]; rfl, fun j hj hj1 hj2 => ?_⟩
  · rw [hcells]
    by_cases hz : z = pos + i
    · rw [if_pos hz, if_pos (by omega), show z - pos = i by omega]
      rfl
    · rw [if_neg hz, h.added]
      exact if_congr (by omega) rfl rfl
  · obtain hlt | rfl : j < i ∨ j = i := by omega
    · exact hfull (.inl (h.full j hlt hj1 hj2))
    · refine hfull (.inr ⟨by omega, ?_⟩)
      unfold newCell at hneed
      omega

/-- What one more cell does where it stops the pass. -/
theorem Going.stops {i : Nat} {p : Pass} (h : Going f room pos t i p) (hi : needOf f pos t i ≤ room) :
    (MeetsBad f unread pos t i → rowStep f room unread pos p i = { p with stop := some (.bad (pos + i)) }) ∧
    (¬ MeetsBad f unread pos t i → room < needOf f pos t (i + 1) →
      rowStep f room unread pos p i = { p with full := true, stop := some (.full (pos + i)) }) := by
  have hneed := needOf_succ (f := f) (pos := pos) (t := t) i
  have hused := h.used
  unfold rowStep
  rw [if_neg (by simp [h.stop])]
  exact ⟨Pass.step_bad h.cell rfl, fun hs hr => Pass.step_full h.cell rfl (by omega) hs (by rw [h.used]; unfold newCell at hneed; omega)⟩

theorem rowStep_stopped {p : Pass} (h : p.stop.isSome = true) (n : Nat) : rowStep f room unread pos p n = p := if_pos h

theorem rowStep_keeps_full {p : Pass} (h : p.full = true) (n : Nat) : (rowStep f room unread pos p n).full = true := by
  unfold rowStep
  split
  · exact h
  · exact Pass.step_keeps_full h

/-- A cell that the pass merges: its entry is readable, and the bellows has room. -/
def Merges (f : Nat → ℤ × Bool × Bool) (room : Nat) (unread : Nat → Bool) (pos : Nat) (t : Pass) (i : Nat) : Prop :=
  ¬ MeetsBad f unread pos t i ∧ needOf f pos t (i + 1) ≤ room

/-- The pass over the first k cells. -/
def rowPass (f : Nat → ℤ × Bool × Bool) (room : Nat) (unread : Nat → Bool) (pos : Nat) (t : Pass) (k : Nat) : Pass :=
  (List.range k).foldl (rowStep f room unread pos) t

variable {m : Nat} (hstop : t.stop = none) (h0 : ∀ i, i ≤ m → 0 ≤ needOf f pos t i) (hroom : t.used ≤ room)
include hstop h0 hroom

omit hstop h0 in
/-- What the merged cells hold fits the bellows. -/
theorem needOf_le {i : Nat} (h : ∀ j, j < i → Merges f room unread pos t j) : needOf f pos t i ≤ room := by
  cases i with
  | zero => simpa [needOf] using hroom
  | succ i => exact (h i (by omega)).2

/-- The pass goes on as long as each cell merges. -/
theorem going_rowPass {i : Nat} (hi : i ≤ m) (h : ∀ j, j < i → Merges f room unread pos t j) :
    Going f room pos t i (rowPass f room unread pos t i) := by
  refine foldl_range_keeps (Going f room pos t) ⟨hstop, fun z => by rw [if_neg (by omega)], by simp [needOf], by omega⟩
    fun j hj p hp => ?_
  exact hp.next (needOf_le hroom fun l hl => h l (by omega)) (h0 _ (by omega)) (h j hj).1 (h j hj).2

omit hstop h0 hroom in
/-- What holds after some cells, and stays, holds after all. -/
theorem rowPass_keeps (P : Pass → Prop) {i : Nat} (hi : i ≤ m) (hP : P (rowPass f room unread pos t i))
    (hs : ∀ p n, P p → P (rowStep f room unread pos p n)) : P (rowPass f room unread pos t m) := by
  obtain ⟨d, rfl⟩ : ∃ d, m = i + d := ⟨m - i, by omega⟩
  unfold rowPass at *
  rw [List.range_add, List.foldl_append, List.foldl_map]
  exact foldl_range_keeps (fun _ p => P p) hP fun j _ p hp => hs p _ hp

theorem rowPass_stops {i : Nat} (hi : i < m) (h : ∀ j, j < i → Merges f room unread pos t j) :
    (MeetsBad f unread pos t i → (rowPass f room unread pos t m).stop = some (.bad (pos + i)) ∧ Added f pos t i (rowPass f room unread pos t m)) ∧
    (¬ MeetsBad f unread pos t i → room < needOf f pos t (i + 1) → (rowPass f room unread pos t m).stop = some (.full (pos + i)) ∧
      (rowPass f room unread pos t m).full = true ∧ Added f pos t i (rowPass f room unread pos t m)) := by
  have hgoing := going_rowPass hstop h0 hroom (by omega) h
  obtain ⟨hbad, hfull⟩ := hgoing.stops (unread := unread) (needOf_le hroom h)
  have hnext : rowPass f room unread pos t (i + 1) = rowStep f room unread pos (rowPass f room unread pos t i) i := by
    unfold rowPass
    rw [List.range_succ, List.foldl_append]
    rfl
  have stays {q : Pass} (hq : rowPass f room unread pos t (i + 1) = q) (hs : q.stop.isSome = true) : rowPass f room unread pos t m = q :=
    rowPass_keeps (m := m) (fun p => p = q) hi hq fun p n hp => by rw [hp, rowStep_stopped hs]
  refine ⟨fun hs => ?_, fun hs hr => ?_⟩
  · rw [stays (hnext.trans (hbad hs)) rfl]
    exact ⟨rfl, hgoing.added⟩
  · rw [stays (hnext.trans (hfull hs hr)) rfl]
    exact ⟨rfl, rfl, hgoing.added⟩

theorem rowPass_full {i : Nat} (hi : i < m) (h : ∀ j, j ≤ i → Merges f room unread pos t j) (h1 : needOf f pos t i < room)
    (h2 : needOf f pos t (i + 1) = room) : (rowPass f room unread pos t m).full = true :=
  rowPass_keeps (m := m) (fun p => p.full = true) hi
    ((going_rowPass hstop h0 hroom (by omega) fun j hj => h j (by omega)).full i (by omega) h1 h2) fun _ n hp => rowStep_keeps_full hp n

end

theorem runRow_eq (w : WeightSet) (slots : List Slot) (anc : BitVec 9) (room : Nat) (unread : Nat → Bool) (pos : Nat) (t : Pass) :
    runRow w slots anc room unread pos t =
      rowPass (fun z => passCell w slots anc (z / 4096) (z % 4096)) room unread pos t (4096 - pos % 4096) := rfl

theorem passSums : PassSums := by
  refine ⟨slotIntegers, by decide, by decide, fun w slots anc row n hsp => ?_, fun c t lossy bad => ⟨?_, ?_⟩, belEntries_ceil,
    fun w slots anc room unread pos t hstop => ?_⟩
  · have h := passSum w slots anc row n hsp
    rw [(kBlocks_eq hsp).1] at h
    exact h
  · rintro rfl
    rfl
  · rintro rfl
    exact c.add_good t lossy
  · simp only [runRow_eq]
    generalize 4096 - pos % 4096 = m
    intro h0 hroom
    let f (z : Nat) := passCell w slots anc (z / 4096) (z % 4096)
    exact ⟨fun h => have hg := going_rowPass (f := f) hstop h0 hroom le_rfl h; ⟨hg.stop, hg.added, hg.used⟩,
      fun i hi h => rowPass_stops (f := f) hstop h0 hroom hi h, fun i hi h => rowPass_full (f := f) hstop h0 hroom hi h⟩
end Sys2Proof.Machine
end
section
/-! PROOFS. The elements of a drain (R52, R54, R237), and what the matrix array adds: O52. -/
namespace Sys2Proof.Machine

/-! ## The canonical NaN of a tag -/

theorem canonicalNan_eq (t : Tag) : canonicalNan t = ((floatRow t).bind (·.nan)).getD 0 := by
  unfold canonicalNan
  obtain ⟨hf, hr⟩ | ⟨f, r, hf, hr, h⟩ := t.fmt_floatRow
  · rw [hf, hr]
    rfl
  · rw [hf, hr, Option.bind_some, h.nan]
    dsimp only
    cases f.nanCode <;> rfl

theorem Flags.when_eq (b : Bool) (f : Flags) : Flags.when b f = flagIf (b = true) f := by
  rw [← Flags.when_decide, Bool.decide_eq_true]

/-! ## An anchored value, converted and in its raw layout -/

theorem drain_fmt {t : Tag} (h : drainTagOk t = true) : t.cls = .float ↔ t.fmt ≠ none := by
  revert h
  cases t <;> decide

/-- The conversion of an anchored value (R54): its exact value, written in a float tag, or on a grid by R42. -/
theorem Anchored.convert_stands (vt : VType) {t : Tag} (h : drainTagOk t = true) (a : Anchored) :
    ∃ v y, Stands v ((a.v.toInt : ℚ) * 2 ^ a.e.toInt) ∧ a.convert vt t = (y.1, y.2 ||| flagIf (a.x = true) 16) ∧
      if t.cls = .float then Written vt t v y else GridConverted vt t v y := by
  have hv := Val.stands_mk a.v.toInt a.e.toInt
  unfold Anchored.convert
  rw [Flags.when_eq]
  cases hf : t.fmt with
  | none =>
    refine ⟨_, encodeR42 vt t (Val.mk a.v.toInt a.e.toInt), hv, rfl, ?_⟩
    rw [if_neg (by simp [drain_fmt h, hf])]
    exact encodeR42_converted vt t _
  | some f =>
    refine ⟨_, encode vt t (Val.mk a.v.toInt a.e.toInt), hv, by simp [encode, hf, Flags.nx], ?_⟩
    rw [if_pos (by simp [drain_fmt h, hf])]
    exact encode_written vt t (Val.stands_normal hv)

/-- The layout of R52 as a number: V in the lowest 96 bits, E in the 10 above, X in the highest. -/
theorem Anchored.bits_toNat (a : Anchored) : a.bits.toNat = a.v.toNat + 2 ^ 96 * a.e.toNat + 2 ^ 127 * a.x.toNat := by
  have hv := a.v.isLt
  have he := a.e.isLt
  unfold Anchored.bits
  rw [BitVec.toNat_append, BitVec.toNat_append, BitVec.toNat_append]
  rw [← Nat.shiftLeft_add_eq_or_of_lt hv]
  rw [← Nat.shiftLeft_add_eq_or_of_lt he]
  simp [Nat.shiftLeft_eq]
  omega

theorem toNat_eq_toInt_emod {w : Nat} (b : BitVec w) : (b.toNat : ℤ) = b.toInt % 2 ^ w := by
  rw [BitVec.toInt_eq_toNat_bmod, show (2 : ℤ) ^ w = ((2 ^ w : Nat) : ℤ) by push_cast; rfl, Int.bmod_emod]
  exact (Int.emod_eq_of_lt (by omega) (by exact_mod_cast b.isLt)).symm

/-- A half of the raw layout. -/
theorem Anchored.half (a : Anchored) (i : Nat) :
    ((a.bits.extractLsb' (64 * i) 64).toNat : ℤ) =
      (a.v.toInt % 2 ^ 96 + 2 ^ 96 * (a.e.toInt % 2 ^ 10) + 2 ^ 127 * a.x.toNat) / 2 ^ (64 * i) % 2 ^ 64 := by
  rw [BitVec.extractLsb'_toNat, Nat.shiftRight_eq_div_pow, Anchored.bits_toNat, ← toNat_eq_toInt_emod, ← toNat_eq_toInt_emod]
  push_cast
  rfl

/-! ## The element of a drain -/

section
variable {x : Tile} {key : Nat}

theorem Tile.anchored_e (h : (-512 : ℤ) ≤ x.anc.toNat - 254 - x.f) : (x.anchored key).e.toInt = x.anc.toNat - 254 - x.f := by
  have := x.anc.isLt
  have he : (x.anchored key).e = BitVec.ofInt 10 ((x.anc.toNat : ℤ) - 254 - x.f) := by
    unfold Tile.anchored
    dsimp only
    split <;> rfl
  rw [he]
  exact BitVec.toInt_ofInt_eq_self (by omega) h (by norm_num; omega)

theorem Tile.anchored_inv (h : (Store.get TileCell.zero x.cells key).inv = true) :
    (x.anchored key).v = 0 ∧ (x.anchored key).x = true := by
  unfold Tile.anchored
  dsimp only
  rw [if_pos h]
  exact ⟨rfl, rfl⟩

theorem Tile.anchored_valid (h : (Store.get TileCell.zero x.cells key).inv = false) :
    let c := Store.get TileCell.zero x.cells key
    (x.anchored key).v = BitVec.ofInt 96 (c.v.toInt + 2 ^ 28 * c.c) ∧ (x.anchored key).x = c.x := by
  unfold Tile.anchored
  dsimp only
  rw [if_neg (by simp [h])]
  exact ⟨rfl, rfl⟩

end

theorem drainedElements : DrainedElements := by
  intro vt t x row q coff j hrm ht col cell V E r
  have hr : r = if t = .uint64 then if 1023 < col then (0, Flags.none)
        else (((x.anchored (4096 * row + 1024 * q + col)).bits.extractLsb' (64 * (j % 2)) 64).toNat, Flags.when cell.inv Flags.nv)
      else if 1023 < col then (0, Flags.none)
        else if cell.inv then (canonicalNan t, Flags.nv) else (x.anchored (4096 * row + 1024 * q + col)).convert vt t := by
    by_cases h : t = .uint64 <;> simp only [r, drainElement, col, cell, h, if_true, if_false]
  refine ⟨fun hcol => ?_, fun hcol hE hV0 hV1 => ⟨fun h64 hinv => ?_, fun h64 hinv => ?_, fun h64 => ?_⟩⟩
  · rw [hr, if_pos hcol, if_pos hcol, ite_self]
    rfl
  all_goals have hE' := Tile.anchored_e (key := 4096 * row + 1024 * q + col) hE
  · rw [hr, if_neg h64, if_neg (by omega), if_pos hinv, canonicalNan_eq]
    rfl
  · obtain ⟨hv, hx⟩ := Tile.anchored_valid hinv
    rw [hr, if_neg h64, if_neg (by omega), if_neg (by simp [hinv])]
    have h := (x.anchored (4096 * row + 1024 * q + col)).convert_stands vt ht
    rw [hE', hx, hv, BitVec.toInt_ofInt_eq_self (by omega) hV0 hV1] at h
    exact h
  · have hhalf := (x.anchored (4096 * row + 1024 * q + col)).half (j % 2)
    rw [hE'] at hhalf
    dsimp only
    rw [hr, if_pos h64, if_neg (by omega)]
    rw [hhalf, Flags.when_eq]
    refine Prod.ext (congrArg (fun b : ℤ => b / 2 ^ (64 * (j % 2)) % 2 ^ 64) ?_) rfl
    cases hinv : cell.inv with
    | true =>
      obtain ⟨hv, hx⟩ := Tile.anchored_inv hinv
      rw [hv, hx, if_pos rfl]
      simp [E]
    | false =>
      obtain ⟨hv, hx⟩ := Tile.anchored_valid hinv
      rw [hv, hx, BitVec.toInt_ofInt_eq_self (by omega) hV0 hV1, if_neg (by simp)]
      change (V % 2 ^ 96 + 2 ^ 96 * (E % 2 ^ 10) + 2 ^ 127 * (cell.x.toNat : ℤ)) = _
      cases cell.x <;> rfl

/-- Settles O52: the sums of a pass by induction on the K-blocks and on the cells of a row, and the elements of a drain through the
writing of an exact value. -/
theorem arrayValues : Obligations.ArrayValues := ⟨passSums, drainedElements⟩

end Sys2Proof.Machine
end
section
/-! PROOFS. What a write does to memory, to the snapshots' images and to the monitors (R31, R120, R138, R266, R281, R362): O14. -/
namespace Sys2Proof.Machine

/-! ## Reading a memory that was filtered or copied -/

/-- Dropping the addresses that fail a test leaves the others as they read. -/
theorem Memory.read_filter (c : Nat → Bool) (a : Nat) :
    ∀ m : Memory, Memory.read (m.filter fun p => c p.1) a = if c a then m.read a else unlisted
  | [] => by simp [Memory.read]
  | (k, v) :: r => by
    have ih := Memory.read_filter c a r
    by_cases hk : c k = true
    · rw [List.filter_cons_of_pos (by simpa using hk)]
      by_cases hak : a = k
      · subst hak
        simp [Memory.read, hk]
      · simp [Memory.read, hak, ih]
    · rw [List.filter_cons_of_neg (by simpa using hk), ih]
      by_cases hak : a = k
      · subst hak
        simp [hk]
      · simp [Memory.read, hak]

theorem Memory.read_clearRange (m : Memory) (lo hi a : Nat) :
    (m.clearRange lo hi).read a = if lo ≤ a ∧ a < hi then unlisted else m.read a := by
  unfold Memory.clearRange
  rw [Memory.read_filter (fun k => decide (k < lo) || decide (hi ≤ k))]
  by_cases h : lo ≤ a ∧ a < hi
  · rw [if_pos h, if_neg (by simp; omega)]
  · rw [if_neg h, if_pos (by simp; omega)]

/-- Bytes that stand at or above lo, written with the distance of lo and out, read there as they were. -/
theorem Memory.read_shifted (lo out a : Nat) : ∀ (l : Memory) {b : Nat} {m : Memory}, Memory.wfFrom b l = true →
    (∀ p ∈ l, lo ≤ p.1) → m.wf = true →
    (l.foldl (fun m p => m.write (p.1 - lo + out) p.2) m).read a =
      if out ≤ a ∧ l.read (a - out + lo) ≠ unlisted then l.read (a - out + lo) else m.read a
  | [], _, m, _, _, _ => by simp [Memory.read]
  | (k, v) :: r, b, m, hl, hlo, hm => by
    simp only [Memory.wfFrom, Bool.and_eq_true, decide_eq_true_eq] at hl
    obtain ⟨⟨hbk, hv⟩, hr⟩ := hl
    have hk : lo ≤ k := hlo _ (List.mem_cons_self ..)
    rw [List.foldl_cons, Memory.read_shifted lo out a r hr (fun p hp => hlo p (List.mem_cons_of_mem _ hp)) (Memory.write_wf _ _ hm),
      Memory.read_write hm]
    by_cases hak : a - out + lo = k ∧ out ≤ a
    · have hnone : Memory.read r (a - out + lo) = unlisted := Memory.read_below (by omega : a - out + lo < k + 1) hr
      rw [if_neg (fun h => h.2 hnone), if_pos (by omega), if_pos]
      · simp [Memory.read, hak.1]
      · exact ⟨hak.2, by simpa [Memory.read, hak.1] using hv⟩
    · rw [if_neg (show ¬ a = k - lo + out by omega)]
      by_cases ha : out ≤ a
      · have : ¬ a - out + lo = k := by omega
        simp [Memory.read, this]
      · rw [if_neg (by omega), if_neg (by omega)]

theorem State.copyBatt_read {s : State} (h : s.MemOk) (src dst : Option Nat) (b a : Nat) :
    (s.copyBatt src dst b).mem.read a =
      if keyIn dst (b * 65536) ≤ a ∧ a < keyIn dst (b * 65536) + 65536 then s.mem.read (a - keyIn dst (b * 65536) + keyIn src (b * 65536))
      else s.mem.read a := by
  unfold State.copyBatt
  dsimp only
  generalize keyIn dst (b * 65536) = out
  generalize keyIn src (b * 65536) = lo
  rw [Memory.read_shifted lo out a _ (Memory.filter_wfFrom _ h) (fun p hp => ?_) (Memory.clearRange_wf _ _ h), Memory.read_clearRange,
    Memory.read_filter (fun k => decide (lo ≤ k) && decide (k < lo + 65536))]
  · by_cases hin : out ≤ a ∧ a < out + 65536
    · rw [if_pos (show (decide _ && decide _) = true by simp; omega), if_pos hin, if_pos hin]
      split
      · rfl
      · next hz => exact (not_not.mp fun hne => hz ⟨hin.1, hne⟩).symm
    · rw [if_neg hin, if_neg hin, if_neg]
      rintro ⟨ha, hne⟩
      rw [if_neg (by simp; omega)] at hne
      exact hne rfl
  · obtain ⟨_, hp⟩ := List.mem_filter.mp hp
    simp only [Bool.and_eq_true, decide_eq_true_eq] at hp
    exact hp.1

/-! ## Reserve batts -/

theorem SnapSlot.holder_put (k : SnapSlot) (b r b' : Nat) :
    ({ k with batts := k.batts.put b r } : SnapSlot).holder b' = if b' = b then some r else k.holder b' := by
  have h : ∀ l : Store Nat, ((l.put b r).find? fun p => p.1 = b').map (·.2) = if b' = b then some r else (l.find? fun p => p.1 = b').map (·.2) := by
    intro l
    induction l with
    | nil => by_cases hb : b' = b <;> simp [Store.put, hb, eq_comm]
    | cons p l ih =>
      obtain ⟨k, v⟩ := p
      unfold Store.put
      split
      · by_cases hb : b' = b
        · simp [hb]
        · simp [hb, Ne.symm hb]
      · split
        · next hbk =>
          subst hbk
          by_cases hb : b' = b
          · simp [hb]
          · simp [hb, Ne.symm hb]
        · next hbk =>
          by_cases hb : k = b'
          · subst hb
            simp [Ne.symm hbk]
          · simpa [List.find?_cons, hb] using ih
  exact h k.batts

theorem State.mem_occupied {s : State} {k : SnapSlot} : k ∈ s.occupied ↔ some k ∈ s.slots.toList := by
  simp [State.occupied]

theorem State.mem_usedBatts {s : State} {r : Nat} : r ∈ s.usedBatts ↔ ∃ k ∈ s.occupied, ∃ p ∈ k.batts, p.2 = r := by
  simp [State.usedBatts, List.mem_eraseDups]

theorem State.holder_used {s : State} {k : SnapSlot} {b r : Nat} (hk : k ∈ s.occupied) (h : k.holder b = some r) : r ∈ s.usedBatts := by
  obtain ⟨p, hp, rfl⟩ := Option.map_eq_some_iff.mp h
  exact State.mem_usedBatts.mpr ⟨k, hk, p, List.mem_of_find?_eq_some hp, rfl⟩

/-- The batt that a copy is made in is not in use, and is of the reserve. -/
theorem State.freshBatt_spec (s : State) : s.freshBatt ∉ s.usedBatts ∧ s.freshBatt ≤ s.usedBatts.length := by
  obtain ⟨r, hr⟩ : ∃ r, (List.range (s.usedBatts.length + 1)).find? (fun r => !s.usedBatts.contains r) = some r := by
    by_contra hno
    have hnone := List.find?_eq_none.mp (Option.eq_none_iff_forall_ne_some.mpr fun r h => hno ⟨r, h⟩)
    have hsub : List.range (s.usedBatts.length + 1) ⊆ s.usedBatts := fun r h => by simpa using hnone r h
    have := (List.nodup_range.subperm hsub).length_le
    simp at this
  have hmem := List.mem_of_find?_eq_some hr
  have hp := List.find?_some hr
  unfold State.freshBatt
  rw [hr]
  simp only [List.mem_range, Bool.not_eq_true', List.contains_eq_mem, decide_eq_false_iff_not] at hmem hp
  exact ⟨hp, Nat.lt_succ_iff.mp hmem⟩

theorem keyIn_reserve {r : Nat} (h : r < 2 ^ 43) (data : Nat) : reserveBase ≤ keyIn (some r) data ∧ keyIn (some r) data < spBase := by
  have : data % 65536 < 65536 := Nat.mod_lt _ (by norm_num)
  simp only [keyIn, reserveBase, spBase]
  omega

/-- The forms that a write needs and keeps: canonical memory, and reserve batts that share no key with another place. -/
def State.StoreOk (s : State) : Prop := s.MemOk ∧ s.KeysOk

theorem Vector.getD_map {α β : Type} {n : Nat} (f : α → β) (v : Vector α n) (j : Nat) (d : α) : (v.map f).getD j (f d) = f (v.getD j d) := by
  simp [Vector.getD]

/-- What the copy of a batt for the slots that a test selects can do (R362, R366). -/
theorem State.splitBatt_cases {s t : State} {sel : SnapSlot → Bool} {o : Option Nat} {b : Nat} (h : s.splitBatt sel o b = some t) :
    ((∀ k ∈ s.occupied, sel k = false) ∧ t = s) ∨
    (s.freshBatt ∉ s.usedBatts ∧ s.freshBatt < s.flash.resv ∧ t.flash = s.flash ∧ t.mem = (s.copyBatt o (some s.freshBatt) b).mem ∧
      t.slots = (s.repoint sel b s.freshBatt).slots) := by
  have count (u : State) (code : Nat) : (u.countDevice code 1024).flash = u.flash ∧ (u.countDevice code 1024).slots = u.slots := by
    unfold State.countDevice
    split <;> exact ⟨rfl, rfl⟩
  unfold State.splitBatt at h
  split at h
  · split at h
    · cases h
    · next hfree =>
      cases h
      obtain ⟨hnot, hle⟩ := s.freshBatt_spec
      refine .inr ⟨hnot, ?_, by rw [(count _ _).1, (count _ _).1]; rfl, by simp, by rw [(count _ _).2, (count _ _).2]; rfl⟩
      unfold State.free at hfree
      omega
  · next hany =>
    cases h
    exact .inl ⟨fun k hk => by simpa using List.any_eq_false.mp (by simpa using hany) k hk, rfl⟩

/-- A slot's state, by its number. -/
theorem State.mem_occupied_getD {s : State} {k : SnapSlot} : k ∈ s.occupied ↔ ∃ j, j < 3 ∧ s.slots.getD j none = some k := by
  rw [State.mem_occupied, List.mem_iff_getElem]
  constructor
  · rintro ⟨j, hj, h⟩
    have hj' : j < 3 := by simpa using hj
    exact ⟨j, hj', by simpa [Vector.getD, hj'] using h⟩
  · rintro ⟨j, hj, h⟩
    exact ⟨j, by simpa using hj, by simpa [Vector.getD, hj] using h⟩

theorem slots_map_getD (f : SnapSlot → SnapSlot) (v : Vector (Option SnapSlot) 3) (j : Nat) :
    (v.map fun o => o.map f).getD j none = (v.getD j none).map f :=
  Vector.getD_map (fun o : Option SnapSlot => o.map f) v j none

theorem State.repoint_slot (s : State) (sel : SnapSlot → Bool) (b r j : Nat) :
    (s.repoint sel b r).slots.getD j none = (s.slots.getD j none).map fun k => if sel k then { k with batts := k.batts.put b r } else k :=
  slots_map_getD (fun k : SnapSlot => if sel k then { k with batts := k.batts.put b r } else k) s.slots j

section
variable {s t : State} {sel : SnapSlot → Bool} {o : Option Nat} {b : Nat}

theorem Store.mem_put {α : Type} {a : Nat} {x : α} {p : Nat × α} : ∀ {m : Store α}, p ∈ m.put a x → p ∈ m ∨ p.2 = x
  | [], h => by
    obtain rfl := List.mem_singleton.mp h
    exact .inr rfl
  | (k, v) :: r, h => by
    unfold Store.put at h
    split at h
    · obtain rfl | h := List.mem_cons.mp h
      · exact .inr rfl
      · exact .inl h
    · split at h
      · obtain rfl | h := List.mem_cons.mp h
        · exact .inr rfl
        · exact .inl (List.mem_cons_of_mem _ h)
      · obtain rfl | h := List.mem_cons.mp h
        · exact .inl (List.mem_cons_self ..)
        · exact (Store.mem_put h).imp_left (List.mem_cons_of_mem _)

/-- A copy keeps the reserve batts in their places. -/
theorem State.splitBatt_storeOk (hs : s.StoreOk) (h : s.splitBatt sel o b = some t) : t.StoreOk := by
  obtain ⟨hmem, hresv, hused⟩ := hs
  refine ⟨State.splitBatt_memOk hmem h, ?_⟩
  obtain ⟨-, rfl⟩ | ⟨-, hfresh, hflash, -, hslots⟩ := State.splitBatt_cases h
  · exact ⟨hresv, hused⟩
  · refine ⟨by rw [hflash]; exact hresv, fun r hr => ?_⟩
    obtain ⟨k, hk, p, hp, rfl⟩ := State.mem_usedBatts.mp hr
    obtain ⟨j, hj, hget⟩ := State.mem_occupied_getD.mp hk
    rw [hslots, State.repoint_slot] at hget
    obtain ⟨k', hk', rfl⟩ := Option.map_eq_some_iff.mp hget
    have hold (hp : p ∈ k'.batts) : p.2 < 2 ^ 43 :=
      hused _ (State.mem_usedBatts.mpr ⟨k', State.mem_occupied_getD.mpr ⟨j, hj, hk'⟩, p, hp, rfl⟩)
    split at hp
    · obtain hp | hp := Store.mem_put hp
      · exact hold hp
      · rw [hp]
        omega
    · exact hold hp

/-- A copy is made in a reserve batt: no other place reads anew. -/
theorem State.splitBatt_read (hs : s.StoreOk) (h : s.splitBatt sel o b = some t) {a : Nat} (ha : a < reserveBase ∨ spBase ≤ a) :
    t.mem.read a = s.mem.read a := by
  obtain ⟨-, rfl⟩ | ⟨-, hfresh, -, hmem, -⟩ := State.splitBatt_cases h
  · rfl
  · have hr : s.freshBatt < 2 ^ 43 := lt_of_lt_of_le hfresh hs.2.1
    rw [hmem, State.copyBatt_read hs.1, if_neg]
    simp only [keyIn, reserveBase, spBase] at ha ⊢
    omega

end

/-! ## The image of a slot (R362, R368) -/

/-- The key of a DATA byte in a slot's image; an empty slot has the live memory's. -/
def State.imageKey (s : State) (j q : Nat) : Nat := ((s.slots.getD j none).map fun k => keyIn (k.holder (battOf q)) q).getD q

/-- A byte of a slot's image. -/
def State.image (s : State) (j q : Nat) : Byte := s.mem.read (s.imageKey j q)

theorem State.readByte_image (s : State) {j q : Nat} (hj : j < 3) (hq : q < 2 ^ 44) : s.readByte ((j + 1) * 2 ^ 44 + q) = s.image j q := by
  have hslot : slotOf ((j + 1) * 2 ^ 44 + q) = j + 1 := by
    unfold slotOf
    rw [if_pos (by omega)]
    omega
  have hdata : dataOf ((j + 1) * 2 ^ 44 + q) = q := by
    unfold dataOf
    omega
  unfold State.readByte State.image State.keyOf State.imageKey
  rw [hslot, if_neg (by omega), hdata, Nat.add_sub_cancel]
  cases s.slots.getD j none <;> rfl

theorem State.readByte_live (s : State) {q : Nat} (hq : q < 2 ^ 44 ∨ spBase ≤ q) : s.readByte q = s.mem.read q := by
  have hslot : slotOf q = 0 := by
    unfold slotOf
    simp only [spBase] at hq
    split <;> omega
  unfold State.readByte State.keyOf
  rw [if_pos hslot]

/-- The copy that a live write makes for the slots that share its batt changes no image, and no slot shares the batt after it. -/
theorem State.splitBatt_image {s t : State} {b : Nat} (hs : s.StoreOk)
    (h : s.splitBatt (fun k => (k.holder b).isNone) none b = some t) {j : Nat} (hj : (s.slots.getD j none).isSome) :
    (∃ k, t.slots.getD j none = some k ∧ (k.holder b).isSome) ∧ ∀ q, q < 2 ^ 44 → t.image j q = s.image j q := by
  obtain ⟨k, hk⟩ := Option.isSome_iff_exists.mp hj
  have hj3 : j < 3 := by
    by_contra hn
    simp [Vector.getD, hn] at hk
  have hocc : k ∈ s.occupied := State.mem_occupied_getD.mpr ⟨j, hj3, hk⟩
  obtain ⟨hall, rfl⟩ | ⟨hfresh, hlt, -, hmem, hslots⟩ := State.splitBatt_cases h
  · exact ⟨⟨k, hk, by simpa [Option.isSome_iff_ne_none] using hall k hocc⟩, fun _ _ => rfl⟩
  have hget : t.slots.getD j none = some (if (k.holder b).isNone then { k with batts := k.batts.put b s.freshBatt } else k) := by
    rw [hslots, State.repoint_slot, hk]
    rfl
  have hr : s.freshBatt < 2 ^ 43 := lt_of_lt_of_le hlt hs.2.1
  have hread (a : Nat) : t.mem.read a =
      if reserveBase + s.freshBatt * 65536 ≤ a ∧ a < reserveBase + s.freshBatt * 65536 + 65536 then
        s.mem.read (a - (reserveBase + s.freshBatt * 65536) + b * 65536) else s.mem.read a := by
    rw [hmem, State.copyBatt_read hs.1]
    simp [keyIn]
  refine ⟨⟨_, hget, ?_⟩, fun q hq => ?_⟩
  · split
    · rw [SnapSlot.holder_put, if_pos rfl]
      rfl
    · next hn => simpa [Option.isSome_iff_ne_none] using hn
  unfold State.image State.imageKey
  rw [hget, hk, Option.map_some, Option.map_some, Option.getD_some, Option.getD_some]
  -- an image that is not copied stands outside of the new batt
  have hkept : t.mem.read (keyIn (k.holder (battOf q)) q) = s.mem.read (keyIn (k.holder (battOf q)) q) := by
    rw [hread, if_neg]
    cases hh : k.holder (battOf q) with
    | none =>
      simp only [keyIn, reserveBase]
      omega
    | some r =>
      have hne : r ≠ s.freshBatt := fun he => hfresh (he ▸ State.holder_used hocc hh)
      simp only [keyIn, reserveBase]
      omega
  split
  · next hn =>
    rw [SnapSlot.holder_put]
    split
    · next hb =>
      have hnone : k.holder (battOf q) = none := by rw [hb]; simpa using hn
      rw [hnone, hread, if_pos (by simp only [keyIn]; omega)]
      congr 1
      simp only [keyIn, battOf] at hb ⊢
      omega
    · exact hkept
  · exact hkept

/-! ## The bytes of a write -/

/-- What a write of n bytes at pa keeps: the bytes of main memory and of the scratchpad beside it, and, where it is of the live
generation or goes to the scratchpad, the images of the slots. -/
structure State.Stored (s t : State) (g : BitVec 2) (pa n : Nat) : Prop where
  ok : t.StoreOk
  live : t.live = s.live
  frame : ∀ a, a < 2 ^ 44 ∨ spBase ≤ a → a < pa ∨ pa + n ≤ a → t.mem.read a = s.mem.read a
  images : g = s.live ∨ spBase ≤ pa → ∀ j, (s.slots.getD j none).isSome →
    (t.slots.getD j none).isSome ∧ ∀ q, q < 2 ^ 44 → t.image j q = s.image j q

section
variable {s t : State} {g : BitVec 2} {pa : Nat} {v : Byte}

theorem State.pokeByte_read (h : s.MemOk) (key : Nat) (g : BitVec 2) (v : Byte) (a : Nat) :
    (s.pokeByte key g v).mem.read a = if a = key then v else s.mem.read a := Memory.read_write h key v a

theorem State.pokeByte_storeOk (h : s.StoreOk) (key : Nat) (g : BitVec 2) (v : Byte) : (s.pokeByte key g v).StoreOk :=
  ⟨State.pokeByte_memOk key g v h.1, h.2⟩

/-- A byte that no image of a slot holds changes none. -/
theorem State.pokeByte_image (h : s.MemOk) {key j q : Nat} (hkey : s.imageKey j q ≠ key) :
    (s.pokeByte key g v).image j q = s.image j q := (s.pokeByte_read h key g v _).trans (if_neg hkey)

/-- The keys of an image lie below the scratchpad's. -/
theorem State.imageKey_lt (hs : s.StoreOk) {j q : Nat} (hq : q < 2 ^ 44) : s.imageKey j q < spBase := by
  have hlt : q < spBase := lt_of_lt_of_le hq (by norm_num [spBase])
  unfold State.imageKey
  cases hk : s.slots.getD j none with
  | none => exact hlt
  | some k =>
    have hj : j < 3 := by
      by_contra hn
      simp [Vector.getD, hn] at hk
    rw [Option.map_some, Option.getD_some]
    cases hh : k.holder (battOf q) with
    | none => exact hlt
    | some r => exact (keyIn_reserve (hs.2.2 r (State.holder_used (State.mem_occupied_getD.mpr ⟨j, hj, hk⟩) hh)) q).2

/-- The copies that a write needs first keep the bytes of main memory and of the scratchpad. -/
theorem State.splitFor_read {data : Nat} (hs : s.StoreOk) (h : s.splitFor g data = some t) :
    t.StoreOk ∧ ∀ a, a < reserveBase ∨ spBase ≤ a → t.mem.read a = s.mem.read a := by
  have one {sel : SnapSlot → Bool} {o : Option Nat} {b : Nat} {u x : State}
      (hu : u.StoreOk ∧ ∀ a, a < reserveBase ∨ spBase ≤ a → u.mem.read a = s.mem.read a) (h : u.splitBatt sel o b = some x) :
      x.StoreOk ∧ ∀ a, a < reserveBase ∨ spBase ≤ a → x.mem.read a = s.mem.read a :=
    ⟨State.splitBatt_storeOk hu.1 h, fun a ha => (State.splitBatt_read hu.1 h ha).trans (hu.2 a ha)⟩
  unfold State.splitFor at h
  dsimp only at h
  split at h
  · exact one ⟨hs, fun _ _ => rfl⟩ h
  · obtain ⟨u, hu, hf⟩ := Option.bind_eq_some_iff.mp h
    exact foldl_bind_keeps (P := fun x : State => x.StoreOk ∧ ∀ a, a < reserveBase ∨ spBase ≤ a → x.mem.read a = s.mem.read a)
      (fun _ _ _ hx he => one hx he) _ _ _ (fun x hx => by cases hx; exact one ⟨hs, fun _ _ => rfl⟩ hu) hf

/-- A write reaches the live batt and batts that are in use. -/
theorem State.reach_used {data r : Nat} (h : some r ∈ s.reach g data) : r ∈ s.usedBatts := by
  unfold State.reach at h
  rw [List.mem_eraseDups, List.mem_append] at h
  obtain h | h := h
  · split at h <;> simp at h
  · obtain ⟨h, -⟩ := List.mem_filter.mp h
    obtain ⟨k, hk, hh⟩ := List.mem_map.mp h
    exact State.holder_used (List.mem_filter.mp hk).1 hh

theorem State.reach_live (s : State) (data : Nat) : s.reach s.live data = [none] := by
  have hnone : s.occupied.filter (s.reachesSlot s.live data) = [] := by simp [State.reachesSlot]
  rw [State.reach, hnone, State.reachesLive]
  simp [List.eraseDups_cons]

/-- A byte written into the batts that are reached changes no other byte of main memory or the scratchpad. -/
theorem State.foldl_pokeByte_read {data : Nat} (hd : data < 2 ^ 44) : ∀ (l : List (Option Nat)) {s : State}, s.StoreOk →
    (∀ r, some r ∈ l → r < 2 ^ 43) →
    (l.foldl (fun s h => s.pokeByte (keyIn h data) g v) s).StoreOk ∧
      ∀ a, a < 2 ^ 44 ∨ spBase ≤ a → a ≠ data → (l.foldl (fun s h => s.pokeByte (keyIn h data) g v) s).mem.read a = s.mem.read a
  | [], _, hs, _ => ⟨hs, fun _ _ _ => rfl⟩
  | h :: l, s, hs, hl => by
    obtain ⟨hok, hread⟩ := State.foldl_pokeByte_read hd l (State.pokeByte_storeOk hs (keyIn h data) g v)
      fun r hr => hl r (List.mem_cons_of_mem _ hr)
    refine ⟨hok, fun a ha hne => (hread a ha hne).trans ?_⟩
    rw [State.pokeByte_read hs.1, if_neg]
    cases h with
    | none => exact hne
    | some r =>
      obtain ⟨h1, h2⟩ := keyIn_reserve (hl r (List.mem_cons_self ..)) data
      simp only [reserveBase, spBase] at h1 h2 ha
      omega

theorem State.storeByte_live (h : s.storeByte g pa v = some t) : t.live = s.live :=
  BesideMemory.storeByte (p := State.live) (fun _ _ _ _ _ _ _ _ _ => rfl) h

/-- A byte written to the scratchpad. -/
theorem State.storeByte_sp (hs : s.StoreOk) (hpa : spBase ≤ pa) (h : s.storeByte g pa v = some t) :
    s.Stored t g pa 1 ∧ t.mem.read pa = v := by
  have hlive := State.storeByte_live h
  unfold State.storeByte at h
  rw [if_pos (by simpa [isSp] using hpa)] at h
  cases h
  refine ⟨⟨State.pokeByte_storeOk hs _ _ _, hlive, fun a _ ha => ?_, fun _ j hj => ⟨hj, fun q hq => ?_⟩⟩, ?_⟩
  · exact (s.pokeByte_read hs.1 pa g v a).trans (if_neg (by omega))
  · exact State.pokeByte_image hs.1 (ne_of_lt (lt_of_lt_of_le (State.imageKey_lt hs hq) hpa))
  · exact (s.pokeByte_read hs.1 pa g v pa).trans (if_pos rfl)

/-- A byte written to main memory. -/
theorem State.storeByte_main (hs : s.StoreOk) (hpa : pa < 2 ^ 44) (h : s.storeByte g pa v = some t) :
    s.Stored t g pa 1 ∧ (g = s.live → t.mem.read pa = v) := by
  have hlive := State.storeByte_live h
  have hsp : ¬ spBase ≤ pa := by simp only [spBase]; omega
  have hdata : dataOf pa = pa := by unfold dataOf; omega
  have houtside {a : Nat} (ha : a < 2 ^ 44 ∨ spBase ≤ a) : a < reserveBase ∨ spBase ≤ a :=
    ha.imp_left fun h => lt_of_lt_of_le h (by norm_num [reserveBase])
  unfold State.storeByte State.storeMain at h
  rw [if_neg (by simpa [isSp] using hsp), hdata] at h
  obtain ⟨u, hu, rfl⟩ := Option.map_eq_some_iff.mp h
  obtain ⟨hok, hread⟩ := State.splitFor_read hs hu
  obtain ⟨hok', hread'⟩ := State.foldl_pokeByte_read (g := g) (v := v) hpa (u.reach g pa) hok
    fun r hr => hok.2.2 r (State.reach_used hr)
  have hulive : u.live = s.live := BesideMemory.splitFor (p := State.live) (fun _ _ _ _ _ _ _ _ _ => rfl) hu
  have hpoke (hg : g = s.live) : (u.reach g pa).foldl (fun s h => s.pokeByte (keyIn h pa) g v) u = u.pokeByte pa g v := by
    rw [hg, ← hulive, State.reach_live]
    rfl
  refine ⟨⟨hok', hlive, fun a ha hne => (hread' a ha (by omega)).trans (hread a (houtside ha)), fun hg j hj => ?_⟩, fun hg => ?_⟩
  · have hg : g = s.live := hg.resolve_right hsp
    rw [State.splitFor, if_pos hg] at hu
    obtain ⟨⟨k, hk, hhold⟩, himage⟩ := State.splitBatt_image hs hu hj
    rw [hpoke hg]
    refine ⟨by simpa using hk ▸ rfl, fun q hq => Eq.trans ?_ (himage q hq)⟩
    refine State.pokeByte_image (g := g) (v := v) hok.1 ?_
    unfold State.imageKey
    rw [hk, Option.map_some, Option.getD_some]
    cases hh : k.holder (battOf q) with
    | none =>
      rintro rfl
      rw [show battOf (keyIn none q) = battOf q from rfl, hh] at hhold
      cases hhold
    | some r =>
      have hj3 : j < 3 := by
        by_contra hn
        simp [Vector.getD, hn] at hk
      have := (keyIn_reserve (hok.2.2 r (State.holder_used (State.mem_occupied_getD.mpr ⟨j, hj3, hk⟩) hh)) q).1
      simp only [reserveBase] at this
      omega
  · rw [hpoke hg]
    exact (u.pokeByte_read hok.1 pa g v pa).trans (if_pos rfl)

theorem State.storeByte_stored (hs : s.StoreOk) (hpa : pa < 2 ^ 44 ∨ spBase ≤ pa) (h : s.storeByte g pa v = some t) :
    s.Stored t g pa 1 ∧ (g = s.live ∨ spBase ≤ pa → t.mem.read pa = v) := by
  by_cases hsp : spBase ≤ pa
  · obtain ⟨hst, hv⟩ := State.storeByte_sp hs hsp h
    exact ⟨hst, fun _ => hv⟩
  · obtain ⟨hst, hv⟩ := State.storeByte_main hs (hpa.resolve_right hsp) h
    exact ⟨hst, fun hg => hv (hg.resolve_right hsp)⟩

end

/-- The bytes of a write that performs: each reads back, and everything beside them stays. -/
theorem State.storeBytes_stored {g : BitVec 2} : ∀ {bytes : List Byte} {s t : State} {pa : Nat}, s.StoreOk →
    pa + bytes.length ≤ 2 ^ 44 ∨ spBase ≤ pa → s.storeBytes g pa bytes = some t →
    s.Stored t g pa bytes.length ∧
      (g = s.live ∨ spBase ≤ pa → ∀ j, (h : j < bytes.length) → t.mem.read (pa + j) = bytes[j])
  | [], s, t, pa, hs, _, h => by
    cases h
    exact ⟨⟨hs, rfl, fun _ _ _ => rfl, fun _ _ hj => ⟨hj, fun _ _ => rfl⟩⟩, fun _ j hj => absurd hj (Nat.not_lt_zero j)⟩
  | v :: vs, s, t, pa, hs, hpa, h => by
    simp only [List.length_cons] at hpa ⊢
    obtain ⟨u, hu, ht⟩ := Option.bind_eq_some_iff.mp h
    obtain ⟨hone, hv⟩ := State.storeByte_stored hs (hpa.imp_left fun h => by omega) hu
    obtain ⟨hrest, hvs⟩ := State.storeBytes_stored hone.ok (hpa.imp (fun h => by omega) fun h => by omega) ht
    rw [hone.live] at hvs
    have himages := hrest.images
    rw [hone.live] at himages
    refine ⟨⟨hrest.ok, hrest.live.trans hone.live, fun a ha hne => ?_, fun hg j hj => ?_⟩, fun hg j hj => ?_⟩
    · exact (hrest.frame a ha (by omega)).trans (hone.frame a ha (by omega))
    · obtain ⟨hj1, hq1⟩ := hone.images hg j hj
      obtain ⟨hj2, hq2⟩ := himages (hg.imp_right fun h => by omega) j hj1
      exact ⟨hj2, fun q hq => (hq2 q hq).trans (hq1 q hq)⟩
    · cases j with
      | zero =>
        rw [Nat.add_zero, hrest.frame pa (hpa.imp_left fun h => by omega) (by omega)]
        exact hv hg
      | succ j =>
        have := hvs (hg.imp_right fun h => by omega) j (by simpa using hj)
        rw [show pa + (j + 1) = pa + 1 + j by omega]
        simpa using this

/-! ## What a write does beside the bytes: monitors and words read again (R138, R305, R367) -/

section
variable {P : State → Prop} (hsplit : ∀ {s t : State} {sel : SnapSlot → Bool} {o : Option Nat} {b : Nat}, P s → s.splitBatt sel o b = some t → P t)
  (hpoke : ∀ {s : State} (key : Nat) (g : BitVec 2) (v : Byte), P s → P (s.pokeByte key g v))
  (hmark : ∀ {s : State} (data : Nat) (g : BitVec 2), P s → P (s.setMark data g))
include hsplit hpoke hmark

/-- What copies of batts, bytes at their keys and marks keep, the bytes of a write keep. -/
theorem State.storeBytes_keeps {g : BitVec 2} : ∀ {bytes : List Byte} {s t : State} {pa : Nat}, P s → s.storeBytes g pa bytes = some t → P t
  | [], _, _, _, hs, h => by cases h; exact hs
  | v :: _, s, _, pa, hs, h => by
    obtain ⟨u, hu, ht⟩ := Option.bind_eq_some_iff.mp h
    refine State.storeBytes_keeps ?_ ht
    unfold State.storeByte at hu
    split at hu
    · cases hu
      exact hpoke pa g v hs
    · obtain ⟨x, hx, rfl⟩ := Option.map_eq_some_iff.mp hu
      have hPx : P x := by
        unfold State.splitFor at hx
        dsimp only at hx
        split at hx
        · exact hsplit hs hx
        · obtain ⟨y, hy, hf⟩ := Option.bind_eq_some_iff.mp hx
          exact foldl_bind_keeps (P := P) (fun _ _ _ hz he => hsplit hz he) _ _ _ (fun z hz => by cases hz; exact hsplit hs hy) hf
      exact hmark _ _ (List.foldlRecOn (motive := P) _ _ hPx fun z hz k _ => hpoke (keyIn k (dataOf pa)) g v hz)

end

theorem State.storeBytes_fronts {s t : State} {g : BitVec 2} {pa : Nat} {bytes : List Byte} (h : s.storeBytes g pa bytes = some t) :
    t.fronts = s.fronts := by
  refine State.storeBytes_keeps (P := fun x => x.fronts = s.fronts) (fun {u x _ _ _} hu hx => ?_) (fun _ _ _ hu => hu) (fun _ _ hu => hu) rfl h
  have count (y : State) (code : Nat) : (y.countDevice code 1024).fronts = y.fronts := by
    unfold State.countDevice
    split <;> rfl
  unfold State.splitBatt at hx
  split at hx
  · split at hx
    · cases hx
    · cases hx
      rw [count, count]
      exact hu
  · cases hx
    exact hu

/-- An agent's front after a write of another agent: a monitor on one of the lines has its event bit set. -/
def touched (who : Option Nat) (lines : List Nat) (p : Nat × Front) : Nat × Front :=
  (p.1, { p.2 with monEvent := p.2.monEvent || decide (p.2.monLine ∈ lines ∧ who ≠ some p.1) })

theorem touched_pos {who : Option Nat} {lines : List Nat} {p : Nat × Front} (h : p.2.monLine ∈ lines ∧ who ≠ some p.1) :
    touched who lines p = (p.1, { p.2 with monEvent := true }) := by
  rw [touched, decide_eq_true h, Bool.or_true]

theorem touched_neg {who : Option Nat} {lines : List Nat} {p : Nat × Front} (h : ¬ (p.2.monLine ∈ lines ∧ who ≠ some p.1)) :
    touched who lines p = p := by
  rw [touched, decide_eq_false h, Bool.or_false]

theorem touched_cons (who : Option Nat) (line : Nat) (l : List Nat) (p : Nat × Front) :
    touched who l (touched who [line] p) = touched who (line :: l) p := by
  have hb : (decide (p.2.monLine ∈ [line] ∧ who ≠ some p.1) || decide (p.2.monLine ∈ l ∧ who ≠ some p.1)) =
      decide (p.2.monLine ∈ line :: l ∧ who ≠ some p.1) := by
    rw [← Bool.decide_or]
    exact decide_eq_decide.mpr (by rw [List.mem_singleton, List.mem_cons, or_and_right])
  rw [touched, touched, touched, ← hb, ← Bool.or_assoc]

theorem State.touchMonitors_fronts (s : State) (who : Option Nat) (line : Nat) :
    (s.touchMonitors who line).fronts = s.fronts.map (touched who [line]) := by
  unfold State.touchMonitors
  split
  · refine List.map_congr_left fun p _ => ?_
    split
    · next h =>
      simp only [Bool.and_eq_true, decide_eq_true_eq] at h
      rw [touched_pos ⟨by rw [h.1, List.mem_singleton], Ne.symm h.2⟩]
    · next h =>
      simp only [Bool.and_eq_true, decide_eq_true_eq] at h
      rw [touched_neg fun hp => h ⟨List.mem_singleton.mp hp.1, Ne.symm hp.2⟩]
  · next hany =>
    refine (List.map_id _).symm.trans (List.map_congr_left fun p hp => (touched_neg fun h => hany ?_).symm)
    exact List.any_eq_true.mpr ⟨p, hp, decide_eq_true (List.mem_singleton.mp h.1)⟩

theorem State.markDue_fronts (s : State) (line : Nat) : (s.markDue line).fronts = s.fronts := by
  unfold State.markDue
  dsimp only
  split <;> split <;> rfl

theorem State.lines_fronts (who : Option Nat) : ∀ (l : List Nat) (s : State),
    (l.foldl (fun (s : State) line => (s.touchMonitors who line).markDue line) s).fronts = s.fronts.map (touched who l)
  | [], s => (List.map_id _).symm.trans (List.map_congr_left fun p _ => (touched_neg fun h => absurd h.1 (List.not_mem_nil)).symm)
  | line :: l, s => by
    rw [List.foldl_cons, State.lines_fronts who l, State.markDue_fronts, State.touchMonitors_fronts, List.map_map]
    exact List.map_congr_left fun p _ => touched_cons who line l p

theorem mem_linesOf {pa n line : Nat} : line ∈ linesOf pa n ↔ pa / 64 ≤ line ∧ 64 * line < pa + n ∧ n ≠ 0 := by
  unfold linesOf
  by_cases hn : n = 0
  · simp [hn]
  · rw [if_neg hn, List.mem_map]
    constructor
    · rintro ⟨j, hj, rfl⟩
      rw [List.mem_range] at hj
      omega
    · rintro ⟨h1, h2, -⟩
      exact ⟨line - pa / 64, List.mem_range.mpr (by omega), by omega⟩

/-- A write sets the event bits of the other agents' monitors on its lines. -/
theorem State.write_fronts {s u : State} {who : Option Nat} {g : BitVec 2} {pa : Nat} {bytes : List Byte}
    (h : s.write who g pa bytes = some u) : u.fronts = s.fronts.map (touched who (linesOf pa bytes.length)) := by
  obtain ⟨t, ht, rfl⟩ := Option.map_eq_some_iff.mp h
  have hheal : (t.healRange g pa bytes.length).fronts = t.fronts := by
    unfold State.healRange State.healWhole
    split <;> rfl
  rw [State.wrote, State.lines_fronts, hheal, State.storeBytes_fronts ht]

/-! ## A whole write -/

theorem State.markDue_keyOf (s : State) (line : Nat) : (s.markDue line).keyOf = s.keyOf := by
  have hkey (f : SnapSlot → SnapSlot) (hf : ∀ k b, (f k).holder b = k.holder b) (x : State) (hx : x.slots = s.slots.map fun o => o.map f) :
      x.keyOf = s.keyOf := by
    funext pa
    unfold State.keyOf
    rw [hx, slots_map_getD]
    cases s.slots.getD (slotOf pa - 1) none with
    | none => rfl
    | some k => simp only [Option.map_some, hf]
  have hdue (k : SnapSlot) (b : Nat) : (if k.line = some line then { k with due := true } else k).holder b = k.holder b := by
    split <;> rfl
  unfold State.markDue
  dsimp only
  split <;> split
  · exact hkey _ hdue _ rfl
  · rfl
  · exact hkey _ hdue _ rfl
  · rfl

/-- What a write does beside the bytes changes nothing that a read finds. -/
theorem State.wrote_readByte (s : State) (who : Option Nat) (g : BitVec 2) (pa n : Nat) : (s.wrote who g pa n).readByte = s.readByte := by
  have hread {x y : State} (hm : x.mem = y.mem) (hk : x.keyOf = y.keyOf) : x.readByte = y.readByte := by
    funext a
    rw [State.readByte, State.readByte, hm, hk]
  have htouch (x : State) (line : Nat) : (x.touchMonitors who line).keyOf = x.keyOf := by
    unfold State.touchMonitors
    split <;> rfl
  have hheal : (s.healRange g pa n).keyOf = s.keyOf := by
    unfold State.healRange State.healWhole
    split <;> rfl
  unfold State.wrote
  rw [foldl_keeps State.readByte fun x line => hread (by simp) ((State.markDue_keyOf _ line).trans (htouch x line))]
  exact hread (by simp) hheal

/-- A write of the scratchpad never stalls. -/
theorem State.storeBytes_sp (g : BitVec 2) : ∀ (bytes : List Byte) (s : State) {pa : Nat}, spBase ≤ pa → ∃ t, s.storeBytes g pa bytes = some t
  | [], s, _, _ => ⟨s, rfl⟩
  | v :: vs, s, pa, hpa => by
    obtain ⟨t, ht⟩ := State.storeBytes_sp g vs (s.pokeByte pa g v) (Nat.le_succ_of_le hpa)
    exact ⟨t, by rw [State.storeBytes, State.storeByte, if_pos (by simpa [isSp] using hpa), Option.bind_some, ht]⟩

theorem State.write_performs {s : State} {pa : Nat} (h : s.occupied = [] ∨ spBase ≤ pa) (who : Option Nat) (g : BitVec 2) (bytes : List Byte) :
    ∃ u, s.write who g pa bytes = some u := by
  obtain h | h := h
  · obtain ⟨u, hu, -⟩ := State.write_free h who g pa bytes
    exact ⟨u, hu⟩
  · obtain ⟨t, ht⟩ := State.storeBytes_sp g bytes s h
    exact ⟨_, by rw [State.write, ht]; rfl⟩

/-- What reads find after a write. -/
theorem State.write_stored {s u : State} {who : Option Nat} {g : BitVec 2} {pa : Nat} {bytes : List Byte} (hs : s.StoreOk)
    (hpa : pa + bytes.length ≤ 2 ^ 44 ∨ spBase ≤ pa) (h : s.write who g pa bytes = some u) :
    ∃ t, s.Stored t g pa bytes.length ∧ u.readByte = t.readByte ∧
      (g = s.live ∨ spBase ≤ pa → ∀ j, (h : j < bytes.length) → t.mem.read (pa + j) = bytes[j]) := by
  obtain ⟨t, ht, rfl⟩ := Option.map_eq_some_iff.mp h
  obtain ⟨hst, hv⟩ := State.storeBytes_stored hs hpa ht
  exact ⟨t, hst, State.wrote_readByte .., hv⟩

/-- Settles O14: the bytes by induction on the write, each through the copies that it makes first, and the monitors by induction on
its lines. -/
theorem writeResults : Obligations.WriteResults := by
  unfold Obligations.WriteResults
  intro s who g pa bytes
  refine ⟨fun h => State.write_performs h who g bytes, fun u hu => ⟨fun b f hf => ?_, fun hm hk hpa => ?_⟩⟩
  · rw [State.write_fronts hu]
    refine List.mem_map.mpr ⟨(b, f), hf, ?_⟩
    have hiff : (pa / 64 ≤ f.monLine ∧ 64 * f.monLine < pa + bytes.length ∧ bytes ≠ [] ∧ who ≠ some b) ↔
        f.monLine ∈ linesOf pa bytes.length ∧ who ≠ some b := by
      rw [mem_linesOf, ← List.length_pos_iff, Nat.pos_iff_ne_zero]
      tauto
    split
    · next h => exact touched_pos (hiff.mp h)
    · next h => exact touched_neg fun hp => h (hiff.mpr hp)
  · obtain ⟨t, hst, hread, hv⟩ := State.write_stored ⟨hm, hk⟩ hpa hu
    rw [hread]
    refine ⟨fun hg j hj => ?_, fun q hq hout => ?_, fun q hq hout => ?_, fun j q hj hq hg => ?_⟩
    · rw [t.readByte_live (hpa.imp (fun h => by omega) fun h => by omega)]
      exact hv hg j hj
    · rw [t.readByte_live (.inr hq), s.readByte_live (.inr hq), hst.frame q (.inr hq) hout]
    · rw [t.readByte_live (.inl hq), s.readByte_live (.inl hq), hst.frame q (.inl hq) hout]
    · rw [t.readByte_image j.isLt hq, s.readByte_image j.isLt hq]
      exact (hst.images hg j (by simpa [Vector.getD] using (show s.slots[j.val].isSome = true from hj))).2 q hq

end Sys2Proof.Machine
end
section
/-! PROOFS. What scalar instructions leave: a result in a register, a forked thread, a trap (R78, R122, R134, R135, R213). -/
namespace Sys2Proof.Machine

/-! ## Reading and results -/

/-- With its registers ready an instruction of the front goes on to its effect. -/
theorem onFront_ready {s : State} {g : Nat} {reads writes : List XReg} (h : s.Issues g reads writes) (k : Nat → Front → Out) :
    (onFront s fun a _ => scalarRead s a reads writes (k a)) = k g (s.front g) := by
  obtain ⟨⟨df, ha⟩, hr⟩ := h
  simp [onFront, ha, scalarRead_ready hr]

/-- A result in a register, and the front at its next instruction (R78, R85, R122). -/
theorem scalarResult_writeX (s : State) (a : Nat) (d : XReg) (v npc : W64) : ScalarResult s ((s.writeX a d v).retire a npc) a d v npc where
  value r := s.writeX_retire_xr a d r v npc
  pc := by simp
  instret := by simp
  order := by simp
  front := by
    rw [State.retire_front_self, State.writeX_front_self]
    unfold Front.setX
    split <;> rfl
  rest := ⟨fun b hb => by rw [State.retire_front_other _ _ hb, State.writeX_front_other _ _ _ hb], rfl⟩

/-- The front at its next instruction, with no result. -/
theorem scalarResult_retire (s : State) (a : Nat) (npc : W64) : ScalarResult s (s.retire a npc) a 0 0 npc where
  value r := by
    rw [State.retire_front_self, if_neg (by rintro ⟨rfl, h⟩; exact h rfl)]
    rfl
  pc := by simp
  instret := by simp
  order := by simp
  front := by rw [State.retire_front_self]
  rest := ⟨fun b hb => State.retire_front_other _ _ hb, rfl⟩

/-! ## Forks (R213) -/

theorem Front.isPend_setPend (f : Front) (d r : XReg) :
    (f.setPend d).isPend r = (f.isPend r || (decide (some d = some r) && decide (r ≠ 0))) := by
  unfold Front.setPend Front.isPend
  by_cases hd : d = 0
  · rw [if_pos hd, hd]
    have hno : (decide (some (0 : XReg) = some r) && decide (r ≠ 0)) = false := by
      rw [← Bool.decide_and]
      exact decide_eq_false (by rintro ⟨h, hr⟩; exact hr (Option.some.inj h).symm)
    rw [hno, Bool.or_false]
  · have hbit : (1#32 <<< d.toNat).getLsbD r.toNat = decide (d = r) := by
      have := r.isLt
      have hiff : d = r ↔ d.toNat = r.toNat := BitVec.toNat_inj.symm
      simp only [BitVec.getLsbD_shiftLeft, BitVec.getLsbD_one, hiff]
      by_cases h : d.toNat = r.toNat <;> simp [h]
      all_goals omega
    rw [if_neg hd]
    simp only [BitVec.getLsbD_or, hbit, Option.some.injEq]
    rw [Bool.and_or_distrib_left, Bool.and_comm (decide (d = r))]

theorem forksTo_fork (s : State) (a : Nat) (d : Option XReg) (kind : ThreadKind) (cls : Cls) :
    ForksTo s (s.fork a (s.newThread a kind cls) d) a d kind cls := by
  cases d with
  | none =>
    refine ⟨rfl, rfl, rfl, fun b hb => State.retire_front_other _ _ hb, fun r => ?_, ?_, ?_, ?_, ?_⟩ <;>
      simp only [State.fork, State.retire_front_self]
    · simp [Front.isPend]
      rfl
    all_goals rfl
  | some d =>
    refine ⟨rfl, rfl, rfl, fun b hb => ?_, fun r => ?_, ?_, ?_, ?_, ?_⟩
    · rw [State.fork, State.retire_front_other _ _ hb, State.front_setFront, if_neg hb]
      rfl
    all_goals simp only [State.fork, State.retire_front_self, State.front_setFront_self]
    · exact Front.isPend_setPend _ d r
    · unfold Front.setPend
      split <;> rfl
    · simp
    · simp

/-! ## Traps (R134, R135) -/

/-- A state in which the checks of an access find what they find in another: what the fronts, the vector sides, the threads, the
traffic to other devices and the account hold is none of theirs, but for the launch of the agent. -/
structure State.SeesAs (s u : State) : Prop where
  rest : { u with
      fronts := s.fronts, vecs := s.vecs, cores := s.cores, threads := s.threads, requests := s.requests, arrived := s.arrived
      touches := s.touches, fired := s.fired } = s
  utlb : ∀ g, (u.core g).utlb = (s.core g).utlb
  fence : ∀ g, (u.core g).fence = (s.core g).fence

section
variable {s u : State} (h : s.SeesAs u)
include h

theorem State.SeesAs.walk (table : Nat) (va : W64) (n : Nat) : u.walk table va n = s.walk table va n := by
  have hpte (table n : Nat) : u.pteAt table va n = s.pteAt table va n := (congrArg (fun x : State => x.pteAt table va n) h.rest :)
  induction n generalizing table with
  | zero =>
    unfold State.walk
    rw [hpte]
  | succ n ih =>
    unfold State.walk
    rw [hpte]
    cases s.pteAt table va (n + 1) with
    | error c => rfl
    | ok r =>
      cases r with
      | inl l => rfl
      | inr next => exact ih next

theorem State.SeesAs.checkVa (a : Nat) (thread : Bool) (aspace : W64) (sup : Bool) (k : Acc) (va : W64) (n : Nat) :
    u.checkVa a thread aspace sup k va n = s.checkVa a thread aspace sup k va n := by
  have hcluster (c : Nat) : u.cluster c = s.cluster c := (congrArg (fun x : State => x.cluster c) h.rest :)
  have htlb (id : BitVec 16) : u.tlbLookup a thread id va = s.tlbLookup a thread id va := by
    unfold State.tlbLookup
    rw [h.utlb, hcluster]
  unfold State.checkVa State.translate
  rw [htlb, h.walk]

/-- The checks of an address. -/
theorem State.SeesAs.check {a : Nat} (hlaunch : (u.front a).launch = (s.front a).launch) (thread : Bool) (aspace : W64) (sup : Bool) (k : Acc)
    (va : W64) (n : Nat) : u.check a thread aspace sup k va n = s.check a thread aspace sup k va n := by
  have hfenced (pa : Nat) : u.fenced a pa = s.fenced a pa := by
    unfold State.fenced
    rw [hlaunch]
    cases (s.front a).launch with
    | none => rfl
    | some l => exact congrArg (fun x : List Nat => x.contains l && (isDrone a || decide (coreOf a ≠ spCore pa))) (h.fence (spCore pa))
  have hpa (pa : Nat) : u.checkPa k pa = s.checkPa k pa := (congrArg (fun x : State => x.checkPa k pa) h.rest :)
  unfold State.check
  rw [h.checkVa]
  simp only [hfenced, hpa]

theorem State.SeesAs.fetchable {a : Nat} (va : W64) (haspace : (u.front a).aspace = (s.front a).aspace)
    (hlaunch : (u.front a).launch = (s.front a).launch) : u.fetchable a va = s.fetchable a va := by
  have huecc (pa n : Nat) : u.uecc pa n = s.uecc pa n := (congrArg (fun x : State => x.uecc pa n) h.rest :)
  unfold State.fetchable
  rw [haspace, h.check hlaunch]
  simp only [huecc]

/-- The handler can be entered from either state. -/
theorem State.SeesAs.handlerOk {a : Nat} (hfront : u.front a = s.front a) (hok : s.HandlerOk a) : u.HandlerOk a := by
  obtain ⟨h0, h1⟩ := hok
  exact ⟨by rw [hfront]; exact h0, by rw [hfront, h.fetchable _ (by rw [hfront]) (by rw [hfront])]; exact h1⟩

end

/-- The front that takes a trap (R134, R135). -/
def trapFront (s : State) (a : Nat) (vec : Bool) (epc : W64) (x : Trap) : Front :=
  let f := s.front a
  { f with
    cause := x.cause vec, epc := epc, tval := x.tval, status := trapStatus f.status,
    shVtype := if isDrone a then f.shVtype else (s.vec a).vtype, shVl := if isDrone a then f.shVl else (s.vec a).vl,
    pc := f.tvec, run := .running, entering := true, held := f.held || vec,
    spc := if vec || !f.held then f.pc else f.spc, vcp := if vec then epc else if f.held then f.vcp else s.vcpOf a }

/-- Where the handler can be entered a trap changes the front alone, and fires its trigger (R134, R397). -/
theorem State.takeTrap_eq {s : State} {a : Nat} (h : s.HandlerOk a) (vec : Bool) (epc : W64) (x : Trap) :
    ∃ fired, s.takeTrap a vec epc x = { s.setFront a (trapFront s a vec epc x) with fired := fired } ∧ (x.code ≠ 10 → fired = s.fired) := by
  obtain ⟨htvec, hfetch⟩ := h
  obtain ⟨fired, hfire, hkept⟩ : ∃ fired, (if x.code = 10 then s.fire 1 else s) = { s with fired := fired } ∧ (x.code ≠ 10 → fired = s.fired) := by
    by_cases hc : x.code = 10
    · rw [if_pos hc, State.fire]
      refine ⟨if s.trgctl.getLsbD 1 then s.fired ||| (1#5 <<< 1) else s.fired, ?_, fun h => absurd hc h⟩
      split <;> rfl
    · exact ⟨s.fired, by rw [if_neg hc], fun _ => rfl⟩
  refine ⟨fired, ?_, hkept⟩
  have hfetch' : ({ s.setFront a (trapFront s a vec epc x) with fired := fired } : State).fetchable a (s.front a).tvec = true := by
    have hself : ({ s.setFront a (trapFront s a vec epc x) with fired := fired } : State).front a = trapFront s a vec epc x := s.front_setFront_self a _
    have hsees : s.SeesAs { s.setFront a (trapFront s a vec epc x) with fired := fired } := ⟨rfl, fun _ => rfl, fun _ => rfl⟩
    exact (hsees.fetchable _ (by rw [hself]; rfl) (by rw [hself]; rfl)).trans hfetch
  unfold State.takeTrap
  rw [hfire]
  dsimp only
  rw [if_neg htvec]
  refine Eq.trans (if_neg ?_) rfl
  rw [Bool.not_eq_true', Bool.not_eq_false]
  exact hfetch'

/-- The bits of CAUSE (R86). -/
theorem Trap.cause_bits (x : Trap) (vec : Bool) :
    (x.cause vec).extractLsb' 0 8 = BitVec.ofNat 8 x.code ∧ (x.cause vec).getLsbD 8 = x.write ∧ (x.cause vec).getLsbD 9 = vec ∧
    (x.cause vec).extractLsb' 10 6 = BitVec.ofNat 6 x.lane ∧ (x.cause vec).extractLsb' 16 13 = BitVec.ofNat 13 x.elem := by
  unfold Trap.cause
  generalize BitVec.ofNat 13 x.elem = e
  generalize BitVec.ofNat 6 x.lane = l
  generalize BitVec.ofNat 8 x.code = c
  have hbit (i : Nat) : (e ++ l ++ BitVec.ofBool vec ++ BitVec.ofBool x.write ++ c).getLsbD i =
      if i < 8 then c.getLsbD i else if i < 9 then x.write else if i < 10 then vec
      else if i < 16 then l.getLsbD (i - 10) else e.getLsbD (i - 16) := by
    rw [BitVec.getLsbD_append, BitVec.getLsbD_append, BitVec.getLsbD_append, BitVec.getLsbD_append]
    grind
  refine ⟨?_, hbit 8, hbit 9, ?_, ?_⟩
  all_goals
    ext i hi
    rw [BitVec.getElem_extractLsb', hbit]
  · grind
  · grind
  · grind

/-- A trap whose handler can be entered. -/
theorem trapTaken_front {s t : State} {a : Nat} {vec : Bool} (epc : W64) (x : Trap) (h : t.front a = trapFront s a vec epc x) :
    TrapTaken s t a vec epc x := by
  obtain ⟨hcode, hwrite, hvec, hlane, helem⟩ := x.cause_bits vec
  have hst (b : BitVec 5) : (trapStatus b).getLsbD 0 = true ∧ (trapStatus b).getLsbD 1 = b.getLsbD 0 ∧ (trapStatus b).getLsbD 2 = false ∧
      (trapStatus b).getLsbD 3 = b.getLsbD 2 ∧ (trapStatus b).getLsbD 4 = b.getLsbD 4 := by
    revert b
    decide
  obtain ⟨hsup, hpsup, hie, hpie, hdrone⟩ := hst (s.front a).status
  exact {
    code := by rw [h]; exact hcode
    write := by rw [h]; exact hwrite
    vector := by rw [h]; exact hvec
    lane := by rw [h]; exact hlane
    element := by rw [h]; exact helem
    savedPc := by rw [h]; rfl
    savedValue := by rw [h]; rfl
    sup := by rw [h]; exact hsup
    psup := by rw [h]; exact hpsup
    ie := by rw [h]; exact hie
    pie := by rw [h]; exact hpie
    drone := by rw [h]; exact hdrone
    pc := by rw [h]; rfl
    running := by rw [h]; rfl
    nextPc := by rw [h]; cases hh : (s.front a).held <;> cases vec <;> simp [trapFront, hh]
    vectorPc := by rw [h]; rfl
    entering := by rw [h]; rfl
    regs := by rw [h]; exact ⟨rfl, rfl, rfl, rfl, rfl⟩
    shadow := fun hd => by rw [h]; simp [trapFront, hd] }

/-- An access that fails a check traps. -/
theorem State.accessTrap_traps {s : State} {g n : Nat} {va : W64} {i : Instr} {x : Trap} (hb : s.vecBusy g = false) (hh : s.HandlerOk g)
    (hi : exec i s = s.accessTrap g va n x) : s.Traps g i x := by
  have hh' : (s.noteFault g false (s.front g).aspace va n x.code).HandlerOk g :=
    State.SeesAs.handlerOk (s := s) ⟨rfl, fun _ => rfl, fun _ => rfl⟩ rfl hh
  obtain ⟨fired, ht, hfired⟩ := State.takeTrap_eq hh' false (s.front g).pc x
  rw [State.accessTrap, if_neg (by simp [hb]), ht] at hi
  exact ⟨_, hi, trapTaken_front _ x (State.front_setFront_self ..), fun b hb => by exact (State.front_setFront ..).trans (if_neg hb), rfl, hfired⟩

end Sys2Proof.Machine
end
section
/-! PROOFS. `fab.add96` and `fab.notify` at the front and in their threads (R52, R53, R349, R350): O54. -/
namespace Sys2Proof.Machine

/-! ## The instructions at the front -/

section
variable {s : State} {g : Nat} {d a b : XReg} {cls : Cls}

/-- What `fab.add96` does with its registers ready (R349). -/
theorem exec_fabAdd96 (h : s.Issues g [a, b, b + 1] [d]) :
    exec (.fabAdd96 d a b cls) s =
      let f := s.front g
      let va := f.xr a
      let trap (c : Nat) : Out := s.accessTrap g va 16 { code := c, write := true, tval := va }
      if (f.xr (b + 1)).extractLsb' 42 21 ≠ 0 then .next ((s.writeX g d (statusWord 2)).retire g (f.pc + 4))
      else
        match s.checkVa g false f.aspace f.sup .store va 16 with
        | .error c => trap c
        | .ok (pa, io) =>
          if io || slotOf pa ≠ 0 then trap 8
          else if isSp pa && s.fenced g pa then trap 11
          else if isDomain pa && !(isDomain pa && deviceOf pa = s.flash.deviceId) && !s.routed (deviceOf pa) then
            .next (((s.noteLookup g va).writeX g d (statusWord 5)).retire g (f.pc + 4))
          else
            .next ((s.noteLookup g va).fork g (s.newThread g (.add96 d va
              (if isDomain pa && deviceOf pa = s.flash.deviceId then dataOf pa else pa) (add96Operand (f.xr b) (f.xr (b + 1)))) cls) (some d)) := by
  have hexec : exec (.fabAdd96 d a b cls) s = execFabAdd96 d a b cls s := rfl
  rw [hexec, execFabAdd96, onFront_ready h] <;> rfl

/-- What `fab.notify` does with its registers ready (R350). -/
theorem exec_fabNotify (h : s.Issues g [a, b] []) :
    exec (.fabNotify a b cls) s =
      let f := s.front g
      let va := f.xr a
      let trap (c : Nat) : Out := s.accessTrap g va 8 { code := c, write := true, tval := va }
      match s.checkVa g false f.aspace f.sup .store va 8 with
      | .error c => trap c
      | .ok (pa, io) =>
        if io then trap 8
        else if isDomain pa && (pa / 2 ^ 44) % 2 = 0 && deviceOf pa ≠ s.flash.deviceId && !s.routed (deviceOf pa) then
          .next (((s.noteLookup g va).countDevice 0x44 1).retire g (f.pc + 4))
        else
          match s.checkOwn g .store va 8 with
          | .error c => trap c
          | .ok (pa, _) => .next ((s.noteLookup g va).fork g (s.newThread g (.notify va pa (f.xr b)) cls) none) := by
  have hexec : exec (.fabNotify a b cls) s = execFabNotify a b cls s := rfl
  rw [hexec, execFabNotify, onFront_ready h] <;> rfl

end

theorem State.countDevice_note (s : State) (x : Touch) (code k : Nat) : (s.note x).countDevice code k = (s.countDevice code k).note x := by
  have hcounts : counts (s.note x).dvs code = counts s.dvs code := rfl
  unfold State.countDevice
  rw [hcounts]
  split <;> rfl

theorem State.countDevice_touches (s : State) (code k : Nat) : (s.countDevice code k).touches = s.touches := by
  unfold State.countDevice
  split <;> rfl

/-- `fab.add96` at the front. -/
theorem fabAdd96_front (s : State) (g : Nat) (d a b : XReg) (cls : Cls) (pa : Nat) (io : Bool) :
    let f := s.front g
    let hi := f.xr (b + 1)
    let own := isDomain pa = true ∧ deviceOf pa = s.flash.deviceId
    let v : BitVec 128 := hi.extractLsb' 63 1 ++ 0#21 ++ hi.extractLsb' 32 10 ++ hi.extractLsb' 0 32 ++ f.xr b
    let forks (i : Instr) (d : Option XReg) (kind : ThreadKind) : Prop :=
      ∃ t, exec i s = .next t ∧ ForksTo s { t with touches := s.touches } g d kind cls
    let traps (i : Instr) (c : Nat) : Prop := s.vecBusy g = false → s.HandlerOk g →
      s.Traps g i { code := c, write := true, tval := f.xr a }
    (s.Issues g [a, b, b + 1] [d] →
      (hi.extractLsb' 42 21 ≠ 0 → s.Computes g (.fabAdd96 d a b cls) d (-2) (f.pc + 4)) ∧
      (∀ c, hi.extractLsb' 42 21 = 0 → s.checkVa g false f.aspace f.sup .store (f.xr a) 16 = .error c →
        traps (.fabAdd96 d a b cls) c) ∧
      (hi.extractLsb' 42 21 = 0 → s.checkVa g false f.aspace f.sup .store (f.xr a) 16 = .ok (pa, io) →
        (io = true ∨ slotOf pa ≠ 0 → traps (.fabAdd96 d a b cls) 8) ∧
        (io = false → slotOf pa = 0 → (isSp pa && s.fenced g pa) = true → traps (.fabAdd96 d a b cls) 11) ∧
        (io = false → slotOf pa = 0 → (isSp pa && s.fenced g pa) = false →
          (isDomain pa = true → ¬ own → s.routed (deviceOf pa) = false →
            ∃ t, exec (.fabAdd96 d a b cls) s = .next t ∧ ScalarResult s { t with touches := s.touches } g d (-5) (f.pc + 4)) ∧
          (own → forks (.fabAdd96 d a b cls) (some d) (.add96 d (f.xr a) (dataOf pa) v)) ∧
          (¬ own → (isDomain pa = true → s.routed (deviceOf pa) = true) →
            forks (.fabAdd96 d a b cls) (some d) (.add96 d (f.xr a) pa v))))) := by
  intro f hi own v forks traps hissue
  have hexec := exec_fabAdd96 (cls := cls) hissue
  refine ⟨fun hres => ?_, fun c hres hva hb hh => ?_, fun hres hva => ⟨fun hbad hb hh => ?_, fun hio hslot hf hb hh => ?_, fun hio hslot hf => ?_⟩⟩
  · exact ⟨_, hexec.trans (if_pos hres), scalarResult_writeX s g d (statusWord 2) _⟩
  all_goals
    dsimp only at hexec
    rw [if_neg (not_not.mpr hres), hva] at hexec
    dsimp only at hexec
  · exact State.accessTrap_traps hb hh hexec
  · rw [if_pos (by simpa using hbad)] at hexec
    exact State.accessTrap_traps hb hh hexec
  · rw [if_neg (by simp [hio, hslot]), if_pos hf] at hexec
    exact State.accessTrap_traps hb hh hexec
  · rw [if_neg (by simp [hio, hslot]), if_neg (by simp [hf])] at hexec
    refine ⟨fun hdom hown hroute => ?_, fun hown => ?_, fun hown hroute => ?_⟩
    · rw [if_pos (by simp [hdom, hroute]; exact fun h => hown ⟨hdom, h⟩)] at hexec
      exact ⟨_, hexec, scalarResult_writeX s g d (statusWord 5) _⟩
    · rw [if_neg (by simp [hown.1, hown.2]), if_pos (by simp [hown.1, hown.2])] at hexec
      exact ⟨_, hexec, forksTo_fork s g (some d) _ cls⟩
    · have hown' : ¬ (isDomain pa && decide (deviceOf pa = s.flash.deviceId)) = true := by simpa [own] using hown
      rw [if_neg ?_, if_neg hown'] at hexec
      · exact ⟨_, hexec, forksTo_fork s g (some d) _ cls⟩
      · intro h
        simp only [Bool.and_eq_true, Bool.not_eq_true'] at h
        rw [hroute h.1.1] at h
        cases h.2

/-- `fab.notify` at the front. -/
theorem fabNotify_front (s : State) (g : Nat) (a b : XReg) (cls : Cls) (pa : Nat) :
    let f := s.front g
    let own := isDomain pa = true ∧ deviceOf pa = s.flash.deviceId
    let forks (i : Instr) (d : Option XReg) (kind : ThreadKind) : Prop :=
      ∃ t, exec i s = .next t ∧ ForksTo s { t with touches := s.touches } g d kind cls
    let traps (i : Instr) (c : Nat) : Prop := s.vecBusy g = false → s.HandlerOk g →
      s.Traps g i { code := c, write := true, tval := f.xr a }
    (s.Issues g [a, b] [] →
      (∀ c, s.checkVa g false f.aspace f.sup .store (f.xr a) 8 = .error c → traps (.fabNotify a b cls) c) ∧
      (s.checkVa g false f.aspace f.sup .store (f.xr a) 8 = .ok (pa, true) → traps (.fabNotify a b cls) 8) ∧
      (s.checkVa g false f.aspace f.sup .store (f.xr a) 8 = .ok (pa, false) →
        let lost := isDomain pa = true ∧ pa / 2 ^ 44 % 2 = 0 ∧ ¬ own ∧ s.routed (deviceOf pa) = false
        (lost → ∃ t, exec (.fabNotify a b cls) s = .next t ∧
          ScalarResult (s.countDevice 0x44 1) { t with touches := s.touches } g 0 0 (f.pc + 4)) ∧
        (¬ lost → (∀ c, s.checkOwn g .store (f.xr a) 8 = .error c → traps (.fabNotify a b cls) c) ∧
          ∀ p y, s.checkOwn g .store (f.xr a) 8 = .ok (p, y) → forks (.fabNotify a b cls) none (.notify (f.xr a) p (f.xr b))))) := by
  intro f own forks traps hissue
  have hexec := exec_fabNotify (cls := cls) hissue
  dsimp only at hexec
  refine ⟨fun c hva hb hh => ?_, fun hva hb hh => ?_, fun hva => ?_⟩
  all_goals
    rw [hva] at hexec
    dsimp only at hexec
  · exact State.accessTrap_traps hb hh hexec
  · exact State.accessTrap_traps hb hh hexec
  · intro lost
    have hlost : lost ↔ (isDomain pa && decide (pa / 2 ^ 44 % 2 = 0) && decide (deviceOf pa ≠ s.flash.deviceId) &&
        !s.routed (deviceOf pa)) = true := by
      simp only [lost, own, Bool.and_eq_true, decide_eq_true_eq, Bool.not_eq_true']
      tauto
    refine ⟨fun h => ?_, fun h => ⟨fun c hown hb hh => ?_, fun p y hown => ?_⟩⟩
    · rw [if_neg (by simp), if_pos (hlost.mp h), State.noteLookup, State.countDevice_note] at hexec
      refine ⟨_, hexec, ?_⟩
      rw [← s.countDevice_touches 0x44 1]
      exact scalarResult_retire (s.countDevice 0x44 1) g (f.pc + 4)
    · rw [if_neg (by simp), if_neg (fun hl => h (hlost.mpr hl)), hown] at hexec
      exact State.accessTrap_traps hb hh hexec
    · rw [if_neg (by simp), if_neg (fun hl => h (hlost.mpr hl)), hown] at hexec
      exact ⟨_, hexec, forksTo_fork s g none _ cls⟩

/-! ## The end of a thread (R214, R215) -/

/-- The fronts of two states agree but for the event bits of monitors. -/
def SameFronts (s u : State) : Prop := ∀ b, { u.front b with monEvent := (s.front b).monEvent } = s.front b

theorem State.ovlAdopt_fronts (s : State) (cores : List Nat) (seq : Nat) (ranges : List SpRange) (gen : BitVec 2) :
    (s.ovlAdopt cores seq ranges gen).fronts = s.fronts := by
  unfold State.ovlAdopt
  split <;> rfl

theorem State.ovlAdopt_ids (s : State) (cores : List Nat) (seq : Nat) (ranges : List SpRange) (gen : BitVec 2) :
    (s.ovlAdopt cores seq ranges gen).threads.map (·.id) = s.threads.map (·.id) := by
  unfold State.ovlAdopt
  split
  · rfl
  · dsimp only
    rw [List.map_map]
    refine List.map_congr_left fun x _ => ?_
    rw [Function.comp_apply]
    split <;> rfl

/-- The state without a thread, before its value is delivered: what `State.endThread` comes to for a thread without a token register. -/
def State.withoutThread (s : State) (t : Thread) : State := s.endThread t none 0

theorem State.endThread_eq (s : State) (t : Thread) (d : XReg) (v : W64) :
    s.endThread t (some d) v =
      if d = 0 then s.withoutThread t
      else (s.withoutThread t).setFront t.agent
        { (s.withoutThread t).front t.agent with tokens := ⟨d, v, t.gen⟩ :: ((s.withoutThread t).front t.agent).tokens } := rfl

theorem State.withoutThread_front (s : State) (t : Thread) (b : Nat) : (s.withoutThread t).front b = s.front b := by
  rw [State.withoutThread, State.front, State.endThread, State.ovlAdopt_fronts]
  rfl

theorem State.withoutThread_gone (s : State) (t : Thread) : ∀ y ∈ (s.withoutThread t).threads, y.id ≠ t.id := by
  intro y hy
  have hmem : y.id ∈ (s.withoutThread t).threads.map (·.id) := List.mem_map_of_mem hy
  rw [State.withoutThread, State.endThread, State.ovlAdopt_ids] at hmem
  obtain ⟨z, hz, hzy⟩ := List.mem_map.mp hmem
  rw [← hzy]
  simpa using (List.mem_filter.mp hz).2

/-- A thread that ends leaves no thread of its number, and its value for its token register (R214, R215). -/
theorem threadEnded_endThread {s u : State} (h : SameFronts s u) {t t' : Thread} (hid : t'.id = t.id) (ha : t'.agent = t.agent) (d : XReg)
    (v : W64) : ThreadEnded s (u.endThread t' (some d) v) t d v := by
  have htokens : (u.front t.agent).tokens = (s.front t.agent).tokens := by rw [← h t.agent]
  have hgone := hid ▸ u.withoutThread_gone t'
  rw [State.endThread_eq, ha]
  split
  · next hd =>
    refine ⟨hgone, ?_, ?_, fun b _ => ?_⟩
    · rw [if_pos hd, State.withoutThread_front, htokens]
    · rw [State.withoutThread_front, ← htokens]
      exact h t.agent
    · rw [State.withoutThread_front]
      exact h b
  · next hd =>
    refine ⟨hgone, ?_, ?_, fun b hb => ?_⟩
    · rw [if_neg hd, State.front_setFront_self, State.withoutThread_front]
      exact ⟨t'.gen, by rw [htokens]⟩
    · rw [State.front_setFront_self, State.withoutThread_front, ← htokens]
      exact h t.agent
    · rw [State.front_setFront, if_neg hb, State.withoutThread_front]
      exact h b

/-- A thread that ends leaves memory, packets and counters alone. -/
theorem State.endThread_rest (u : State) (t : Thread) (d : Option XReg) (v : W64) : (u.endThread t d v).mem = u.mem ∧
    (u.endThread t d v).bgen = u.bgen ∧ (u.endThread t d v).packets = u.packets ∧ (u.endThread t d v).dvc = u.dvc := by
  have hovl (x : State) (cores : List Nat) (seq : Nat) (ranges : List SpRange) (gen : BitVec 2) :
      (x.ovlAdopt cores seq ranges gen).mem = x.mem ∧ (x.ovlAdopt cores seq ranges gen).bgen = x.bgen ∧
        (x.ovlAdopt cores seq ranges gen).packets = x.packets ∧ (x.ovlAdopt cores seq ranges gen).dvc = x.dvc := by
    unfold State.ovlAdopt
    split <;> exact ⟨rfl, rfl, rfl, rfl⟩
  have hgone : (u.withoutThread t).mem = u.mem ∧ (u.withoutThread t).bgen = u.bgen ∧ (u.withoutThread t).packets = u.packets ∧
      (u.withoutThread t).dvc = u.dvc := hovl ..
  cases d with
  | none => exact hgone
  | some d =>
    rw [State.endThread_eq]
    split <;> exact hgone

/-! ## The threads -/

theorem SameFronts.refl (s : State) : SameFronts s s := fun _ => rfl

/-- A write changes the fronts in event bits only. -/
theorem State.write_sameFronts {s m : State} {who : Option Nat} {g : BitVec 2} {pa : Nat} {bytes : List Byte}
    (h : s.write who g pa bytes = some m) : SameFronts s m := by
  have hget (who : Option Nat) (ls : List Nat) (b : Nat) (d : Front) : ∀ l : Store Front,
      { Store.get d (l.map (touched who ls)) b with monEvent := (Store.get d l b).monEvent } = Store.get d l b := by
    intro l
    induction l with
    | nil => rfl
    | cons p l ih =>
      obtain ⟨k, f⟩ := p
      by_cases hb : b = k
      · simp [Store.get, touched, hb]
      · simpa [Store.get, touched, hb] using ih
  intro b
  rw [State.front, State.write_fronts h]
  exact hget _ _ b _ s.fronts

/-- The sum of two anchored values of one exponent in the layout of R52 (R53). -/
theorem add96_bits {old v : BitVec 128} :
    (add96 (Anchored.ofBits old) (Anchored.ofBits v)).bits =
      (old ||| v).extractLsb' 127 1 ++ 0#21 ++ old.extractLsb' 96 10 ++ (old.extractLsb' 0 96 + v.extractLsb' 0 96) := by
  have hx : BitVec.ofBool (old.getLsbD 127 || v.getLsbD 127) = (old ||| v).extractLsb' 127 1 := by
    ext i hi
    obtain rfl : i = 0 := by omega
    simp
  rw [← hx]
  rfl

/-- ADD96_PERFORM on a slot of this device. -/
theorem exec_add96Perform {s : State} {id : Nat} {t : Thread} {d : XReg} {va : W64} {pa : Nat} {v : BitVec 128} (ht : s.thread id = some t)
    (hkind : t.kind = .add96 d va pa v) (hstart : t.started = true) (hsent : t.sent = none) (hdom : isDomain pa = false) {u : State} {st : Nat}
    (hadd : s.addSlot (s.newest t.gen (s.genRange pa 16)) pa v = some (u, st)) :
    ∃ gen, exec (.add96Perform id) s = .next (u.endThread { t with gen := gen } (some d) (statusWord st)) := by
  have hexec : exec (.add96Perform id) s = execAdd96Perform id s := rfl
  rw [hexec, execAdd96Perform, ht]
  dsimp only
  rw [hkind]
  dsimp only
  rw [if_neg (by simp [hstart, hsent]), if_neg (by simp [hdom]), hadd]
  exact ⟨_, rfl⟩

theorem statusWord_eq (n : Nat) : statusWord n = -(BitVec.ofNat 64 n) := BitVec.zero_sub _

/-- The thread of a `fab.add96`: its sum in one write, or a status with no effect, or its operand to the home of the slot. -/
theorem add96_thread (s : State) (id : Nat) (t : Thread) (ht : s.thread id = some t) :
    ∀ d va pa v, t.kind = .add96 d va pa v → t.started = true → t.sent = none →
      let old := BitVec.ofNat 128 (s.readLE pa 16)
      let gen := s.newest t.gen (s.genRange pa 16)
      let ends (n : Nat) : Prop := ∃ u, exec (.add96Perform id) s = .next u ∧ ThreadEnded s u t d (-(BitVec.ofNat 64 n)) ∧ u.mem = s.mem
      (isDomain pa = false →
        (isSp pa = false → s.dataLimit ≤ dataOf pa → ends 6) ∧
        ((isSp pa = true ∨ dataOf pa < s.dataLimit) →
          (s.uecc pa 16 = true → ends 4) ∧
          (s.uecc pa 16 = false → old.extractLsb' 96 10 ≠ v.extractLsb' 96 10 → ends 3) ∧
          (s.uecc pa 16 = false → old.extractLsb' 96 10 = v.extractLsb' 96 10 → ∀ m,
            s.write none (s.lineGen pa gen) pa (bytesLE 16 ((old ||| v).extractLsb' 127 1 ++ 0#21 ++ old.extractLsb' 96 10 ++
              (old.extractLsb' 0 96 + v.extractLsb' 0 96) : BitVec 128).toNat) = some m →
            ∃ u, exec (.add96Perform id) s = .next u ∧ ThreadEnded s u t d 0 ∧ u.mem = m.mem ∧ u.bgen = m.bgen))) ∧
      (isDomain pa = true → ∃ u p, exec (.add96Perform id) s = .next u ∧ u.packets = s.packets ++ [p] ∧ p.dst = deviceOf pa ∧
        p.what = .add96 pa v ∧ u.requests = s.requests ++ [⟨s.rseq, deviceOf pa, .thread id⟩] ∧ u.fronts = s.fronts ∧ u.mem = s.mem) := by
  intro d va pa v hkind hstart hsent old gen ends
  have hends {n : Nat} {u : State} (hdom : isDomain pa = false) (hu : SameFronts s u) (hm : u.mem = s.mem)
      (hadd : s.addSlot gen pa v = some (u, n)) : ends n := by
    obtain ⟨gen', hexec⟩ := exec_add96Perform ht hkind hstart hsent hdom hadd
    have hended : ThreadEnded s _ t d (statusWord n) :=
      threadEnded_endThread (t := t) (t' := { t with gen := gen' }) hu rfl rfl d (statusWord n)
    rw [statusWord_eq] at hended hexec
    exact ⟨_, hexec, hended, (State.endThread_rest ..).1.trans hm⟩
  have hlim (h : isSp pa = true ∨ dataOf pa < s.dataLimit) : ¬ (!isSp pa && decide (s.dataLimit ≤ dataOf pa)) = true := by
    obtain h | h := h
    · simp [h]
    · simp [Nat.not_le.mpr h]
  refine ⟨fun hdom => ⟨fun hsp hlim => ?_, fun hin => ⟨fun hu => ?_, fun hu he => ?_, fun hu he m hm => ?_⟩⟩, fun hdom => ?_⟩
  · refine hends hdom (SameFronts.refl s) rfl ?_
    rw [State.addSlot, if_pos (by simp [hsp, hlim])]
  · refine hends (u := s.noteBytes pa 16 false) hdom (SameFronts.refl s) rfl ?_
    rw [State.addSlot, if_neg (hlim hin), if_pos hu]
  · refine hends (u := s.noteBytes pa 16 false) hdom (SameFronts.refl s) rfl ?_
    rw [State.addSlot, if_neg (hlim hin), if_neg (by simp [hu])]
    exact if_pos he
  · have hadd : s.addSlot gen pa v = some (m.noteBytes pa 16 true, 0) := by
      rw [State.addSlot, if_neg (hlim hin), if_neg (by simp [hu])]
      dsimp only
      refine Eq.trans (if_neg (not_not.mpr he)) ?_
      rw [add96_bits, hm]
      rfl
    obtain ⟨gen', hexec⟩ := exec_add96Perform ht hkind hstart hsent hdom hadd
    obtain ⟨hmem, hgen, -, -⟩ := State.endThread_rest (m.noteBytes pa 16 true) { t with gen := gen' } (some d) (statusWord 0)
    have hsame : SameFronts s m := State.write_sameFronts hm
    have hended : ThreadEnded s _ t d (statusWord 0) := threadEnded_endThread (u := m.noteBytes pa 16 true) (t := t) (t' := { t with gen := gen' })
      hsame rfl rfl d (statusWord 0)
    exact ⟨_, hexec, hended, hmem, hgen⟩
  · have hid : t.id = id := by simpa using List.find?_some ht
    have hexec : exec (.add96Perform id) s = execAdd96Perform id s := rfl
    rw [execAdd96Perform, ht] at hexec
    dsimp only at hexec
    rw [hkind] at hexec
    dsimp only at hexec
    rw [if_neg (by simp [hstart, hsent]), if_pos hdom] at hexec
    exact ⟨_, _, hexec, rfl, rfl, rfl, by rw [hid]; rfl, rfl, rfl⟩

/-- A notify word is written, or leaves, as its thread starts, and the thread is over. -/
theorem notify_thread (s : State) (id : Nat) (t : Thread) (ht : s.thread id = some t) :
    ∀ va pa v, t.kind = .notify va pa v → t.started = false → s.forkHeld t.agent t.po t.cls = false →
      (t.checkers.any fun g => s.checkerBusy g t.id t.ranges) = false → ∀ m, s.notifyWrite t.gen pa v = some m →
      ∃ u, exec (.engineThreadStart id) s = .next u ∧ (∀ x ∈ u.threads, x.id ≠ id) ∧ u.mem = m.mem ∧ u.packets = m.packets ∧ u.dvc = m.dvc := by
  intro va pa v hkind hstart hheld hbusy m hm
  have hid : t.id = id := by simpa using List.find?_some ht
  have hexec : exec (.engineThreadStart id) s = execEngineThreadStart id s := rfl
  rw [execEngineThreadStart, ht] at hexec
  dsimp only at hexec
  rw [if_neg (by simp only [hstart, hheld, hbusy]; simp), hkind] at hexec
  dsimp only at hexec
  rw [hm] at hexec
  obtain ⟨hmem, -, hpackets, hdvc⟩ := State.endThread_rest m t none 0
  exact ⟨_, hexec, hid ▸ m.withoutThread_gone t, hmem, hpackets, hdvc⟩

/-- Settles O54: the branches of the two instructions one by one, and of their threads through the end of a thread. -/
theorem anchoredAddAndNotify : Obligations.AnchoredAddAndNotify := by
  refine ⟨fun s g d a b cls pa io => ⟨fabAdd96_front s g d a b cls pa io, fabNotify_front s g a b cls pa⟩, fun s id t ht => ?_⟩
  exact ⟨add96_thread s id t ht, notify_thread s id t ht⟩

end Sys2Proof.Machine
end
section
/-! PROOFS. What a move of a vector instruction writes: sizes and places of its groups, its flags, and its destination (R45, R79, R148
to R152, R253, R257). -/
namespace Sys2Proof.Machine

/-! ## Sizes -/

theorem VType.sew_cases (vt : VType) : vt.sew = 8 ∨ vt.sew = 16 ∨ vt.sew = 32 ∨ vt.sew = 64 := by
  unfold VType.sew
  generalize vt.extractLsb' 0 2 = x
  revert x
  decide

theorem VType.sew_width (vt : VType) : elementWidth vt.sew := vt.sew_cases

theorem VType.lmul_cases (vt : VType) : vt.lmul = 1 ∨ vt.lmul = 2 ∨ vt.lmul = 4 ∨ vt.lmul = 8 := by
  unfold VType.lmul
  generalize vt.extractLsb' 3 2 = x
  revert x
  decide

theorem Vec.lanes_eight (v : Vec) : ∃ c, v.lanes = 8 * c ∧ c ≤ 8 := by
  refine ⟨_, rfl, ?_⟩
  exact (List.length_filter_le _ _).trans (by simp)

theorem Vec.lanes_le (v : Vec) : v.lanes ≤ 64 := by
  obtain ⟨c, h, hc⟩ := v.lanes_eight
  omega

/-- A destination that R79 allows: elements of SEW, or of twice SEW with wide groups. -/
def GroupFits (vt : VType) (d : VReg) (w : Nat) : Prop :=
  (w = vt.sew ∧ groupOk vt (d, .one) = true) ∨ (w = 2 * vt.sew ∧ vt.sew ≤ 32 ∧ groupOk vt (d, .wide) = true)

section
variable {vt : VType} {d : VReg} {w : Nat}

theorem GroupFits.width (h : GroupFits vt d w) : elementWidth w := by
  have hsew := vt.sew_cases
  unfold elementWidth
  rcases h with ⟨rfl, -⟩ | ⟨rfl, h32, -⟩ <;> omega

/-- The registers of the group. -/
theorem GroupFits.span (h : GroupFits vt d w) : ∃ n, vt.lmul * w / vt.sew = n ∧ vt.lmul * w = n * vt.sew ∧ d.toNat + n ≤ 32 := by
  have hd : d.toNat < 32 := d.isLt
  have hl := vt.lmul_cases
  have hpos : 0 < vt.sew := by have := vt.sew_cases; omega
  rcases h with ⟨rfl, hg⟩ | ⟨rfl, -, hg⟩
  · refine ⟨vt.lmul, Nat.mul_div_cancel _ hpos, rfl, ?_⟩
    simp only [groupOk, decide_eq_true_eq] at hg
    rcases hl with h | h | h | h <;> rw [h] at hg ⊢ <;> omega
  · refine ⟨2 * vt.lmul, ?_, by ring, ?_⟩
    · rw [show vt.lmul * (2 * vt.sew) = 2 * vt.lmul * vt.sew by ring, Nat.mul_div_cancel _ hpos]
    · simp only [groupOk, Bool.and_eq_true, decide_eq_true_eq] at hg
      obtain ⟨h8, hg⟩ := hg
      rcases hl with h | h | h | h <;> rw [h] at hg h8 ⊢ <;> omega

/-- The elements of a group stand in its registers. -/
theorem GroupFits.place (h : GroupFits vt d w) (v : Vec) {i : Nat} (hi : i < vlmaxOf v.lanes vt) :
    d.toNat ≤ (place v.lanes w d i).1 ∧ (place v.lanes w d i).1 < d.toNat + vt.lmul * w / vt.sew ∧
      d.toNat + vt.lmul * w / vt.sew ≤ 32 := by
  obtain ⟨n, hn, hmul, hspan⟩ := h.span
  have hw := h.width
  have hper := perReg_mul (lanes := v.lanes) hw
  have hw0 : 0 < w := by unfold elementWidth at hw; omega
  have hpos : 0 < vt.sew := by have := vt.sew_cases; omega
  unfold vlmaxOf at hi
  have hlt : i < perReg v.lanes w * n := by
    refine lt_of_lt_of_le hi ?_
    refine Nat.div_le_of_le_mul ?_
    refine Nat.le_of_mul_le_mul_right ?_ hw0
    calc 64 * v.lanes * vt.lmul * w = 64 * v.lanes * (vt.lmul * w) := by ring
      _ = perReg v.lanes w * w * (n * vt.sew) := by rw [hmul, hper]
      _ ≤ vt.sew * (perReg v.lanes w * n) * w := le_of_eq (by ring)
  rw [hn]
  refine ⟨Nat.le_add_right _ _, ?_, hspan⟩
  exact Nat.add_lt_add_left (Nat.div_lt_of_lt_mul hlt) _

end

theorem lanes_pos {v : Vec} {vt : VType} {i : Nat} (hi : i < vlmaxOf v.lanes vt) : 0 < v.lanes := by
  by_contra h
  rw [Nat.eq_zero_of_not_pos h] at hi
  simp [vlmaxOf] at hi

theorem vlmaxOf_le (v : Vec) (vt : VType) : vlmaxOf v.lanes vt ≤ 4096 := by
  have hl := v.lanes_le
  have hm : vt.lmul ≤ 8 := by have := vt.lmul_cases; omega
  have hs : 8 ≤ vt.sew := by have := vt.sew_cases; omega
  unfold vlmaxOf
  refine Nat.div_le_of_le_mul ?_
  calc 64 * v.lanes * vt.lmul ≤ 64 * 64 * 8 := Nat.mul_le_mul (Nat.mul_le_mul_left _ hl) hm
    _ = 8 * 4096 := by norm_num
    _ ≤ vt.sew * 4096 := Nat.mul_le_mul_right _ hs

theorem codeBits_le (t : Tag) {w : Nat} (hw : elementWidth w) : codeBits t w ≤ w := by
  unfold codeBits elementWidth at *
  split <;> omega

/-! ## The moved entry -/

section
variable {s : State} {k j hi : Nat} {e : Entry} (h : s.Moves k j hi e)
include h

theorem State.Moves.vectorInstr (i : Instr) (regs : List XReg) (dest : Option XReg) (run : Nat → Entry → Out) :
    vectorInstr i regs dest s run = run k e := by
  unfold Sys2Proof.Machine.vectorInstr
  rw [h.actor]
  dsimp only
  rw [h.entry]
  dsimp only
  rw [if_neg (by simp [h.isOpen])]

theorem State.Moves.vrun (whole : Bool) : s.vrun k e whole = VRun.of (s.vec k) e whole hi := by
  unfold State.vrun State.moveEnd
  rw [h.actor]

end

/-! ## The entries in flight -/

theorem Vec.setEntry_setEntry (v : Vec) {x y : Entry} (h : x.po = y.po) : (v.setEntry x).setEntry y = v.setEntry y := by
  unfold Vec.setEntry
  rw [List.map_map]
  congr 1
  refine List.map_congr_left fun z _ => ?_
  rw [Function.comp_apply, h]
  by_cases hz : z.po = y.po
  · rw [if_pos hz, if_pos h, if_pos hz]
  · rw [if_neg hz]

/-- What a completion makes of the entries in flight depends on them alone, and FLAGS takes what they have raised. -/
theorem Vec.complete_congr {u v : Vec} (h : u.infl = v.infl) (e : Entry) :
    (u.complete e).infl = (v.complete e).infl ∧
    ∃ raised : Flags, (u.complete e).flags = u.flags ||| raised ∧ (v.complete e).flags = v.flags ||| raised := by
  have hfold (l : List Entry) (f : Flags) : l.foldl (fun f e => f ||| e.flags) f = f ||| l.foldl (fun f e => f ||| e.flags) 0 := by
    induction l generalizing f with
    | nil => simp
    | cons x l ih => rw [List.foldl_cons, List.foldl_cons, ih, ih (0 ||| x.flags), BitVec.or_assoc, show (0 : Flags) ||| x.flags = x.flags from BitVec.zero_or]
  unfold Vec.complete Vec.settle Vec.setEntry
  dsimp only
  rw [h]
  exact ⟨rfl, _, hfold _ _, hfold _ _⟩

/-! ## The flags of a move -/

/-- The union of the flags of a list of elements. -/
theorem foldl_or_bit (fl : Nat → Flags) (j : Nat) : ∀ (l : List Nat) (f : Flags),
    (l.foldl (fun f i => f ||| fl i) f).getLsbD j = true ↔ f.getLsbD j = true ∨ ∃ i ∈ l, (fl i).getLsbD j = true
  | [], f => by simp
  | i :: l, f => by
    rw [List.foldl_cons, foldl_or_bit fl j l, BitVec.getLsbD_or, Bool.or_eq_true]
    simp only [List.mem_cons, exists_eq_or_imp]
    tauto

theorem getD_maskRegister (v : Vec) (n : MReg) (i : Nat) (hn : n ≠ 0) : v.maskBit n i = (v.m.getD n.toNat 0).getLsbD i := by
  rw [Vec.maskBit, decide_eq_false hn, Bool.false_or]

/-- A mask register after one bit is written. -/
theorem Vec.maskBit_setMaskBit (v : Vec) (d : MReg) (j : Nat) (b : Bool) {n : MReg} (hn : n ≠ 0) {i : Nat} (hi : i < 4096) :
    (v.setMaskBit d j b).maskBit n i = if n = d ∧ i = j then b else v.maskBit n i := by
  unfold Vec.setMaskBit
  by_cases hd : d = 0
  · rw [if_pos hd, if_neg (by rintro ⟨rfl, -⟩; exact hn hd)]
  rw [if_neg hd, getD_maskRegister _ _ _ hn, getD_maskRegister _ _ _ hn]
  dsimp only
  rw [getD_setIfInBounds]
  by_cases hnd : n = d
  · subst hnd
    rw [if_pos ⟨rfl, n.isLt⟩, getLsbD_putBits]
    by_cases hij : i = j
    · subst hij
      rw [if_pos ⟨le_rfl, Nat.lt_succ_self i, hi⟩, if_pos (And.intro rfl rfl), Nat.sub_self]
      cases b <;> rfl
    · rw [if_neg (by omega), if_neg (by tauto)]
  · rw [if_neg (fun h => hnd (BitVec.eq_of_toNat_eq h.1.symm)), if_neg (by tauto)]

/-- The flags routed to m(XM): the bits of the elements that raise the chosen flag. -/
theorem maskBit_foldl_set (d : MReg) (c : Nat → Bool) {n : MReg} (hn : n ≠ 0) {i : Nat} (hi : i < 4096) : ∀ (l : List Nat) (v : Vec),
    (l.foldl (fun v j => if c j then v.setMaskBit d j true else v) v).maskBit n i =
      (v.maskBit n i || (decide (n = d) && decide (i ∈ l) && c i))
  | [], v => by simp
  | j :: l, v => by
    rw [List.foldl_cons, maskBit_foldl_set d c hn hi l]
    by_cases hc : c j = true
    · rw [if_pos hc, Vec.maskBit_setMaskBit v d j true hn hi]
      by_cases hnd : n = d
      · by_cases hij : i = j
        · subst hij
          simp [hnd, hc]
        · simp [hnd, hij]
      · simp [hnd]
    · rw [if_neg hc]
      by_cases hij : i = j
      · subst hij
        simp [hc]
      · simp [hij]

section
variable (r : VRun) (m : MReg) (hi : Nat) (fl : Nat → Flags) (v : Vec)

/-- Routing changes FLAGS and the masks alone. -/
theorem VRun.route_frame : { r.route m hi fl v with flags := v.flags, m := v.m } = v := by
  unfold VRun.route
  have h : ∀ (l : List Nat) (x : Vec),
      { l.foldl (fun v i => if Flags.routed r.vt (fl i) then v.setMaskBit (BitVec.ofNat 3 r.vt.xm) i true else v) x with
        flags := v.flags, m := v.m } = { x with flags := v.flags, m := v.m } := by
    intro l
    induction l with
    | nil => exact fun _ => rfl
    | cons i l ih =>
      intro x
      rw [List.foldl_cons, ih]
      split
      · unfold Vec.setMaskBit
        split <;> rfl
      · rfl
  rw [h]

theorem VRun.route_flags : (r.route m hi fl v).flags = if v.ftrap = 0 then v.flags ||| r.allFlags m hi fl else v.flags := by
  unfold VRun.route
  rw [foldl_keeps Vec.flags fun x i => by split <;> simp]

theorem VRun.route_mask {n : MReg} (hn : n ≠ 0) {i : Nat} (hi4 : i < 4096) :
    (r.route m hi fl v).maskBit n i =
      (v.maskBit n i || (decide (n.toNat = r.vt.xm) && decide (i ∈ r.actives m hi) && Flags.routed r.vt (fl i))) := by
  have hxm : (n = BitVec.ofNat 3 r.vt.xm) ↔ n.toNat = r.vt.xm := by
    have hlt : r.vt.xm < 2 ^ 3 := (r.vt.extractLsb' 21 3).isLt
    rw [← BitVec.toNat_inj, BitVec.toNat_ofNat, Nat.mod_eq_of_lt hlt]
  unfold VRun.route
  rw [maskBit_foldl_set _ _ hn hi4, decide_eq_decide.mpr hxm]
  rfl

end

end Sys2Proof.Machine
end
section
namespace Sys2Proof.Machine

/-! ## A move that no flag and no fault ends -/

/-- The generations of stream entries that an agent adopts change its CURGEN alone (R280). -/
theorem State.foldl_adopt (k : Nat) : ∀ (l : List (BitVec 2)) (s : State),
    (∀ b, b ≠ k → (l.foldl (fun s g => s.adopt k g) s).front b = s.front b) ∧
    { (l.foldl (fun s g => s.adopt k g) s).front k with curgen := (s.front k).curgen } = s.front k ∧
    { l.foldl (fun s g => s.adopt k g) s with fronts := s.fronts } = s
  | [], s => ⟨fun _ _ => rfl, rfl, rfl⟩
  | g :: l, s => by
    have hone : (∀ b, b ≠ k → (s.adopt k g).front b = s.front b) ∧
        { (s.adopt k g).front k with curgen := (s.front k).curgen } = s.front k ∧ { s.adopt k g with fronts := s.fronts } = s := by
      unfold State.adopt
      split
      · exact ⟨fun b hb => by rw [State.front_setFront, if_neg hb], by rw [State.front_setFront_self], rfl⟩
      · exact ⟨fun _ _ => rfl, rfl, rfl⟩
    obtain ⟨ho, hf, hr⟩ := hone
    obtain ⟨ho', hf', hr'⟩ := State.foldl_adopt k l (s.adopt k g)
    rw [List.foldl_cons]
    generalize l.foldl (fun s g => s.adopt k g) (s.adopt k g) = t at ho' hf' hr' ⊢
    refine ⟨fun b hb => (ho' b hb).trans (ho b hb), ?_, ?_⟩
    · exact (congrArg (fun f : Front => { f with curgen := (s.front k).curgen }) hf').trans hf
    · exact (congrArg (fun x : State => { x with fronts := s.fronts }) hr').trans hr

/-- What writes a destination changes no more than the registers, their tags and marks, and the masks. -/
def WriteFrame (write : Nat → Bool → Vec → Vec) : Prop :=
  ∀ hi fin (x : Vec), { write hi fin x with v := x.v, tag := x.tag, bad := x.bad, told := x.told, m := x.m } = x

section
variable (r : VRun) (m : MReg) (strm : Option SReg) (write : Nat → Bool → Vec → Vec) (fl : Nat → Flags)

/-- The flags of an entry after a move. -/
def VRun.raised : Flags := r.e.flags ||| r.allFlags m r.hi fl

/-- The entry after a move: it completes, or stands at its new index (R257). -/
def VRun.after : Entry :=
  if r.ends then { r.e with flags := r.raised m fl }
  else { r.e with flags := r.raised m fl, pix := BitVec.ofNat 13 r.hi, started := true }

/-- The results and flags of a move, with its entry. -/
def VRun.results (v : Vec) : Vec := r.moved m r.hi r.ends strm false write fl (v.setEntry (r.after m fl))

/-- The vector side after a move. -/
def VRun.left (v : Vec) : Vec := if r.ends then (r.results m strm write fl v).complete (r.after m fl) else r.results m strm write fl v

/-- The generations of the stream's entries that a move consumes. -/
def VRun.gens : List (BitVec 2) :=
  match (strm.bind r.v.stream : Option Stream) with
  | some t => (t.buf.filter fun e => decide (e.n < r.pos t r.hi)).map (·.gen)
  | none => []

theorem VRun.uecc_none (h : r.v.bad = []) (regs : List (VReg × Nat)) : r.uecc m regs = none := by simp [VRun.uecc, h]

/-- A move whose flags no FTRAP traps on, and whose stream has its entries (R151, R204, R257). -/
theorem withStream_quiet {s : State} {k : Nat} (hstart : r.start < r.vl) (hbad : r.v.bad = []) (hfpx : r.e.fpx = none)
    (hquiet : ∀ i ∈ r.actives m r.hi, Flags.traps r.v.ftrap (fl i) = false) {d : VReg} {w : Nat} {regs : List (VReg × Nat)}
    (hread : r.streamRead w d strm = .upTo r.hi) :
    withStream s k r m d w regs strm write fl =
      .next (((r.gens strm).foldl (fun s g => s.adopt k g) s).setVec k (r.left m strm write fl (s.vec k))) := by
  have hvec : ((r.gens strm).foldl (fun s g => s.adopt k g) s).vec k = s.vec k := by
    have h := congrArg State.vecs (State.foldl_adopt k (r.gens strm) s).2.2
    exact congrArg (fun x => Store.get Vec.reset x k) h
  have hfirst : (r.actives m r.hi).find? (fun i => Flags.traps r.v.ftrap (fl i)) = none := List.find?_eq_none.mpr fun i hi => by simp [hquiet i hi]
  unfold withStream
  rw [if_neg (by omega), hread]
  dsimp only
  rw [if_neg (by simp)]
  change vecFinish s k r m (r.uecc m regs) strm false write fl = _
  rw [r.uecc_none m hbad]
  unfold vecFinish
  rw [if_neg (by omega)]
  simp only [Option.map_none, Option.getD_none, Option.isNone_none, Option.isSome_none, Bool.true_and, Bool.or_false, hfirst]
  unfold VRun.left VRun.results VRun.after
  rw [hfpx]
  dsimp only
  by_cases hends : r.ends = true
  · rw [if_pos hends, if_pos hends, if_pos hends, ← hvec, hfpx]
    rfl
  · rw [if_neg hends, if_neg hends, if_neg hends, ← hvec, hfpx]
    rfl

end

/-- The active elements of a move are those that R148 calls so. -/
theorem mem_actives_of (v : Vec) (e : Entry) (whole : Bool) (hi : Nat) (m : MReg) (i : Nat) :
    i ∈ (VRun.of v e whole hi).actives m (VRun.of v e whole hi).hi ↔ (Kinds.of v e whole hi m).active i = true := by
  have hle : (VRun.of v e whole hi).hi ≤ (VRun.of v e whole hi).vl := by
    unfold VRun.of
    cases whole
    · exact min_le_right _ _
    · exact le_rfl
  simp only [VRun.actives, VRun.active, Kinds.active, List.mem_filter, List.mem_range, Bool.and_eq_true, decide_eq_true_eq]
  constructor
  · rintro ⟨h, ⟨hs, -⟩, hb⟩
    exact ⟨⟨hs, h⟩, hb⟩
  · rintro ⟨⟨hs, h⟩, hb⟩
    exact ⟨h, ⟨hs, lt_of_lt_of_le h hle⟩, hb⟩

/-! ## What a move leaves -/

section
variable {r : VRun} {m : MReg} {strm : Option SReg} {write : Nat → Bool → Vec → Vec} {fl : Nat → Flags} {v : Vec}

/-- The results of a move: what its destination's writing changes, the routed flags, and the advanced stream. -/
theorem VRun.results_frame (hw : WriteFrame write) :
    let y := r.results m strm write fl v
    let x := write r.hi r.ends (v.setEntry (r.after m fl))
    { y with v := v.v, tag := v.tag, bad := v.bad, told := v.told, m := v.m, s := v.s, flags := v.flags } = v.setEntry (r.after m fl) ∧
    y.v = x.v ∧ y.tag = x.tag ∧ y.bad = x.bad ∧
    y.flags = (if v.ftrap = 0 then v.flags ||| r.allFlags m r.hi fl else v.flags) ∧
    (∀ n i, i < 4096 → n ≠ 0 →
      y.maskBit n i = (x.maskBit n i || (decide (n.toNat = r.vt.xm) && decide (i ∈ r.actives m r.hi) && Flags.routed r.vt (fl i)))) ∧
    (∀ j, some j ≠ strm → y.stream j = v.stream j) ∧
    ∀ j, some j = strm → y.stream j = (v.stream j).map fun t => t.consume (r.hi - r.start) := by
  intro y x
  have hx := hw r.hi r.ends (v.setEntry (r.after m fl))
  have hz := r.route_frame m r.hi fl x
  have hflags := r.route_flags m r.hi fl x
  have hmask {n : MReg} (hn : n ≠ 0) {i : Nat} (hi : i < 4096) := r.route_mask m r.hi fl x hn hi
  change { x with v := v.v, tag := v.tag, bad := v.bad, told := v.told, m := v.m } = _ at hx
  have hxflags : x.flags = v.flags := (congrArg Vec.flags hx :)
  have hxtrap : x.ftrap = v.ftrap := (congrArg Vec.ftrap hx :)
  have hxs : x.s = v.s := (congrArg Vec.s hx :)
  rw [hxflags, hxtrap] at hflags
  generalize hzz : r.route m r.hi fl x = z at hz hflags hmask
  have hzs : z.s = v.s := (congrArg Vec.s hz :).trans hxs
  have hframe : { z with v := v.v, tag := v.tag, bad := v.bad, told := v.told, m := v.m, s := v.s, flags := v.flags } = v.setEntry (r.after m fl) := by
    have h1 := congrArg (fun u : Vec => { u with v := v.v, tag := v.tag, bad := v.bad, told := v.told, m := v.m, s := v.s, flags := v.flags }) hz
    have h2 := congrArg (fun u : Vec => { u with s := v.s, flags := v.flags }) hx
    exact h1.trans h2
  have hv : z.v = x.v := (congrArg Vec.v hz :)
  have htag : z.tag = x.tag := (congrArg Vec.tag hz :)
  have hbad : z.bad = x.bad := (congrArg Vec.bad hz :)
  have hstream (j : SReg) : z.stream j = v.stream j := by rw [Vec.stream, hzs]; rfl
  cases strm with
  | none =>
    have hy : y = z := hzz
    rw [hy]
    exact ⟨hframe, hv, htag, hbad, hflags, fun n i hi hn => hmask hn hi, fun j _ => hstream j, fun j hj => by cases hj⟩
  | some a =>
    have hy : y = z.setStream a ((z.stream a).map fun t => t.consume (r.hi - r.start)) := by rw [← hzz]; rfl
    rw [hy]
    refine ⟨hframe, hv, htag, hbad, hflags, fun n i hi hn => hmask hn hi, fun j hj => ?_, fun j hj => ?_⟩
    · rw [← hstream, Vec.stream, Vec.setStream]
      dsimp only
      rw [getD_setIfInBounds, if_neg fun h => hj (congrArg some (BitVec.eq_of_toNat_eq h.1.symm))]
      rfl
    · obtain rfl := Option.some.inj hj
      rw [← hstream, Vec.stream, Vec.setStream]
      dsimp only
      rw [getD_setIfInBounds, if_pos ⟨rfl, j.isLt⟩]

/-- The vector side after a move: the destination's writing, the entries and FLAGS as R253 and R257 say, the routed masks, and the
advanced stream. -/
theorem VRun.left_frame (hw : WriteFrame write) :
    let u := r.left m strm write fl v
    let x := write r.hi r.ends (v.setEntry (r.after m fl))
    let a := v.after r.e r.ends r.hi (r.raised m fl)
    { u with v := v.v, tag := v.tag, bad := v.bad, told := v.told, m := v.m, s := v.s, flags := v.flags, infl := v.infl, vstart := v.vstart } = v ∧
    u.vstart = (if r.ends then 0 else v.vstart) ∧ u.v = x.v ∧ u.tag = x.tag ∧ u.bad = x.bad ∧ u.infl = a.infl ∧
    u.flags = a.flags ||| (if v.ftrap = 0 then r.allFlags m r.hi fl else 0) ∧
    (∀ n i, i < 4096 → n ≠ 0 →
      u.maskBit n i = (x.maskBit n i || (decide (n.toNat = r.vt.xm) && decide (i ∈ r.actives m r.hi) && Flags.routed r.vt (fl i)))) ∧
    (∀ j, some j ≠ strm → u.stream j = v.stream j) ∧
    ∀ j, some j = strm → u.stream j = (v.stream j).map fun t => t.consume (r.hi - r.start) := by
  intro u x a
  obtain ⟨hframe, hv, htag, hbad, hflags, hmask, hother, hstream⟩ := VRun.results_frame (r := r) (m := m) (strm := strm) (fl := fl) (v := v) hw
  have hroute : (if v.ftrap = 0 then v.flags ||| r.allFlags m r.hi fl else v.flags) =
      v.flags ||| (if v.ftrap = 0 then r.allFlags m r.hi fl else 0) := by
    split
    · rfl
    · exact BitVec.or_zero.symm
  rw [hroute] at hflags
  have hinfl : (r.results m strm write fl v).infl = (v.setEntry (r.after m fl)).infl := (congrArg Vec.infl hframe :)
  have hstart : (r.results m strm write fl v).vstart = v.vstart := (congrArg Vec.vstart hframe :)
  have hrest := (congrArg (fun u : Vec => { u with infl := v.infl, vstart := v.vstart }) hframe :)
  by_cases hends : r.ends = true
  · have hu : u = (r.results m strm write fl v).complete (r.after m fl) := if_pos hends
    have ha : a = v.complete (r.after m fl) := by
      unfold a Vec.after VRun.after
      rw [if_pos hends, if_pos hends]
    obtain ⟨hi, raised, hf, hf'⟩ := Vec.complete_congr hinfl (r.after m fl)
    have htwice : (v.setEntry (r.after m fl)).complete (r.after m fl) = v.complete (r.after m fl) := by
      exact congrArg (fun x : Vec => { x with vstart := 0 }.settle) (Vec.setEntry_setEntry v (x := r.after m fl) (y := { r.after m fl with done := true, started := true }) rfl)
    rw [htwice] at hi hf'
    rw [hu, ha, if_pos hends]
    refine ⟨hrest, rfl, hv, htag, hbad, hi, ?_, hmask, hother, hstream⟩
    rw [hf, hf', hflags]
    change v.flags ||| _ ||| raised = v.flags ||| raised ||| _
    rw [BitVec.or_assoc, BitVec.or_comm _ raised, ← BitVec.or_assoc]
  · have hu : u = r.results m strm write fl v := if_neg hends
    have ha : a = v.setEntry (r.after m fl) := by
      unfold a Vec.after VRun.after
      rw [if_neg hends, if_neg hends]
    rw [hu, ha, if_neg hends]
    exact ⟨hrest, hstart, hv, htag, hbad, hinfl, hflags, hmask, hother, hstream⟩

/-- What such a move leaves of the machine (R148, R204, R280). -/
theorem vecMoves_left {s : State} {k : Nat} (hw : WriteFrame write) (hgens : strm = none → r.gens strm = []) :
    let t := (r.gens strm).foldl (fun s g => s.adopt k g) s
    VecMoves s (t.setVec k (r.left m strm write fl (s.vec k))) k r.ends strm (r.hi - r.start) := by
  intro t
  obtain ⟨ho, hf, hr⟩ := State.foldl_adopt k (r.gens strm) s
  change ∀ b, b ≠ k → t.front b = s.front b at ho
  have hvec (b : Nat) : t.vec b = s.vec b := congrArg (fun x => Store.get Vec.reset x b) (congrArg State.vecs hr :)
  obtain ⟨hframe, hstart, -, -, -, -, -, -, hother, hstream⟩ := VRun.left_frame (r := r) (m := m) (strm := strm) (fl := fl) (v := s.vec k) hw
  exact {
    vstart := by rw [State.vec_setVec_self]; exact hstart
    others := fun b hb => by rw [State.vec_setVec, if_neg hb, hvec]
    fronts := ho
    front := hf
    generation := fun h => congrArg (fun l => (l.foldl (fun s g => s.adopt k g) s).front k) (hgens h)
    rest := (congrArg (fun x : State => { x with vecs := s.vecs }) hr :)
    vec := by rw [State.vec_setVec_self]; exact hframe
    streams := by rw [State.vec_setVec_self]; exact hother
    advanced := by rw [State.vec_setVec_self]; exact hstream }

/-- The flags of such a move (R45, R253). -/
theorem flagsRouted_left {e : Entry} {whole : Bool} {hi : Nat} (hw : WriteFrame write) {bit : MReg → Nat → Bool}
    (hstart : (Kinds.of v e whole hi m).start < (Kinds.of v e whole hi m).vl)
    (hbit : ∀ n i, i < 4096 → n ≠ 0 →
      (write (VRun.of v e whole hi).hi (VRun.of v e whole hi).ends (v.setEntry ((VRun.of v e whole hi).after m fl))).maskBit n i = bit n i) :
    FlagsRouted v ((VRun.of v e whole hi).left m strm write fl v) e (Kinds.of v e whole hi m) fl bit := by
  obtain ⟨-, -, -, -, -, hinfl, hflags, hmask, -, -⟩ := VRun.left_frame (r := VRun.of v e whole hi) (m := m) (strm := strm) (fl := fl) (v := v) hw
  have hends : (Kinds.of v e whole hi m).ends = (VRun.of v e whole hi).ends := by
    unfold Kinds.ends
    rw [decide_eq_false (by omega), Bool.false_or]
    rfl
  have hactive (i : Nat) := mem_actives_of v e whole hi m i
  have hall (j : Nat) : ((VRun.of v e whole hi).allFlags m (VRun.of v e whole hi).hi fl).getLsbD j = true ↔
      ∃ i, (Kinds.of v e whole hi m).active i = true ∧ (fl i).getLsbD j = true := by
    unfold VRun.allFlags
    rw [foldl_or_bit]
    simp [hactive]
  refine ⟨⟨(VRun.of v e whole hi).raised m fl, fun j _ => ?_, ?_, fun j _ => ?_⟩, fun n i hi4 hn => ?_⟩
  · unfold VRun.raised
    rw [BitVec.getLsbD_or, Bool.or_eq_true, hall]
    rfl
  · rw [hends]
    exact hinfl
  · rw [hends, hflags, BitVec.getLsbD_or, Bool.or_eq_true]
    refine or_congr Iff.rfl ?_
    split
    · next hft => simp [hall, hft]
    · next hft => exact iff_of_false (by simp) fun h => hft h.1
  · have hdec : decide (i ∈ (VRun.of v e whole hi).actives m (VRun.of v e whole hi).hi) = (Kinds.of v e whole hi m).active i := by
      rw [Bool.eq_iff_iff, decide_eq_true_eq, hactive]
    rw [hmask n i hi4 hn, hbit n i hi4 hn, hdec]
    rfl
end

end Sys2Proof.Machine
end
section
namespace Sys2Proof.Machine

/-! ## Destination groups -/

/-- The kinds of R148 of a move up to `hi`. -/
def VRun.kinds (r : VRun) (m : MReg) (hi : Nat) : Kinds :=
  { vt := r.vt, lanes := r.lanes, start := r.start, vl := r.vl, hi := hi, mask := r.v.maskBit m }

theorem put_writeFrame (r : VRun) (m : MReg) (d : VDst) : WriteFrame fun hi fin => r.put m hi fin d := fun hi fin x =>
  congrArg (fun u : Vec => { u with m := x.m }) (r.put_frame m hi fin d x)

theorem Vec.getD_setTags (v : Vec) (d : VReg) (t : Tag) {k : Nat} (hk : k < 32) : ∀ n,
    (v.setTags d n t).tag.getD k .int32 = if d.toNat ≤ k ∧ k < d.toNat + n then t else v.tag.getD k .int32
  | 0 => by rw [if_neg (by omega)]; rfl
  | n + 1 => by
    have ih := Vec.getD_setTags v d t hk n
    unfold Vec.setTags at ih ⊢
    dsimp only at ih ⊢
    rw [List.range_succ, List.foldl_append, List.foldl_cons, List.foldl_nil, getD_setIfInBounds, ih]
    by_cases h : d.toNat + n = k
    · rw [if_pos ⟨h, by omega⟩, if_pos (by omega)]
    · rw [if_neg (fun h' => h h'.1)]
      by_cases h' : d.toNat ≤ k ∧ k < d.toNat + n
      · rw [if_pos h', if_pos (by omega)]
      · rw [if_neg h', if_neg (by omega)]

theorem Vec.putList_tag (lanes w : Nat) (d : VReg) (g : Nat → Option Nat) (l : List Nat) (v : Vec) :
    (Vec.putList lanes w d g l v).tag = v.tag := (congrArg Vec.tag (Vec.putList_frame lanes w d g l v) :)

section
variable {r : VRun} {m : MReg} {hi : Nat} {d : VReg} {w : Nat}

/-- The code that a group's writing leaves in an element is the one of R148. -/
theorem elim_putCode (hw : elementWidth w) (t : Tag) (res : Nat → Option Nat) {old : Nat} (i : Nat) :
    (r.putCode m hi (r.kinds m hi).ends ⟨d, w, some t, res⟩ i).elim old (· % 2 ^ w) =
      (r.kinds m hi).value (onesCode t w) old ((res i).map (· % 2 ^ codeBits t w)) i := by
  have hcap : 2 ^ codeBits t w ≤ 2 ^ w := Nat.pow_le_pow_right (by omega) (codeBits_le t hw)
  have hpos : 0 < 2 ^ codeBits t w := Nat.two_pow_pos _
  have hones : (2 ^ codeBits t w - 1) % 2 ^ w = onesCode t w := Nat.mod_eq_of_lt (by omega)
  have hres (c : Nat) : c % 2 ^ codeBits t w % 2 ^ w = c % 2 ^ codeBits t w := Nat.mod_eq_of_lt (lt_of_lt_of_le (Nat.mod_lt _ hpos) hcap)
  unfold VRun.putCode Kinds.value
  change Option.elim (if i < r.start then _ else if r.vl ≤ i then _ else if hi ≤ i then _ else if r.v.maskBit m i = true then _ else _) _ _ =
    if i < r.start then _ else if r.vl ≤ i then _ else if hi ≤ i then _ else if r.v.maskBit m i = true then _ else _
  split
  · rfl
  · split
    · change Option.elim (if ((r.kinds m hi).ends && r.vt.ta) = true then _ else _) _ _ = if ((r.kinds m hi).ends && r.vt.ta) = true then _ else _
      split
      · exact hones
      · rfl
    · split
      · rfl
      · split
        · cases h : res i with
          | none => simp [h]
          | some c => simpa [h] using hres c
        · change Option.elim (if r.vt.ma = true then _ else _) _ _ = if r.vt.ma = true then _ else _
          split
          · exact hones
          · rfl

/-- A group after its writing by the kinds of R148 (R79, R149). -/
theorem groupWritten_put {t : Tag} {res : Nat → Option Nat} {x u : Vec} (hlanes : r.lanes = r.v.lanes)
    (hmax : r.vlmax = vlmaxOf r.lanes r.vt) (hfit : GroupFits r.vt d w) (hxv : x.v = r.v.v) (hxt : x.tag = r.v.tag)
    (huv : u.v = (r.put m hi (r.kinds m hi).ends ⟨d, w, some t, res⟩ x).v)
    (hut : u.tag = (r.put m hi (r.kinds m hi).ends ⟨d, w, some t, res⟩ x).tag) :
    GroupWritten r.v u (r.kinds m hi) d w t res := by
  have hplace {i : Nat} (h : i < r.vlmax) := hfit.place r.v (i := i) (by rw [← hlanes, ← hmax]; exact h)
  have helem (a b : Vec) (hab : a.v = b.v) (i : Nat) : a.elem r.lanes w d i = b.elem r.lanes w d i := by rw [Vec.elem, hab]; rfl
  refine ⟨⟨fun i hi' => ?_, fun n hn => ?_⟩, fun n hn => ?_⟩
  · change i < vlmaxOf r.lanes r.vt at hi'
    rw [← hmax] at hi'
    change u.elem r.lanes w d i = (r.kinds m hi).value _ (r.v.elem r.lanes w d i) _ i
    have hpos : 0 < r.lanes := by
      rw [hlanes]
      exact lanes_pos (vt := r.vt) (i := i) (by rw [← hlanes, ← hmax]; exact hi')
    rw [helem u _ huv, r.elem_put m hi _ _ x hfit.width hpos (hlanes ▸ r.v.lanes_le)
      (fun i h => by obtain ⟨-, h1, h2⟩ := hplace h; rw [hlanes]; exact lt_of_lt_of_le h1 h2) i hi']
    exact (congrArg (fun old => (r.putCode m hi (r.kinds m hi).ends ⟨d, w, some t, res⟩ i).elim old (· % 2 ^ w)) (helem x r.v hxv i)).trans
      (elim_putCode hfit.width t res i)
  · rw [huv, r.put_reg_other m hi _ _ x n, hxv]
    rintro i h rfl
    obtain ⟨h1, h2, -⟩ := hplace h
    rw [← hlanes] at h1 h2
    exact Bool.false_ne_true (hn.symm.trans (Bool.and_eq_true_iff.mpr ⟨decide_eq_true h1, decide_eq_true h2⟩))
  · rw [hut, r.put_eq]
    change (Vec.setTags _ d (r.vt.lmul * w / r.vt.sew) t).tag.getD n .int32 = _
    rw [Vec.getD_setTags _ d t hn, Vec.putList_tag, hxt]
    unfold Kinds.inGroup
    simp only [Bool.and_eq_true, decide_eq_true_eq]
    rfl

end

/-! ## Destination masks -/

/-- The bit that an instruction writes to bit i of a destination mask, if any (R148). -/
def VRun.maskCode (r : VRun) (m : MReg) (hi : Nat) (fin : Bool) (res : Nat → Bool) (i : Nat) : Option Bool :=
  if i < r.start then none
  else if r.vl ≤ i then (if fin && r.vt.ta then some true else none)
  else if hi ≤ i then none
  else if r.v.maskBit m i then some (res i)
  else if r.vt.ma then some true else none

/-- Writes the bits that a function gives to the places of a list. -/
def Vec.putBitList (d : MReg) (g : Nat → Option Bool) (l : List Nat) (v : Vec) : Vec :=
  l.foldl (fun v i => match g i with | some b => v.setMaskBit d i b | none => v) v

theorem VRun.putMask_eq (r : VRun) (m : MReg) (hi : Nat) (fin : Bool) (d : MReg) (res : Nat → Bool) (v : Vec) :
    r.putMask m hi fin d res v = Vec.putBitList d (r.maskCode m hi fin res) (List.range r.vlmax) v := by
  unfold VRun.putMask Vec.putBitList
  refine congrArg (fun f => List.foldl f v (List.range r.vlmax)) (funext fun x => funext fun i => ?_)
  unfold VRun.maskCode
  by_cases h1 : i < r.start
  · simp [h1]
  · by_cases h2 : r.vl ≤ i
    · by_cases h3 : (fin && r.vt.ta) = true <;> simp [h1, h2, h3]
    · by_cases h3 : hi ≤ i
      · simp [h1, h2, h3]
      · by_cases h4 : r.v.maskBit m i = true
        · simp [h1, h2, h3, h4]
        · by_cases h5 : r.vt.ma = true <;> simp [h1, h2, h3, h4, h5]

theorem Vec.setMaskBit_frame (v : Vec) (d : MReg) (i : Nat) (b : Bool) : { v.setMaskBit d i b with m := v.m } = v := by
  unfold Vec.setMaskBit
  split <;> rfl

theorem Vec.putBitList_frame (d : MReg) (g : Nat → Option Bool) : ∀ (l : List Nat) (v : Vec), { Vec.putBitList d g l v with m := v.m } = v
  | [], _ => rfl
  | i :: l, v => by
    unfold Vec.putBitList
    rw [List.foldl_cons]
    cases g i with
    | none => exact Vec.putBitList_frame d g l v
    | some b =>
      exact (congrArg (fun u : Vec => { u with m := v.m }) (Vec.putBitList_frame d g l (v.setMaskBit d i b))).trans (v.setMaskBit_frame d i b)

theorem Vec.maskBit_putBitList (d : MReg) (g : Nat → Option Bool) {n : MReg} (hn : n ≠ 0) {j : Nat} (hj : j < 4096) : ∀ (l : List Nat) (v : Vec),
    (Vec.putBitList d g l v).maskBit n j = if n = d ∧ j ∈ l then (g j).getD (v.maskBit n j) else v.maskBit n j
  | [], _ => by simp [Vec.putBitList]
  | i :: l, v => by
    have ih := Vec.maskBit_putBitList d g hn hj l
    unfold Vec.putBitList at ih ⊢
    rw [List.foldl_cons, ih]
    have hone : (match g i with | some b => v.setMaskBit d i b | none => v).maskBit n j =
        if n = d ∧ j = i then (g j).getD (v.maskBit n j) else v.maskBit n j := by
      cases hg : g i with
      | none => split <;> simp_all
      | some b =>
        simp only [Vec.maskBit_setMaskBit v d i b hn hj]
        split <;> simp_all
    rw [hone]
    by_cases hji : j = i
    · subst hji
      cases g j <;> by_cases hnd : n = d <;> by_cases hjl : j ∈ l <;> simp [hnd, hjl]
    · simp [hji]

theorem putMask_writeFrame (r : VRun) (m : MReg) (d : MReg) (res : Nat → Bool) : WriteFrame fun hi fin => r.putMask m hi fin d res := fun hi fin x => by
  dsimp only
  rw [r.putMask_eq]
  exact congrArg (fun u : Vec => { u with v := x.v, tag := x.tag, bad := x.bad, told := x.told }) (Vec.putBitList_frame d _ _ x)

theorem putMask_registers (r : VRun) (m : MReg) (hi : Nat) (fin : Bool) (d : MReg) (res : Nat → Bool) (x : Vec) :
    (r.putMask m hi fin d res x).v = x.v ∧ (r.putMask m hi fin d res x).tag = x.tag := by
  rw [r.putMask_eq]
  exact ⟨(congrArg Vec.v (Vec.putBitList_frame d _ _ x) :), (congrArg Vec.tag (Vec.putBitList_frame d _ _ x) :)⟩

/-- A destination mask after its writing by the kinds of R148. -/
theorem maskBit_putMask (r : VRun) (m : MReg) (hi : Nat) (d : MReg) (res : Nat → Bool) (x : Vec) {n : MReg} (hn : n ≠ 0) {j : Nat}
    (hj : j < 4096) :
    (r.putMask m hi (r.kinds m hi).ends d res x).maskBit n j =
      if n = d ∧ j < r.vlmax then
        decide ((r.kinds m hi).value 1 (x.maskBit d j).toNat (some (res j).toNat) j = 1)
      else x.maskBit n j := by
  have hbit (b : Bool) : decide (b.toNat = 1) = b := by cases b <;> rfl
  rw [r.putMask_eq, Vec.maskBit_putBitList d _ hn hj]
  simp only [List.mem_range]
  split
  · next h =>
    obtain ⟨rfl, -⟩ := h
    unfold VRun.maskCode Kinds.value
    change Option.getD (if j < r.start then _ else if r.vl ≤ j then _ else if hi ≤ j then _ else if r.v.maskBit m j = true then _ else _) _ =
      decide ((if j < r.start then _ else if r.vl ≤ j then _ else if hi ≤ j then _ else if r.v.maskBit m j = true then _ else _) = 1)
    split
    · exact (hbit _).symm
    · split
      · change Option.getD (if ((r.kinds m hi).ends && r.vt.ta) = true then _ else _) _ =
          decide ((if ((r.kinds m hi).ends && r.vt.ta) = true then _ else _) = 1)
        split
        · rfl
        · exact (hbit _).symm
      · split
        · exact (hbit _).symm
        · split
          · exact (hbit _).symm
          · change Option.getD (if r.vt.ma = true then _ else _) _ = decide ((if r.vt.ma = true then _ else _) = 1)
            split
            · rfl
            · exact (hbit _).symm
  · rfl

end Sys2Proof.Machine
end
section
namespace Sys2Proof.Machine

/-! ## Element-wise instructions -/

theorem maskBit_put (r : VRun) (m : MReg) (hi : Nat) (fin : Bool) (d : VDst) (x : Vec) (n : MReg) (j : Nat) :
    (r.put m hi fin d x).maskBit n j = x.maskBit n j := by
  have hm : (r.put m hi fin d x).m = x.m := (congrArg Vec.m (r.put_frame m hi fin d x) :)
  rw [Vec.maskBit, hm]
  rfl

/-- An instruction that has nothing to process only completes (R148). -/
theorem vecMoves_complete (s : State) (k : Nat) (e : Entry) (n : Nat) :
    VecMoves s (s.setVec k ((s.vec k).complete e)) k true none n where
  vstart := by rw [State.vec_setVec_self]; rfl
  others := fun b hb => by rw [State.vec_setVec, if_neg hb]
  fronts := fun _ _ => rfl
  front := rfl
  generation := fun _ => rfl
  rest := rfl
  vec := by rw [State.vec_setVec_self]; rfl
  streams := fun j _ => by rw [State.vec_setVec_self]; rfl
  advanced := fun j hj => by cases hj

theorem ended_complete (v : Vec) (e : Entry) : v.Ended (v.complete e) e := ⟨rfl, rfl, rfl, rfl, rfl, rfl⟩

theorem idles_of_complete {s : State} {k : Nat} {e : Entry} {i : Instr} (h : exec i s = .next (s.setVec k ((s.vec k).complete e))) :
    s.Idles k e i :=
  ⟨_, h, vecMoves_complete s k e 0, by rw [State.vec_setVec_self]; exact ended_complete _ e⟩

section
variable {s : State} {k hi : Nat} {e : Entry} {whole : Bool} {m : MReg} {strm : Option SReg} {i : Instr} {fl : Nat → Flags}
  {write : Nat → Bool → Vec → Vec} {d' : VReg} {w' : Nat} {regs : List (VReg × Nat)}

/-- An instruction of the vector side that moves without trapping either completes without an element or leaves its results. -/
theorem withStream_moves
    (hexec : exec i s = withStream s k (VRun.of (s.vec k) e whole hi) m d' w' regs strm write fl)
    (hbad : (s.vec k).bad = []) (hquiet : (Kinds.of (s.vec k) e whole hi m).quiet (s.vec k) e fl)
    (hread : (VRun.of (s.vec k) e whole hi).streamRead w' d' strm = .upTo (VRun.of (s.vec k) e whole hi).hi) (hw : WriteFrame write) :
    let q := Kinds.of (s.vec k) e whole hi m
    ∃ u, exec i s = .next u ∧ VecMoves s u k q.ends (if q.start < q.vl then strm else none) (q.hi - q.start) ∧
      if q.start < q.vl then u.vec k = (VRun.of (s.vec k) e whole hi).left m strm write fl (s.vec k) else u.vec k = (s.vec k).complete e := by
  intro q
  by_cases hstart : q.start < q.vl
  · have hends : q.ends = (VRun.of (s.vec k) e whole hi).ends := by
      unfold Kinds.ends
      rw [decide_eq_false (by omega), Bool.false_or]
      rfl
    obtain ⟨hfpx, hfl⟩ := hquiet
    simp only [if_pos hstart]
    rw [hends]
    refine ⟨_, hexec.trans (withStream_quiet _ m strm write fl hstart hbad hfpx (fun j hj => ?_) hread), ?_, State.vec_setVec_self _ _ _⟩
    · exact bne_eq_false_iff_eq.mpr (hfl j ((mem_actives_of _ e whole hi m j).mp hj))
    · exact vecMoves_left hw (by rintro rfl; rfl)
  · have hends : q.ends = true := by
      unfold Kinds.ends
      rw [decide_eq_true (by omega), Bool.true_or]
    simp only [if_neg hstart]
    rw [hends]
    exact ⟨_, hexec.trans (if_pos (Nat.le_of_not_lt hstart)), vecMoves_complete s k e _, State.vec_setVec_self _ _ _⟩

end

section
variable {s : State} {k hi : Nat} {e : Entry} {whole : Bool} {m : MReg} {strm : Option SReg} {i : Instr} {regs : List (VReg × Nat)}

/-- An element-wise instruction writes its group (R148 to R151). -/
theorem elementwise_writes {d : VReg} {w : Nat} {t : Tag} {f : EltFn}
    (hexec : exec i s = elementwise s k (VRun.of (s.vec k) e whole hi) m d w (some t) regs strm f) (hbad : (s.vec k).bad = [])
    (hquiet : (Kinds.of (s.vec k) e whole hi m).quiet (s.vec k) e fun n => (f n).2)
    (hread : (VRun.of (s.vec k) e whole hi).streamRead w d strm = .upTo (VRun.of (s.vec k) e whole hi).hi) (hfit : GroupFits e.vtype d w) :
    s.WritesGroup k e i (Kinds.of (s.vec k) e whole hi m) strm d w t (fun n => (f n).1) fun n => (f n).2 := by
  have hw := put_writeFrame (VRun.of (s.vec k) e whole hi) m ⟨d, w, some t, fun n => (f n).1⟩
  obtain ⟨u, hu, hmoves, hvec⟩ := withStream_moves hexec hbad hquiet hread hw
  refine ⟨u, hu, hmoves, ?_⟩
  split at hvec
  · next hstart =>
    rw [if_pos hstart, hvec]
    obtain ⟨-, -, hv, htag, -⟩ := VRun.left_frame (r := VRun.of (s.vec k) e whole hi) (m := m) (strm := strm) (fl := fun n => (f n).2)
      (v := s.vec k) hw
    have hends : (VRun.of (s.vec k) e whole hi).ends = (Kinds.of (s.vec k) e whole hi m).ends := by
      unfold Kinds.ends
      rw [decide_eq_false (by omega), Bool.false_or]
      rfl
    rw [hends] at hv htag
    refine ⟨groupWritten_put (r := VRun.of (s.vec k) e whole hi) (hi := (VRun.of (s.vec k) e whole hi).hi) rfl rfl hfit
      (x := (s.vec k).setEntry _) rfl rfl hv htag, flagsRouted_left hw hstart fun n j hj hn => ?_⟩
    exact maskBit_put _ m _ _ _ _ n j
  · next hstart =>
    rw [if_neg hstart, hvec]
    exact ended_complete _ e

/-- An element-wise instruction writes its mask (R148, R162, R175). -/
theorem elementwiseMask_writes {d : MReg} {a : VReg} {f : Nat → Bool × Flags}
    (hexec : exec i s = elementwiseMask s k (VRun.of (s.vec k) e whole hi) m d a regs strm f) (hbad : (s.vec k).bad = [])
    (hquiet : (Kinds.of (s.vec k) e whole hi m).quiet (s.vec k) e fun n => (f n).2)
    (hread : (VRun.of (s.vec k) e whole hi).streamRead e.vtype.sew a strm = .upTo (VRun.of (s.vec k) e whole hi).hi) :
    s.WritesMask k e i (Kinds.of (s.vec k) e whole hi m) strm d (fun n => (f n).1) fun n => (f n).2 := by
  have hw := putMask_writeFrame (VRun.of (s.vec k) e whole hi) m d fun n => (f n).1
  obtain ⟨u, hu, hmoves, hvec⟩ := withStream_moves hexec hbad hquiet hread hw
  refine ⟨u, hu, hmoves, ?_⟩
  split at hvec
  · next hstart =>
    rw [if_pos hstart, hvec]
    obtain ⟨-, -, hv, htag, -⟩ := VRun.left_frame (r := VRun.of (s.vec k) e whole hi) (m := m) (strm := strm) (fl := fun n => (f n).2)
      (v := s.vec k) hw
    have hends : (VRun.of (s.vec k) e whole hi).ends = (Kinds.of (s.vec k) e whole hi m).ends := by
      unfold Kinds.ends
      rw [decide_eq_false (by omega), Bool.false_or]
      rfl
    obtain ⟨hpv, hpt⟩ := putMask_registers (VRun.of (s.vec k) e whole hi) m (VRun.of (s.vec k) e whole hi).hi
      (VRun.of (s.vec k) e whole hi).ends d (fun n => (f n).1) ((s.vec k).setEntry ((VRun.of (s.vec k) e whole hi).after m fun n => (f n).2))
    refine ⟨hv.trans hpv, htag.trans hpt, flagsRouted_left hw hstart fun n j hj hn => ?_⟩
    rw [hends]
    refine (maskBit_putMask (VRun.of (s.vec k) e whole hi) m _ d _ _ hn hj).trans ?_
    split
    · next h => exact (if_pos h).symm
    · next h => exact (if_neg h).symm
  · next hstart =>
    rw [if_neg hstart, hvec]
    exact ⟨rfl, rfl, ended_complete _ e⟩

end

end Sys2Proof.Machine
end
section
/-! PROOFS. Copies, conversions and tags: O37 (R42, R148, R155, R163 to R165). -/
namespace Sys2Proof.Machine

theorem Tag.width_le (t : Tag) : t.width ≤ 64 := by cases t <;> decide

/-! ## What the instructions do on the vector side -/

section
variable {s : State} {k j hi : Nat} {e : Entry} (h : s.Moves k j hi e)
include h

theorem State.Moves.exec_vopMerge (d a : VReg) (b m : MReg) :
    exec (.vopMerge d a b m) s = elementwise s k (VRun.of (s.vec k) e false hi) m d e.vtype.sew (some ((s.vec k).tagOf d))
      [(a, e.vtype.sew)] none fun n =>
        (if (s.vec k).maskBit b n then some ((s.vec k).elem (s.vec k).lanes e.vtype.sew a n) else none, Flags.none) := by
  refine (h.vectorInstr _ _ _ _).trans ?_
  dsimp only
  rw [h.vrun]
  rfl

theorem State.Moves.exec_vopMv_reg (d a : VReg) (m : MReg) :
    exec (.vopMv d (.reg a) m) s = elementwise s k (VRun.of (s.vec k) e false hi) m d e.vtype.sew (some ((s.vec k).tagOf a))
      [(a, e.vtype.sew)] none fun n => (some ((s.vec k).elem (s.vec k).lanes e.vtype.sew a n), Flags.none) := by
  refine (h.vectorInstr _ _ _ _).trans ?_
  dsimp only
  rw [h.vrun]
  rfl

theorem State.Moves.exec_vopMv_strm (d : VReg) (i : SReg) (m : MReg) {x : Stream} {t : Tag} (hx : (s.vec k).stream i = some x)
    (hout : x.out = false) (ht : x.tag? = some t) :
    exec (.vopMv d (.strm i) m) s = elementwise s k (VRun.of (s.vec k) e false hi) m d e.vtype.sew (some t) [] (some i) fun n =>
      (some (((x.entryAt (x.idx.toNat + (n - (Kinds.of (s.vec k) e false hi m).start))).map (·.bits)).getD 0), Flags.none) := by
  refine (h.vectorInstr _ _ _ _).trans ?_
  dsimp only
  rw [h.vrun]
  change (match (s.vec k).stream i with | none => s.rejectVec k e 1 | some t => _) = _
  rw [hx]
  dsimp only
  rw [hout, if_neg (by simp)]
  unfold VRun.src
  change elementwise s k _ m d _ (some (Src.tag (match (s.vec k).stream i with | some t => _ | none => _))) [] (some i)
    (fun n => (some (Src.get (match (s.vec k).stream i with | some t => _ | none => _) n), Flags.none)) = _
  rw [hx]
  dsimp only
  rw [ht]
  rfl

theorem State.Moves.exec_vopSplat_reg (d : VReg) (b : XReg) (m : MReg) :
    exec (.vopSplat d (.vx b) m) s = elementwise s k (VRun.of (s.vec k) e false hi) m d e.vtype.sew (some ((s.vec k).tagOf d))
      [] none fun _ => (some ((e.ops.getD 0 0).toNat % 2 ^ e.vtype.sew), Flags.none) := by
  refine (h.vectorInstr _ _ _ _).trans ?_
  dsimp only
  rw [h.vrun]
  rfl

/-- The value that an immediate gives in a tag (R163). -/
def splatValue (vt : VType) (t : Tag) (imm : BitVec 5) : Nat × Flags :=
  if t.cls = .angle then ((imm.toInt % (2 ^ vt.sew : Nat)).toNat, 0) else Sys2Proof.Machine.encode vt t (Val.mk imm.toInt 0)

theorem State.Moves.exec_vopSplat_imm (d : VReg) (imm : BitVec 5) (m : MReg) :
    exec (.vopSplat d (.vi imm) m) s = elementwise s k (VRun.of (s.vec k) e false hi) m d e.vtype.sew (some ((s.vec k).tagOf d))
      [] none fun _ => (some (splatValue e.vtype ((s.vec k).tagOf d) imm).1, (splatValue e.vtype ((s.vec k).tagOf d) imm).2) := by
  refine (h.vectorInstr _ _ _ _).trans ?_
  dsimp only
  rw [h.vrun]
  rfl

theorem State.Moves.exec_vopFclass_vec (d a : VReg) (m : MReg) :
    exec (.vopFclass (.vec d) a m) s = elementwise s k (VRun.of (s.vec k) e false hi) m d e.vtype.sew (some (Tag.uintOf e.vtype.sew))
      [(a, e.vtype.sew)] none fun n =>
        (some (fclassBits ((s.vec k).tagOf a) ((s.vec k).elem (s.vec k).lanes e.vtype.sew a n)), Flags.none) := by
  refine (h.vectorInstr _ _ _ _).trans ?_
  dsimp only
  rw [h.vrun]
  rfl

/-- The code and flags of one converted element (R164). -/
def convertedElement (sat : Bool) (v : Vec) (vt : VType) (ts td : Tag) (n c : Nat) : Nat × Flags :=
  if sat then cvtSatElement v vt ts td n c else cvtElement v vt ts td n c

theorem State.Moves.vopConvert (i : Instr) (sat : Bool) (form : CvtForm) (d a : VReg) (m : MReg) :
    vopConvert i sat form d a m s = elementwise s k (VRun.of (s.vec k) e false hi) m d (cvtWidths form e.vtype.sew).2
      (some ((s.vec k).tagOf d)) [(a, (cvtWidths form e.vtype.sew).1)] none fun n =>
        let x := convertedElement sat (s.vec k) e.vtype ((s.vec k).tagOf a) ((s.vec k).tagOf d) n
          ((s.vec k).elem (s.vec k).lanes (cvtWidths form e.vtype.sew).1 a n)
        (some x.1, x.2) := by
  refine (h.vectorInstr _ _ _ _).trans ?_
  dsimp only
  rw [h.vrun]
  rfl

theorem State.Moves.exec_vcfgTag (d : VReg) {code : BitVec 5} {t : Tag} (ht : Tag.ofCode code.toNat = some t) :
    exec (.vcfgTag d code) s = .next (s.setVec k (((s.vec k).setTags d e.vtype.lmul t).complete e)) := by
  refine (h.vectorInstr _ _ _ _).trans ?_
  rw [ht]

end

/-! ## The destination of a conversion -/

/-- The group that a form writes (R164). -/
def cvtKind : CvtForm → GroupKind
  | .wide => .wide
  | .same | .narrow => .one

/-- The destination group of a conversion, which its form and the widths of its tags allow (R79, R164). -/
theorem groupFits_cvt {vt : VType} {v : Vec} {sat : Bool} {form : CvtForm} {d a : VReg} (hok : cvtOk sat v vt form d a = true)
    (hd : groupOk vt (d, cvtKind form) = true) : GroupFits vt d (cvtWidths form vt.sew).2 := by
  cases form with
  | same => exact .inl ⟨rfl, hd⟩
  | narrow => exact .inl ⟨rfl, hd⟩
  | wide =>
    refine .inr ⟨rfl, ?_, hd⟩
    unfold cvtOk at hok
    simp only [Bool.and_eq_true, decide_eq_true_eq] at hok
    obtain ⟨⟨-, hwidth⟩, -⟩ := hok
    have hle := (v.tagOf d).width_le
    change _ = 2 * vt.sew at hwidth
    omega

/-- A tag register's setting leaves the rest of what a move may change (R155). -/
theorem vecMoves_setTags (s : State) (k : Nat) (e : Entry) (d : VReg) (n : Nat) (t : Tag) :
    VecMoves s (s.setVec k (((s.vec k).setTags d n t).complete e)) k true none 0 where
  vstart := by rw [State.vec_setVec_self]; rfl
  others := fun b hb => by rw [State.vec_setVec, if_neg hb]
  fronts := fun _ _ => rfl
  front := rfl
  generation := fun _ => rfl
  rest := rfl
  vec := by rw [State.vec_setVec_self]; rfl
  streams := fun j _ => by rw [State.vec_setVec_self]; rfl
  advanced := fun j hj => by cases hj

/-- A conversion writes its group (R164). -/
theorem convert_writes {s : State} {k j hi : Nat} {e : Entry} (h : s.Moves k j hi e) (hbad : (s.vec k).bad = []) {sat : Bool}
    {form : CvtForm} {d a : VReg} {m : MReg} {i : Instr} (hexec : exec i s = vopConvert i sat form d a m s)
    (hok : cvtOk sat (s.vec k) e.vtype form d a = true)
    (hd : groupOk e.vtype (d, cvtKind form) = true)
    (hquiet : (Kinds.of (s.vec k) e false hi m).quiet (s.vec k) e fun n =>
      (convertedElement sat (s.vec k) e.vtype ((s.vec k).tagOf a) ((s.vec k).tagOf d) n
        ((s.vec k).elem (s.vec k).lanes (cvtWidths form e.vtype.sew).1 a n)).2) :
    s.WritesGroup k e i (Kinds.of (s.vec k) e false hi m) none d (cvtWidths form e.vtype.sew).2 ((s.vec k).tagOf d)
      (fun n => some (convertedElement sat (s.vec k) e.vtype ((s.vec k).tagOf a) ((s.vec k).tagOf d) n
        ((s.vec k).elem (s.vec k).lanes (cvtWidths form e.vtype.sew).1 a n)).1)
      fun n => (convertedElement sat (s.vec k) e.vtype ((s.vec k).tagOf a) ((s.vec k).tagOf d) n
        ((s.vec k).elem (s.vec k).lanes (cvtWidths form e.vtype.sew).1 a n)).2 :=
  elementwise_writes (hexec.trans (h.vopConvert i sat form d a m)) hbad hquiet rfl (groupFits_cvt hok hd)

/-- Settles O37: each copy and each conversion is an element-wise move, and the tag register is written alone. -/
theorem copyAndConvertResults : Obligations.CopyAndConvertResults := by
  intro s k j hi e d a m h hfpx hbad v vt w q elem
  have hquiet0 : q.quiet v e fun _ => 0 := ⟨hfpx, fun _ _ => BitVec.zero_and⟩
  refine ⟨fun hd => ?_, ?_, fun code t ht => ?_⟩
  · have hfit : GroupFits vt d w := .inl ⟨rfl, hd⟩
    refine ⟨fun b => ?_, ?_, fun j x t hx hout ht hread => ?_, fun b => ?_, ?_, ?_⟩
    · exact elementwise_writes (h.exec_vopMerge d a b m) hbad hquiet0 rfl hfit
    · exact elementwise_writes (h.exec_vopMv_reg d a m) hbad hquiet0 rfl hfit
    · exact elementwise_writes (h.exec_vopMv_strm d j m hx hout ht) hbad hquiet0 hread hfit
    · exact elementwise_writes (h.exec_vopSplat_reg d b m) hbad hquiet0 rfl hfit
    · intro imm x hquiet
      exact elementwise_writes (h.exec_vopSplat_imm d imm m) hbad hquiet rfl hfit
    · exact elementwise_writes (h.exec_vopFclass_vec d a m) hbad hquiet0 rfl hfit
  · intro form sat i kinds wa wd hd ha hok x hquiet
    have hexec : exec i s = vopConvert i sat form d a m s := by cases sat <;> rfl
    cases form with
    | same => exact convert_writes h hbad hexec hok hd hquiet
    | wide => exact convert_writes h hbad hexec hok hd hquiet
    | narrow => exact convert_writes h hbad hexec hok hd hquiet
  · refine ⟨_, h.exec_vcfgTag d ht, vecMoves_setTags s k e d _ t, ?_⟩
    rw [State.vec_setVec_self]
    exact ⟨rfl, rfl, rfl, rfl, rfl, fun n hn => Vec.getD_setTags v d t hn _⟩

end Sys2Proof.Machine
end
section
/-! PROOFS. Folds and scans of integers in plain arithmetic (R33, R172 to R174). -/
namespace Sys2Proof.Machine

/-! ## Folds of values -/

theorem foldl_sigFlag : ∀ (l : List Val), (∀ x ∈ l, x.Finite) → ∀ f : Flags, l.foldl (fun f x => f ||| x.sigFlag) f = f
  | [], _, _ => rfl
  | x :: l, h, f => by
    rw [List.foldl_cons, foldl_sigFlag l (fun y hy => h y (List.mem_cons_of_mem _ hy)), sigFlag_finite (h x List.mem_cons_self)]
    exact BitVec.or_zero

/-- The exact sum of finite values (R33). -/
theorem foldl_add_finite (rm : Nat) : ∀ (l : List Val), (∀ x ∈ l, x.Finite ∧ x.Normal) → ∀ a : Val, a.Finite → a.Normal →
    (l.foldl (fun a b => (a.add rm b).1) a).Finite ∧ (l.foldl (fun a b => (a.add rm b).1) a).rat = a.rat + (l.map Val.rat).sum
  | [], _, a, ha, _ => ⟨ha, by simp⟩
  | x :: l, h, a, ha, hna => by
    obtain ⟨hx, hnx⟩ := h x List.mem_cons_self
    obtain ⟨hf, hr, -⟩ := Val.add_finite ha hx hna hnx rm
    obtain ⟨hf', hr'⟩ := foldl_add_finite rm l (fun y hy => h y (List.mem_cons_of_mem _ hy)) _ hf (Val.add_normal hna hnx rm)
    refine ⟨hf', ?_⟩
    rw [List.foldl_cons, hr', hr, List.map_cons, List.sum_cons, add_assoc]

/-- The largest, or the least, of finite values (R172). -/
theorem foldl_pick_finite (larger : Bool) : ∀ (l : List Val), (∀ x ∈ l, x.Finite) → ∀ a : Val, a.Finite →
    (l.foldl (Val.pick larger) a).Finite ∧
    (l.foldl (Val.pick larger) a).rat = (l.map Val.rat).foldl (fun a b => if larger then max a b else min a b) a.rat
  | [], _, a, ha => ⟨ha, rfl⟩
  | x :: l, h, a, ha => by
    obtain ⟨hf, hr⟩ := pick_finite ha (h x List.mem_cons_self) larger
    obtain ⟨hf', hr'⟩ := foldl_pick_finite larger l (fun y hy => h y (List.mem_cons_of_mem _ hy)) _ hf
    refine ⟨hf', ?_⟩
    rw [List.foldl_cons, hr', hr, List.map_cons, List.foldl_cons]

theorem foldl_max_cast : ∀ (l : List ℤ) (a : ℤ), (l.map (fun n : ℤ => (n : ℚ))).foldl max (a : ℚ) = (l.foldl max a : ℤ)
  | [], _ => rfl
  | x :: l, a => by rw [List.map_cons, List.foldl_cons, List.foldl_cons, ← Int.cast_max, foldl_max_cast l]

theorem foldl_min_cast : ∀ (l : List ℤ) (a : ℤ), (l.map (fun n : ℤ => (n : ℚ))).foldl min (a : ℚ) = (l.foldl min a : ℤ)
  | [], _ => rfl
  | x :: l, a => by rw [List.map_cons, List.foldl_cons, List.foldl_cons, ← Int.cast_min, foldl_min_cast l]

/-- A fold that picks one of its two arguments picks one of its values. -/
theorem foldl_choice {f : ℤ → ℤ → ℤ} (hf : ∀ a b, f a b = a ∨ f a b = b) : ∀ (l : List ℤ) (a : ℤ), l.foldl f a ∈ a :: l
  | [], a => List.mem_cons_self
  | x :: l, a => by
    have ih := foldl_choice hf l (f a x)
    rw [List.foldl_cons]
    rcases List.mem_cons.mp ih with h | h
    · rw [h]
      rcases hf a x with h' | h' <;> rw [h'] <;> simp
    · simp [h]

theorem foldl_land_lt {w : Nat} : ∀ (l : List Nat) {c : Nat}, c < 2 ^ w → l.foldl Nat.land c < 2 ^ w
  | [], _, h => h
  | x :: l, c, h => foldl_land_lt l (lt_of_le_of_lt (Nat.and_le_left : c &&& x ≤ c) h)

theorem foldl_lor_lt {w : Nat} : ∀ (l : List Nat) {c : Nat}, c < 2 ^ w → (∀ x ∈ l, x < 2 ^ w) → l.foldl Nat.lor c < 2 ^ w
  | [], _, h, _ => h
  | x :: l, c, h, hl =>
    foldl_lor_lt l (Nat.or_lt_two_pow h (hl x List.mem_cons_self) : c ||| x < 2 ^ w) fun y hy => hl y (List.mem_cons_of_mem _ hy)

/-! ## Integer folds -/

section
variable {vt : VType} {t : Tag} (ht : t.cls = .integer) (c : Nat) (l : List Nat)
include ht

theorem readVal_mem_integer : ∀ x ∈ l.map (readVal vt t), x.Finite ∧ x.Normal := by
  intro x hx
  obtain ⟨n, -, rfl⟩ := List.mem_map.mp hx
  exact ⟨readVal_finite (integer_facts ht).1 vt n, readVal_normal vt t n⟩

theorem map_rat_integer : (l.map (readVal vt t)).map Val.rat = (l.map (intValue t)).map fun n : ℤ => (n : ℚ) := by
  rw [List.map_map, List.map_map]
  exact List.map_congr_left fun n _ => readVal_integer ht vt n

/-- The exact sum of integers, narrowed once. -/
theorem encodeWith_foldl_add {fl : Flags} (hfl : fl = 0) (rm : Nat) :
    encodeWith vt t ((l.map (readVal vt t)).foldl (fun a b => (a.add rm b).1) (readVal vt t c), fl) =
      intResult vt t (intValue t c + (l.map (intValue t)).sum) := by
  obtain ⟨hf, hr⟩ := foldl_add_finite rm _ (readVal_mem_integer (vt := vt) ht l) _ (readVal_finite (integer_facts ht).1 vt c)
    (readVal_normal vt t c)
  refine encodeWith_integer ht hf ?_ hfl
  rw [hr, map_rat_integer ht, readVal_integer ht, Int.cast_add, Int.cast_list_sum]

/-- The largest, or the least, of integers is written as it is. -/
theorem encodeWith_foldl_pick (larger : Bool) {f : ℤ → ℤ → ℤ} (hf : f = if larger then max else min) {fl : Flags} (hfl : fl = 0) :
    encodeWith vt t ((l.map (readVal vt t)).foldl (Val.pick larger) (readVal vt t c), fl) =
      (residue t ((l.map (intValue t)).foldl f (intValue t c)), 0) := by
  obtain ⟨hfin, hr⟩ := foldl_pick_finite larger _ (fun x hx => (readVal_mem_integer (vt := vt) ht l x hx).1) _
    (readVal_finite (integer_facts ht).1 vt c)
  have hcast : ((l.map (readVal vt t)).foldl (Val.pick larger) (readVal vt t c)).rat = ((l.map (intValue t)).foldl f (intValue t c) : ℤ) := by
    rw [hr, map_rat_integer ht, readVal_integer ht, hf]
    cases larger
    · exact foldl_min_cast _ _
    · exact foldl_max_cast _ _
  rw [encodeWith_integer ht hfin hcast hfl]
  have hchoice : ∀ a b, f a b = a ∨ f a b = b := by
    rw [hf]
    cases larger
    · exact min_choice
    · exact max_choice
  have hmem := foldl_choice hchoice (l.map (intValue t)) (intValue t c)
  rw [← List.map_cons (f := intValue t)] at hmem
  obtain ⟨n, -, hn⟩ := List.mem_map.mp hmem
  exact intResult_in_range ht hn.symm

end

/-- The terms of an integer fold that are present. -/
theorem filterMap_terms (vt : VType) (t : Tag) (l : List (Option Nat)) :
    (l.map fun o => o.map fun n => (readVal vt t n, n)).filterMap id = (l.filterMap id).map fun n => (readVal vt t n, n) := by
  rw [List.filterMap_map, List.map_filterMap]
  rfl

/-- Integer folds in plain arithmetic (R33, R172). -/
theorem foldResult_integer {vt : VType} {t : Tag} (ht : t.cls = .integer) {c : Nat} (hc : c < 2 ^ t.width) {l : List (Option Nat)}
    (hl : ∀ x ∈ l, ∀ n, x = some n → n < 2 ^ t.width) :
    let gives (f : RedFn) (x : Nat × Flags) : Prop :=
      foldResult f vt t.width t (readVal vt t c) c (l.map fun o => o.map fun n => (readVal vt t n, n)) = x
    let vals := (l.filterMap id).map (intValue t)
    gives .sum (intResult vt t (intValue t c + vals.sum)) ∧ gives .sumOrd (intResult vt t (intValue t c + vals.sum)) ∧
    gives .max (residue t (vals.foldl max (intValue t c)), 0) ∧ gives .min (residue t (vals.foldl min (intValue t c)), 0) ∧
    gives .and ((l.filterMap id).foldl Nat.land c, 0) ∧ gives .or ((l.filterMap id).foldl Nat.lor c, 0) := by
  intro gives vals
  obtain ⟨hfmt, -, -, hfloat⟩ := integer_facts ht
  have hvals : ((l.map fun o => o.map fun n => (readVal vt t n, n)).filterMap id).map Prod.fst = (l.filterMap id).map (readVal vt t) := by
    rw [filterMap_terms, List.map_map]
    rfl
  have hcodes {α : Type} (f : α → Nat → α) (a : α) :
      ((l.map fun o => o.map fun n => (readVal vt t n, n)).filterMap id).foldl (fun a p => f a p.2) a = (l.filterMap id).foldl f a := by
    rw [filterMap_terms, List.foldl_map]
  have hsig : ((l.filterMap id).map (readVal vt t)).foldl (fun f x => f ||| x.sigFlag) (readVal vt t c).sigFlag = 0 := by
    rw [foldl_sigFlag _ fun x hx => (readVal_mem_integer ht _ x hx).1, sigFlag_finite (readVal_finite hfmt vt c)]
  have hlt : ∀ x ∈ l.filterMap id, x < 2 ^ t.width := by
    intro x hx
    obtain ⟨o, ho, hox⟩ := List.mem_filterMap.mp hx
    exact hl o ho x hox
  refine ⟨?_, ?_, ?_, ?_, ?_, ?_⟩ <;> simp only [gives, foldResult, hvals, hcodes, hsig, if_neg hfloat]
  · exact encodeWith_foldl_add ht c _ rfl _
  · exact encodeWith_foldl_add ht c _ rfl _
  · exact encodeWith_foldl_pick ht c _ true rfl rfl
  · exact encodeWith_foldl_pick ht c _ false rfl rfl
  · exact Prod.ext (Nat.mod_eq_of_lt (foldl_land_lt _ hc)) rfl
  · exact Prod.ext (Nat.mod_eq_of_lt (foldl_lor_lt _ hc hlt)) rfl

/-! ## Integer scans -/

/-- What a scan of integers has gathered: a finite exact integer. -/
def Gathers (acc : Val) (x : ℤ) : Prop := acc.Finite ∧ acc.Normal ∧ acc.rat = x

/-- The function of a scan on integers (R174). -/
def scanFn (f : RedFn) (a b : ℤ) : ℤ := if f = .max then max a b else a + b

theorem foldl_scanFn_sum : ∀ (l : List ℤ) (x : ℤ), l.foldl (scanFn .sum) x = x + l.sum
  | [], x => by simp
  | y :: l, x => by
    rw [List.foldl_cons, foldl_scanFn_sum l, List.sum_cons, ← add_assoc]
    rfl

theorem scanFn_max : scanFn .max = max := rfl

section
variable {vt : VType} {t : Tag} (ht : t.cls = .integer)
include ht

theorem gathers_readVal (c : Nat) : Gathers (readVal vt t c) (intValue t c) :=
  ⟨readVal_finite (integer_facts ht).1 vt c, readVal_normal vt t c, readVal_integer ht vt c⟩

/-- A value that a scan has gathered is written narrowed. -/
theorem encode_gathered {v : Val} {x : ℤ} (h : Gathers v x) : encode vt t v = intResult vt t x := by
  obtain ⟨hfin, -, hr⟩ := h
  rw [encode_grid_int (n := x) (integer_facts ht).1 hfin (by rw [hr, (integer_facts ht).2.1]; simp), narrow_integer ht]

/-- One step of an integer scan. -/
theorem scanStep_integer {f : RedFn} (hf : f = .sum ∨ f = .max) {acc v : Val} {x y : ℤ} (ha : Gathers acc x) (hv : Gathers v y) :
    Gathers (scanStep f vt t acc v).1 (scanFn f x y) ∧ (scanStep f vt t acc v).2 = intResult vt t (scanFn f x y) := by
  obtain ⟨haf, han, har⟩ := ha
  obtain ⟨hvf, hvn, hvr⟩ := hv
  rcases hf with rfl | rfl
  · have hg : Gathers (acc.add vt.rm v).1 (x + y) := by
      obtain ⟨h1, h2, -⟩ := Val.add_finite haf hvf han hvn vt.rm
      exact ⟨h1, Val.add_normal han hvn vt.rm, by rw [h2, har, hvr, Int.cast_add]⟩
    have hstep : scanStep .sum vt t acc v = ((acc.add vt.rm v).1, encode vt t (acc.add vt.rm v).1) := if_neg (integer_facts ht).2.2.2
    rw [hstep, encode_gathered ht hg]
    exact ⟨hg, rfl⟩
  · have hg : Gathers (acc.pick true v) (max x y) := by
      obtain ⟨h1, h2⟩ := pick_finite haf hvf true
      exact ⟨h1, Val.pick_normal han hvn true, by rw [h2, har, hvr, if_pos rfl, Int.cast_max]⟩
    have hstep : scanStep .max vt t acc v = (acc.pick true v, (encode vt t (acc.pick true v)).1, (encode vt t (acc.pick true v)).2 ||| v.sigFlag) := rfl
    rw [hstep, encode_gathered ht hg, sigFlag_finite hvf]
    exact ⟨hg, Prod.ext rfl BitVec.or_zero⟩

/-- A scan of integers holds at each element the fold up to it (R174). -/
theorem scanAt_integer (code : Nat → Nat) {f : RedFn} (hf : f = .sum ∨ f = .max) {n : Nat} : ∀ (l : List Nat), l.Pairwise (· < ·) →
    ∀ {acc : Val} {x : ℤ}, Gathers acc x → n ∈ l →
    scanAt (scanList f vt t acc (l.map fun j => (j, readVal vt t (code j)))) n =
      intResult vt t (((l.filter (· ≤ n)).map fun j => intValue t (code j)).foldl (scanFn f) x)
  | i :: l, hl, acc, x, hacc, hn => by
    obtain ⟨hlt, hl⟩ := List.pairwise_cons.mp hl
    obtain ⟨hg, hcode⟩ := scanStep_integer ht hf hacc (gathers_readVal (vt := vt) ht (code i))
    rw [List.map_cons, scanList]
    by_cases hin : i = n
    · subst hin
      have hnone : l.filter (· ≤ i) = [] := List.filter_eq_nil_iff.mpr fun j hj => by simpa using hlt j hj
      rw [List.filter_cons_of_pos (by simp), hnone, List.map_singleton, List.foldl_cons, List.foldl_nil, ← hcode]
      simp [scanAt]
    · have hmem : n ∈ l := (List.mem_cons.mp hn).resolve_left (Ne.symm hin)
      have ih := scanAt_integer code hf l hl hg hmem
      rw [List.filter_cons_of_pos (by simpa using (hlt n hmem).le), List.map_cons, List.foldl_cons, ← ih]
      unfold scanAt
      rw [List.find?_cons_of_neg (by simpa using hin)]

end

end Sys2Proof.Machine
end
section
/-! PROOFS. Reductions, scans, mask functions and iota: O41 (R171 to R177). -/
namespace Sys2Proof.Machine

/-! ## The end of a reduction -/

/-- The frame of a write of element 0 (R172). -/
def VRun.first (r : VRun) : VRun := { r with vl := 1, start := 0 }

/-- The kinds of a write of element 0 (R172). -/
def Kinds.first (v : Vec) (vt : VType) : Kinds := { vt := vt, lanes := v.lanes, start := 0, vl := 1, hi := 1, mask := fun _ => true }

theorem first_kinds (v : Vec) (e : Entry) (hi : Nat) : (VRun.of v e true hi).first.kinds 0 1 = Kinds.first v e.vtype := by
  unfold VRun.kinds Kinds.first
  rw [show (VRun.of v e true hi).first.v.maskBit 0 = fun _ => true from funext fun i => by simp [Vec.maskBit]]
  rfl

theorem first_actives (r : VRun) : r.first.actives 0 1 = [0] := by
  simp [VRun.actives, VRun.active, VRun.first, Vec.maskBit, List.range_succ]

theorem first_allFlags (r : VRun) (fl : Flags) : r.first.allFlags 0 1 (fun _ => fl) = fl := by
  unfold VRun.allFlags
  rw [first_actives]
  exact BitVec.zero_or

theorem routeAt_first (r : VRun) (fl : Flags) (v : Vec) : r.routeAt 0 fl v = r.first.route 0 1 (fun _ => fl) v := by
  unfold VRun.route
  rw [first_allFlags, first_actives]
  rfl

/-- The active element of such a write. -/
theorem first_active (v : Vec) (vt : VType) (i : Nat) : (Kinds.first v vt).active i = decide (i = 0) := by
  unfold Kinds.active Kinds.first
  rw [Bool.and_true]
  rcases Nat.eq_zero_or_pos i with rfl | h
  · rfl
  · rw [decide_eq_false (show ¬ i < 1 by omega), decide_eq_false (show ¬ i = 0 by omega), Bool.and_false]

section
variable {s : State} {k hi : Nat} {e : Entry} {d : VReg} {w : Nat} {t : Tag} {c : Nat} {fl : Flags}

/-- The vector side after element 0 is written and its flags have been routed. -/
def Vec.folded (v : Vec) (r : VRun) (d : VReg) (w : Nat) (t : Tag) (c : Nat) (fl : Flags) : Vec :=
  r.routeAt 0 fl (r.putFirst d w t c v)

theorem Vec.folded_frame (v : Vec) (r : VRun) :
    { v.folded r d w t c fl with v := v.v, tag := v.tag, bad := v.bad, told := v.told, m := v.m, flags := v.flags } = v ∧
    (v.folded r d w t c fl).v = (r.putFirst d w t c v).v ∧ (v.folded r d w t c fl).tag = (r.putFirst d w t c v).tag ∧
    (v.folded r d w t c fl).flags = (if v.ftrap = 0 then v.flags ||| fl else v.flags) ∧
    ∀ n i, i < 4096 → n ≠ 0 →
      (v.folded r d w t c fl).maskBit n i = (v.maskBit n i || (decide (n.toNat = r.vt.xm) && decide (i = 0) && Flags.routed r.vt fl)) := by
  unfold Vec.folded
  rw [routeAt_first]
  generalize hx : r.putFirst d w t c v = x
  have hput : { x with v := v.v, tag := v.tag, bad := v.bad, told := v.told } = v := by
    rw [← hx]
    exact r.first.put_frame 0 1 true ⟨d, w, some t, fun _ => some c⟩ v
  have hmask (n : MReg) (i : Nat) : x.maskBit n i = v.maskBit n i := by
    rw [← hx]
    exact maskBit_put r.first 0 1 true ⟨d, w, some t, fun _ => some c⟩ v n i
  have hroute := r.first.route_frame 0 1 (fun _ => fl) x
  have hflags := r.first.route_flags 0 1 (fun _ => fl) x
  have hxf : x.flags = v.flags := (congrArg Vec.flags hput :)
  have hxt : x.ftrap = v.ftrap := (congrArg Vec.ftrap hput :)
  refine ⟨?_, (congrArg Vec.v hroute :), (congrArg Vec.tag hroute :), ?_, fun n i hi hn => ?_⟩
  · have h1 := congrArg (fun u : Vec => { u with v := v.v, tag := v.tag, bad := v.bad, told := v.told, m := v.m, flags := v.flags }) hroute
    have h2 := congrArg (fun u : Vec => { u with m := v.m, flags := v.flags }) hput
    exact h1.trans h2
  · rw [hflags, first_allFlags, hxf, hxt]
  · rw [r.first.route_mask 0 1 _ x hn hi, hmask, first_actives]
    simp only [List.mem_singleton]
    rfl

/-- A reduction whose sources are readable completes (R171, R172). -/
theorem foldFinish_completes {i : Instr} (hbad : (s.vec k).bad = []) {m : MReg} {init : List (VReg × Nat)} {a : VReg} {w' : Nat}
    (hexec : exec i s = foldFinish s k (VRun.of (s.vec k) e true hi) ((VRun.of (s.vec k) e true hi).foldStop m w' a init) fl
      ((VRun.of (s.vec k) e true hi).putFirst d w t c))
    (hfit : GroupFits e.vtype d w) :
    (e.vl = 0 → s.Idles k e i) ∧
    (e.vl ≠ 0 → fl &&& (s.vec k).ftrap = 0 → ∃ u, exec i s = .next u ∧ VecMoves s u k true none 0 ∧
      GroupWritten (s.vec k) (u.vec k) (Kinds.first (s.vec k) e.vtype) d w t (fun _ => some c) ∧
      FlagsRouted (s.vec k) (u.vec k) e (Kinds.first (s.vec k) e.vtype) (fun _ => fl) (s.vec k).maskBit) := by
  have hstop : (VRun.of (s.vec k) e true hi).foldStop m w' a init = none := by
    unfold VRun.foldStop
    rw [VRun.uecc_none _ _ hbad, VRun.uecc_none _ _ hbad]
    rfl
  rw [hstop] at hexec
  refine ⟨fun hvl => idles_of_complete (hexec.trans (if_pos (congrArg BitVec.toNat hvl))), fun hvl hfl => ?_⟩
  have hne : (VRun.of (s.vec k) e true hi).vl ≠ 0 := fun h => hvl (BitVec.eq_of_toNat_eq h)
  have htraps : Flags.traps (s.vec k).ftrap fl = false := bne_eq_false_iff_eq.mpr hfl
  have hu : exec i s = .next (s.setVec k (((s.vec k).folded (VRun.of (s.vec k) e true hi) d w t c fl).complete { e with flags := e.flags ||| fl })) := by
    refine hexec.trans ((if_neg hne).trans (if_neg ?_))
    exact fun h => Bool.false_ne_true (htraps.symm.trans h)
  obtain ⟨hframe, hv, htag, hflags, hmask⟩ := Vec.folded_frame (d := d) (w := w) (t := t) (c := c) (fl := fl) (s.vec k) (VRun.of (s.vec k) e true hi)
  generalize hx : (s.vec k).folded (VRun.of (s.vec k) e true hi) d w t c fl = x at hu hframe hv htag hflags hmask
  have hinfl : x.infl = (s.vec k).infl := (congrArg Vec.infl hframe :)
  have hs : x.s = (s.vec k).s := (congrArg Vec.s hframe :)
  obtain ⟨hi1, raised, hf, hf'⟩ := Vec.complete_congr hinfl { e with flags := e.flags ||| fl }
  refine ⟨_, hu, ?_, ?_, ?_⟩
  · exact {
      vstart := by rw [State.vec_setVec_self]; rfl
      others := fun b hb => by rw [State.vec_setVec, if_neg hb]
      fronts := fun _ _ => rfl
      front := rfl
      generation := fun _ => rfl
      rest := rfl
      vec := by
        rw [State.vec_setVec_self]
        exact (congrArg (fun u : Vec => { u with infl := (s.vec k).infl, vstart := (s.vec k).vstart, s := (s.vec k).s }) hframe :)
      streams := fun j _ => by
        rw [State.vec_setVec_self, Vec.stream, Vec.complete_s, hs]
        rfl
      advanced := fun j hj => by cases hj }
  · rw [State.vec_setVec_self, ← first_kinds _ e hi]
    have hends : ((VRun.of (s.vec k) e true hi).first.kinds 0 1).ends = true := rfl
    exact groupWritten_put (r := (VRun.of (s.vec k) e true hi).first) (x := s.vec k) rfl rfl hfit rfl rfl
      (by rw [hends]; exact hv) (by rw [hends]; exact htag)
  · rw [State.vec_setVec_self]
    have hex (p : Prop) : (∃ i, (Kinds.first (s.vec k) e.vtype).active i = true ∧ p) ↔ p := by
      constructor
      · rintro ⟨-, -, h⟩
        exact h
      · exact fun h => ⟨0, rfl, h⟩
    refine ⟨⟨e.flags ||| fl, fun j _ => ?_, hi1, fun j _ => ?_⟩, fun n i hi hn => ?_⟩
    · rw [hex, BitVec.getLsbD_or, Bool.or_eq_true]
    · change _ ↔ ((s.vec k).complete { e with flags := e.flags ||| fl }).flags.getLsbD j = true ∨ _
      rw [hex, hf, hf', hflags]
      split
      · next h => simp [h, BitVec.getLsbD_or, or_comm, or_left_comm]
      · next h => exact (or_iff_left fun h' => h h'.1).symm
    · refine (hmask n i hi hn).trans ?_
      rw [first_active]
      rfl

end

/-! ## Reductions -/

theorem RedFn.exec_redInstr (f : RedFn) (d a : VReg) (b : VSrc) (m : MReg) (s : State) :
    exec (redInstr f d a b m) s = vredFold (redInstr f d a b m) f d a b m s := by cases f <;> rfl

section
variable {s : State} {k j hi : Nat} {e : Entry} (h : s.Moves k j hi e)
include h

theorem State.Moves.exec_fold (f : RedFn) (d a : VReg) (b : VSrc) (m : MReg) {t : Tag} (ht : redTag f (s.vec k) e.vtype a b = some t) :
    let r := VRun.of (s.vec k) e true hi
    let second := r.src ((s.vec k).tagOf a) b
    let x := foldResult f e.vtype e.vtype.sew t (operandVal e.vtype false t second.tag (second.get 0)) (second.get 0)
      (r.terms m e.vtype.sew a (operandVal e.vtype false t ((s.vec k).tagOf a)))
    exec (redInstr f d a b m) s = foldFinish s k r (r.foldStop m e.vtype.sew a second.regs) x.2 (r.putFirst d e.vtype.sew t x.1) := by
  refine (f.exec_redInstr d a b m s).trans ((h.vectorInstr _ _ _ _).trans ?_)
  dsimp only
  rw [h.vrun]
  change (match redTag f (s.vec k) e.vtype a b with | none => _ | some t => _) = _
  rw [ht]
  rfl

theorem State.Moves.exec_vredRedsumW (d a b : VReg) (m : MReg) {t : Tag} (ht : redWTag (s.vec k) e.vtype a b = some t) :
    let r := VRun.of (s.vec k) e true hi
    let c := (s.vec k).elem (s.vec k).lanes (2 * e.vtype.sew) b 0
    let x := foldResult .sum e.vtype (2 * e.vtype.sew) t (readVal e.vtype t c) c (r.terms m e.vtype.sew a (readVal e.vtype ((s.vec k).tagOf a)))
    exec (.vredRedsumW d a b m) s = foldFinish s k r (r.foldStop m e.vtype.sew a [(b, 2 * e.vtype.sew)]) x.2
      (r.putFirst d (2 * e.vtype.sew) t x.1) := by
  refine (h.vectorInstr _ _ _ _).trans ?_
  dsimp only
  rw [h.vrun]
  change (match redWTag (s.vec k) e.vtype a b with | none => _ | some t => _) = _
  rw [ht]
  rfl

end

/-- The sum in the wide tag stands at SEW 32 and below (R172). -/
theorem sew_of_redWTag {v : Vec} {vt : VType} {a b : VReg} {t : Tag} (h : redWTag v vt a b = some t) : vt.sew ≤ 32 := by
  have hwide : ∀ x : Tag, x.widen.isSome = true → x.width ≤ 32 := by
    intro x
    cases x <;> decide
  unfold redWTag at h
  dsimp only at h
  split at h
  · next hok =>
    simp only [Bool.and_eq_true, decide_eq_true_eq] at hok
    rw [← hok.1]
    refine hwide _ ?_
    cases hw : (v.tagOf a).widen with
    | none => rw [hw] at h; cases h
    | some x => rfl
  · cases h

end Sys2Proof.Machine
end
section
namespace Sys2Proof.Machine

/-! ## Scans, masks and iota -/

/-- The active elements of a whole move, ascending. -/
def Kinds.actives (q : Kinds) : List Nat := (List.range q.vl).filter q.active

theorem mem_actives_whole (v : Vec) (e : Entry) (hi : Nat) (m : MReg) {n : Nat} (h : (Kinds.of v e true hi m).active n = true) :
    n ∈ (Kinds.of v e true hi m).actives := by
  refine List.mem_filter.mpr ⟨List.mem_range.mpr ?_, h⟩
  simp only [Kinds.active, Bool.and_eq_true, decide_eq_true_eq] at h
  obtain ⟨⟨-, hlt⟩, -⟩ := h
  exact hlt

theorem actives_whole (v : Vec) (e : Entry) (hi : Nat) (m : MReg) :
    (VRun.of v e true hi).actives m (VRun.of v e true hi).vl = (Kinds.of v e true hi m).actives := rfl

theorem actives_pairwise (q : Kinds) : q.actives.Pairwise (· < ·) := List.Pairwise.filter _ List.pairwise_lt_range

/-- The prefixes of a scan, with the flags of reading the initial value (R174). -/
def scanElement (f : RedFn) (vt : VType) (t : Tag) (init : Val) (act : List Nat) (rd : Nat → Val) (n : Nat) : Nat × Flags :=
  let y := scanAt (scanList f vt t (Term.of init).1 (act.map fun n => (n, rd n))) n
  (y.1, y.2 ||| if act.head? = some n then init.sigFlag else 0)

theorem Term.of_finite {v : Val} (h : v.Finite) : (Term.of v).1 = v := by
  cases v with
  | nan s => cases h.1
  | inf s => rfl
  | zero s => rfl
  | fin m e => rfl

section
variable {s : State} {k j hi : Nat} {e : Entry} (h : s.Moves k j hi e)
include h

theorem State.Moves.vredScan (hbad : (s.vec k).bad = []) (i : Instr) (f : RedFn) (d a : VReg) (b : VSrc) (m : MReg) {t : Tag}
    (ht : redTag f (s.vec k) e.vtype a b = some t) :
    let second := (VRun.of (s.vec k) e true hi).src ((s.vec k).tagOf a) b
    vredScan i f d a b m s = elementwise s k (VRun.of (s.vec k) e true hi) m d e.vtype.sew (some t) [] none fun n =>
      let y := scanElement f e.vtype t (operandVal e.vtype false t second.tag (second.get 0)) (Kinds.of (s.vec k) e true hi m).actives
        (fun n => operandVal e.vtype false t ((s.vec k).tagOf a) ((s.vec k).elem (s.vec k).lanes e.vtype.sew a n)) n
      (some y.1, y.2) := by
  intro second
  have hstop (init : List (VReg × Nat)) : (VRun.of (s.vec k) e true hi).foldStop m e.vtype.sew a init = none := by
    unfold VRun.foldStop
    rw [VRun.uecc_none _ _ hbad, VRun.uecc_none _ _ hbad]
    rfl
  refine (h.vectorInstr _ _ _ _).trans ?_
  dsimp only
  rw [h.vrun]
  change (match redTag f (s.vec k) e.vtype a b with | none => _ | some t => _) = _
  rw [ht]
  change (match (VRun.of (s.vec k) e true hi).foldStop m e.vtype.sew a second.regs with | some x => _ | none => _) = _
  rw [hstop]
  dsimp only
  refine congrArg (elementwise s k (VRun.of (s.vec k) e true hi) m d e.vtype.sew (some t) [] none) (funext fun n => ?_)
  unfold scanElement Flags.when
  simp only [decide_eq_true_eq]
  rfl

theorem State.Moves.maskLogic (i : Instr) (f : Bool → Bool → Bool) (d x y m : MReg) :
    maskLogic i f d x y m s = elementwiseMask s k (VRun.of (s.vec k) e true hi) m d 0 [] none fun n =>
      (f ((s.vec k).maskBit x n) ((s.vec k).maskBit y n), Flags.none) := by
  refine (h.vectorInstr _ _ _ _).trans ?_
  dsimp only
  rw [h.vrun]
  rfl

/-- The set bits of a mask among the active elements. -/
def Kinds.setBits (q : Kinds) (v : Vec) (x : MReg) : List Nat := q.actives.filter (v.maskBit x)

theorem State.Moves.maskCut (i : Instr) (thru : Bool) (x m : MReg) :
    let f := (((Kinds.of (s.vec k) e true hi m).setBits (s.vec k) x).head?).getD e.vl.toNat
    maskCut i thru x m s = elementwiseMask s k (VRun.of (s.vec k) e true hi) m x 0 [] none fun n =>
      (decide (n < f) || (thru && decide (n = f)), Flags.none) := by
  refine (h.vectorInstr _ _ _ _).trans ?_
  dsimp only
  rw [h.vrun]
  rfl

theorem State.Moves.exec_vredMaskFirst (d : XReg) (x m : MReg) :
    exec (.vredMaskFirst d x m) s = .next ((s.setVec k ((s.vec k).complete e)).deliverX k d
      (match ((Kinds.of (s.vec k) e true hi m).setBits (s.vec k) x).head? with | some n => BitVec.ofNat 64 n | none => -1)) := by
  refine (h.vectorInstr _ _ _ _).trans ?_
  dsimp only
  rw [h.vrun]
  rfl

theorem State.Moves.exec_vredMaskCount (d : XReg) (x m : MReg) :
    exec (.vredMaskCount d x m) s = .next ((s.setVec k ((s.vec k).complete e)).deliverX k d
      (BitVec.ofNat 64 ((Kinds.of (s.vec k) e true hi m).setBits (s.vec k) x).length)) := by
  refine (h.vectorInstr _ _ _ _).trans ?_
  dsimp only
  rw [h.vrun]
  rfl

theorem State.Moves.exec_vredIota (d : VReg) (m : MReg) :
    exec (.vredIota d m) s = elementwise s k (VRun.of (s.vec k) e true hi) m d e.vtype.sew (some (Tag.uintOf e.vtype.sew)) [] none
      fun n => (some (wrapN e.vtype.sew n), Flags.none) := by
  refine (h.vectorInstr _ _ _ _).trans ?_
  dsimp only
  rw [h.vrun]
  rfl

end

/-! ## Deliveries to x registers -/

theorem Front.isPend_deliver (f : Front) (d r : XReg) (v : W64) : (f.deliver d v).isPend r = (f.isPend r && decide (r ≠ d)) := by
  have hbit : (1#32 <<< d.toNat).getLsbD r.toNat = decide (r = d) := by
    have := r.isLt
    have hiff : r = d ↔ r.toNat = d.toNat := BitVec.toNat_inj.symm
    simp only [BitVec.getLsbD_shiftLeft, BitVec.getLsbD_one, hiff]
    by_cases h : r.toNat = d.toNat <;> simp [h]
    all_goals omega
  have hlt : decide (r.toNat < 32) = true := decide_eq_true r.isLt
  unfold Front.isPend Front.deliver
  rw [Front.setX_pend]
  simp only [BitVec.getLsbD_and, BitVec.getLsbD_not, hbit, hlt, Bool.true_and, Bool.and_assoc, decide_not]

theorem Front.deliver_frame (f : Front) (d : XReg) (v : W64) : { f.deliver d v with x := f.x, bad := f.bad, pend := f.pend } = f := by
  unfold Front.deliver Front.setX
  split <;> rfl

/-- An x register that a vector instruction delivers as it completes (R176). -/
theorem deliverX_delivers {s : State} {k : Nat} {e : Entry} {i : Instr} {d : XReg} {c : W64}
    (hexec : exec i s = .next ((s.setVec k ((s.vec k).complete e)).deliverX k d c)) :
    ∃ u, exec i s = .next u ∧ s.OnlyContext u k ∧ u.vec k = (s.vec k).complete e ∧
      (∀ r, (u.front k).xr r = if r = d ∧ r ≠ 0 then c else (s.front k).xr r) ∧
      (∀ r, (u.front k).isPend r = ((s.front k).isPend r && decide (r ≠ d))) ∧
      { u.front k with x := (s.front k).x, bad := (s.front k).bad, pend := (s.front k).pend } = s.front k := by
  have hfront : ((s.setVec k ((s.vec k).complete e)).deliverX k d c).front k = (s.front k).deliver d c := State.front_setFront_self _ _ _
  refine ⟨_, hexec, ⟨fun b hb => ?_, fun b hb => ?_, rfl⟩, ?_, fun r => ?_, fun r => ?_, ?_⟩
  · exact (State.front_setFront _ _ _ _).trans (if_neg hb)
  · exact (State.vec_setVec _ _ _ _).trans (if_neg hb)
  · exact State.vec_setVec_self _ _ _
  · rw [hfront, Front.xr_deliver]
    refine if_congr ⟨?_, ?_⟩ rfl rfl
    · rintro ⟨rfl, h⟩
      exact ⟨rfl, h⟩
    · rintro ⟨rfl, h⟩
      exact ⟨rfl, h⟩
  · rw [hfront, Front.isPend_deliver]
  · rw [hfront]
    exact Front.deliver_frame _ d c

/-! ## Iota -/

theorem codeBits_uintOf {w : Nat} (hw : elementWidth w) : codeBits (Tag.uintOf w) w = w := by
  rcases hw with rfl | rfl | rfl | rfl <;> rfl

/-- A group holds its results modulo 2 to their width. -/
theorem writesGroup_congr {s : State} {k : Nat} {e : Entry} {i : Instr} {q : Kinds} {strm : Option SReg} {d : VReg} {w : Nat} {t : Tag}
    {res res' : Nat → Option Nat} {fl : Nat → Flags} (hres : ∀ n, (res n).map (· % 2 ^ codeBits t w) = (res' n).map (· % 2 ^ codeBits t w))
    (h : s.WritesGroup k e i q strm d w t res fl) : s.WritesGroup k e i q strm d w t res' fl := by
  obtain ⟨u, hu, hmoves, hrest⟩ := h
  refine ⟨u, hu, hmoves, ?_⟩
  split at hrest
  · next hstart =>
    obtain ⟨⟨⟨helems, hout⟩, htags⟩, hflags⟩ := hrest
    rw [if_pos hstart]
    exact ⟨⟨⟨fun i hi => by rw [helems i hi, hres], hout⟩, htags⟩, hflags⟩
  · next hstart =>
    rw [if_neg hstart]
    exact hrest

/-! ## The obligation -/

/-- The element codes of a scan of integers of one tag (R174). -/
theorem scanElement_integer {vt : VType} {t ta tb : Tag} (ht : t.cls = .integer) (hta : ta = t) (htb : tb = t) {f : RedFn}
    (hf : f = .sum ∨ f = .max) {act : List Nat} (hact : act.Pairwise (· < ·)) (code : Nat → Nat) (c : Nat) {n : Nat} (hn : n ∈ act) :
    scanAt (scanList f vt t (Term.of (operandVal vt false t tb c)).1 (act.map fun j => (j, operandVal vt false t ta (code j)))) n =
      if f = .sum then intResult vt t (intValue t c + ((act.filter (· ≤ n)).map fun j => intValue t (code j)).sum)
      else (residue t (((act.filter (· ≤ n)).map fun j => intValue t (code j)).foldl max (intValue t c)), 0) := by
  subst hta htb
  have hread (x : Nat) : operandVal vt false tb tb x = readVal vt tb x := by simp [operandVal, ht]
  simp only [hread]
  rw [Term.of_finite (readVal_finite (integer_facts ht).1 vt c),
    scanAt_integer ht code hf act hact (gathers_readVal ht c) hn]
  rcases hf with rfl | rfl
  · rw [if_pos rfl, foldl_scanFn_sum]
  · rw [if_neg (by decide), scanFn_max]
    have hmem := foldl_choice max_choice ((act.filter (· ≤ n)).map fun j => intValue tb (code j)) (intValue tb c)
    obtain ⟨x, hx⟩ : ∃ x, ((act.filter (· ≤ n)).map fun j => intValue tb (code j)).foldl max (intValue tb c) = intValue tb x := by
      rcases List.mem_cons.mp hmem with h | h
      · exact ⟨c, h⟩
      · obtain ⟨j, -, hj⟩ := List.mem_map.mp h
        exact ⟨code j, hj.symm⟩
    exact intResult_in_range ht hx

/-- Reductions and the folds of integers (R171 to R173). -/
theorem reductions_complete {s : State} {k p hi : Nat} {e : Entry} (h : s.Moves k p hi e) (hbad : (s.vec k).bad = []) (d a : VReg) (m : MReg) :
    let v := s.vec k
    let vt := e.vtype
    let w := vt.sew
    let r := VRun.of v e true hi
    let first : Kinds := { vt := vt, lanes := v.lanes, start := 0, vl := 1, hi := 1, mask := fun _ => true }
    let holds (i : Instr) (w : Nat) (t : Tag) (x : Nat × Flags) : Prop :=
      (e.vl = 0 → s.Idles k e i) ∧
      (e.vl ≠ 0 → x.2 &&& v.ftrap = 0 → ∃ u, exec i s = .next u ∧ VecMoves s u k true none 0 ∧
        GroupWritten v (u.vec k) first d w t (fun _ => some x.1) ∧ FlagsRouted v (u.vec k) e first (fun _ => x.2) v.maskBit)
    (∀ (f : RedFn) (b : VSrc) (t : Tag), groupOk vt (d, .one) = true → WellFormed (redInstr f d a b m) = true →
      redTag f v vt a b = some t →
      let second := r.src (v.tagOf a) b
      holds (redInstr f d a b m) w t
        (foldResult f vt w t (operandVal vt false t second.tag (second.get 0)) (second.get 0)
          (r.terms m w a (operandVal vt false t (v.tagOf a))))) ∧
    ∀ (b : VReg) (t : Tag), groupOk vt (d, .wide) = true → redWTag v vt a b = some t →
      holds (.vredRedsumW d a b m) (2 * w) t
        (foldResult .sum vt (2 * w) t (readVal vt t (v.elem v.lanes (2 * w) b 0)) (v.elem v.lanes (2 * w) b 0)
          (r.terms m w a (readVal vt (v.tagOf a)))) := by
  intro v vt w r first holds
  refine ⟨fun f b t hd _ ht => ?_, fun b t hd ht => ?_⟩
  · exact foldFinish_completes hbad (h.exec_fold f d a b m ht) (.inl ⟨rfl, hd⟩)
  · exact foldFinish_completes hbad (h.exec_vredRedsumW d a b m ht) (.inr ⟨rfl, sew_of_redWTag ht, hd⟩)

/-- Settles O41: a reduction ends with element 0, and scans, mask functions and iota are element-wise moves. -/
theorem foldScanAndMaskResults : Obligations.FoldScanAndMaskResults := by
  refine ⟨⟨fun s k p hi e d a m h hbad => reductions_complete h hbad d a m, fun vt t c l ht hc hl => foldResult_integer ht hc hl⟩, ?_⟩
  intro s k p hi e a m h hfpx hbad v vt w r q act
  have hquiet0 : q.quiet v e fun _ => 0 := ⟨hfpx, fun _ _ => BitVec.zero_and⟩
  refine ⟨?_, fun d x y => ⟨?_, ?_, ?_, ?_⟩, ?_, fun d hd => ?_⟩
  · intro d b f i t hd _ ht hfi second init l fl
    have hexec : exec i s = vredScan i f d a b m s := by rcases hfi with ⟨rfl, rfl⟩ | ⟨rfl, rfl⟩ <;> rfl
    refine ⟨fun hquiet => elementwise_writes (hexec.trans (h.vredScan hbad i f d a b m ht)) hbad hquiet rfl (.inl ⟨rfl, hd⟩), ?_⟩
    intro hcls hta htb n hn
    exact scanElement_integer hcls hta htb (hfi.imp And.left And.left) (actives_pairwise q) (fun j => v.elem v.lanes w a j) _
      (mem_actives_whole v e hi m hn)
  · exact elementwiseMask_writes (i := .vredMaskAnd d x y m) (h.maskLogic _ (fun x y => x && y) d x y m) hbad hquiet0 rfl
  · exact elementwiseMask_writes (i := .vredMaskOr d x y m) (h.maskLogic _ (fun x y => x || y) d x y m) hbad hquiet0 rfl
  · exact elementwiseMask_writes (i := .vredMaskXor d x y m) (h.maskLogic _ (fun x y => x != y) d x y m) hbad hquiet0 rfl
  · exact elementwiseMask_writes (i := .vredMaskAndn d x y m) (h.maskLogic _ (fun x y => x && !y) d x y m) hbad hquiet0 rfl
  · intro x set f
    have hcut := elementwiseMask_writes (i := .vredMaskCutoff x m) (h.maskCut _ false x m) hbad hquiet0 rfl
    have hthru := elementwiseMask_writes (i := .vredMaskThru x m) (h.maskCut _ true x m) hbad hquiet0 rfl
    have hlt (n : Nat) : (decide (n < f) || (false && decide (n = f))) = decide (n < f) := Bool.or_false _
    have hle (n : Nat) : (decide (n < f) || (true && decide (n = f))) = decide (n ≤ f) := by
      rw [Bool.true_and, ← Bool.decide_or, decide_eq_decide, le_iff_lt_or_eq]
    refine ⟨?_, ?_, fun d => ⟨?_, ?_⟩⟩
    · exact (funext hlt : (fun n => _) = _) ▸ hcut
    · exact (funext hle : (fun n => _) = _) ▸ hthru
    · exact deliverX_delivers (h.exec_vredMaskFirst d x m)
    · exact deliverX_delivers (h.exec_vredMaskCount d x m)
  · refine writesGroup_congr (fun n => ?_) (elementwise_writes (h.exec_vredIota d m) hbad hquiet0 rfl (.inl ⟨rfl, hd⟩))
    rw [codeBits_uintOf vt.sew_width]
    exact congrArg some (Nat.mod_mod _ _)

end Sys2Proof.Machine
end
section
/-! PROOFS. Elements of vector stores in memory: what a write of an element leaves (R138, R344, R362, R366, R380). -/
namespace Sys2Proof.Machine

/-! ## What a write does beside the bytes -/

theorem State.occupied_map (s : State) (f : SnapSlot → SnapSlot) :
    ({ s with slots := s.slots.map fun o => o.map f } : State).occupied = s.occupied.map f := by
  unfold State.occupied
  rw [Vector.toList_map, List.filterMap_map, List.map_filterMap]
  rfl

theorem State.markDue_usedBatts (s : State) (line : Nat) : (s.markDue line).usedBatts = s.usedBatts := by
  have hmap (x : State) : ({ x with slots := x.slots.map fun o => o.map fun k => if k.line = some line then { k with due := true } else k } : State).usedBatts =
      x.usedBatts := by
    unfold State.usedBatts
    rw [State.occupied_map, List.flatMap_map]
    refine congrArg (fun f => (x.occupied.flatMap f).eraseDups) (funext fun k => ?_)
    split <;> rfl
  unfold State.markDue
  dsimp only
  split <;> split
  · exact hmap _
  · rfl
  · exact hmap _
  · rfl

theorem State.markDue_flash (s : State) (line : Nat) : (s.markDue line).flash = s.flash := by
  unfold State.markDue
  dsimp only
  split <;> split <;> rfl

theorem State.markDue_live (s : State) (line : Nat) : (s.markDue line).live = s.live := by
  unfold State.markDue
  dsimp only
  split <;> split <;> rfl

/-- The part of a state that its places of bytes depend on, with the bytes. -/
def State.storage (s : State) : Memory × Nat × List Nat × BitVec 2 × (Nat → Byte) := (s.mem, s.flash.resv, s.usedBatts, s.live, s.readByte)

theorem State.storeOk_of_storage {s t : State} (h : t.storage = s.storage) (hs : s.StoreOk) : t.StoreOk := by
  obtain ⟨hmem, hresv, hused⟩ := hs
  simp only [State.storage, Prod.mk.injEq] at h
  obtain ⟨h1, h2, h3, -, -⟩ := h
  exact ⟨by unfold State.MemOk; rw [h1]; exact hmem, by rw [h2]; exact hresv, by rw [h3]; exact hused⟩

theorem State.touchMonitors_storage (s : State) (who : Option Nat) (line : Nat) : (s.touchMonitors who line).storage = s.storage := by
  unfold State.touchMonitors
  split <;> rfl

theorem State.markDue_storage (s : State) (line : Nat) : (s.markDue line).storage = s.storage := by
  have hread : (s.markDue line).readByte = s.readByte := by
    funext a
    rw [State.readByte, State.readByte, State.markDue_mem, State.markDue_keyOf]
  rw [State.storage, State.markDue_mem, State.markDue_flash, State.markDue_usedBatts, State.markDue_live, hread]
  rfl

theorem State.healWhole_storage (s : State) (g : BitVec 2) (covered : Nat → Bool) : (s.healWhole g covered).storage = s.storage := by
  unfold State.healWhole
  split <;> rfl

theorem State.lines_storage (who : Option Nat) (l : List Nat) (s : State) :
    (l.foldl (fun (s : State) line => (s.touchMonitors who line).markDue line) s).storage = s.storage :=
  foldl_keeps State.storage (fun s line => (State.markDue_storage _ line).trans (s.touchMonitors_storage who line)) l s

theorem State.wrote_storage (s : State) (who : Option Nat) (g : BitVec 2) (pa n : Nat) : (s.wrote who g pa n).storage = s.storage :=
  (State.lines_storage who _ _).trans (s.healWhole_storage g _)

/-! ## What stores leave -/

/-- A state without what the stores of a context may change. -/
def State.aside (s : State) : State :=
  { s with
    fronts := [], mem := [], bgen := [], marks := [], slots := State.reset.slots, uncor := [], cor := [], queues := State.reset.queues
    dvc := State.reset.dvc, requests := [], packets := [], portSeq := [], rseq := 0 }

/-- What stores of a context leave beside memory: elements that stall among its pending accesses, packets and requests of elements
of other devices, event bits of other agents' monitors, and words that are due to be read. -/
structure StoresLeave (s t : State) (k po : Nat) : Prop where
  aside : t.aside = s.aside
  fronts : ∀ b, b ≠ k → { t.front b with monEvent := (s.front b).monEvent } = s.front b
  front : { t.front k with acc := (s.front k).acc } = s.front k
  waiting : ∀ x ∈ (t.front k).acc, x ∈ (s.front k).acc ∨ (x.vector = true ∧ x.po = po)

theorem StoresLeave.refl (s : State) (k po : Nat) : StoresLeave s s k po := ⟨rfl, fun _ _ => rfl, rfl, fun _ h => .inl h⟩

theorem StoresLeave.trans {s t u : State} {k po : Nat} (h1 : StoresLeave s t k po) (h2 : StoresLeave t u k po) : StoresLeave s u k po where
  aside := h2.aside.trans h1.aside
  fronts := fun b hb => (congrArg (fun f : Front => { f with monEvent := (s.front b).monEvent }) (h2.fronts b hb)).trans (h1.fronts b hb)
  front := (congrArg (fun f : Front => { f with acc := (s.front k).acc }) h2.front).trans h1.front
  waiting := fun x hx => (h2.waiting x hx).elim (h1.waiting x) .inr

theorem StoresLeave.vecs {s t : State} {k po : Nat} (h : StoresLeave s t k po) : t.vecs = s.vecs := (congrArg State.vecs h.aside :)
theorem StoresLeave.cores {s t : State} {k po : Nat} (h : StoresLeave s t k po) : t.cores = s.cores := (congrArg State.cores h.aside :)
theorem StoresLeave.threads {s t : State} {k po : Nat} (h : StoresLeave s t k po) : t.threads = s.threads := (congrArg State.threads h.aside :)

/-- Joining an access changes the pending accesses alone. -/
theorem Front.addAccess_acc (f : Front) (x y : Access) : y ∈ (f.addAccess x).acc → y ∈ f.acc ∨ y = x := by
  intro h
  unfold Front.addAccess at h
  rcases List.mem_append.mp h with h | h
  · exact .inl ((List.takeWhile_sublist _).subset h)
  · rcases List.mem_cons.mp h with h | h
    · exact .inr h
    · exact .inl ((List.dropWhile_sublist _).subset h)

theorem storesLeave_addAccess (s : State) (k : Nat) {x : Access} (hx : x.vector = true) : StoresLeave s (s.setFront k ((s.front k).addAccess x)) k x.po where
  aside := rfl
  fronts := fun b hb => by rw [State.front_setFront, if_neg hb]
  front := by rw [State.front_setFront_self]; rfl
  waiting := fun y hy => by
    rw [State.front_setFront_self] at hy
    exact ((s.front k).addAccess_acc x y hy).imp_right fun h => by rw [h]; exact ⟨hx, rfl⟩

theorem storesLeave_send (s : State) (k po dst : Nat) (what : NgOut) (w : Waiter) : StoresLeave s (s.send dst what w) k po :=
  ⟨rfl, fun _ _ => rfl, rfl, fun _ h => .inl h⟩

/-- The event bits that a write of an agent sets are not its own. -/
theorem State.write_front_self {s t : State} {k : Nat} {g : BitVec 2} {pa : Nat} {bytes : List Byte}
    (h : s.write (some k) g pa bytes = some t) : t.front k = s.front k := by
  have hget (ls : List Nat) (d : Front) : ∀ l : Store Front, Store.get d (l.map (touched (some k) ls)) k = Store.get d l k := by
    intro l
    induction l with
    | nil => rfl
    | cons p l ih =>
      obtain ⟨j, f⟩ := p
      by_cases hb : k = j
      · simp [Store.get, touched, hb]
      · simpa [Store.get, touched, hb] using ih
  rw [State.front, State.write_fronts h, hget]
  rfl

theorem State.markDue_aside (s : State) (line : Nat) : (s.markDue line).aside = s.aside := by
  unfold State.markDue
  dsimp only
  split <;> split <;> rfl

theorem storesLeave_write {s t : State} {k po : Nat} {g : BitVec 2} {pa : Nat} {bytes : List Byte}
    (h : s.write (some k) g pa bytes = some t) : StoresLeave s t k po where
  aside := BesideMemory.write (p := State.aside) (fun _ _ _ _ _ _ _ _ _ => rfl) State.markDue_aside h
  fronts := fun b _ => State.write_sameFronts h b
  front := by rw [State.write_front_self h]
  waiting := fun x hx => by rw [State.write_front_self h] at hx; exact .inl hx

/-- The three ends of a store of an element (R344, R366). -/
theorem State.storeVec_cases (s : State) (k : Nat) (e : Entry) (cls : Cls) (va : W64) (pa : Nat) (bytes : List Byte) :
    (isDomain pa = true ∧ ∃ dst what w, s.storeVec k e cls va pa bytes = (s.send dst what w, true)) ∨
    (∃ kind, s.storeVec k e cls va pa bytes = (s.setFront k ((s.front k).addAccess ⟨kind, e.po, e.addr, va, pa, cls, 0, none, true⟩), false)) ∨
    (isDomain pa = false ∧ ∃ t, s.write (some k) (s.front k).curgen pa bytes = some t ∧ s.storeVec k e cls va pa bytes = (t, true)) := by
  unfold State.storeVec
  by_cases hd : isDomain pa = true
  · exact .inl ⟨hd, _, _, _, if_pos hd⟩
  · right
    dsimp only
    rw [if_neg hd]
    by_cases hover : ((s.front k).acc.any fun x => x.vector && overlap x.pa x.kind.size pa bytes.length) = true
    · exact .inl ⟨_, if_pos hover⟩
    · rw [if_neg hover]
      cases hw : s.write (some k) (s.front k).curgen pa bytes with
      | none => exact .inl ⟨_, rfl⟩
      | some t => exact .inr ⟨by simpa using hd, t, rfl, rfl⟩

theorem State.storeVec_leaves (s : State) (k : Nat) (e : Entry) (cls : Cls) (va : W64) (pa : Nat) (bytes : List Byte) :
    StoresLeave s (s.storeVec k e cls va pa bytes).1 k e.po := by
  rcases s.storeVec_cases k e cls va pa bytes with ⟨-, dst, what, w, h⟩ | ⟨kind, h⟩ | ⟨-, t, ht, h⟩ <;> rw [h]
  · exact storesLeave_send s k e.po dst what w
  · exact storesLeave_addAccess s k rfl
  · exact storesLeave_write ht

/-! ## The bytes beside a store -/

/-- Bytes of memory stay as they were, and the places of bytes stay in order. -/
structure BytesStay (s t : State) (stays : Nat → Prop) : Prop where
  ok : t.StoreOk
  bytes : ∀ x, x < 2 ^ 44 ∨ spBase ≤ x → stays x → t.readByte x = s.readByte x

theorem bytesStay_of_storage {s t : State} {p : Nat → Prop} (h : t.storage = s.storage) (hs : s.StoreOk) : BytesStay s t p :=
  ⟨State.storeOk_of_storage h hs, fun x _ _ => congrArg (fun y : Memory × Nat × List Nat × BitVec 2 × (Nat → Byte) => y.2.2.2.2 x) h⟩

theorem BytesStay.trans {s t u : State} {p : Nat → Prop} (h1 : BytesStay s t p) (h2 : BytesStay t u p) : BytesStay s u p :=
  ⟨h2.ok, fun x hx hp => (h2.bytes x hx hp).trans (h1.bytes x hx hp)⟩

theorem State.Stored.bytesStay {s t : State} {g : BitVec 2} {pa n : Nat} (h : s.Stored t g pa n) : BytesStay s t fun x => x < pa ∨ pa + n ≤ x :=
  ⟨h.ok, fun x hx hout => by rw [t.readByte_live hx, s.readByte_live hx, h.frame x hx hout]⟩

theorem BytesStay.mono {s t : State} {p q : Nat → Prop} (h : BytesStay s t p) (hqp : ∀ x, q x → p x) : BytesStay s t q :=
  ⟨h.ok, fun x hx hq => h.bytes x hx (hqp x hq)⟩

theorem State.write_bytesStay {s t : State} {who : Option Nat} {g : BitVec 2} {pa : Nat} {bytes : List Byte} (hs : s.StoreOk)
    (hpa : pa + bytes.length ≤ 2 ^ 44 ∨ spBase ≤ pa) (h : s.write who g pa bytes = some t) :
    BytesStay s t fun x => x < pa ∨ pa + bytes.length ≤ x := by
  obtain ⟨u, hu, rfl⟩ := Option.map_eq_some_iff.mp h
  obtain ⟨hst, -⟩ := State.storeBytes_stored hs hpa hu
  exact hst.bytesStay.trans (bytesStay_of_storage (u.wrote_storage who g pa _) hst.ok)

theorem State.storeVec_bytesStay {s : State} (hs : s.StoreOk) (k : Nat) (e : Entry) (cls : Cls) (va : W64) {pa : Nat} {bytes : List Byte}
    (hpa : pa + bytes.length ≤ 2 ^ 44 ∨ isDomain pa = true ∨ spBase ≤ pa) :
    BytesStay s (s.storeVec k e cls va pa bytes).1 fun x => x < pa ∨ pa + bytes.length ≤ x := by
  rcases s.storeVec_cases k e cls va pa bytes with ⟨-, dst, what, w, h⟩ | ⟨kind, h⟩ | ⟨hd, t, ht, h⟩ <;> rw [h]
  · exact bytesStay_of_storage rfl hs
  · exact bytesStay_of_storage rfl hs
  · exact State.write_bytesStay hs (hpa.imp_right fun h => h.resolve_left (by simp [hd])) ht

end Sys2Proof.Machine
end
section
/-! PROOFS. The stores of a move: their elements in order, the generations that they order, and the account (R183 to R185, R272, R287). -/
namespace Sys2Proof.Machine

/-! ## The stores of elements in order -/

/-- Stores elements in order; with the state, those that have been written or have left. -/
def storeElems (k : Nat) (e : Entry) (c : Cls) (ea : Nat → Option W64) (pa : Nat → Nat) (bytes : Nat → List Byte) (l : List Nat)
    (x : State × List Nat) : State × List Nat :=
  l.foldl (fun (x : State × List Nat) n =>
    let y := x.1.storeVec k e c ((ea n).getD 0) (pa n) (bytes n)
    (y.1, if y.2 then x.2 ++ [n] else x.2)) x

section
variable (k : Nat) (e : Entry) (c : Cls) (ea : Nat → Option W64) (pa : Nat → Nat) (bytes : Nat → List Byte)

theorem storeElems_leaves : ∀ (l : List Nat) (x : State × List Nat), StoresLeave x.1 (storeElems k e c ea pa bytes l x).1 k e.po
  | [], x => .refl x.1 k e.po
  | n :: l, x =>
    (x.1.storeVec_leaves k e c ((ea n).getD 0) (pa n) (bytes n)).trans (storeElems_leaves l
      ((x.1.storeVec k e c ((ea n).getD 0) (pa n) (bytes n)).1, if (x.1.storeVec k e c ((ea n).getD 0) (pa n) (bytes n)).2 then x.2 ++ [n] else x.2))

theorem storeElems_bytesStay {z : Nat} (hlen : ∀ n, (bytes n).length = z) : ∀ (l : List Nat) (x : State × List Nat), x.1.StoreOk →
    (∀ n ∈ l, pa n + z ≤ 2 ^ 44 ∨ isDomain (pa n) = true ∨ spBase ≤ pa n) →
    BytesStay x.1 (storeElems k e c ea pa bytes l x).1 fun b => ∀ n ∈ l, b < pa n ∨ pa n + z ≤ b
  | [], x, hx, _ => ⟨hx, fun _ _ _ => rfl⟩
  | n :: l, x, hx, hpa => by
    have hone := State.storeVec_bytesStay hx k e c ((ea n).getD 0) (pa := pa n) (bytes := bytes n)
      (by rw [hlen]; exact hpa n List.mem_cons_self)
    rw [hlen] at hone
    have hrest := storeElems_bytesStay hlen l
      ((x.1.storeVec k e c ((ea n).getD 0) (pa n) (bytes n)).1, if (x.1.storeVec k e c ((ea n).getD 0) (pa n) (bytes n)).2 then x.2 ++ [n] else x.2)
      hone.ok fun j hj => hpa j (List.mem_cons_of_mem n hj)
    exact (hone.mono fun b hb => hb n List.mem_cons_self).trans (hrest.mono fun b hb j hj => hb j (List.mem_cons_of_mem n hj))

/-- The probe of an element (R184). -/
def State.probeOf (s : State) (k z : Nat) (f : Form) (n : Nat) : Probe :=
  match f.ea n with
  | none => ⟨n, 0, .zero⟩
  | some va => ⟨n, va, s.findElem k f.far .store va z⟩

/-- Does an element that stands at its address on this device cover a byte? -/
def elemCovers (pa : Nat → Nat) (z b n : Nat) : Bool := !isDomain (pa n) && decide (pa n ≤ b) && decide (b < pa n + z)

/-- What probes store is what their elements store, where each has been found. -/
theorem storeEach_elems {s : State} {z : Nat} {f : Form} : ∀ (act : List Nat),
    (∀ n va, n ∈ act → f.ea n = some va → s.findElem k f.far .store va z = .at_ (pa n)) → ∀ (x : State × List Probe) (y : State × List Nat),
    x.1 = y.1 → (∀ b, (x.2.any fun p => p.covers z b) = y.2.any (elemCovers pa z b)) →
    let t := (act.map (s.probeOf k z f)).foldl (fun (st : State × List Probe) (p : Probe) => match p.found with
      | .at_ pa =>
        let t := st.1.storeVec k e c p.va pa (bytes p.i)
        (t.1, if t.2 then st.2 ++ [p] else st.2)
      | _ => (st.1, st.2 ++ [p])) x
    let u := storeElems k e c f.ea pa bytes (act.filter fun n => (f.ea n).isSome) y
    t.1 = u.1 ∧ ∀ b, (t.2.any fun p => p.covers z b) = u.2.any (elemCovers pa z b)
  | [], _, x, y, h1, h2 => ⟨h1, h2⟩
  | n :: act, hat, x, y, h1, h2 => by
    have hrest := storeEach_elems (s := s) (z := z) (f := f) act (fun j va hj => hat j va (List.mem_cons_of_mem n hj))
    cases hea : f.ea n with
    | none =>
      have hprobe : s.probeOf k z f n = ⟨n, 0, .zero⟩ := by unfold State.probeOf; rw [hea]
      rw [List.map_cons, List.foldl_cons, hprobe, List.filter_cons_of_neg (by simp [hea])]
      refine hrest _ y h1 fun b => ?_
      rw [List.any_append, h2]
      simp [Probe.covers]
    | some va =>
      have hprobe : s.probeOf k z f n = ⟨n, va, .at_ (pa n)⟩ := by
        unfold State.probeOf
        rw [hea]
        dsimp only
        rw [hat n va List.mem_cons_self hea]
      rw [List.map_cons, List.foldl_cons, hprobe, List.filter_cons_of_pos (by simp [hea]), storeElems, List.foldl_cons]
      dsimp only
      rw [h1, hea, Option.getD_some]
      refine hrest _ _ rfl fun b => ?_
      by_cases hdone : (y.1.storeVec k e c va (pa n) (bytes n)).2 = true
      · rw [if_pos hdone, if_pos hdone, List.any_append, List.any_append, h2]
        rfl
      · rw [if_neg hdone, if_neg hdone]
        exact h2 b

end

/-- The elements of a move written in order, with the errors of the lines that they cover whole gone. -/
def State.writtenElems (s : State) (k : Nat) (e : Entry) (c : Cls) (ea : Nat → Option W64) (pa : Nat → Nat) (bytes : Nat → List Byte) (z : Nat)
    (l : List Nat) : State :=
  let x := storeElems k e c ea pa bytes l (s, [])
  x.1.healWhole (s.front k).curgen fun b => x.2.any (elemCovers pa z b)

theorem State.healWhole_leaves (s : State) (g : BitVec 2) (covered : Nat → Bool) (k po : Nat) : StoresLeave s (s.healWhole g covered) k po := by
  unfold State.healWhole
  split
  · exact .refl s k po
  · exact ⟨rfl, fun _ _ => rfl, rfl, fun _ h => .inl h⟩

theorem State.writtenElems_leaves (s : State) (k : Nat) (e : Entry) (c : Cls) (ea : Nat → Option W64) (pa : Nat → Nat) (bytes : Nat → List Byte)
    (z : Nat) (l : List Nat) : StoresLeave s (s.writtenElems k e c ea pa bytes z l) k e.po :=
  (storeElems_leaves k e c ea pa bytes l (s, [])).trans (State.healWhole_leaves _ _ _ k e.po)

theorem State.writtenElems_bytesStay {s : State} (hs : s.StoreOk) (k : Nat) (e : Entry) (c : Cls) (ea : Nat → Option W64) (pa : Nat → Nat)
    {bytes : Nat → List Byte} {z : Nat} (hlen : ∀ n, (bytes n).length = z) {l : List Nat}
    (hpa : ∀ n ∈ l, pa n + z ≤ 2 ^ 44 ∨ isDomain (pa n) = true ∨ spBase ≤ pa n) :
    BytesStay s (s.writtenElems k e c ea pa bytes z l) fun b => ∀ n ∈ l, b < pa n ∨ pa n + z ≤ b := by
  have h := storeElems_bytesStay k e c ea pa bytes hlen l (s, []) hs hpa
  exact h.trans (bytesStay_of_storage (State.healWhole_storage _ _ _) h.ok)

/-! ## The account of a move -/

/-- The account of what a step touches and the counters of held-back cycles alone have changed. -/
structure Accounted (s t : State) : Prop where
  rest : { t with cores := s.cores, touches := s.touches } = s
  cores : ∀ g, { t.core g with evc := (s.core g).evc } = s.core g

theorem Accounted.refl (s : State) : Accounted s s := ⟨rfl, fun _ => rfl⟩

theorem Accounted.trans {s t u : State} (h1 : Accounted s t) (h2 : Accounted t u) : Accounted s u :=
  ⟨(congrArg (fun x : State => { x with cores := s.cores, touches := s.touches }) h2.rest).trans h1.rest,
    fun g => (congrArg (fun x : Core => { x with evc := (s.core g).evc }) (h2.cores g)).trans (h1.cores g)⟩

theorem accounted_foldl {β : Type} {f : State → β → State} (hf : ∀ s x, Accounted s (f s x)) : ∀ (l : List β) (s : State), Accounted s (l.foldl f s)
  | [], s => .refl s
  | x :: l, s => (hf s x).trans (accounted_foldl hf l (f s x))

theorem State.note_accounted (s : State) (x : Touch) : Accounted s (s.note x) := ⟨rfl, fun _ => rfl⟩

theorem State.countCore_accounted (s : State) (g code n : Nat) : Accounted s (s.countCore g code n) := by
  unfold State.countCore
  dsimp only
  split
  · refine ⟨rfl, fun h => ?_⟩
    rw [State.core_setCore]
    split
    · next hg => rw [hg]
    · rfl
  · exact .refl s

theorem State.countConflicts_accounted (s : State) (sp : List Nat) : Accounted s (s.countConflicts sp) := by
  refine accounted_foldl (fun s c => ?_) _ s
  dsimp only
  split
  · exact .refl s
  · exact s.countCore_accounted c 0x10 _

theorem State.noteMove_accounted (s : State) (k hi : Nat) (r : VRun) (f : Form) (write : Bool) (h : BitVec 2) (l : List Probe) :
    Accounted s (s.noteMove k hi r f write h l) :=
  accounted_foldl (fun s _ => (s.countConflicts_accounted _).trans (accounted_foldl State.note_accounted _ _)) _ s

/-! ## Generations that a store orders -/

/-- The generations of threads and of a context's streams alone have changed (R287). -/
structure Forked (s t : State) (k : Nat) : Prop where
  rest : { t with threads := s.threads, vecs := s.vecs } = s
  threads : (t.threads.map fun x => { x with gen := 0 }) = s.threads.map fun x => { x with gen := 0 }
  others : ∀ j, j ≠ k → t.vec j = s.vec j
  vec : { t.vec k with s := (s.vec k).s } = s.vec k
  streams : ((t.vec k).s.map fun o => o.map fun x => { x with gen := 0 }) = (s.vec k).s.map fun o => o.map fun x => { x with gen := 0 }

theorem State.forkOn_forked (s : State) (k : Nat) (forks : Cls → Nat → Bool) : Forked s (s.forkOn k forks) k := by
  have hthreads {f : Thread → Thread} (hf : ∀ t, { f t with gen := 0 } = { t with gen := 0 }) (l : List Thread) :
      ((l.map f).map fun x => { x with gen := 0 }) = l.map fun x => { x with gen := 0 } := by
    rw [List.map_map]
    exact List.map_congr_left fun t _ => hf t
  have hstreams {f : Stream → Stream} (hf : ∀ t, { f t with gen := 0 } = { t with gen := 0 }) (l : Vector (Option Stream) 8) :
      ((l.map fun o => o.map f).map fun o => o.map fun x => { x with gen := 0 }) = l.map fun o => o.map fun x => { x with gen := 0 } := by
    rw [Vector.map_map]
    refine congrArg (fun f => Vector.map f l) (funext fun o => ?_)
    cases o with
    | none => rfl
    | some t => exact congrArg some (hf t)
  unfold State.forkOn
  dsimp only
  split
  · exact ⟨rfl, rfl, fun _ _ => rfl, rfl, rfl⟩
  · split
    · exact ⟨rfl, hthreads (fun t => by split <;> rfl) s.threads, fun _ _ => rfl, rfl, rfl⟩
    · split
      · exact ⟨rfl, hthreads (fun t => by split <;> rfl) s.threads, fun _ _ => rfl, rfl, rfl⟩
      · refine ⟨rfl, hthreads (fun t => by split <;> rfl) s.threads, fun j hj => ?_, ?_, ?_⟩
        · rw [State.vec_setVec, if_neg hj]
          rfl
        · rw [State.vec_setVec_self]
          rfl
        · rw [State.vec_setVec_self]
          exact hstreams (fun t => by split <;> rfl) _

end Sys2Proof.Machine
end
section
/-! PROOFS. The end of a move of a store (R183 to R185, R254, R257). -/
namespace Sys2Proof.Machine

theorem bytesLE_length : ∀ (n v : Nat), (bytesLE n v).length = n
  | 0, _ => rfl
  | n + 1, v => congrArg (· + 1) (bytesLE_length n (v / 256))

/-! ## Moves without results -/

section
variable {r : VRun} {m : MReg} {hi : Nat}

theorem allFlags_zero (r : VRun) (m : MReg) (hi : Nat) : r.allFlags m hi (fun _ => 0) = 0 := by
  unfold VRun.allFlags
  generalize r.actives m hi = l
  induction l with
  | nil => rfl
  | cons i l ih => rw [List.foldl_cons, show (0 : Flags) ||| 0 = 0 from rfl, ih]

/-- Elements without flags leave FLAGS and the masks alone. -/
theorem VRun.route_zero (r : VRun) (m : MReg) (hi : Nat) (v : Vec) : r.route m hi (fun _ => 0) v = v := by
  have hrouted : Flags.routed r.vt 0 = false := by simp [Flags.routed]
  unfold VRun.route
  rw [allFlags_zero]
  dsimp only
  refine (foldl_keeps (fun v : Vec => v) (fun v i => by rw [hrouted]; rfl) (r.actives m hi) _).trans ?_
  have hflags : (if v.ftrap = 0 then v.flags ||| 0 else v.flags) = v.flags := by
    split
    · exact BitVec.or_zero
    · rfl
  exact congrArg (fun f : Flags => { v with flags := f }) hflags

variable {s : State} {k : Nat} {prep : State → State} (hstart : r.start < r.vl) (hfpx : r.e.fpx = none)
include hstart hfpx

/-- A move that only accesses memory, to its end or to its new index. -/
theorem vecFinish_plain : vecFinish s k r m none none false (fun _ _ v => v) (fun _ => 0) prep =
    .next ((prep s).setVec k (if r.ends then ((prep s).vec k).complete r.e
      else ((prep s).vec k).setEntry { r.e with pix := BitVec.ofNat 13 r.hi, started := true })) := by
  have hentry : ({ r.e with flags := r.e.flags ||| 0, fpx := none } : Entry) = r.e := by
    rw [show r.e.flags ||| (0 : Flags) = r.e.flags from BitVec.or_zero, ← hfpx]
  have hnone : (r.actives m r.hi).find? (fun i => Flags.traps r.v.ftrap 0) = none := List.find?_eq_none.mpr fun i _ => by simp [Flags.traps]
  have htwice : (((prep s).vec k).setEntry r.e).complete r.e = ((prep s).vec k).complete r.e :=
    congrArg (fun x : Vec => { x with vstart := 0 }.settle) (Vec.setEntry_setEntry _ (x := r.e) (y := { r.e with done := true, started := true }) rfl)
  unfold vecFinish
  rw [if_neg (by omega)]
  simp only [Option.map_none, Option.getD_none, Option.isNone_none, Option.isSome_none, Bool.true_and, Bool.or_false, hfpx, allFlags_zero, hnone,
    VRun.moved, VRun.route_zero]
  by_cases hends : r.ends = true
  · rw [if_pos hends, if_pos hends]
    exact congrArg (fun x => Host.Outcome.next ((prep s).setVec k x)) ((congrArg (fun e => (((prep s).vec k).setEntry e).complete e) hentry).trans htwice)
  · rw [if_neg hends, if_neg hends]
    exact congrArg (fun f : Flags => Host.Outcome.next ((prep s).setVec k (((prep s).vec k).setEntry
      { r.e with flags := f, fpx := none, pix := BitVec.ofNat 13 r.hi, started := true }))) BitVec.or_zero

/-- A move that stops where an access fails (R185). -/
theorem vecFinish_stops {x : Stop} (hmay : s.mayTrap k r.e = true) (hmay' : (prep s).mayTrap k r.e = true) :
    vecFinish s k r m (some x) none false (fun _ _ v => v) (fun _ => 0) prep =
      .next (((x.look.elim (prep s) (prep s).note).setVec k (((prep s).vec k).setEntry r.e)).vectorTrap k r.e x.i x.trap) := by
  have hentry : ({ r.e with flags := r.e.flags ||| 0, fpx := none } : Entry) = r.e := by
    rw [show r.e.flags ||| (0 : Flags) = r.e.flags from BitVec.or_zero, ← hfpx]
  have hnone : (r.actives m x.i).find? (fun i => Flags.traps r.v.ftrap 0) = none := List.find?_eq_none.mpr fun i _ => by simp [Flags.traps]
  unfold vecFinish
  rw [if_neg (by omega)]
  simp only [Option.map_some, Option.getD_some, Option.isNone_some, Option.isSome_some, Bool.false_and, Bool.or_true, hfpx, allFlags_zero, hnone,
    VRun.moved, VRun.route_zero, if_true, hmay]
  change (if (!true) = true then _ else if (prep s).mayTrap k r.e = true then _ else _) = _
  rw [if_neg (by simp), if_pos hmay']
  exact congrArg (fun e => Host.Outcome.next (((x.look.elim (prep s) (prep s).note).setVec k (((prep s).vec k).setEntry e)).vectorTrap k e x.i x.trap)) hentry

end

/-! ## The account and the generations of a move's stores -/

/-- A state in which a move's stores have performed, with the generations that they order and the account. -/
structure StoresDone (t u : State) (k : Nat) : Prop where
  rest : { u with vecs := t.vecs, cores := t.cores, threads := t.threads, touches := t.touches } = t
  threads : (u.threads.map fun x => { x with gen := 0 }) = t.threads.map fun x => { x with gen := 0 }
  others : ∀ j, j ≠ k → u.vec j = t.vec j
  vec : { u.vec k with s := (t.vec k).s } = t.vec k
  streams : ((u.vec k).s.map fun o => o.map fun x => { x with gen := 0 }) = (t.vec k).s.map fun o => o.map fun x => { x with gen := 0 }
  cores : ∀ g, { u.core g with evc := (t.core g).evc } = t.core g

theorem storesDone_of {t u w : State} {k : Nat} (h1 : Forked t u k) (h2 : Accounted u w) : StoresDone t w k where
  rest := (congrArg (fun x : State => { x with threads := t.threads, vecs := t.vecs, cores := t.cores, touches := t.touches }) h2.rest).trans
    (congrArg (fun x : State => { x with cores := t.cores, touches := t.touches }) h1.rest)
  threads := (congrArg (fun x : State => x.threads.map fun x => { x with gen := 0 }) h2.rest).trans h1.threads
  others := fun j hj => (congrArg (fun x : State => x.vec j) h2.rest).trans (h1.others j hj)
  vec := (congrArg (fun x : State => { x.vec k with s := (t.vec k).s }) h2.rest).trans h1.vec
  streams := (congrArg (fun x : State => (x.vec k).s.map fun o => o.map fun x => { x with gen := 0 }) h2.rest).trans h1.streams
  cores := fun g => by
    have hcore : u.core g = t.core g := (congrArg (fun x : State => x.core g) h1.rest :)
    exact hcore ▸ h2.cores g

end Sys2Proof.Machine
end
section
namespace Sys2Proof.Machine

/-! ## Probes of a store (R184) -/

section
variable {s : State} {k z : Nat} {f : Form}

theorem State.probeOf_index (s : State) (k z : Nat) (f : Form) (n : Nat) : (s.probeOf k z f n).i = n := by
  unfold State.probeOf
  split <;> rfl

theorem State.probeOf_some {n : Nat} {va : W64} (h : f.ea n = some va) : s.probeOf k z f n = ⟨n, va, s.findElem k f.far .store va z⟩ := by
  unfold State.probeOf
  rw [h]

theorem State.probeOf_none {n : Nat} (h : f.ea n = none) : s.probeOf k z f n = ⟨n, 0, .zero⟩ := by
  unfold State.probeOf
  rw [h]

/-- The elements that stand where they are found do not fail. -/
theorem firstFault_none {pa : Nat → Nat} : ∀ (act : List Nat),
    (∀ n va, n ∈ act → f.ea n = some va → s.findElem k f.far .store va z = .at_ (pa n)) → firstFault (act.map (s.probeOf k z f)) = none
  | [], _ => rfl
  | n :: act, hat => by
    have ih := firstFault_none act fun j va hj => hat j va (List.mem_cons_of_mem n hj)
    unfold firstFault at ih ⊢
    rw [List.map_cons, List.findSome?_cons]
    cases hea : f.ea n with
    | none => rw [State.probeOf_none hea]; exact ih
    | some va => rw [State.probeOf_some hea, hat n va List.mem_cons_self hea]; exact ih

/-- The first element that fails, where those before it stand where they are found (R185). -/
theorem firstFault_at {pa : Nat → Nat} {n x : Nat} {va : W64} (hea : f.ea n = some va) (hx : s.findElem k f.far .store va z = .fault x) :
    ∀ (act : List Nat), act.Pairwise (· < ·) → n ∈ act →
    (∀ j va, j ∈ act → j < n → f.ea j = some va → s.findElem k f.far .store va z = .at_ (pa j)) →
    firstFault (act.map (s.probeOf k z f)) = some (⟨n, va, .fault x⟩, x)
  | j :: act, hsorted, hn, hat => by
    obtain ⟨hlt, hsorted⟩ := List.pairwise_cons.mp hsorted
    unfold firstFault
    rw [List.map_cons, List.findSome?_cons]
    by_cases hj : j = n
    · subst hj
      rw [State.probeOf_some hea, hx]
    · have hmem : n ∈ act := (List.mem_cons.mp hn).resolve_left (Ne.symm hj)
      have ih := firstFault_at hea hx act hsorted hmem fun i va hi => hat i va (List.mem_cons_of_mem j hi)
      unfold firstFault at ih
      cases hej : f.ea j with
      | none => rw [State.probeOf_none hej]; exact ih
      | some vj => rw [State.probeOf_some hej, hat j vj List.mem_cons_self (hlt n hmem) hej]; exact ih

theorem filter_probes (act : List Nat) (n : Nat) :
    (act.map (s.probeOf k z f)).filter (fun q => decide (q.i < n)) = (act.filter fun j => decide (j < n)).map (s.probeOf k z f) := by
  rw [List.filter_map]
  simp only [Function.comp_def, State.probeOf_index]

end

/-! ## The frame of a store -/

/-- A frame whose record has gathered something (R394). -/
def VRun.tallied (r : VRun) (y : Tally) : VRun := { r with e := { r.e with tally := y } }

theorem VRun.gather_tallied (r : VRun) (y : Tally) (s : State) (k hi : Nat) (f : Form) (l : List Probe) :
    ∃ y', (r.tallied y).gather s k hi f l = r.tallied y' := ⟨_, rfl⟩

theorem filter_range_of_lt {p : Nat → Bool} {a b : Nat} (hab : b ≤ a) (hp : ∀ i, p i = true → i < b) :
    (List.range a).filter p = (List.range b).filter p := by
  obtain ⟨c, rfl⟩ := Nat.exists_eq_add_of_le hab
  rw [List.range_add, List.filter_append]
  have hnil : ((List.range c).map (b + ·)).filter p = [] := by
    rw [List.filter_eq_nil_iff]
    intro i hi hpi
    obtain ⟨j, -, rfl⟩ := List.mem_map.mp hi
    have := hp _ hpi
    omega
  rw [hnil, List.append_nil]

/-- The active elements of a move, ascending. -/
theorem actives_eq (v : Vec) (e : Entry) (whole : Bool) (hi : Nat) (m : MReg) :
    (VRun.of v e whole hi).actives m (VRun.of v e whole hi).hi = (Kinds.of v e whole hi m).actives := by
  have hle : (VRun.of v e whole hi).hi ≤ (VRun.of v e whole hi).vl := by
    unfold VRun.of
    cases whole
    · exact min_le_right _ _
    · exact le_rfl
  refine Eq.trans ?_ (filter_range_of_lt hle fun i h => ?_).symm
  · refine List.filter_congr fun i hi' => ?_
    have h := mem_actives_of v e whole hi m i
    unfold VRun.actives at h
    rw [List.mem_filter] at h
    rw [Bool.eq_iff_iff, ← h]
    exact ⟨fun ha => ⟨hi', ha⟩, fun ha => ha.2⟩
  · simp only [Kinds.active, Bool.and_eq_true, decide_eq_true_eq] at h
    exact h.1.2

/-- The bytes of an element's code (R37). -/
def storeBytesOf (v : Vec) (w : Nat) (d : VReg) (n : Nat) : List Byte := bytesLE (w / 8) (v.elem v.lanes w d n % 2 ^ codeBits (v.tagOf d) w)

section
variable {s : State} {k hi : Nat} {e : Entry} {d : VReg} {c : Cls} {h : BitVec 2} {m : MReg} {pa : Nat → Nat} {y : Tally} {f : Form}

/-- What the record has gathered decides nothing about a store. -/
theorem State.writtenElems_tally (s : State) (k : Nat) (e : Entry) (y : Tally) (c : Cls) (ea : Nat → Option W64) (pa : Nat → Nat)
    (bytes : Nat → List Byte) (z : Nat) (l : List Nat) :
    s.writtenElems k { e with tally := y } c ea pa bytes z l = s.writtenElems k e c ea pa bytes z l := rfl

/-- The elements that probes of a move name, written in order. -/
theorem storeProbes_written (r : VRun) (act : List Nat)
    (hat : ∀ n va, n ∈ act → f.ea n = some va → s.findElem k f.far .store va (r.vt.sew / 8) = .at_ (pa n)) :
    let x := s.storeProbes k r d c (act.map (s.probeOf k (r.vt.sew / 8) f))
    (x.1.healWhole (s.front k).curgen fun a => x.2.any fun p => p.covers (r.vt.sew / 8) a) =
      s.writtenElems k r.e c f.ea pa (fun i => bytesLE (r.vt.sew / 8) (r.elem r.vt.sew d i % 2 ^ codeBits (r.v.tagOf d) r.vt.sew)) (r.vt.sew / 8)
        (act.filter fun n => (f.ea n).isSome) := by
  obtain ⟨hstate, hcovers⟩ := storeEach_elems k r.e c pa
    (fun i => bytesLE (r.vt.sew / 8) (r.elem r.vt.sew d i % 2 ^ codeBits (r.v.tagOf d) r.vt.sew)) act hat (s, []) (s, []) rfl fun _ => rfl
  exact congrArg₂ (fun a b => State.healWhole a (s.front k).curgen b) hstate (funext hcovers)

/-- The state after the stores of some elements of a move. -/
theorem storeMove_done (r : VRun) (act : List Nat)
    (hat : ∀ n va, n ∈ act → f.ea n = some va → s.findElem k f.far .store va (r.vt.sew / 8) = .at_ (pa n)) (top : Nat) :
    let t := s.writtenElems k r.e c f.ea pa (fun i => bytesLE (r.vt.sew / 8) (r.elem r.vt.sew d i % 2 ^ codeBits (r.v.tagOf d) r.vt.sew))
      (r.vt.sew / 8) (act.filter fun n => (f.ea n).isSome)
    StoresDone t (s.storeMove k top r d c f h (act.map (s.probeOf k (r.vt.sew / 8) f))) k := by
  intro t
  unfold State.storeMove
  dsimp only
  rw [storeProbes_written r act hat]
  exact storesDone_of (State.forkOn_forked _ _ _) (State.noteMove_accounted _ _ _ _ _ _ _ _)

end

end Sys2Proof.Machine
end
section
namespace Sys2Proof.Machine

/-! ## A store in a move -/

theorem StoresDone.front {t u : State} {k : Nat} (h : StoresDone t u k) (b : Nat) : u.front b = t.front b :=
  (congrArg (fun x : State => x.front b) h.rest :)

/-- A write that covers nothing heals nothing. -/
theorem State.healWhole_none (s : State) (g : BitVec 2) : (s.healWhole g fun _ => false) = s := by
  have hnone (u : Nat) : s.rewritten g (fun _ => false) u = false := by
    unfold State.rewritten
    split
    · rfl
    · exact List.any_eq_false.mpr fun _ _ => by simp [List.range_succ]
  unfold State.healWhole
  split
  · rfl
  · simp only [hnone, Bool.not_false, List.filter_true]

/-- What a move of a store leaves (R183, R257). -/
theorem vecStored_of {s t u : State} {k : Nat} {e : Entry} {y : Tally} {ends : Bool} {hi : Nat} {L : Vec} (h1 : StoresLeave s t k e.po)
    (h2 : StoresDone t u k)
    (hL : L = if ends then (u.vec k).complete { e with tally := y } else (u.vec k).setEntry { e with tally := y, pix := BitVec.ofNat 13 hi, started := true }) :
    VecStored s (u.setVec k L) k e ends hi := by
  have hvec (b : Nat) : t.vec b = s.vec b := congrArg (fun x => Store.get Vec.reset x b) h1.vecs
  have hcore (g : Nat) : t.core g = s.core g := congrArg (fun x => Store.get Core.reset x g) h1.cores
  have hsame : { u.vec k with s := (s.vec k).s } = s.vec k := by
    have h := h2.vec
    rw [hvec] at h
    exact h
  exact {
    vec := ⟨y, by
      rw [State.vec_setVec_self, hL, Vec.after]
      split
      · exact congrArg (fun x : Vec => x.complete { e with tally := y }) hsame
      · exact congrArg (fun x : Vec => x.setEntry { e with tally := y, pix := BitVec.ofNat 13 hi, started := true }) hsame⟩
    streams := by
      rw [State.vec_setVec_self, show L.s = (u.vec k).s by rw [hL]; split <;> rfl, ← hvec]
      exact h2.streams
    forked := h2.threads.trans (congrArg (fun l : List Thread => l.map fun x => { x with gen := 0 }) h1.threads)
    others := fun j hj => by rw [State.vec_setVec, if_neg hj, h2.others j hj, hvec]
    fronts := fun b hb => by
      rw [State.setVec_front, h2.front]
      exact h1.fronts b hb
    front := by
      rw [State.setVec_front, h2.front]
      exact h1.front
    waiting := fun x hx => by
      rw [State.setVec_front, h2.front] at hx
      exact h1.waiting x hx
    cores := fun g => by
      rw [← hcore]
      exact h2.cores g
    rest := by
      have ht := congrArg (fun x : State => { x with
        fronts := s.fronts, mem := s.mem, bgen := s.bgen, marks := s.marks, slots := s.slots, uncor := s.uncor, cor := s.cor
        queues := s.queues, dvc := s.dvc, requests := s.requests, packets := s.packets, portSeq := s.portSeq, rseq := s.rseq }) h1.aside
      have hu := congrArg (fun x : State => { x with
        fronts := s.fronts, vecs := s.vecs, cores := s.cores, threads := s.threads, mem := s.mem, bgen := s.bgen, marks := s.marks
        slots := s.slots, uncor := s.uncor, cor := s.cor, queues := s.queues, dvc := s.dvc, requests := s.requests, packets := s.packets
        portSeq := s.portSeq, rseq := s.rseq, arrived := s.arrived, touches := s.touches }) h2.rest
      have hs := congrArg (fun x : State => { x with
        vecs := s.vecs, cores := s.cores, threads := s.threads, arrived := s.arrived, touches := s.touches }) ht
      exact hu.trans hs }

section
variable {s : State} {k : Nat} {r : VRun} {d : VReg} {c : Cls} {h : BitVec 2} {m : MReg} {f : Form}
  (hbad : r.v.bad = []) (hheld : ∀ spots, s.vecHeld k r.e c spots = false)
include hbad hheld

/-- A store none of whose elements fails. -/
theorem vecStore_plain (hfault : firstFault ((r.actives m r.hi).map (s.probeOf k (r.vt.sew / 8) f)) = none) :
    let l := (r.actives m r.hi).map (s.probeOf k (r.vt.sew / 8) f)
    vecStore s k r m d c h none f = vecFinish s k (r.gather s k r.hi f l) m none none false (fun _ _ v => v) (fun _ => 0)
      fun s => s.storeMove k r.hi r d c f h l := by
  intro l
  have hl : s.probes k .store (r.vt.sew / 8) f (r.actives m r.hi) = l := rfl
  unfold vecStore
  dsimp only
  rw [hl, hfault, r.uecc_none m hbad]
  exact if_neg (by rw [hheld]; exact Bool.false_ne_true)

/-- A store that an element's failing access stops (R185). -/
theorem vecStore_fault {p : Probe} {x : Nat} (hfault : firstFault ((r.actives m r.hi).map (s.probeOf k (r.vt.sew / 8) f)) = some (p, x)) :
    let l := ((r.actives m r.hi).filter fun j => decide (j < p.i)).map (s.probeOf k (r.vt.sew / 8) f)
    vecStore s k r m d c h none f = vecFinish s k (r.gather s k p.i f l) m
      (some (s.memTrap k r f.far true r.vt.sew d p.i p.va (r.vt.sew / 8) x)) none false (fun _ _ v => v) (fun _ => 0)
      fun s => s.storeMove k p.i r d c f h l := by
  intro l
  have hl : s.probes k .store (r.vt.sew / 8) f (r.actives m r.hi) = (r.actives m r.hi).map (s.probeOf k (r.vt.sew / 8) f) := rfl
  unfold vecStore
  dsimp only
  rw [hl, hfault, r.uecc_none m hbad]
  refine (if_neg (by rw [hheld]; exact Bool.false_ne_true)).trans ?_
  change vecFinish s k (r.gather s k p.i f (List.filter (fun q => decide (q.i < p.i)) _)) m _ none false _ _
    (fun s => s.storeMove k p.i r d c f h (List.filter (fun q => decide (q.i < p.i)) _)) = _
  rw [filter_probes]
  rfl

end

section
variable {s : State} {k hi : Nat} {e : Entry} {d : VReg} {c : Cls} {h : BitVec 2} {m : MReg} {pa : Nat → Nat} {y : Tally} {f : Form} {i : Instr}
  (hexec : exec i s = vecStore s k ((VRun.of (s.vec k) e false hi).tallied y) m d c h none f) (hfpx : e.fpx = none) (hbad : (s.vec k).bad = [])
  (hheld : ∀ spots, s.vecHeld k e c spots = false)
include hexec hfpx hbad hheld

/-- A store whose elements all stand at their addresses (R183, R184, R366). -/
theorem vecStore_completes
    (hat : ∀ n va, n ∈ (Kinds.of (s.vec k) e false hi m).actives → f.ea n = some va →
      s.findElem k f.far .store va (e.vtype.sew / 8) = .at_ (pa n)) :
    let q := Kinds.of (s.vec k) e false hi m
    let t := s.writtenElems k e c f.ea pa (storeBytesOf (s.vec k) e.vtype.sew d) (e.vtype.sew / 8) (q.actives.filter fun n => (f.ea n).isSome)
    ∃ u, exec i s = .next u ∧ VecStored s u k e q.ends q.hi ∧
      { u with vecs := t.vecs, cores := t.cores, threads := t.threads, touches := t.touches } = t := by
  intro q t
  let r := (VRun.of (s.vec k) e false hi).tallied y
  have hact : r.actives m r.hi = q.actives := actives_eq (s.vec k) e false hi m
  have hfault : firstFault ((r.actives m r.hi).map (s.probeOf k (r.vt.sew / 8) f)) = none := firstFault_none (pa := pa) _ (by rw [hact]; exact hat)
  have hplain := hexec.trans (vecStore_plain (r := r) (s := s) (k := k) (d := d) (c := c) (h := h) (m := m) (f := f) hbad hheld hfault)
  rw [hact] at hplain
  obtain ⟨y', hy'⟩ := VRun.gather_tallied (VRun.of (s.vec k) e false hi) y s k r.hi f (q.actives.map (s.probeOf k (r.vt.sew / 8) f))
  have hleaves := s.writtenElems_leaves k e c f.ea pa (storeBytesOf (s.vec k) e.vtype.sew d) (e.vtype.sew / 8) (q.actives.filter fun n => (f.ea n).isSome)
  by_cases hstart : q.start < q.vl
  · have hends : r.ends = q.ends := by
      unfold Kinds.ends
      rw [decide_eq_false (by omega), Bool.false_or]
      rfl
    have hdone : StoresDone t (s.storeMove k r.hi r d c f h (q.actives.map (s.probeOf k (r.vt.sew / 8) f))) k :=
      storeMove_done (s := s) (k := k) (d := d) (c := c) (h := h) r q.actives hat r.hi
    rw [hy', vecFinish_plain (r := (VRun.of (s.vec k) e false hi).tallied y') hstart hfpx] at hplain
    refine ⟨_, hplain, vecStored_of (y := y') hleaves hdone ?_, ?_⟩
    · rw [← hends]
      rfl
    · exact hdone.rest
  · have hnil : q.actives = [] := List.filter_eq_nil_iff.mpr fun n hn => by
      have := List.mem_range.mp hn
      simp [Kinds.active]
      omega
    have hends : q.ends = true := by
      unfold Kinds.ends
      rw [decide_eq_true (by omega), Bool.true_or]
    have ht : t = s := by
      unfold t
      rw [hnil]
      exact s.healWhole_none _
    have hdone : StoresDone s s k := ⟨rfl, rfl, fun _ _ => rfl, rfl, rfl, fun _ => rfl⟩
    rw [hy'] at hplain
    rw [ht]
    refine ⟨_, hplain.trans (if_pos (Nat.le_of_not_lt hstart)), vecStored_of (y := y') (StoresLeave.refl s k e.po) hdone ?_, rfl⟩
    rw [hends]
    rfl

end

end Sys2Proof.Machine
end
section
/-! PROOFS. Traps of vector instructions (R134, R135, R185, R254). -/
namespace Sys2Proof.Machine

/-! ## The oldest entry that has not completed -/

section
variable {s : State} {k j hi : Nat} {e : Entry}

/-- Where an open entry in flight is the oldest of its context, those before it have completed. -/
theorem State.Moves.split (h : s.Moves k j hi e) (hold : (s.vec k).oldest e = true) :
    ∃ pre post, (s.vec k).infl = pre ++ e :: post ∧ ∀ x ∈ pre, x.done = true ∧ x.po ≠ e.po := by
  obtain ⟨hj, hget⟩ := List.getElem?_eq_some_iff.mp h.entry
  have hsplit : (s.vec k).infl = (s.vec k).infl.take j ++ e :: (s.vec k).infl.drop (j + 1) := by
    rw [← hget, List.getElem_cons_drop, List.take_append_drop]
  have hpo : ∀ x ∈ (s.vec k).infl.take j, x.po ≠ e.po := by
    intro x hx hpo
    obtain ⟨i, hi, hxi⟩ := List.mem_take_iff_getElem.mp hx
    have := h.alone i x (List.getElem?_eq_some_iff.mpr ⟨by omega, hxi⟩) hpo
    omega
  refine ⟨_, _, hsplit, fun x hx => ⟨?_, hpo x hx⟩⟩
  by_contra hopen
  have hmem : x ∈ ((s.vec k).infl.take j).filter (fun e => !e.done) := List.mem_filter.mpr ⟨hx, by simpa using hopen⟩
  obtain ⟨y, l, hyl⟩ := List.exists_cons_of_ne_nil (List.ne_nil_of_mem hmem)
  have hy : y ∈ (s.vec k).infl.take j := (List.mem_filter.mp (hyl ▸ List.mem_cons_self : y ∈ ((s.vec k).infl.take j).filter fun e => !e.done)).1
  unfold Vec.oldest Vec.open_ at hold
  rw [hsplit, List.filter_append, hyl] at hold
  exact hpo y hy (by simpa using hold)

end

/-- The entries from the oldest open one go back into the VIQ, that one with its index; nothing is unwound (R257, R258). -/
theorem Vec.pullBack_oldest {v : Vec} {pre post : List Entry} {x : Entry} (hinfl : v.infl = pre ++ x :: post) (hpre : ∀ y ∈ pre, y.done = true)
    (hx : x.done = false) (hflags : ∀ y ∈ v.infl, y.flags &&& v.ftrap = 0) :
    v.pullBack.vstart = x.pix ∧ (∃ l, v.pullBack.viq = x.stopped :: l) ∧
      { v.pullBack with flags := v.flags, viq := v.viq, infl := v.infl, vstart := v.vstart } = v := by
  have hfind : v.infl.find? (fun e => !e.done && (e.flags &&& v.ftrap) ≠ 0) = none := List.find?_eq_none.mpr fun y hy => by simp [hflags y hy]
  have hdrop : v.infl.dropWhile (·.done) = x :: post := by
    rw [hinfl, List.dropWhile_append_of_pos hpre, List.dropWhile_cons_of_neg (by simp [hx])]
  have hopen : v.open_ = x :: (post.filter (fun e => !e.done) ++ v.viq.filter fun e => !e.done) := by
    unfold Vec.open_
    rw [hinfl, List.filter_append, List.filter_eq_nil_iff.mpr fun y hy => by simp [hpre y hy], List.nil_append,
      List.filter_cons_of_pos (by simp [hx]), List.cons_append]
  unfold Vec.pullBack
  rw [hfind]
  refine ⟨?_, ⟨(post ++ v.viq).map Entry.stopped, ?_⟩, rfl⟩
  · dsimp only
    rw [hopen]
  · dsimp only
    unfold Vec.fromVcp
    rw [hdrop]
    rfl

/-! ## The trap of a vector instruction -/

/-- A trap of the vector side depends on the front and on the VTYPE and VL of the context alone. -/
theorem TrapTaken.congr {s t u : State} {a : Nat} {epc : W64} {x : Trap} (h : TrapTaken s u a true epc x) (hfront : s.front a = t.front a)
    (hvtype : (s.vec a).vtype = (t.vec a).vtype) (hvl : (s.vec a).vl = (t.vec a).vl) : TrapTaken t u a true epc x := by
  obtain ⟨h1, h2, h3, h4, h5, h6, h7, h8, h9, h10, h11, h12, h13, h14, h15, h16, h17, h18, h19⟩ := h
  rw [hfront] at h9 h11 h12 h13 h15 h16 h18
  rw [hvtype, hvl] at h19
  exact ⟨h1, h2, h3, h4, h5, h6, h7, h8, h9, h10, h11, h12, h13, h14, h15, h16, h17, h18, h19⟩

/-- An entry that a trap stops at an index (R135, R257). -/
def Entry.haltedAt (e : Entry) (n : Nat) : Entry :=
  { e with pix := BitVec.ofNat 13 n, started := e.started || e.pix ≠ BitVec.ofNat 13 n }

/-- Replaces the entry of a place in program order wherever it stands. -/
def Vec.putEntry (v : Vec) (x : Entry) : Vec :=
  { v with infl := v.infl.map fun y => if y.po = x.po then x else y, viq := v.viq.map fun y => if y.po = x.po then x else y }

/-- A trap of the vector side puts the instruction and the younger ones back, and enters the handler. -/
theorem State.vectorTrap_eq (w : State) (k : Nat) (e : Entry) (n : Nat) {x : Trap} (hreg : x.reg = none) :
    w.vectorTrap k e n x =
      ((w.setVec k ((w.vec k).putEntry (e.haltedAt n)).pullBack).forget (.vector k)).takeTrap k true e.addr x := by
  unfold State.vectorTrap
  dsimp only
  rw [hreg]
  rfl

/-- The entries in flight once the oldest open one has been replaced. -/
theorem Vec.infl_setEntry {v : Vec} {pre post : List Entry} {e x : Entry} (hinfl : v.infl = pre ++ e :: post)
    (hpre : ∀ y ∈ pre, y.po ≠ e.po) (hx : x.po = e.po) :
    (v.setEntry x).infl = pre ++ x :: post.map fun y => if y.po = x.po then x else y := by
  unfold Vec.setEntry
  dsimp only
  rw [hinfl, List.map_append, List.map_cons, if_pos hx.symm,
    List.map_congr_left fun y hy => if_neg (by rw [hx]; exact hpre y hy), List.map_id'' fun _ => rfl]

/-- The oldest open entry of a context traps where its handler can be entered (R134, R135, R185, R254). -/
theorem vectorTrap_taken {s w : State} {k j hi : Nat} {e : Entry} {y : Tally} {n : Nat} {x : Trap} (hmoves : s.Moves k j hi e)
    (hold : (s.vec k).oldest e = true) (hflags : ∀ y ∈ (s.vec k).infl, y.flags &&& (s.vec k).ftrap = 0)
    (hvec : { w.vec k with s := (s.vec k).s } = (s.vec k).setEntry { e with tally := y }) (hok : w.HandlerOk k) (hreg : x.reg = none) :
    let u := w.vectorTrap k { e with tally := y } n x
    TrapTaken w u k true e.addr x ∧ u.mem = w.mem ∧ (u.vec k).v = (s.vec k).v ∧ (u.vec k).tag = (s.vec k).tag ∧ (u.vec k).m = (s.vec k).m ∧
      (u.vec k).e = (s.vec k).e ∧ (u.vec k).vstart = BitVec.ofNat 13 n ∧
      ∃ y l, (u.vec k).viq = y :: l ∧ y.word = e.word ∧ y.pix = BitVec.ofNat 13 n := by
  intro u
  obtain ⟨pre, post, hinfl, hpre⟩ := hmoves.split hold
  obtain ⟨e2, he2⟩ : ∃ e2, e2 = Entry.haltedAt { e with tally := y } n := ⟨_, rfl⟩
  have hopen : e2.done = false := by rw [he2]; exact hmoves.isOpen
  have hpo : e2.po = e.po := by rw [he2]; rfl
  obtain ⟨v, hv⟩ : ∃ v, v = (w.vec k).putEntry e2 := ⟨_, rfl⟩
  have hput : v.infl = pre ++ e2 :: post.map fun y => if y.po = e2.po then e2 else y := by
    have hwinfl : (w.vec k).infl = ((s.vec k).setEntry { e with tally := y }).infl := (congrArg Vec.infl hvec :)
    have htwice : v.infl = ((s.vec k).setEntry e2).infl := by
      rw [hv, ← Vec.setEntry_setEntry (s.vec k) (x := { e with tally := y }) (y := e2) hpo.symm]
      exact congrArg (List.map fun y => if y.po = e2.po then e2 else y) hwinfl
    rw [htwice, Vec.infl_setEntry hinfl (fun z hz => (hpre z hz).2) hpo]
  have hfl : ∀ z ∈ v.infl, z.flags &&& v.ftrap = 0 := by
    have hftrap : v.ftrap = (s.vec k).ftrap := by rw [hv]; exact (congrArg Vec.ftrap hvec :)
    have hself : e2.flags &&& (s.vec k).ftrap = 0 := by rw [he2]; exact hflags e (by rw [hinfl]; simp)
    intro z hz
    rw [hftrap]
    rw [hput] at hz
    rcases List.mem_append.mp hz with hz | hz
    · exact hflags z (by rw [hinfl]; exact List.mem_append_left _ hz)
    · rcases List.mem_cons.mp hz with rfl | hz
      · exact hself
      · obtain ⟨x, hx, rfl⟩ := List.mem_map.mp hz
        split
        · exact hself
        · exact hflags x (by rw [hinfl]; exact List.mem_append_right _ (List.mem_cons_of_mem e hx))
  obtain ⟨hvstart, ⟨l, hviq⟩, hframe⟩ := Vec.pullBack_oldest (v := v) hput (fun y hy => (hpre y hy).1) hopen hfl
  obtain ⟨t, ht⟩ : ∃ t, t = (w.setVec k v.pullBack).forget (.vector k) := ⟨_, rfl⟩
  have hok' : t.HandlerOk k := by
    rw [ht]
    exact State.SeesAs.handlerOk (s := w) ⟨rfl, fun _ => rfl, fun _ => rfl⟩ rfl hok
  obtain ⟨fired, htrap, -⟩ := State.takeTrap_eq hok' true e.addr x
  have hu : u = { t.setFront k (trapFront t k true e.addr x) with fired := fired } := by
    rw [← htrap, ht, hv, he2]
    exact State.vectorTrap_eq w k { e with tally := y } n hreg
  have htvec : t.vec k = v.pullBack := by rw [ht]; exact State.vec_setVec_self w k v.pullBack
  have huvec : u.vec k = v.pullBack := by rw [hu]; exact htvec
  have hfield {α : Type} (p : Vec → α) (hp : ∀ z : Vec, p { z with flags := v.flags, viq := v.viq, infl := v.infl, vstart := v.vstart } = p z)
      (hp' : p v = p (w.vec k)) : p v.pullBack = p (w.vec k) := by
    rw [← hp, hframe]
    exact hp'
  have hfront : u.front k = trapFront t k true e.addr x := by
    rw [hu]
    exact State.front_setFront_self t k _
  have hsame : t.front k = w.front k := by rw [ht]; rfl
  refine ⟨(trapTaken_front e.addr x hfront).congr hsame ?_ ?_, by rw [hu, ht]; rfl, ?_, ?_, ?_, ?_, ?_, e2.stopped, l, ?_, ?_, ?_⟩
  · rw [htvec]
    exact hfield Vec.vtype (fun _ => rfl) (by rw [hv]; rfl)
  · rw [htvec]
    exact hfield Vec.vl (fun _ => rfl) (by rw [hv]; rfl)
  · rw [huvec]
    exact (hfield Vec.v (fun _ => rfl) (by rw [hv]; rfl)).trans (congrArg Vec.v hvec :)
  · rw [huvec]
    exact (hfield Vec.tag (fun _ => rfl) (by rw [hv]; rfl)).trans (congrArg Vec.tag hvec :)
  · rw [huvec]
    exact (hfield Vec.m (fun _ => rfl) (by rw [hv]; rfl)).trans (congrArg Vec.m hvec :)
  · rw [huvec]
    exact (hfield Vec.e (fun _ => rfl) (by rw [hv]; rfl)).trans (congrArg Vec.e hvec :)
  · rw [huvec, hvstart, he2]
    rfl
  · rw [huvec, hviq]
  · rw [he2]
    rfl
  · rw [Entry.stopped, hopen, he2]
    rfl

end Sys2Proof.Machine
end
section
/-! PROOFS. Vector stores by elements (R180 to R185, R194, R195). -/
namespace Sys2Proof.Machine

/-! ## A store whose element fails (R185) -/

section
variable {t u : State} {k : Nat} (h : StoresDone t u k)
include h

theorem StoresDone.mayTrap (e : Entry) : u.mayTrap k e = t.mayTrap k e := by
  have hinfl : (u.vec k).infl = (t.vec k).infl := (congrArg Vec.infl h.vec :)
  have hold : (u.vec k).oldest e = (t.vec k).oldest e := (congrArg (fun x : Vec => x.oldest e) h.vec :)
  have hreq : u.requests = t.requests := (congrArg State.requests h.rest :)
  unfold State.mayTrap State.elementsDone
  rw [hold, h.front, hreq, hinfl]

theorem StoresDone.seesAs (x : Touch) (v : Vec) : t.SeesAs ((u.note x).setVec k v) where
  rest := (congrArg (fun y : State => { y with fronts := t.fronts, requests := t.requests, arrived := t.arrived, fired := t.fired }) h.rest :)
  utlb := fun g => (congrArg Core.utlb (h.cores g) :)
  fence := fun g => (congrArg Core.fence (h.cores g) :)

end

/-- The lane of an element that fails with an uncorrectable error (R185). -/
def faultLane (v : Vec) (w x n : Nat) : Nat := if x = 10 then laneNumber v.grant (n % perReg v.lanes w % v.lanes) else 0

section
variable {s : State} {k p hi : Nat} {e : Entry} {d : VReg} {c : Cls} {h : BitVec 2} {m : MReg} {pa : Nat → Nat} {y : Tally} {f : Form} {i : Instr}

/-- A store whose element at n fails, after those below it (R185). -/
theorem vecStore_traps (hmoves : s.Moves k p hi e)
    (hexec : exec i s = vecStore s k ((VRun.of (s.vec k) e false hi).tallied y) m d c h none f) (hfpx : e.fpx = none) (hbad : (s.vec k).bad = [])
    (hheld : ∀ spots, s.vecHeld k e c spots = false) {n x : Nat} {va : W64}
    (hn : n ∈ (Kinds.of (s.vec k) e false hi m).actives) (hea : f.ea n = some va)
    (hx : s.findElem k f.far .store va (e.vtype.sew / 8) = .fault x)
    (hat : ∀ j va, j ∈ (Kinds.of (s.vec k) e false hi m).actives → j < n → f.ea j = some va →
      s.findElem k f.far .store va (e.vtype.sew / 8) = .at_ (pa j)) :
    let q := Kinds.of (s.vec k) e false hi m
    let t := s.writtenElems k e c f.ea pa (storeBytesOf (s.vec k) e.vtype.sew d) (e.vtype.sew / 8)
      ((q.actives.filter fun n => (f.ea n).isSome).filter fun j => decide (j < n))
    t.HandlerOk k → s.mayTrap k e = true → t.mayTrap k e = true → (∀ y ∈ (s.vec k).infl, y.flags &&& (s.vec k).ftrap = 0) →
    ∃ u, exec i s = .next u ∧
      TrapTaken t u k true e.addr { code := x, write := true, elem := n, lane := faultLane (s.vec k) e.vtype.sew x n, tval := va } ∧
      u.mem = t.mem ∧ (u.vec k).v = (s.vec k).v ∧ (u.vec k).tag = (s.vec k).tag ∧ (u.vec k).m = (s.vec k).m ∧ (u.vec k).e = (s.vec k).e ∧
      (u.vec k).vstart = BitVec.ofNat 13 n ∧ ∃ y l, (u.vec k).viq = y :: l ∧ y.word = e.word ∧ y.pix = BitVec.ofNat 13 n := by
  intro q t hok hmay hmay' hflags
  let r := (VRun.of (s.vec k) e false hi).tallied y
  have hact : r.actives m r.hi = q.actives := actives_eq (s.vec k) e false hi m
  have hfault : firstFault ((r.actives m r.hi).map (s.probeOf k (r.vt.sew / 8) f)) = some (⟨n, va, .fault x⟩, x) := by
    rw [hact]
    exact firstFault_at hea hx q.actives (actives_pairwise q) hn hat
  have hstops := hexec.trans (vecStore_fault (r := r) (s := s) (k := k) (d := d) (c := c) (h := h) (m := m) (f := f) hbad hheld hfault)
  rw [hact] at hstops
  obtain ⟨l, hl⟩ : ∃ l, l = (q.actives.filter fun j => decide (j < n)).map (s.probeOf k (r.vt.sew / 8) f) := ⟨_, rfl⟩
  obtain ⟨y', hy'⟩ := VRun.gather_tallied (VRun.of (s.vec k) e false hi) y s k n f l
  have hdone : StoresDone t (s.storeMove k n r d c f h l) k := by
    have hsome : (q.actives.filter fun n => (f.ea n).isSome).filter (fun j => decide (j < n)) =
        (q.actives.filter fun j => decide (j < n)).filter fun n => (f.ea n).isSome := List.filter_comm _ _ _
    unfold t
    rw [hl, hsome]
    refine storeMove_done (s := s) (k := k) (d := d) (c := c) (h := h) r _ (fun j va hj => ?_) n
    obtain ⟨hj1, hj2⟩ := List.mem_filter.mp hj
    exact hat j va hj1 (by simpa using hj2)
  have hstart : q.start < q.vl := by
    change (Kinds.of (s.vec k) e false hi m).start < (Kinds.of (s.vec k) e false hi m).vl
    obtain ⟨hr, ha⟩ := List.mem_filter.mp hn
    have := List.mem_range.mp hr
    simp only [Kinds.active, Bool.and_eq_true, decide_eq_true_eq] at ha
    omega
  have hleaves := s.writtenElems_leaves k e c f.ea pa (storeBytesOf (s.vec k) e.vtype.sew d) (e.vtype.sew / 8)
    ((q.actives.filter fun n => (f.ea n).isSome).filter fun j => decide (j < n))
  have hvec : t.vec k = s.vec k := congrArg (fun x => Store.get Vec.reset x k) hleaves.vecs
  dsimp only at hstops
  rw [← hl, hy', vecFinish_stops (r := (VRun.of (s.vec k) e false hi).tallied y') hstart hfpx hmay ((hdone.mayTrap e).trans hmay')] at hstops
  obtain ⟨w, hw⟩ : ∃ w, w = ((s.storeMove k n r d c f h l).note (s.failing k f.far (s.front k).aspace va (e.vtype.sew / 8) x)).setVec k
      (((s.storeMove k n r d c f h l).vec k).setEntry { e with tally := y' }) := ⟨_, rfl⟩
  have hwvec : w.vec k = ((s.storeMove k n r d c f h l).vec k).setEntry { e with tally := y' } := by rw [hw]; exact State.vec_setVec_self _ k _
  have hsame : { w.vec k with s := (s.vec k).s } = (s.vec k).setEntry { e with tally := y' } := by
    have hd := hdone.vec
    rw [hvec] at hd
    rw [hwvec]
    exact congrArg (fun z : Vec => z.setEntry { e with tally := y' }) hd
  have hwfront : w.front k = t.front k := by rw [hw]; exact hdone.front k
  have hwok : w.HandlerOk k := by
    refine State.SeesAs.handlerOk (s := t) ?_ hwfront hok
    rw [hw]
    exact hdone.seesAs _ _
  have hold : (s.vec k).oldest e = true := (Bool.and_eq_true_iff.mp hmay).1
  obtain ⟨htrap, hmem, hrest⟩ := vectorTrap_taken (n := n) hmoves hold hflags hsame hwok
    (x := { code := x, write := true, elem := n, lane := faultLane (s.vec k) e.vtype.sew x n, tval := va }) rfl
  refine ⟨_, hstops.trans (by rw [hw]; rfl), htrap.congr hwfront ?_ ?_, hmem.trans ?_, hrest⟩
  · rw [hvec]
    exact (congrArg Vec.vtype hsame :)
  · rw [hvec]
    exact (congrArg Vec.vl hsame :)
  · rw [hw]
    exact (congrArg State.mem hdone.rest :)

end

end Sys2Proof.Machine
end
section
/-! PROOFS. What the forms of vector stores by elements do (R180 to R185, R194, R195). -/
namespace Sys2Proof.Machine

/-! ## A form whose elements stand at their addresses, or whose first failing element traps -/

/-- What a vector store with given addresses of its elements does: it writes the active elements, or traps at the first that fails
after it has written those below. -/
def StoreRuns (s : State) (k : Nat) (e : Entry) (hi : Nat) (d : VReg) (c : Cls) (m : MReg) (pa : Nat → Nat) (i : Instr) (far : Bool)
    (ea : Nat → Option W64) : Prop :=
  let v := s.vec k
  let w := e.vtype.sew
  let z := w / 8
  let q := Kinds.of v e false hi m
  let hit := q.actives.filter fun n => (ea n).isSome
  ((∀ n va, n ∈ q.actives → ea n = some va → s.findElem k far .store va z = .at_ (pa n)) →
    ∃ u, exec i s = .next u ∧ VecStored s u k e q.ends q.hi ∧
      (let t := s.writtenElems k e c ea pa (storeBytesOf v w d) z hit;
        { u with vecs := t.vecs, cores := t.cores, threads := t.threads, touches := t.touches } = t) ∧
      (s.MemOk → s.KeysOk → (∀ n, n ∈ hit → pa n + z ≤ 2 ^ 44 ∨ isDomain (pa n) = true ∨ spBase ≤ pa n) →
        ∀ x, (x < 2 ^ 44 ∨ spBase ≤ x) → (∀ n, n ∈ hit → x < pa n ∨ pa n + z ≤ x) → u.readByte x = s.readByte x)) ∧
  ∀ (n : Nat) (va : W64) (x : Nat), n ∈ q.actives → ea n = some va → s.findElem k far .store va z = .fault x →
    (∀ j va, j ∈ q.actives → j < n → ea j = some va → s.findElem k far .store va z = .at_ (pa j)) →
    let t := s.writtenElems k e c ea pa (storeBytesOf v w d) z (hit.filter (· < n))
    t.HandlerOk k → s.mayTrap k e = true → t.mayTrap k e = true → (∀ y ∈ v.infl, y.flags &&& v.ftrap = 0) →
    ∃ u, exec i s = .next u ∧
      TrapTaken t u k true e.addr { code := x, write := true, elem := n, lane := faultLane v w x n, tval := va } ∧
      u.mem = t.mem ∧ (u.vec k).v = v.v ∧ (u.vec k).tag = v.tag ∧ (u.vec k).m = v.m ∧ (u.vec k).e = v.e ∧
      (u.vec k).vstart = BitVec.ofNat 13 n ∧ ∃ y l, (u.vec k).viq = y :: l ∧ y.word = e.word ∧ y.pix = BitVec.ofNat 13 n

section
variable {s : State} {k p hi : Nat} {e : Entry} {d : VReg} {c : Cls} {h : BitVec 2} {m : MReg} {pa : Nat → Nat} {i : Instr}
  (hmoves : s.Moves k p hi e) (hfpx : e.fpx = none) (hbad : (s.vec k).bad = []) (hheld : ∀ spots, s.vecHeld k e c spots = false)
include hmoves hfpx hbad hheld

theorem storeRuns_of (y : Tally) (f : Form)
    (hexec : exec i s = vecStore s k ((VRun.of (s.vec k) e false hi).tallied y) m d c h none f) :
    StoreRuns s k e hi d c m pa i f.far f.ea := by
  refine ⟨fun hat => ?_, fun n va x hn hea hx hbelow => vecStore_traps hmoves hexec hfpx hbad hheld hn hea hx hbelow⟩
  obtain ⟨u, hu, hstored, hrest⟩ := vecStore_completes hexec hfpx hbad hheld hat
  refine ⟨u, hu, hstored, hrest, fun hmem hkeys hpa x hx hout => ?_⟩
  have hread := (congrArg (fun t : State => t.readByte x) hrest :)
  have hstay := State.writtenElems_bytesStay ⟨hmem, hkeys⟩ k e c f.ea pa (bytes := storeBytesOf (s.vec k) e.vtype.sew d)
    (fun n => bytesLE_length _ _) hpa
  exact hread.trans (hstay.bytes x hx hout)

variable (pa)

theorem storeRuns_vstUnit (a : XReg) : StoreRuns s k e hi d c m pa (.vstUnit d a c h m) false
    fun n => some (e.ops.getD 0 0 + BitVec.ofNat 64 (n * (e.vtype.sew / 8))) :=
  storeRuns_of hmoves hfpx hbad hheld (h := h) e.tally (elemForm (.vstUnit d a c h m) (VRun.of (s.vec k) e false hi)) <| by
    refine (hmoves.vectorInstr _ _ _ _).trans ?_
    dsimp only
    rw [hmoves.vrun]
    rfl

theorem storeRuns_vstStr (a b : XReg) : StoreRuns s k e hi d c m pa (.vstStr d a b c h m) false
    fun n => some (e.ops.getD 0 0 + BitVec.ofNat 64 n * e.ops.getD 1 0) :=
  storeRuns_of hmoves hfpx hbad hheld (h := h) e.tally (elemForm (.vstStr d a b c h m) (VRun.of (s.vec k) e false hi)) <| by
    refine (hmoves.vectorInstr _ _ _ _).trans ?_
    dsimp only
    rw [hmoves.vrun]
    rfl

theorem storeRuns_vst2d (a b : XReg) : StoreRuns s k e hi d c m pa (.vst2d d a b c h m) false fun n =>
    some (e.ops.getD 0 0 + BitVec.ofNat 64 (n / ((e.ops.getD 2 0).extractLsb' 0 32).toNat) * e.ops.getD 1 0 +
      BitVec.ofNat 64 (n % ((e.ops.getD 2 0).extractLsb' 0 32).toNat) * ((e.ops.getD 2 0).extractLsb' 32 32).signExtend 64) :=
  storeRuns_of hmoves hfpx hbad hheld (h := h) e.tally (elemForm (.vst2d d a b c h m) (VRun.of (s.vec k) e false hi)) <| by
    refine (hmoves.vectorInstr _ _ _ _).trans ?_
    dsimp only
    rw [hmoves.vrun]
    rfl

theorem storeRuns_vstIdx (a : XReg) {g : VReg} (hg : offsetsOk (s.vec k) e.vtype g = true) :
    StoreRuns s k e hi d c m pa (.vstIdx d a g c h m) true fun n => some (e.ops.getD 0 0 + (s.vec k).offsetAt e.vtype g n) :=
  storeRuns_of hmoves hfpx hbad hheld (h := h) e.tally ((VRun.of (s.vec k) e false hi).idxForm g) <| by
    refine (hmoves.vectorInstr _ _ _ _).trans ?_
    dsimp only
    rw [hmoves.vrun, if_neg (fun hnot => by change (!offsetsOk (s.vec k) e.vtype g) = true at hnot; simp [hg] at hnot), VRun.uecc_none _ _ hbad]
    rfl

theorem storeRuns_vstShape (a : XReg) {g : VReg} {t : Shape} (hlanes : (s.vec k).lanes ≠ 0)
    (ht : readShape .store ((s.vec k).recordWord g) = .ok t) (hw : t.tag.width = e.vtype.sew) :
    StoreRuns s k e hi d c m pa (.vstShape d a g c h m) false (t.addr (e.ops.getD 0 0)) :=
  storeRuns_of hmoves hfpx hbad hheld (h := h) { e.tally with stride := some (t.stride.getD 0 0) } ((VRun.of (s.vec k) e false hi).shapeForm t) <| by
    have hrecord : (s.vec k).recordBad g = none := by simp [Vec.recordBad, Vec.elemBad, hbad]
    refine (hmoves.vectorInstr _ _ _ _).trans ?_
    dsimp only
    rw [hmoves.vrun, if_neg (by exact hlanes)]
    unfold withShape
    change (match (s.vec k).recordBad g with | some j => _ | none => _) = _
    rw [hrecord]
    dsimp only
    change (match readShape .store ((s.vec k).recordWord g) with | .error c => _ | .ok t => _) = _
    rw [ht]
    exact if_neg (not_not.mpr hw)

end

/-- The offset of an indexed access as the element's tag reads it (R182). -/
theorem Vec.offsetAt_eq (v : Vec) (vt : VType) (g : VReg) (n : Nat) :
    v.offsetAt vt g n = if (v.tagOf g).signed then BitVec.ofInt 64 (BitVec.ofNat vt.sew (v.elem v.lanes vt.sew g n)).toInt
      else BitVec.ofNat 64 (v.elem v.lanes vt.sew g n) := by
  unfold Vec.offsetAt
  dsimp only
  rw [sextN_eq_toInt]

/-- A shape form without lanes completes and does nothing (R195). -/
theorem State.Moves.exec_vstShape_laneless {s : State} {k p hi : Nat} {e : Entry} (hmoves : s.Moves k p hi e) (hlanes : (s.vec k).lanes = 0)
    (d : VReg) (a : XReg) (g : VReg) (c : Cls) (h : BitVec 2) (m : MReg) :
    exec (.vstShape d a g c h m) s =
      .next (s.setVec k ((s.vec k).complete { e with tally := { e.tally with time := s.time, spc := (s.front k).pc } })) := by
  refine (hmoves.vectorInstr _ _ _ _).trans ?_
  dsimp only
  rw [hmoves.vrun]
  exact if_pos hlanes

end Sys2Proof.Machine
end
section
/-! PROOFS. The bytes of a segment that are written together (R196). -/
namespace Sys2Proof.Machine

/-! ## One byte of which some bits change -/

section
variable {s t : State} {p : Patch}

/-- A write of the live generation that changes bits of a byte writes the whole byte. -/
theorem State.patchByte_live (hs : s.StoreOk) (hpa : p.pa < 2 ^ 44 ∨ spBase ≤ p.pa) :
    s.patchByte s.live p = s.storeByte s.live p.pa (p.over (s.mem.read p.pa)) := by
  unfold State.patchByte State.storeByte State.storeMain
  by_cases hsp : isSp p.pa = true
  · rw [if_pos hsp, if_pos hsp]
  · have hlow : p.pa < 2 ^ 44 := hpa.resolve_right (by simpa [isSp] using hsp)
    have hdata : dataOf p.pa = p.pa := by unfold dataOf; omega
    rw [if_neg hsp, if_neg hsp, hdata]
    dsimp only
    cases hu : s.splitFor s.live p.pa with
    | none => rfl
    | some u =>
      have hlive : u.live = s.live := BesideMemory.splitFor (p := State.live) (fun _ _ _ _ _ _ _ _ _ => rfl) hu
      have hread : u.mem.read p.pa = s.mem.read p.pa :=
        (State.splitFor_read hs hu).2 p.pa (.inl (lt_of_lt_of_le hlow (by norm_num [reserveBase])))
      rw [Option.map_some, Option.map_some, ← hlive, State.reach_live, ← hread]
      rfl

end

/-- The bytes that patches name have changed, and no others. -/
structure Patched (s t : State) (l : List Patch) : Prop where
  ok : t.StoreOk
  live : t.live = s.live
  at_ : ∀ p ∈ l, t.mem.read p.pa = p.over (s.mem.read p.pa)
  frame : ∀ a, a < 2 ^ 44 ∨ spBase ≤ a → a ∉ l.map (·.pa) → t.mem.read a = s.mem.read a

/-- Patches of different bytes are written one after another. -/
theorem patched_foldl : ∀ (l : List Patch) {s t : State}, s.StoreOk → (l.map (·.pa)).Nodup → (∀ p ∈ l, p.pa < 2 ^ 44 ∨ spBase ≤ p.pa) →
    l.foldl (fun (o : Option State) p => o.bind fun x => x.patchByte s.live p) (some s) = some t → Patched s t l
  | [], s, t, hs, _, _, h => by
    cases h
    exact ⟨hs, rfl, fun _ hp => absurd hp List.not_mem_nil, fun _ _ _ => rfl⟩
  | p :: l, s, t, hs, hnodup, hpa, h => by
    obtain ⟨hfresh, hnodup⟩ := List.nodup_cons.mp hnodup
    have hp := hpa p List.mem_cons_self
    rw [List.foldl_cons, Option.bind_some] at h
    cases hu : s.patchByte s.live p with
    | none =>
      rw [hu] at h
      have hnone : ∀ l : List Patch, l.foldl (fun (o : Option State) p => o.bind fun x => x.patchByte s.live p) none = none := fun l => by
        induction l with
        | nil => rfl
        | cons q l ih => exact ih
      rw [hnone] at h
      cases h
    | some u =>
      rw [State.patchByte_live hs hp] at hu
      obtain ⟨hone, hat⟩ := State.storeByte_stored hs hp hu
      rw [State.patchByte_live hs hp, hu, ← hone.live] at h
      have hrest := patched_foldl l hone.ok hnodup (fun q hq => hpa q (List.mem_cons_of_mem p hq)) h
      have hbeside (a : Nat) (ha : a < 2 ^ 44 ∨ spBase ≤ a) (hne : a ≠ p.pa) : u.mem.read a = s.mem.read a := hone.frame a ha (by omega)
      refine ⟨hrest.ok, hrest.live.trans hone.live, fun q hq => ?_, fun a ha hout => ?_⟩
      · rcases List.mem_cons.mp hq with rfl | hq
        · rw [hrest.frame q.pa hp hfresh, hat (.inl rfl)]
        · rw [hrest.at_ q hq, hbeside q.pa (hpa q (List.mem_cons_of_mem p hq)) fun heq => hfresh (List.mem_map.mpr ⟨q, hq, heq⟩)]
      · obtain ⟨hne, hout⟩ := not_or.mp (mt List.mem_cons.mpr hout)
        rw [hrest.frame a ha hout, hbeside a ha hne]

/-! ## A segment in one run -/

theorem runAt_one {at_ size pos : Nat} (h : pos < size) : runAt [(at_, size)] pos = at_ + pos := by
  unfold runAt
  exact if_pos h

/-- A byte as a change of it leaves it. -/
def changedByte (w : Option (Byte × Byte)) (old : Byte) : Byte := (w.map fun w => (w.1 &&& w.2) ||| (old &&& ~~~w.2)).getD old

section
variable {at_ size : Nat} {f : Nat → Option (Byte × Byte)}

theorem mem_segPatches_one {p : Patch} : p ∈ (segPatches [(at_, size)] size f).map (·.2) ↔
    ∃ pos w, pos < size ∧ f pos = some w ∧ p = ⟨at_ + pos, w.1, w.2⟩ := by
  unfold segPatches
  simp only [List.mem_map, List.mem_filterMap, List.mem_range, Option.map_eq_some_iff]
  constructor
  · rintro ⟨q, ⟨pos, hpos, w, hw, rfl⟩, rfl⟩
    exact ⟨pos, w, hpos, hw, by rw [runAt_one hpos]⟩
  · rintro ⟨pos, w, hpos, hw, rfl⟩
    exact ⟨_, ⟨pos, hpos, w, hw, rfl⟩, by rw [runAt_one hpos]⟩

theorem segPatches_one_nodup : (((segPatches [(at_, size)] size f).map (·.2)).map (·.pa)).Nodup := by
  have hplaces : ((segPatches [(at_, size)] size f).map (·.2)).map (·.pa) =
      ((List.range size).filter fun pos => (f pos).isSome).map fun pos => at_ + pos := by
    unfold segPatches
    rw [List.map_map, List.map_filterMap, ← List.filterMap_eq_map, ← List.filterMap_eq_filter, List.filterMap_filterMap]
    refine List.filterMap_congr fun pos hpos => ?_
    cases hf : f pos with
    | none => simp [Option.guard, hf]
    | some w => simp [Option.guard, hf, runAt_one (List.mem_range.mp hpos)]
  rw [hplaces]
  exact ((List.nodup_range (n := size)).filter _).map fun a b h => Nat.add_left_cancel h

/-- What a segment in one run changes of memory: its bytes, as given, and no others (R196). -/
theorem writePatches_one {s u : State} {who : Option Nat} (hs : s.StoreOk) (hat : at_ + size ≤ 2 ^ 44 ∨ spBase ≤ at_)
    (h : s.writePatches who s.live ((segPatches [(at_, size)] size f).map (·.2)) = some u) :
    (∀ pos, pos < size → u.readByte (at_ + pos) = changedByte (f pos) (s.readByte (at_ + pos))) ∧
      ∀ x, (x < 2 ^ 44 ∨ spBase ≤ x) → (x < at_ ∨ at_ + size ≤ x) → u.readByte x = s.readByte x := by
  unfold State.writePatches at h
  obtain ⟨t, ht, hu⟩ := Option.map_eq_some_iff.mp h
  have hpatched := patched_foldl _ hs segPatches_one_nodup (fun p hp => by
    obtain ⟨pos, w, hpos, -, rfl⟩ := mem_segPatches_one.mp hp
    exact hat.imp (fun _ => by dsimp only; omega) fun _ => by dsimp only; omega) ht
  have hread : u.readByte = t.readByte := by
    rw [← hu]
    exact congrArg (fun y : Memory × Nat × List Nat × BitVec 2 × (Nat → Byte) => y.2.2.2.2)
      ((State.lines_storage who _ _).trans (t.healWhole_storage _ _))
  have hkept (x : Nat) (hx : x < 2 ^ 44 ∨ spBase ≤ x) (hout : ∀ pos w, pos < size → f pos = some w → x ≠ at_ + pos) :
      u.readByte x = s.readByte x := by
    rw [hread, t.readByte_live hx, s.readByte_live hx]
    refine hpatched.frame x hx fun hmem => ?_
    obtain ⟨p, hp, rfl⟩ := List.mem_map.mp hmem
    obtain ⟨pos, w, hpos, hw, rfl⟩ := mem_segPatches_one.mp hp
    exact hout pos w hpos hw rfl
  refine ⟨fun pos hpos => ?_, fun x hx hout => hkept x hx fun pos w hpos _ => by omega⟩
  have hx : at_ + pos < 2 ^ 44 ∨ spBase ≤ at_ + pos := hat.imp (fun _ => by omega) fun _ => by omega
  cases hf : f pos with
  | none => exact hkept (at_ + pos) hx fun pos' w _ hw heq => by rw [Nat.add_left_cancel heq, hw] at hf; cases hf
  | some w =>
    rw [hread, t.readByte_live hx, s.readByte_live hx]
    exact hpatched.at_ ⟨at_ + pos, w.1, w.2⟩ (mem_segPatches_one.mpr ⟨pos, w, hpos, hf, rfl⟩)

end

end Sys2Proof.Machine
end
section
/-! PROOFS. The bits of MX segments: their elements as bits of a stream of bytes (R50, R196). -/
namespace Sys2Proof.Machine

theorem codeBits_eight (t : Tag) : 0 < codeBits t 8 ∧ codeBits t 8 ≤ 8 := by cases t <;> decide

/-! ## Elements read -/

/-- Bit i of element j of a segment is bit b × j + i of the bytes after the header, b the bits of an element (R50). -/
theorem segElem_testBit (t : Tag) (bytes : List Byte) (j : Nat) {i : Nat} (hi : i < codeBits t 8) :
    (segElem t bytes j).testBit i = (bytes.getD (16 + (codeBits t 8 * j + i) / 8) 0).getLsbD ((codeBits t 8 * j + i) % 8) := by
  obtain ⟨-, hb⟩ := codeBits_eight t
  unfold segElem
  dsimp only
  generalize codeBits t 8 * j = lo
  have htwo (a c : Byte) (n : Nat) : (a.toNat + 256 * c.toNat).testBit n = if n < 8 then a.getLsbD n else c.getLsbD (n - 8) := by
    rw [Nat.add_comm, show 256 = 2 ^ 8 from rfl, Nat.testBit_two_pow_mul_add _ a.isLt]
    rfl
  rw [Nat.testBit_mod_two_pow, decide_eq_true hi, Bool.true_and, Nat.testBit_div_two_pow, htwo]
  split
  · next h => rw [show (lo + i) / 8 = lo / 8 by omega, show (lo + i) % 8 = i + lo % 8 by omega]
  · next h => rw [show 16 + (lo + i) / 8 = 16 + lo / 8 + 1 by omega, show (lo + i) % 8 = i + lo % 8 - 8 by omega]

theorem segElem_lt (t : Tag) (bytes : List Byte) (j : Nat) : segElem t bytes j < 2 ^ codeBits t 8 := Nat.mod_lt _ (Nat.two_pow_pos _)

/-! ## Elements written -/

/-- The number with given bits. -/
theorem sumOfBits (g : Nat → Bool) : ∀ n : Nat, ((List.range n).foldl (fun a j => if g j then a + 2 ^ j else a) 0) < 2 ^ n ∧
    ∀ i, ((List.range n).foldl (fun a j => if g j then a + 2 ^ j else a) 0).testBit i = (decide (i < n) && g i)
  | 0 => ⟨Nat.one_pos, fun i => by simp⟩
  | n + 1 => by
    obtain ⟨hlt, hbits⟩ := sumOfBits g n
    rw [List.range_succ, List.foldl_append, List.foldl_cons, List.foldl_nil]
    by_cases hg : g n = true
    · rw [if_pos hg]
      refine ⟨by rw [pow_succ]; omega, fun i => ?_⟩
      rw [Nat.add_comm, ← Nat.mul_one (2 ^ n), Nat.testBit_two_pow_mul_add 1 hlt, hbits]
      by_cases hi : i < n
      · simp [hi, Nat.lt_succ_of_lt hi]
      · by_cases hin : i = n
        · simp [hin, hg]
        · have hone : (1 : Nat).testBit (i - n) = false := Bool.eq_false_iff.mpr fun h => by
            have := Nat.testBit_one_eq_true_iff_self_eq_zero.mp h
            omega
          simp [hi, hone, show ¬ i < n + 1 by omega]
    · rw [if_neg hg]
      refine ⟨hlt.trans (Nat.pow_lt_pow_right (by norm_num) (Nat.lt_succ_self n)), fun i => ?_⟩
      rw [hbits]
      by_cases hin : i = n
      · simp [hin, hg]
      · simp [show i < n + 1 ↔ i < n by omega]

/-- The bit that an element's new code puts at a place of the stream, if there is one. -/
def codeBitAt (t : Tag) (code : Nat → Option Nat) (n : Nat) : Option Bool := (code (n / codeBits t 8)).map fun c => c.testBit (n % codeBits t 8)

theorem segBits_getLsbD (t : Tag) (code : Nat → Option Nat) (pos : Nat) {i : Nat} (hi : i < 8) :
    (segBits t code pos).1.getLsbD i = decide (codeBitAt t code (8 * (pos - 16) + i) = some true) ∧
      (segBits t code pos).2.getLsbD i = (codeBitAt t code (8 * (pos - 16) + i)).isSome := by
  have hsum (g : Nat → Bool) : (BitVec.ofNat 8 ((List.range 8).foldl (fun a j => if g j then a + 2 ^ j else a) 0)).getLsbD i = g i := by
    rw [BitVec.getLsbD_ofNat, (sumOfBits g 8).2, decide_eq_true hi, Bool.true_and, Bool.true_and]
  exact ⟨hsum fun j => decide (codeBitAt t code (8 * (pos - 16) + j) = some true), hsum fun j => (codeBitAt t code (8 * (pos - 16) + j)).isSome⟩

/-- A bit of a changed byte: the new one where it is written, else the old. -/
theorem changedByte_getLsbD (w : Byte × Byte) (old : Byte) {i : Nat} (hi : i < 8) :
    (changedByte (some w) old).getLsbD i = if w.2.getLsbD i then w.1.getLsbD i else old.getLsbD i := by
  unfold changedByte
  rw [Option.map_some, Option.getD_some, BitVec.getLsbD_or, BitVec.getLsbD_and, BitVec.getLsbD_and, BitVec.getLsbD_not, decide_eq_true hi]
  cases w.2.getLsbD i <;> simp

theorem changedByte_full (v old : Byte) : changedByte (some (v, 0xFF)) old = v := by
  unfold changedByte
  rw [Option.map_some, Option.getD_some]
  rw [show (0xFF : Byte) = BitVec.allOnes 8 by decide, BitVec.and_allOnes, BitVec.not_allOnes, BitVec.and_zero, BitVec.or_zero]

/-- A byte into which no bit is written stays as it was. -/
theorem changedByte_bits (w : Byte × Byte) (old : Byte) {i : Nat} (hi : i < 8) :
    (changedByte (if w.2 = 0 then none else some w) old).getLsbD i = if w.2.getLsbD i then w.1.getLsbD i else old.getLsbD i := by
  split
  · next h => rw [h, if_neg (by simp)]; rfl
  · exact changedByte_getLsbD w old hi

/-! ## A segment of `vst.mx` -/

section
variable {r : VRun} {m : MReg} {d : VReg} {t : Tag} {q : Nat}

/-- The code that a `vst.mx` writes into element j of segment q, if it writes one. -/
def segCode (r : VRun) (m : MReg) (d : VReg) (t : Tag) (q j : Nat) : Option Nat :=
  if j < 1024 && r.active m (1024 * q + j) then some (r.elem 8 d (1024 * q + j) % 2 ^ codeBits t 8) else none

theorem segWrites_scale : segWrites r m d t q 0 = some (r.v.e.getD ((1024 * q / 2 ^ r.vt.bl + r.v.scalebase.toNat) % 256) 0, 0xFF) := rfl

theorem segWrites_reserved {p : Nat} (h1 : 1 ≤ p) (h2 : p < 16) : segWrites r m d t q p = some (0, 0xFF) := by
  unfold segWrites
  rw [if_neg (by omega), if_pos h2]

theorem segWrites_elements {p : Nat} (h : 16 ≤ p) :
    segWrites r m d t q p = if (segBits t (segCode r m d t q) p).2 = 0 then none else some (segBits t (segCode r m d t q) p) := by
  unfold segWrites
  rw [if_neg (by omega), if_neg (by omega)]
  rfl

/-- An element of a segment holds the code that has been written into it, or what it held (R196). -/
theorem segElem_changed {old new : List Byte} (hnew : ∀ p, 16 ≤ p → p < segSize t → new.getD p 0 = changedByte (segWrites r m d t q p) (old.getD p 0))
    {j : Nat} (hj : j < 1024) : segElem t new j = (segCode r m d t q j).getD (segElem t old j) := by
  obtain ⟨hpos, hb⟩ := codeBits_eight t
  refine Nat.eq_of_testBit_eq fun i => ?_
  have hcode : ∀ c, segCode r m d t q j = some c → c < 2 ^ codeBits t 8 := fun c hc => by
    unfold segCode at hc
    split at hc
    · cases hc
      exact Nat.mod_lt _ (Nat.two_pow_pos _)
    · cases hc
  by_cases hi : i < codeBits t 8
  · have hplace : (codeBits t 8 * j + i) / 8 < 128 * codeBits t 8 := by
      rw [Nat.div_lt_iff_lt_mul (by norm_num)]
      calc codeBits t 8 * j + i < codeBits t 8 * (j + 1) := by rw [Nat.mul_succ]; omega
        _ ≤ codeBits t 8 * 1024 := Nat.mul_le_mul_left _ hj
        _ = 128 * codeBits t 8 * 8 := by omega
    have hbit : codeBitAt t (segCode r m d t q) (codeBits t 8 * j + i) = (segCode r m d t q j).map fun c => c.testBit i := by
      unfold codeBitAt
      rw [Nat.mul_add_div hpos, Nat.div_eq_of_lt hi, Nat.mul_add_mod, Nat.mod_eq_of_lt hi, Nat.add_zero]
    have hstream : 8 * (16 + (codeBits t 8 * j + i) / 8 - 16) + (codeBits t 8 * j + i) % 8 = codeBits t 8 * j + i := by omega
    have hmod : (codeBits t 8 * j + i) % 8 < 8 := Nat.mod_lt _ (by norm_num)
    obtain ⟨hval, hmask⟩ := segBits_getLsbD t (segCode r m d t q) (16 + (codeBits t 8 * j + i) / 8) hmod
    rw [hstream, hbit] at hval hmask
    rw [segElem_testBit t new j hi, hnew _ (Nat.le_add_right 16 _) (by unfold segSize; omega), segWrites_elements (Nat.le_add_right 16 _),
      changedByte_bits _ _ hmod, hval, hmask]
    cases segCode r m d t q j with
    | none => exact (segElem_testBit t old j hi).symm
    | some c => simp
  · have hhigh {x : Nat} (hx : x < 2 ^ codeBits t 8) : x.testBit i = false :=
      Nat.testBit_lt_two_pow (lt_of_lt_of_le hx (Nat.pow_le_pow_right (by norm_num) (Nat.le_of_not_lt hi)))
    rw [hhigh (segElem_lt t new j)]
    cases hc : segCode r m d t q j with
    | none => exact (hhigh (segElem_lt t old j)).symm
    | some c => exact (hhigh (hcode c hc)).symm

end

end Sys2Proof.Machine
end
section
/-! PROOFS. The segments of `vst.mx` (R50, R121, R196). -/
namespace Sys2Proof.Machine

/-! ## What one access of a segment changes -/

section
variable {r : VRun} {m : MReg} {d : VReg} {t : Tag} {q at_ : Nat} {s u : State} {who : Option Nat}

/-- The bytes of a segment of a `vst.mx` in one run: the scale, zeros, the elements written and the others as they were (R196). -/
theorem segWrites_performs (hs : s.StoreOk) (hat : at_ + segSize t ≤ 2 ^ 44 ∨ spBase ≤ at_)
    (h : s.writePatches who s.live ((segPatches [(at_, segSize t)] (segSize t) (segWrites r m d t q)).map (·.2)) = some u) :
    let held (x : State) (j : Nat) : Nat := segElem t ((List.range (segSize t)).map fun y => x.readByte (at_ + y)) j
    u.readByte at_ = r.v.e.getD ((1024 * q / 2 ^ r.vt.bl + r.v.scalebase.toNat) % 256) 0 ∧
      (∀ j, 1 ≤ j → j < 16 → u.readByte (at_ + j) = 0) ∧
      (∀ x, (x < 2 ^ 44 ∨ spBase ≤ x) → (x < at_ ∨ at_ + segSize t ≤ x) → u.readByte x = s.readByte x) ∧
      ∀ j, j < 1024 → held u j = (segCode r m d t q j).getD (held s j) := by
  intro held
  obtain ⟨hbytes, hframe⟩ := writePatches_one hs hat h
  have hsize : 16 ≤ segSize t := Nat.le_add_right 16 _
  refine ⟨?_, fun j h1 h2 => ?_, hframe, fun j hj => segElem_changed (fun p _ hp => ?_) hj⟩
  · have hscale := hbytes 0 (by omega)
    rw [segWrites_scale, changedByte_full] at hscale
    exact hscale
  · rw [hbytes j (by omega), segWrites_reserved h1 h2, changedByte_full]
  · rw [List.getD_eq_getElem _ _ (by simpa using hp), List.getD_eq_getElem _ _ (by simpa using hp), List.getElem_map, List.getElem_map,
      List.getElem_range]
    exact hbytes p hp

end

/-! ## The runs of a segment -/

/-- Joined pieces are as long as the pieces. -/
theorem joinPieces_sum : ∀ l : List Nat, ((joinPieces l).map (·.2)).sum = 16 * l.length
  | [] => rfl
  | p :: l => by
    have ih := joinPieces_sum l
    unfold joinPieces
    split
    · next q n rest heq =>
      rw [heq] at ih
      simp only [List.map_cons, List.sum_cons] at ih
      split <;> simp only [List.map_cons, List.sum_cons, List.length_cons] <;> omega
    · next heq =>
      rw [heq] at ih
      simp only [List.map_nil, List.sum_nil] at ih
      simp only [List.map_cons, List.map_nil, List.sum_cons, List.sum_nil, List.length_cons]
      omega

/-- A run that a segment's checks give is no longer than the segment. -/
theorem State.segCheck_run_le {s : State} {k size : Nat} {acc : Acc} {va : W64} {runs : List (Nat × Nat)}
    (h : s.segCheck k acc va size = .ok runs) {x : Nat × Nat} (hx : x ∈ runs) : x.2 ≤ size := by
  have hlength {f : Except Nat (List Nat) → Nat → Except Nat (List Nat)}
      (hf : ∀ o j l, f o j = .ok l → ∃ l', o = .ok l' ∧ l.length ≤ l'.length + 1) :
      ∀ (js : List Nat) (o : Except Nat (List Nat)) (l : List Nat), js.foldl f o = .ok l → ∃ l', o = .ok l' ∧ l.length ≤ l'.length + js.length := by
    intro js
    induction js with
    | nil => exact fun o l h => ⟨l, h, le_rfl⟩
    | cons j js ih =>
      intro o l h
      obtain ⟨l1, h1, hle⟩ := ih (f o j) l h
      obtain ⟨l2, h2, hle'⟩ := hf o j l1 h1
      exact ⟨l2, h2, by rw [List.length_cons]; omega⟩
  unfold State.segCheck at h
  dsimp only at h
  split at h
  · cases h
  · next l hl =>
    cases h
    obtain ⟨l', hl', hle⟩ := hlength (fun o j l h => by
      split at h
      · cases h
      · next l0 =>
        split at h
        · cases h
        · split at h
          · cases h
          · split at h
            · cases h
            · cases h
              exact ⟨l0, rfl, by simp⟩) _ _ _ hl
    cases hl'
    rw [List.length_nil, List.length_range] at hle
    have hsum := joinPieces_sum l
    have hone := List.single_le_sum (fun _ _ => Nat.zero_le _) x.2 (List.mem_map.mpr ⟨x, hx, rfl⟩ : x.2 ∈ (joinPieces l).map (·.2))
    omega

theorem isDomain_eq_false {x : Nat} : isDomain x = false ↔ x < 2 ^ 46 ∨ 2 ^ 60 ≤ x := by
  unfold isDomain spBase
  rw [Bool.and_eq_false_iff, decide_eq_false_iff_not, decide_eq_false_iff_not]
  omega

/-- Bytes of runs that lie on this device lie on this device. -/
theorem runAt_here : ∀ {runs : List (Nat × Nat)}, (∀ x ∈ runs, x.2 ≤ 2 ^ 46 ∧ isDomain x.1 = false ∧ isDomain (x.1 + x.2) = false) →
    ∀ pos, isDomain (runAt runs pos) = false
  | [], _, _ => isDomain_eq_false.mpr (.inl (Nat.two_pow_pos 46))
  | (p, n) :: rest, h, pos => by
    unfold runAt
    split
    · next hpos =>
      obtain ⟨hn, h1, h2⟩ := h (p, n) List.mem_cons_self
      rw [isDomain_eq_false] at h1 h2 ⊢
      dsimp only at hn h1 h2
      omega
    · exact runAt_here (fun x hx => h x (List.mem_cons_of_mem _ hx)) _

/-! ## What storing segments leaves -/

theorem State.SeesAs.checkFor {s u : State} (h : s.SeesAs u) {a : Nat} (hlaunch : (u.front a).launch = (s.front a).launch)
    (hasked : u.requests = s.requests) (harrived : u.arrived = s.arrived) (o : Owner) (far : Bool) (aspace : W64) (sup : Bool) (k : Acc) (va : W64)
    (size n : Nat) : u.checkFor o a far aspace sup k va size n = s.checkFor o a far aspace sup k va size n := by
  have hdev : u.flash = s.flash := (congrArg State.flash h.rest :)
  unfold State.checkFor State.asked State.arrivedFor
  rw [h.checkVa, hdev, hasked, harrived, h.check hlaunch]

/-- Segments stored on this device: accesses of the context that have not performed, and the account. -/
structure SegmentsJoin (s t : State) (k : Nat) : Prop where
  rest : { t with fronts := s.fronts, cores := s.cores, touches := s.touches } = s
  cores : ∀ g, { t.core g with evc := (s.core g).evc } = s.core g
  others : ∀ b, b ≠ k → t.front b = s.front b
  front : { t.front k with acc := (s.front k).acc } = s.front k

theorem SegmentsJoin.refl (s : State) (k : Nat) : SegmentsJoin s s k := ⟨rfl, fun _ => rfl, fun _ _ => rfl, rfl⟩

theorem SegmentsJoin.trans {s t u : State} {k : Nat} (h1 : SegmentsJoin s t k) (h2 : SegmentsJoin t u k) : SegmentsJoin s u k where
  rest := (congrArg (fun x : State => { x with fronts := s.fronts, cores := s.cores, touches := s.touches }) h2.rest).trans h1.rest
  cores := fun g => (congrArg (fun x : Core => { x with evc := (s.core g).evc }) (h2.cores g)).trans (h1.cores g)
  others := fun b hb => (h2.others b hb).trans (h1.others b hb)
  front := (congrArg (fun f : Front => { f with acc := (s.front k).acc }) h2.front).trans h1.front

theorem Accounted.front {s t : State} (h : Accounted s t) (b : Nat) : t.front b = s.front b := (congrArg (fun x : State => x.front b) h.rest :)

theorem Accounted.joins {s t : State} (h : Accounted s t) (k : Nat) : SegmentsJoin s t k :=
  ⟨(congrArg (fun x : State => { x with fronts := s.fronts }) h.rest).trans rfl, h.cores, fun b _ => h.front b, by rw [h.front]⟩

theorem segmentsJoin_addAccess (s : State) (k : Nat) (x : Access) : SegmentsJoin s (s.setFront k ((s.front k).addAccess x)) k where
  rest := rfl
  cores := fun _ => rfl
  others := fun b hb => by rw [State.front_setFront, if_neg hb]
  front := by rw [State.front_setFront_self]; rfl

/-- The checks of a segment see nothing of the segments stored before it. -/
theorem SegmentsJoin.segCheck {s t : State} {k : Nat} (h : SegmentsJoin s t k) (acc : Acc) (va : W64) (size : Nat) :
    t.segCheck k acc va size = s.segCheck k acc va size := by
  have hsees : s.SeesAs t := {
    rest := (congrArg (fun x : State => { x with
      vecs := s.vecs, threads := s.threads, requests := s.requests, arrived := s.arrived, fired := s.fired }) h.rest).trans rfl
    utlb := fun g => (congrArg Core.utlb (h.cores g) :)
    fence := fun g => (congrArg Core.fence (h.cores g) :) }
  have hcheck := hsees.checkFor (a := k) (congrArg Front.launch h.front :) (congrArg State.requests h.rest :) (congrArg State.arrived h.rest :)
  have hspace : (t.front k).aspace = (s.front k).aspace := (congrArg Front.aspace h.front :)
  have hsup : (t.front k).sup = (s.front k).sup := (congrArg Front.sup h.front :)
  have huecc (pa n : Nat) : t.uecc pa n = s.uecc pa n := (congrArg (fun x : State => x.uecc pa n) h.rest :)
  unfold State.segCheck
  simp only [hcheck, hspace, hsup, huecc]

theorem State.noteSegment_accounted (s : State) (k : Nat) (e : Entry) (h : BitVec 2) (va : W64) (l : List (Nat × Patch)) :
    Accounted s (s.noteSegment k e h va l) := by
  refine accounted_foldl (fun s u => ?_) _ s
  dsimp only
  split
  · exact .refl s
  · exact s.note_accounted _

/-! ## Storing segments -/

/-- The access by which a segment joins those of its context that have not performed (R196). -/
def segAccess (e : Entry) (c : Cls) (va : W64) (patches : List Patch) (pa : Nat) : Access := ⟨.segment patches, e.po, e.addr, va, pa, c, 0, none, true⟩

section
variable {s : State} {k : Nat} {r : VRun} {c : Cls} {h : BitVec 2} {va : W64}

/-- A segment on this device joins the pending accesses as one. -/
theorem State.segStore_here {x : Nat × Patch} {l : List (Nat × Patch)} (hhere : ∀ y ∈ x :: l, isDomain y.2.pa = false) :
    s.segStore k r c h va (x :: l) = some ((s.noteSegment k r.e h va (x :: l)).setFront k
      (((s.noteSegment k r.e h va (x :: l)).front k).addAccess (segAccess r.e c va ((x :: l).map (·.2)) x.2.pa))) := by
  have haway : (x :: l).filter (fun y => isDomain y.2.pa) = [] := List.filter_eq_nil_iff.mpr fun y hy => by simp [hhere y hy]
  have hall : (x :: l).filter (fun y => !isDomain y.2.pa) = x :: l := List.filter_eq_self.mpr fun y hy => by simp [hhere y hy]
  unfold State.segStore
  rw [haway, hall]
  rfl

end

theorem segPatches_cons {runs : List (Nat × Nat)} {size : Nat} {f : Nat → Option (Byte × Byte)} {w : Byte × Byte} (hsize : 0 < size)
    (hf : f 0 = some w) : ∃ l, segPatches runs size f = (0, ⟨runAt runs 0, w.1, w.2⟩) :: l := by
  obtain ⟨n, rfl⟩ : ∃ n, size = n + 1 := ⟨size - 1, by omega⟩
  unfold segPatches
  rw [List.range_succ_eq_map, List.filterMap_cons, hf]
  exact ⟨_, rfl⟩

theorem segPatches_pa {runs : List (Nat × Nat)} {size : Nat} {f : Nat → Option (Byte × Byte)} {x : Nat × Patch} (hx : x ∈ segPatches runs size f) :
    ∃ pos, x.2.pa = runAt runs pos := by
  unfold segPatches at hx
  obtain ⟨pos, -, hpos⟩ := List.mem_filterMap.mp hx
  obtain ⟨w, -, rfl⟩ := Option.map_eq_some_iff.mp hpos
  exact ⟨pos, rfl⟩

section
variable {s : State} {k : Nat} {r : VRun} {m : MReg} {d : VReg} {c : Cls} {t : Tag} {h : BitVec 2} {runs : Nat → List (Nat × Nat)}

/-- The address of segment n. -/
def segVa (r : VRun) (t : Tag) (n : Nat) : W64 := r.e.ops.getD 0 0 + BitVec.ofNat 64 (n * segSize t)

/-- A segment whose runs lie on this device. -/
theorem State.segStore_joins {u : State} {n : Nat} {runs : List (Nat × Nat)} (hcheck : s.segCheck k .store (segVa r t n) (segSize t) = .ok runs)
    (hruns : ∀ x ∈ runs, isDomain x.1 = false ∧ isDomain (x.1 + x.2) = false) :
    ∃ v, u.segStore k r c h (segVa r t n) (segPatches runs (segSize t) (segWrites r m d t n)) = some v ∧ SegmentsJoin u v k ∧
      v.front k = (u.front k).addAccess
        (segAccess r.e c (segVa r t n) ((segPatches runs (segSize t) (segWrites r m d t n)).map (·.2)) (runAt runs 0)) := by
  have hsize : 0 < segSize t := Nat.lt_of_lt_of_le (by norm_num) (Nat.le_add_right 16 _)
  have hle : segSize t ≤ 2 ^ 46 := by
    have := (codeBits_eight t).2
    unfold segSize
    omega
  have hhere := runAt_here fun x hx => ⟨(State.segCheck_run_le hcheck hx).trans hle, hruns x hx⟩
  obtain ⟨l, hl⟩ := segPatches_cons (runs := runs) hsize (segWrites_scale (r := r) (m := m) (d := d) (t := t) (q := n))
  have hdev : ∀ y ∈ segPatches runs (segSize t) (segWrites r m d t n), isDomain y.2.pa = false := fun y hy => by
    obtain ⟨pos, hpos⟩ := segPatches_pa hy
    rw [hpos]
    exact hhere pos
  rw [hl] at hdev ⊢
  have hnote := u.noteSegment_accounted k r.e h (segVa r t n)
    ((0, ⟨runAt runs 0, r.v.e.getD ((1024 * n / 2 ^ r.vt.bl + r.v.scalebase.toNat) % 256) 0, 0xFF⟩) :: l)
  refine ⟨_, State.segStore_here hdev, (hnote.joins k).trans (segmentsJoin_addAccess _ k _), ?_⟩
  rw [State.front_setFront_self, hnote.front]

/-- Storing segments that lie on this device: all of them join the pending accesses of the context. -/
theorem storeSegments_joins : ∀ (qs : List Nat) (p : SegProgress), SegmentsJoin s p.s k →
    (∀ n ∈ qs, s.segCheck k .store (segVa r t n) (segSize t) = .ok (runs n) ∧
      ∀ x ∈ runs n, isDomain x.1 = false ∧ isDomain (x.1 + x.2) = false) →
    let x := storeSegments k r m d c t h none qs p
    SegmentsJoin s x.s k ∧ x.stored.length = p.stored.length + qs.length ∧
      x.s.front k = qs.foldl (fun (f : Front) n => f.addAccess (segAccess r.e c (segVa r t n)
        ((segPatches (runs n) (segSize t) (segWrites r m d t n)).map (·.2)) (runAt (runs n) 0))) (p.s.front k)
  | [], p, hp, _ => ⟨hp, rfl, rfl⟩
  | n :: qs, p, hp, hok => by
    obtain ⟨hcheck, hruns⟩ := hok n List.mem_cons_self
    obtain ⟨v, hv, hjoin, hfront⟩ := State.segStore_joins (u := p.s) (r := r) (m := m) (d := d) (c := c) (h := h) hcheck hruns
    intro x
    have hstep : x = storeSegments k r m d c t h none qs { p with
        stored := p.stored ++ [⟨segVa r t n, runs n, (r.actives m r.vl).filterMap fun i => if i / 1024 = n then some (i, segTouched t (i % 1024)) else none⟩]
        s := v } := by
      unfold x
      rw [storeSegments]
      change (match p.s.segCheck k .store (segVa r t n) (segSize t) with | .error c => _ | .ok runs => _) = _
      rw [hp.segCheck, hcheck]
      change (match p.s.segStore k r c h (segVa r t n) (segPatches (runs n) (segSize t) (segWrites r m d t n)) with | none => p | some s => _) = _
      rw [hv]
      rfl
    rw [hstep]
    obtain ⟨hrest, hlen, hfold⟩ := storeSegments_joins qs { p with
        stored := p.stored ++ [⟨segVa r t n, runs n, (r.actives m r.vl).filterMap fun i => if i / 1024 = n then some (i, segTouched t (i % 1024)) else none⟩]
        s := v } (hp.trans hjoin) fun j hj => hok j (List.mem_cons_of_mem n hj)
    refine ⟨hrest, hlen.trans ?_, hfold.trans ?_⟩
    · simp only [List.length_append, List.length_cons, List.length_nil]
      omega
    · rw [List.foldl_cons]
      exact congrArg (fun f => List.foldl _ f qs) hfront

/-- Storing segments whose first fails a check stops there. -/
theorem storeSegments_fails {src : Option Stop} {n x : Nat} {qs : List Nat} (hcheck : s.segCheck k .store (segVa r t n) (segSize t) = .error x) :
    storeSegments k r m d c t h src (n :: qs) ⟨[], none, s⟩ =
      ⟨[], some (s.memTrap k r false true 8 d (1024 * n) (segVa r t n) 16 x), s⟩ := by
  rw [storeSegments]
  change (match s.segCheck k .store (segVa r t n) (segSize t) with | .error c => _ | .ok runs => _) = _
  rw [hcheck]
  rfl

end

end Sys2Proof.Machine
end
section
/-! PROOFS. Vector stores: O44 (R37, R180 to R185, R194 to R196, R366, R380). -/
namespace Sys2Proof.Machine

/-! ## The end of a move of `vst.mx` -/

/-- What a `vst.mx` does once it has stored segments: it completes, moves on, or takes the trap of its first segment. -/
def endSegments (s : State) (k : Nat) (e : Entry) (r : VRun) (t : Tag) (first : Nat) (p : SegProgress) : Out :=
  let n := first + p.stored.length
  let g := (r.gatherSegs s k (segSize t) (min r.vl (1024 * n)) p.stored).e
  let u := (r.segSlices p.stored).foldl State.countConflicts p.s
  if r.vl ≤ 1024 * n then .next (u.setVec k ((u.vec k).complete g))
  else if first < n then .next (u.setVec k ((u.vec k).progress g (1024 * n)))
  else
    match p.stop with
    | some x => if s.mayTrap k e then .next ((x.look.elim s s.note).vectorTrap k e x.i x.trap) else .next s
    | none => .next s

section
variable {s : State} {k : Nat} {e : Entry} {r : VRun} {t : Tag} {first : Nat} {p : SegProgress}

/-- A move that has stored segments completes or moves on. -/
theorem endSegments_stored (hp : 0 < p.stored.length) : ∃ y, endSegments s k e r t first p =
    .next (((r.segSlices p.stored).foldl State.countConflicts p.s).setVec k
      (if r.vl ≤ 1024 * (first + p.stored.length) then
        (((r.segSlices p.stored).foldl State.countConflicts p.s).vec k).complete { r.e with tally := y }
      else (((r.segSlices p.stored).foldl State.countConflicts p.s).vec k).progress { r.e with tally := y } (1024 * (first + p.stored.length)))) := by
  refine ⟨(r.gatherSegs s k (segSize t) (min r.vl (1024 * (first + p.stored.length))) p.stored).e.tally, ?_⟩
  unfold endSegments
  dsimp only
  split
  · rfl
  · rw [if_pos (by omega)]
    rfl

/-- A move whose first segment has failed traps once it may. -/
theorem endSegments_stopped {x : Stop} (hs : p.stored = []) (hstop : p.stop = some x) (hlt : 1024 * first < r.vl) (hmay : s.mayTrap k e = true) :
    endSegments s k e r t first p = .next ((x.look.elim s s.note).vectorTrap k e x.i x.trap) := by
  unfold endSegments
  dsimp only
  rw [hs, hstop]
  rw [if_neg (by simpa using hlt), if_neg (by simp)]
  exact if_pos hmay

end

/-- The segments of a move, ascending. -/
theorem filter_range_ge {first last : Nat} (h : first ≤ last) :
    (List.range last).filter (fun q => decide (first ≤ q)) = (List.range (last - first)).map (first + ·) := by
  obtain ⟨n, rfl⟩ := Nat.exists_eq_add_of_le h
  rw [Nat.add_sub_cancel_left, List.range_add, List.filter_append, List.filter_eq_nil_iff.mpr, List.nil_append, List.filter_eq_self.mpr]
  · exact fun q hq => by obtain ⟨j, -, rfl⟩ := List.mem_map.mp hq; simp
  · exact fun q hq => by simpa using List.mem_range.mp hq

/-- Replacing an entry by itself changes nothing. -/
theorem State.Moves.setEntry_self {s : State} {k j hi : Nat} {e : Entry} (h : s.Moves k j hi e) : (s.vec k).setEntry e = s.vec k := by
  have hmap : (s.vec k).infl.map (fun x => if x.po = e.po then e else x) = (s.vec k).infl := by
    refine (List.map_congr_left fun x hx => ?_).trans (List.map_id _)
    split
    · next hpo =>
      obtain ⟨i, hi⟩ := List.mem_iff_getElem?.mp hx
      have hj := h.alone i x hi hpo
      rw [hj, h.entry] at hi
      exact Option.some.inj hi
    · rfl
  unfold Vec.setEntry
  rw [hmap]

/-! ## The moves of `vst.mx` -/

/-- The trap of a segment that fails a check, at the element with which it begins (R185, R196). -/
def segTrap (v : Vec) (e : Entry) (x : Nat) (va : W64) : Trap :=
  { code := x, write := true, elem := e.pix.toNat, lane := faultLane v 8 x e.pix.toNat, tval := va }

/-- The segment at which a move of `vst.mx` ends. -/
def lastSegment (v : Vec) (e : Entry) (hi : Nat) (m : MReg) : Nat :=
  if (Kinds.of v e false hi m).ends then (e.vl.toNat + 1023) / 1024 else max (min hi e.vl.toNat / 1024) (e.pix.toNat / 1024 + 1)

section
variable {s : State} {k p hi : Nat} {e : Entry} (hmoves : s.Moves k p hi e) (hbad : (s.vec k).bad = [])
  {d : VReg} (hsew : e.vtype.sew = 8) (hmx : ((s.vec k).tagOf d).isMx = true) (hstart : e.pix.toNat % 1024 = 0) (hlt : e.pix.toNat < e.vl.toNat)
  (a : XReg) (c : Cls) (h : BitVec 2) (m : MReg)
include hmoves hbad hsew hmx hstart hlt

theorem State.Moves.exec_vstMx :
    exec (.vstMx d a c h m) s = endSegments s k e (VRun.of (s.vec k) e false hi) ((s.vec k).tagOf d) (e.pix.toNat / 1024)
      (storeSegments k (VRun.of (s.vec k) e false hi) m d c ((s.vec k).tagOf d) h none
        ((List.range (lastSegment (s.vec k) e hi m)).filter fun q => decide (e.pix.toNat / 1024 ≤ q)) ⟨[], none, s⟩) := by
  have hends : (VRun.of (s.vec k) e false hi).ends = (Kinds.of (s.vec k) e false hi m).ends := by
    unfold Kinds.ends
    rw [show decide ((Kinds.of (s.vec k) e false hi m).vl ≤ (Kinds.of (s.vec k) e false hi m).start) = false from
      decide_eq_false (Nat.not_le_of_lt hlt), Bool.false_or]
    rfl
  refine (hmoves.vectorInstr _ _ _ _).trans ?_
  dsimp only
  rw [hmoves.vrun, VRun.uecc_none _ _ hbad, hends]
  have hkind : ¬ (decide (e.vtype.sew ≠ 8) || !((s.vec k).tagOf d).isMx) = true := by simp [hsew, hmx]
  exact (if_neg hkind).trans ((if_neg (not_not.mpr hstart)).trans (if_neg (Nat.not_le_of_lt hlt)))

omit hmoves hbad hsew hmx hstart in
theorem first_lt_lastSegment : e.pix.toNat / 1024 < lastSegment (s.vec k) e hi m := by
  unfold lastSegment
  split
  · omega
  · exact lt_of_lt_of_le (Nat.lt_succ_self _) (le_max_right _ _)

/-- A `vst.mx` whose segments lie on this device (R196). -/
theorem vstMx_joins (runs : Nat → List (Nat × Nat))
    (hruns : ∀ n, e.pix.toNat / 1024 ≤ n → n < lastSegment (s.vec k) e hi m →
      s.segCheck k .store (e.ops.getD 0 0 + BitVec.ofNat 64 (n * segSize ((s.vec k).tagOf d))) (segSize ((s.vec k).tagOf d)) = .ok (runs n) ∧
      ∀ x ∈ runs n, isDomain x.1 = false ∧ isDomain (x.1 + x.2) = false) :
    ∃ u y, exec (.vstMx d a c h m) s = .next u ∧ (∀ b, b ≠ k → u.front b = s.front b) ∧
      u.front k = ((List.range (lastSegment (s.vec k) e hi m)).filter fun n => decide (e.pix.toNat / 1024 ≤ n)).foldl (fun (f : Front) n => f.addAccess
        (segAccess e c (segVa (VRun.of (s.vec k) e false hi) ((s.vec k).tagOf d) n)
          ((segPatches (runs n) (segSize ((s.vec k).tagOf d)) (segWrites (VRun.of (s.vec k) e false hi) m d ((s.vec k).tagOf d) n)).map (·.2))
          (runAt (runs n) 0))) (s.front k) ∧
      u.vec k = (if e.vl.toNat ≤ 1024 * lastSegment (s.vec k) e hi m then (s.vec k).complete { e with tally := y }
        else (s.vec k).setEntry { e with tally := y, pix := BitVec.ofNat 13 (1024 * lastSegment (s.vec k) e hi m), started := true }) ∧
      (∀ j, j ≠ k → u.vec j = s.vec j) ∧ (∀ g, { u.core g with evc := (s.core g).evc } = s.core g) ∧
      { u with fronts := s.fronts, vecs := s.vecs, cores := s.cores, touches := s.touches } = s := by
  let r := VRun.of (s.vec k) e false hi
  have hfirst := first_lt_lastSegment (s := s) (k := k) (hi := hi) hlt m
  obtain ⟨qs, hqs⟩ : ∃ qs, qs = (List.range (lastSegment (s.vec k) e hi m)).filter fun q => decide (e.pix.toNat / 1024 ≤ q) := ⟨_, rfl⟩
  have hcount : qs.length = lastSegment (s.vec k) e hi m - e.pix.toNat / 1024 := by
    rw [hqs, filter_range_ge hfirst.le, List.length_map, List.length_range]
  obtain ⟨hjoin, hlen, hfront⟩ := storeSegments_joins (r := r) (m := m) (d := d) (c := c) (h := h) (runs := runs) qs ⟨[], none, s⟩ (.refl s k)
    fun n hn => by
      rw [hqs] at hn
      obtain ⟨hn1, hn2⟩ := List.mem_filter.mp hn
      exact hruns n (by simpa using hn2) (List.mem_range.mp hn1)
  obtain ⟨x, hx⟩ : ∃ x, x = storeSegments k r m d c ((s.vec k).tagOf d) h none qs ⟨[], none, s⟩ := ⟨_, rfl⟩
  rw [← hx] at hjoin hlen hfront
  have hlen : x.stored.length = lastSegment (s.vec k) e hi m - e.pix.toNat / 1024 := hlen.trans ((Nat.zero_add _).trans hcount)
  obtain ⟨y, hy⟩ := endSegments_stored (s := s) (k := k) (e := e) (r := r) (t := (s.vec k).tagOf d) (first := e.pix.toNat / 1024) (p := x) (by omega)
  rw [hlen, Nat.add_sub_cancel' hfirst.le] at hy
  have hcounted : Accounted x.s ((r.segSlices x.stored).foldl State.countConflicts x.s) :=
    accounted_foldl (fun s sp => s.countConflicts_accounted sp) _ _
  have hall := hjoin.trans (hcounted.joins k)
  obtain ⟨u, hu⟩ : ∃ u, u = (r.segSlices x.stored).foldl State.countConflicts x.s := ⟨_, rfl⟩
  rw [← hu] at hall hy hcounted
  have hvec (j : Nat) : u.vec j = s.vec j := (congrArg (fun z : State => z.vec j) hall.rest :)
  have hexec := State.Moves.exec_vstMx hmoves hbad hsew hmx hstart hlt a c h m
  rw [← hqs] at hexec ⊢
  refine ⟨_, y, (hexec.trans (congrArg (endSegments s k e r _ _) hx.symm)).trans hy, fun b hb => hall.others b hb, ?_, ?_, fun j hj => ?_, hall.cores, ?_⟩
  · exact (hcounted.front k).trans hfront
  · rw [State.vec_setVec_self, hvec]
    rfl
  · rw [State.vec_setVec, if_neg hj, hvec]
  · exact (congrArg (fun z : State => { z with vecs := s.vecs }) hall.rest).trans rfl

/-- A `vst.mx` whose first segment fails a check (R121, R196). -/
theorem vstMx_traps {x : Nat}
    (hcheck : s.segCheck k .store (e.ops.getD 0 0 + BitVec.ofNat 64 (e.pix.toNat / 1024 * segSize ((s.vec k).tagOf d)))
      (segSize ((s.vec k).tagOf d)) = .error x) (hok : s.HandlerOk k) (hmay : s.mayTrap k e = true)
    (hflags : ∀ y ∈ (s.vec k).infl, y.flags &&& (s.vec k).ftrap = 0) :
    ∃ u, exec (.vstMx d a c h m) s = .next u ∧
      TrapTaken s u k true e.addr (segTrap (s.vec k) e x
        (e.ops.getD 0 0 + BitVec.ofNat 64 (e.pix.toNat / 1024 * segSize ((s.vec k).tagOf d)))) ∧
      u.mem = s.mem ∧ (u.vec k).v = (s.vec k).v ∧ (u.vec k).vstart = e.pix := by
  let r := VRun.of (s.vec k) e false hi
  have hfirst := first_lt_lastSegment (s := s) (k := k) (hi := hi) hlt m
  have hfull : 1024 * (e.pix.toNat / 1024) = e.pix.toNat := by omega
  obtain ⟨n, hn⟩ : ∃ n, lastSegment (s.vec k) e hi m - e.pix.toNat / 1024 = n + 1 := ⟨_, (Nat.succ_pred_eq_of_pos (by omega)).symm⟩
  have hqs : (List.range (lastSegment (s.vec k) e hi m)).filter (fun q => decide (e.pix.toNat / 1024 ≤ q)) =
      (e.pix.toNat / 1024) :: (List.range n).map fun j => e.pix.toNat / 1024 + (j + 1) := by
    rw [filter_range_ge hfirst.le, hn, List.range_succ_eq_map, List.map_cons, List.map_map]
    rfl
  have hexec := State.Moves.exec_vstMx hmoves hbad hsew hmx hstart hlt a c h m
  rw [hqs, storeSegments_fails (r := r) hcheck, endSegments_stopped rfl rfl (by rw [hfull]; exact hlt) hmay, hfull] at hexec
  obtain ⟨w, hw⟩ : ∃ w, w = s.note (s.failing k false (s.front k).aspace (segVa r ((s.vec k).tagOf d) (e.pix.toNat / 1024)) 16 x) := ⟨_, rfl⟩
  have hwvec : w.vec k = s.vec k := by rw [hw]; rfl
  have hwfront : w.front k = s.front k := by rw [hw]; rfl
  obtain ⟨htrap, hmem, hv, -, -, -, hvstart, -⟩ := vectorTrap_taken (s := s) (w := w) (y := e.tally) (n := e.pix.toNat)
    (x := segTrap (s.vec k) e x (e.ops.getD 0 0 + BitVec.ofNat 64 (e.pix.toNat / 1024 * segSize ((s.vec k).tagOf d)))) hmoves (Bool.and_eq_true_iff.mp hmay).1 hflags (by rw [hwvec]; exact hmoves.setEntry_self.symm)
    (State.SeesAs.handlerOk (s := s) (by rw [hw]; exact ⟨rfl, fun _ => rfl, fun _ => rfl⟩) hwfront hok) rfl
  refine ⟨_, hexec.trans (by rw [hw]; rfl), htrap.congr hwfront ?_ ?_, hmem.trans ?_, hv, ?_⟩
  · rw [hwvec]
  · rw [hwvec]
  · rw [hw]; rfl
  · rw [hvstart, BitVec.ofNat_toNat, BitVec.setWidth_eq]

end

/-- The code that a segment's element receives, as an element of the source (R196). -/
theorem segCode_getD (v : Vec) (e : Entry) (hi : Nat) (m : MReg) (d : VReg) (t : Tag) (n old : Nat) {j : Nat} (hj : j < 1024) :
    (segCode (VRun.of v e false hi) m d t n j).getD old =
      if e.pix.toNat ≤ 1024 * n + j ∧ 1024 * n + j < e.vl.toNat ∧ v.maskBit m (1024 * n + j) = true
      then v.elem v.lanes 8 d (1024 * n + j) % 2 ^ codeBits t 8 else old := by
  have hactive : (decide (j < 1024) && (VRun.of v e false hi).active m (1024 * n + j)) = true ↔
      e.pix.toNat ≤ 1024 * n + j ∧ 1024 * n + j < e.vl.toNat ∧ v.maskBit m (1024 * n + j) = true := by
    rw [decide_eq_true hj, Bool.true_and, VRun.active, Bool.and_eq_true, Bool.and_eq_true, decide_eq_true_eq, decide_eq_true_eq, and_assoc]
    rfl
  unfold segCode
  by_cases h : e.pix.toNat ≤ 1024 * n + j ∧ 1024 * n + j < e.vl.toNat ∧ v.maskBit m (1024 * n + j) = true
  · rw [if_pos (hactive.mpr h), if_pos h]
    rfl
  · rw [if_neg (mt hactive.mp h), if_neg h]
    rfl

end Sys2Proof.Machine
end
section
namespace Sys2Proof.Machine

/-- Settles O44: each form by elements goes through `StoreRuns`, the state after the stores of the active elements in order;
`vst.mx` through the accesses that its segments join, and an access through the bits of the segment's bytes. -/
theorem vectorStores : Obligations.VectorStores := by
  intro s k p hi e d a b g c h m pa hmoves hfpx hbad hheld v vt w z q td act bytes op pair offset written lane runs
  refine ⟨storeRuns_vstUnit pa hmoves hfpx hbad hheld a, storeRuns_vstStr pa hmoves hfpx hbad hheld a b,
    storeRuns_vst2d pa hmoves hfpx hbad hheld a b, fun hg => ?_,
    fun hlanes t ht hw => storeRuns_vstShape pa hmoves hfpx hbad hheld a hlanes ht hw,
    fun hlanes => hmoves.exec_vstShape_laneless hlanes d a g c h m, fun hsew hmx hstart hlt => ?_⟩
  · have hoffset := storeRuns_vstIdx (d := d) (h := h) (m := m) pa hmoves hfpx hbad hheld a hg
    simp only [Vec.offsetAt_eq] at hoffset
    exact hoffset
  · intro size first last va changes
    refine ⟨fun runs hruns => ?_, ?_, fun x hx hok hmay hflags => ?_⟩
    · exact vstMx_joins hmoves hbad hsew hmx hstart hlt a c h m runs hruns
    · intro n at_ u hu hmem hkeys hat held
      obtain ⟨hscale, hzero, hframe, helems⟩ := segWrites_performs (s := s) (r := VRun.of v e false hi) ⟨hmem, hkeys⟩ hat hu
      exact ⟨hscale, hzero, hframe, fun j hj => (helems j hj).trans (segCode_getD v e hi m d td n _ hj)⟩
    · have htrap := vstMx_traps hmoves hbad hsew hmx hstart hlt a c h m hx hok hmay hflags
      unfold segTrap at htrap
      rw [← hsew] at htrap
      exact htrap

end Sys2Proof.Machine
end
section
/-! PROOFS. CSR writes of the moving front on VTYPE, ASPACE, LANEPART, LANEREQ, BELSTAT and the micro-op registers (R76, R85 to R87, R146). -/
namespace Sys2Proof.Machine

/-- A CSR effect of the moving front leaves its write, or nothing where the write is refused. -/
theorem csrEffect_front {s : State} {a : Nat} (h : ∃ df, s.actor = .front a df) (f : Nat → Option State) :
    csrEffect s f = .next ((f a).getD s) := by
  obtain ⟨df, h⟩ := h
  unfold csrEffect onFront
  rw [h]

/-- A write that is taken. -/
theorem exec_csrEffect_some {s t : State} {a : Nat} (h : ∃ df, s.actor = .front a df) {i : Instr} {f : Nat → Option State}
    (hi : exec i s = csrEffect s f) (hf : f a = some t) : exec i s = .next t := by
  rw [hi, csrEffect_front h, hf, Option.getD_some]

/-- A write that a test refuses changes nothing (R82). -/
theorem exec_csrEffect_none {s : State} {a : Nat} (h : ∃ df, s.actor = .front a df) {i : Instr} {f : Nat → Option State}
    (hi : exec i s = csrEffect s f) (hf : f a = none) : exec i s = .next s := by
  rw [hi, csrEffect_front h, hf, Option.getD_none]

/-! ## Frames of an update -/

theorem State.onlyVec_setVec (s : State) (k : Nat) (v : Vec) : s.OnlyVec (s.setVec k v) k :=
  ⟨fun j hj => by rw [State.vec_setVec, if_neg hj], rfl⟩

theorem State.onlyCore_setCore (s : State) (g : Nat) (c : Core) : s.OnlyCore (s.setCore g c) g :=
  ⟨fun j hj => by rw [State.core_setCore, if_neg hj], rfl⟩

theorem State.onlyCluster_setCluster (s : State) (g : Nat) (c : Cluster) : s.OnlyCluster (s.setCluster g c) g :=
  ⟨fun j hj => by rw [State.cluster_setCluster, if_neg hj], rfl⟩

/-! ## VTYPE (R85) -/

theorem lanesOf_le (grant : BitVec 8) : lanesOf grant ≤ 64 := by
  have := List.length_filter_le (fun j => grant.getLsbD j) (List.range 8)
  rw [List.length_range] at this
  unfold lanesOf
  omega

/-- VLMAX fits its register. -/
theorem vlmaxOf_lt {lanes : Nat} (h : lanes ≤ 64) (vt : VType) : vlmaxOf lanes vt < 2 ^ 13 := by
  have hl : vt.lmul ≤ 2 ^ 3 := Nat.pow_le_pow_right (by norm_num) (by have := (vt.extractLsb' 3 2).isLt; omega)
  have hs : 8 ≤ vt.sew := Nat.le_mul_of_pos_right 8 (by positivity)
  have hp : lanes * vt.lmul ≤ 64 * 2 ^ 3 := Nat.mul_le_mul h hl
  calc vlmaxOf lanes vt ≤ 64 * lanes * vt.lmul / 8 := Nat.div_le_div_left hs (by norm_num)
    _ < 2 ^ 13 := by rw [Nat.mul_assoc]; omega

theorem Vec.setVtype_vlmax (v : Vec) (x : W64) :
    (v.setVtype x).vlmax.toNat = vlmaxOf (lanesOf v.fgrant) (x.setWidth 24) := by
  have h := vlmaxOf_lt (lanesOf_le v.fgrant) (x.extractLsb' 0 24)
  show (BitVec.ofNat 13 _).toNat = _
  rw [BitVec.toNat_ofNat, Nat.mod_eq_of_lt h, BitVec.setWidth_eq_extractLsb' (by norm_num)]

theorem Vec.setVtype_vl (v : Vec) (x : W64) : (v.setVtype x).vl.toNat = min v.vl.toNat (v.setVtype x).vlmax.toNat := by
  have h := vlmaxOf_lt (lanesOf_le v.fgrant) (x.extractLsb' 0 24)
  show (BitVec.ofNat 13 _).toNat = min _ (BitVec.ofNat 13 _).toNat
  rw [BitVec.toNat_ofNat, BitVec.toNat_ofNat, Nat.mod_eq_of_lt h, Nat.mod_eq_of_lt (by omega)]

theorem csrWrite_vtype (s : State) (a : Nat) (v : W64) :
    csrWrite s a 0x000 v = if isDrone a = false ∧ vtypeValid v = true then some (s.setVec a ((s.vec a).setVtype v)) else none := by
  show (if isDrone a = true then none else vtypeWrite s a v) = _
  unfold vtypeWrite
  cases isDrone a <;> simp

/-! ## ASPACE (R86, R146, R317) -/

theorem csrWrite_aspace (s : State) (a : Nat) (v : W64) :
    csrWrite s a 0x106 v = if v.extractLsb' 32 16 = 0 then some (s.setAspace a v) else none := rfl

/-- A state with what is on its way to its agents as in another. -/
def State.withReads (t s : State) : State := { t with requests := s.requests, arrived := s.arrived }

theorem State.forget_withReads (t : State) (o : Owner) (s : State) : (t.forget o).withReads s = t.withReads s := rfl

/-- Dropping the prefetch of the streams changes beside them only what is on its way to them. -/
theorem State.dropPrefetch_withReads (s : State) (k : Nat) :
    (s.dropPrefetch k).withReads s = s.setVec k (s.vec k).dropPrefetch := by
  unfold State.dropPrefetch
  refine foldl_keeps (fun t : State => t.withReads s) (fun t j => ?_) _ _
  split
  · split
    · rfl
    · exact State.forget_withReads t _ s
  · rfl

@[simp] theorem State.withReads_vecs (t s : State) : (t.withReads s).vecs = t.vecs := rfl
@[simp] theorem State.withReads_fronts (t s : State) : (t.withReads s).fronts = t.fronts := rfl
@[simp] theorem State.withReads_vec (t s : State) (k : Nat) : (t.withReads s).vec k = t.vec k := rfl
@[simp] theorem State.withReads_front (t s : State) (k : Nat) : (t.withReads s).front k = t.front k := rfl

theorem State.dropPrefetch_vec (s : State) (k j : Nat) :
    (s.dropPrefetch k).vec j = if j = k then (s.vec k).dropPrefetch else s.vec j := by
  rw [← State.vec_setVec, ← s.dropPrefetch_withReads k, State.withReads_vec]

theorem State.dropPrefetch_front (s : State) (k b : Nat) : (s.dropPrefetch k).front b = s.front b := by
  rw [← State.withReads_front, s.dropPrefetch_withReads k, State.setVec_front]

/-- Input streams under a new ASPACE. -/
def Vec.setAspace (v : Vec) (x : W64) : Vec :=
  { v with s := v.s.map fun o => o.map fun t => if t.out then t else { t with aspace := x } }

theorem State.setAspace_drone {s : State} {a : Nat} (h : isDrone a = true) (x : W64) :
    s.setAspace a x = s.setFront a { s.front a with aspace := x } := by
  unfold State.setAspace
  rw [h, if_pos rfl]

theorem State.setAspace_context {s : State} {a : Nat} (h : isDrone a = false) (x : W64) :
    ∃ u, u = (s.setFront a { s.front a with aspace := x }).dropPrefetch a ∧ s.setAspace a x = u.setVec a ((u.vec a).setAspace x) := by
  refine ⟨_, rfl, ?_⟩
  unfold State.setAspace
  rw [h, if_neg Bool.false_ne_true]
  rfl

/-- What a new ASPACE changes (R86, R146). -/
theorem State.setAspace_frame (s : State) (a : Nat) (x : W64) :
    { s.setAspace a x with fronts := s.fronts, vecs := s.vecs, requests := s.requests, arrived := s.arrived } = s := by
  cases h : isDrone a with
  | true =>
    rw [State.setAspace_drone h]
    rfl
  | false =>
    obtain ⟨u, hu, ht⟩ := State.setAspace_context (s := s) h x
    have hreads := (s.setFront a { s.front a with aspace := x }).dropPrefetch_withReads a
    rw [← hu] at hreads
    rw [ht]
    exact congrArg (fun t : State => { t with fronts := s.fronts, vecs := s.vecs }) hreads

theorem State.setAspace_front (s : State) (a : Nat) (x : W64) (b : Nat) :
    (s.setAspace a x).front b = if b = a then { s.front a with aspace := x } else s.front b := by
  rw [← State.front_setFront]
  cases h : isDrone a with
  | true => rw [State.setAspace_drone h]
  | false =>
    obtain ⟨u, hu, ht⟩ := State.setAspace_context (s := s) h x
    rw [ht, State.setVec_front, hu, State.dropPrefetch_front]

theorem State.setAspace_vec_other (s : State) {a j : Nat} (hj : j ≠ a) (x : W64) : (s.setAspace a x).vec j = s.vec j := by
  cases h : isDrone a with
  | true => rw [State.setAspace_drone h, State.setFront_vec]
  | false =>
    obtain ⟨u, hu, ht⟩ := State.setAspace_context (s := s) h x
    rw [ht, State.vec_setVec, if_neg hj, hu, State.dropPrefetch_vec, if_neg hj, State.setFront_vec]

theorem streams_map_getD (f : Stream → Stream) (v : Vector (Option Stream) 8) (j : Nat) :
    (v.map fun o => o.map f).getD j none = (v.getD j none).map f :=
  Vector.getD_map (fun o : Option Stream => o.map f) v j none

/-- A bound stream under a new ASPACE: an input stream has dropped its prefetch. -/
theorem State.setAspace_stream {s : State} {a : Nat} (h : isDrone a = false) (v : W64) {j : SReg} {x : Stream}
    (hx : (s.vec a).stream j = some x) :
    ((s.setAspace a v).vec a).stream j =
      some (if x.out then x else { x with aspace := v, buf := [], fault := none, told := false }) := by
  obtain ⟨u, hu, ht⟩ := State.setAspace_context (s := s) h v
  rw [ht, State.vec_setVec_self, hu, State.dropPrefetch_vec, if_pos rfl, State.setFront_vec]
  unfold Vec.stream at hx ⊢
  unfold Vec.setAspace Vec.dropPrefetch
  dsimp only
  rw [streams_map_getD, streams_map_getD, hx]
  cases hout : x.out <;> simp [hout]

/-! ## LANEPART (R87) -/

theorem laneHolder_word (x : W64) {j : Nat} (hj : j < 8) : laneHolder (x.extractLsb' 0 24) j = (x.extractLsb' (3 * j) 3).toNat := by
  unfold laneHolder
  congr 1
  apply BitVec.eq_of_getLsbD_eq
  intro i hi
  have h : 3 * j + i < 24 := by omega
  simp [hi, h]

/-- The values that LANEPART takes (R87). -/
theorem lanepartOk_iff (c : Core) (x : W64) : lanepartOk c x = true ↔ x.extractLsb' 24 40 = 0 ∧ ∀ j, j < 8 →
    if c.lanemap.getLsbD j then x.extractLsb' (3 * j) 3 = c.lanepart.extractLsb' (3 * j) 3
    else (x.extractLsb' (3 * j) 3).toNat < 6 := by
  unfold lanepartOk
  rw [Bool.and_eq_true, decide_eq_true_iff, List.all_eq_true]
  refine and_congr_right' (forall_congr' fun j => ?_)
  rw [List.mem_range]
  refine imp_congr_right fun hj => ?_
  rw [laneHolder_word x hj]
  have hlt := (x.extractLsb' (3 * j) 3).isLt
  split
  · rw [decide_eq_true_iff, laneHolder, ← BitVec.toNat_inj]
  · simp only [Bool.and_eq_true, decide_eq_true_iff]
    omega

theorem csrWrite_lanepart (s : State) (a : Nat) (v : W64) : csrWrite s a 0x200 v =
    if lanepartOk (s.core (coreOf a)) v then some (s.setCore (coreOf a) { s.core (coreOf a) with lanepart := v.setWidth 24 }) else none := by
  rw [BitVec.setWidth_eq_extractLsb' (by norm_num)]
  rfl

/-! ## LANEREQ and BELSTAT (R85, R87, R313) -/

theorem csrWrite_lanereq (s : State) (a : Nat) (v : W64) : csrWrite s a 0x005 v = if isDrone a = false ∧ v.toNat ≤ 8 then
    some ((s.setVec a { s.vec a with lanereq := v.setWidth 4 }).promptArbiter (coreOf a)) else none := by
  show (if isDrone a = true then none else lanereqWrite s a v) = _
  unfold lanereqWrite
  rw [BitVec.setWidth_eq_extractLsb' (by norm_num)]
  cases isDrone a <;> simp

theorem csrWrite_belstat_full (s : State) (a : Nat) : csrWrite s a 0x301 (1 <<< 31) =
    some (s.setCluster (clusterOf a) { s.cluster (clusterOf a) with belfull := false }) := rfl

theorem csrWrite_belstat_zero (s : State) (a : Nat) : csrWrite s a 0x301 0 = some s := rfl

/-! ## The micro-op registers (R76) -/

theorem ufnSlot_toNat (x : BitVec 10) : (x.extractLsb' 6 4).toNat = x.toNat / 64 := by
  rw [BitVec.extractLsb'_toNat, Nat.shiftRight_eq_div_pow]
  have := x.isLt
  omega

theorem nextUfnAddr_toNat (x : BitVec 10) : (nextUfnAddr x).toNat = x.toNat / 64 * 64 + (x.toNat + 1) % 64 := by
  have h := x.isLt
  have hi : (x.extractLsb' 0 6 + 1).toNat = (x.toNat + 1) % 64 := by
    rw [BitVec.toNat_add, BitVec.extractLsb'_toNat, Nat.shiftRight_zero]
    simp
  unfold nextUfnAddr
  rw [BitVec.toNat_append, ufnSlot_toNat, hi, Nat.shiftLeft_eq, ← Nat.shiftLeft_eq, ← Nat.shiftLeft_add_eq_or_of_lt (by omega),
    Nat.shiftLeft_eq]

/-- A core after a write of UFNDATA. -/
def Core.putMicro (c : Core) (x : BitVec 32) : Core :=
  { c with ufnaddr := nextUfnAddr c.ufnaddr, ufn := c.ufn.put c.ufnaddr.toNat x }

theorem Core.putMicro_micro (c : Core) (x : BitVec 32) (m : Nat) :
    (c.putMicro x).micro m = if m = c.ufnaddr.toNat then x else c.micro m := Store.get_put _ _ _ _ _

theorem ufndataAccess_write (s : State) (a : Nat) (v : W64) :
    let c := s.core (coreOf a)
    ufndataAccess s a (some v) =
      if v.extractLsb' 32 32 = 0 ∧ uopValid (v.setWidth 32) = true ∧ c.ufnvalid.getLsbD (c.ufnaddr.toNat / 64) = false then
        some (s.setCore (coreOf a) (c.putMicro (v.setWidth 32))) else none := by
  unfold ufndataAccess
  dsimp only
  rw [ufnSlot_toNat, BitVec.setWidth_eq_extractLsb' (by norm_num)]
  simp only [Bool.and_eq_true, decide_eq_true_iff, Bool.not_eq_true', and_assoc]
  rfl

theorem csrWrite_ufnvalid (s : State) (a : Nat) (v : W64) : csrWrite s a 0x204 v =
    if ufnvalidOk (s.core (coreOf a)) v then some (s.setCore (coreOf a) { s.core (coreOf a) with ufnvalid := v.setWidth 16 }) else none := by
  rw [BitVec.setWidth_eq_extractLsb' (by norm_num)]
  rfl

/-- The values that UFNVALID takes (R76). -/
theorem ufnvalidOk_of {c : Core} {x : W64} (hx : x.extractLsb' 16 48 = 0)
    (hends : ∀ j, j < 16 → x.getLsbD j = true → c.ufnvalid.getLsbD j = true ∨
      ∃ m, m < 64 ∧ (c.micro (64 * j + m)).extractLsb' 27 5 = 0) : ufnvalidOk c x = true := by
  unfold ufnvalidOk
  rw [hx, decide_eq_true rfl, Bool.true_and, List.all_eq_true]
  intro j hj
  have hj' := List.mem_range.mp hj
  by_cases hbit : x.getLsbD j = true
  · obtain hv | ⟨m, hm, hend⟩ := hends j hj' hbit
    · simp [hv]
    · have : c.hasEnd j = true := List.any_eq_true.mpr ⟨m, List.mem_range.mpr hm, by simp [uopField, hend]⟩
      simp [this]
  · simp [hbit]

end Sys2Proof.Machine
end
section
/-! PROOFS. A write of NOTIFYBASE: the subscriptions that it disarms and arms (R386). -/
namespace Sys2Proof.Machine

/-! ## The record of a subscription -/

theorem State.readLE_eq_zero (s : State) : ∀ (n pa : Nat), s.readLE pa n = 0 ↔ ∀ j, j < n → s.readByte (pa + j) = 0
  | 0, _ => by simp [State.readLE]
  | n + 1, pa => by
    have ih := State.readLE_eq_zero s n (pa + 1)
    have hb : (s.readByte pa).toNat = 0 ↔ s.readByte pa = 0 := by rw [← BitVec.toNat_inj]; rfl
    rw [State.readLE, Nat.add_eq_zero_iff, hb, Nat.mul_eq_zero, or_iff_right (by norm_num), ih, Nat.forall_lt_succ_left']
    simp only [Nat.add_zero, Nat.add_assoc, Nat.add_comm 1]

theorem State.readLE_byte (s : State) (pa : Nat) : s.readLE pa 1 = (s.readByte pa).toNat := by simp [State.readLE]

/-- A record that arms its subscription (R386). -/
def State.SubscriptionOk (s : State) (pa : Nat) : Prop :=
  pa + 32 ≤ s.dataLimit ∧ s.uecc pa 32 = false ∧ (s.readByte (pa + 8)).toNat ≤ 10 ∧ s.readLE pa 8 % 8 = 0 ∧
    1 ≤ (s.readByte (pa + 9)).toNat ∧ (s.readByte (pa + 9)).toNat ≤ 3 ∧ ∀ j, j < 6 → s.readByte (pa + 10 + j) = 0

/-- The subscription of a valid record (R386). -/
def State.subscriptionAt (s : State) (pa : Nat) : Subscription :=
  { addr := s.readLE pa 8, sensor := (s.readByte (pa + 8)).toNat, up := (s.readByte (pa + 9)).getLsbD 0,
    down := (s.readByte (pa + 9)).getLsbD 1, thresh := s.readLE (pa + 16) 8, hyst := s.readLE (pa + 24) 8,
    above := decide (s.readLE (pa + 16) 8 ≤ s.sensor (s.readByte (pa + 8)).toNat), last := none, window := false,
    latest := 0 }

/-- The two directions of a valid record. -/
theorem directionBits {x : Byte} (h : x.toNat ≤ 3) : x.getLsbD 0 = decide (x.toNat % 2 = 1) ∧ x.getLsbD 1 = decide (2 ≤ x.toNat) := by
  have key : ∀ n : Fin 4, (BitVec.ofNat 8 n.val).getLsbD 0 = decide (n.val % 2 = 1) ∧ (BitVec.ofNat 8 n.val).getLsbD 1 = decide (2 ≤ n.val) := by
    decide
  simpa using key ⟨x.toNat, by omega⟩

theorem State.readSubscription_none {s : State} {pa : Nat} (h : ¬ s.SubscriptionOk pa) : s.readSubscription pa = none := by
  unfold State.readSubscription
  simp only [State.readLE_byte]
  split
  · rfl
  · next hmem =>
    refine if_pos ?_
    by_contra hrec
    simp only [Bool.or_eq_true, decide_eq_true_iff, ne_eq, State.readLE_eq_zero, not_or, not_not, Nat.not_lt, Bool.not_eq_true] at hmem hrec
    obtain ⟨⟨⟨⟨hzero, hdir⟩, hdir0⟩, hsensor⟩, haddr⟩ := hrec
    exact h ⟨hmem.1, hmem.2, hsensor, haddr, by omega, hdir, hzero⟩

theorem State.readSubscription_some {s : State} {pa : Nat} (h : s.SubscriptionOk pa) :
    s.readSubscription pa = some (s.subscriptionAt pa) := by
  obtain ⟨hlimit, huecc, hsensor, haddr, hdir0, hdir, hzero⟩ := h
  obtain ⟨hup, hdown⟩ := directionBits hdir
  have hrec : s.readLE (pa + 10) 6 = 0 := (s.readLE_eq_zero 6 (pa + 10)).mpr hzero
  unfold State.readSubscription State.subscriptionAt
  simp only [State.readLE_byte, hup, hdown]
  rw [if_neg (by simp [huecc, hlimit]), if_neg (by simp [hrec, haddr]; omega)]

/-! ## One subscription -/

/-- The ENABLE bit and the subscription k that a write leaves. -/
def State.armed (s : State) (base : Nat) (x : W64) (k : Nat) : Bool × Option Subscription :=
  if x.getLsbD k = false then (false, none)
  else if s.notifybase.getLsbD k = true then (true, s.subs.getD k none)
  else ((s.readSubscription (base + 32 * k)).isSome, s.readSubscription (base + 32 * k))

theorem State.armed_clear (s : State) {base : Nat} {x : W64} {k : Nat} (hx : x.getLsbD k = false) : s.armed base x k = (false, none) := by
  rw [State.armed, if_pos hx]

theorem State.armed_kept (s : State) {base : Nat} {x : W64} {k : Nat} (hx : x.getLsbD k = true) (hb : s.notifybase.getLsbD k = true) :
    s.armed base x k = (true, s.subs.getD k none) := by
  rw [State.armed, if_neg (by simp [hx]), if_pos hb]

theorem State.armed_rising (s : State) {base : Nat} {x : W64} {k : Nat} (hx : x.getLsbD k = true) (hb : s.notifybase.getLsbD k = false) :
    s.armed base x k = ((s.readSubscription (base + 32 * k)).isSome, s.readSubscription (base + 32 * k)) := by
  rw [State.armed, if_neg (by simp [hx]), if_neg (by simp [hb])]

/-- A state whose subscriptions stand as in another. -/
def State.withSubs (t s : State) : State := { t with notifybase := s.notifybase, subs := s.subs, touches := s.touches }

theorem State.withSubs_withSubs (t u s : State) : (t.withSubs u).withSubs s = t.withSubs s := rfl

theorem State.readSubscription_congr {s t : State} (h : t.withSubs s = s) (pa : Nat) : t.readSubscription pa = s.readSubscription pa := by
  rw [← h]
  rfl

theorem State.armOne_withSubs (t s : State) (base : Nat) (x : W64) (k : Nat) : (t.armOne base x k).withSubs s = t.withSubs s := by
  unfold State.armOne
  split
  · rfl
  · split
    · rfl
    · dsimp only
      split <;> split <;> rfl

theorem State.noteBytes_notifybase (t : State) (pa n : Nat) (write : Bool) : (t.noteBytes pa n write).notifybase = t.notifybase := rfl

theorem State.armOne_notifybase (t : State) (base : Nat) (x : W64) (k : Nat) :
    (t.armOne base x k).notifybase = if x.getLsbD k = false then t.notifybase &&& ~~~(1#64 <<< k)
      else if t.notifybase.getLsbD k = false ∧ (t.readSubscription (base + 32 * k)).isSome then t.notifybase ||| (1#64 <<< k)
      else t.notifybase := by
  unfold State.armOne
  cases x.getLsbD k with
  | false => rfl
  | true => cases t.notifybase.getLsbD k with
    | true => rfl
    | false => cases t.readSubscription (base + 32 * k) with
      | some q => rfl
      | none => simp [apply_ite State.notifybase, State.noteBytes_notifybase]

theorem State.armOne_subs (t : State) (base : Nat) (x : W64) (k : Nat) :
    (t.armOne base x k).subs = if x.getLsbD k = false then t.subs.setIfInBounds k none
      else if t.notifybase.getLsbD k = true then t.subs
      else t.subs.setIfInBounds k (t.readSubscription (base + 32 * k)) := by
  unfold State.armOne
  cases x.getLsbD k with
  | false => rfl
  | true => cases t.notifybase.getLsbD k with
    | true => rfl
    | false => cases t.readSubscription (base + 32 * k) <;> rfl

theorem one_shiftLeft_getLsbD {j : Nat} (hj : j < 64) (k : Nat) : (1#64 <<< k).getLsbD j = decide (j = k) := by
  rw [BitVec.getLsbD_shiftLeft, BitVec.getLsbD_one, decide_eq_true hj, Bool.true_and]
  by_cases h : j = k
  · simp [h]
  · by_cases hlt : j < k
    · simp [hlt, h]
    · have : j - k ≠ 0 := by omega
      simp [h, this]

theorem clearBit_getLsbD (b : W64) {j : Nat} (hj : j < 64) (k : Nat) :
    (b &&& ~~~(1#64 <<< k)).getLsbD j = (b.getLsbD j && decide (j ≠ k)) := by
  rw [BitVec.getLsbD_and, BitVec.getLsbD_not, one_shiftLeft_getLsbD hj, decide_eq_true hj, Bool.true_and, decide_not]

theorem setBit_getLsbD (b : W64) {j : Nat} (hj : j < 64) (k : Nat) : (b ||| (1#64 <<< k)).getLsbD j = (b.getLsbD j || decide (j = k)) := by
  rw [BitVec.getLsbD_or, one_shiftLeft_getLsbD hj]

/-- A write leaves the ENABLE bits and the address field beside the bit of the subscription. -/
theorem State.armOne_otherBits (t : State) (base : Nat) (x : W64) {j k : Nat} (hj : j < 64) (hjk : j ≠ k) :
    (t.armOne base x k).notifybase.getLsbD j = t.notifybase.getLsbD j := by
  rw [State.armOne_notifybase]
  split
  · rw [clearBit_getLsbD _ hj, decide_eq_true hjk, Bool.and_true]
  · split
    · rw [setBit_getLsbD _ hj, decide_eq_false hjk, Bool.or_false]
    · rfl

theorem State.armOne_otherSubs (t : State) (base : Nat) (x : W64) {j k : Nat} (hjk : j ≠ k) :
    (t.armOne base x k).subs.getD j none = t.subs.getD j none := by
  have hset (o : Option Subscription) : (t.subs.setIfInBounds k o).getD j none = t.subs.getD j none := by
    rw [getD_setIfInBounds, if_neg (by omega)]
  rw [State.armOne_subs]
  split
  · exact hset _
  · split
    · rfl
    · exact hset _

theorem State.armOne_self (t : State) (base : Nat) (x : W64) {k : Nat} (hk : k < 8) :
    ((t.armOne base x k).notifybase.getLsbD k, (t.armOne base x k).subs.getD k none) = t.armed base x k := by
  have hset (o : Option Subscription) : (t.subs.setIfInBounds k o).getD k none = o := by
    rw [getD_setIfInBounds, if_pos ⟨rfl, hk⟩]
  rw [State.armOne_notifybase, State.armOne_subs]
  unfold State.armed
  cases hx : x.getLsbD k with
  | false => simp [clearBit_getLsbD t.notifybase (show k < 64 by omega) k, hset]
  | true => cases hb : t.notifybase.getLsbD k with
    | true => simp [hb]
    | false => cases t.readSubscription (base + 32 * k) with
      | none => simp [hb, hset]
      | some q => simp [setBit_getLsbD t.notifybase (show k < 64 by omega) k, hset]

/-! ## The eight subscriptions -/

theorem State.armed_congr {s t : State} (h : t.withSubs s = s) {base : Nat} {x : W64} {k : Nat}
    (hb : t.notifybase.getLsbD k = s.notifybase.getLsbD k) (hs : t.subs.getD k none = s.subs.getD k none) :
    t.armed base x k = s.armed base x k := by
  unfold State.armed
  rw [hb, hs, State.readSubscription_congr h]

/-- A state in which the subscriptions below i have been written and the others stand as they stood. -/
structure ArmedBelow (s : State) (base : Nat) (x : W64) (i : Nat) (t : State) : Prop where
  frame : t.withSubs s = s
  field : ∀ j, 8 ≤ j → j < 64 → t.notifybase.getLsbD j = s.notifybase.getLsbD j
  each : ∀ k, k < 8 → (t.notifybase.getLsbD k, t.subs.getD k none) =
    if k < i then s.armed base x k else (s.notifybase.getLsbD k, s.subs.getD k none)

theorem armedBelow_fold (s : State) (base : Nat) (x : W64) :
    ArmedBelow s base x 8 ((List.range 8).foldl (fun t k => t.armOne base x k) s) := by
  refine foldl_range_keeps (ArmedBelow s base x) ⟨rfl, fun _ _ _ => rfl, fun k _ => by rw [if_neg (by omega)]⟩ fun i hi t ht => ?_
  refine ⟨(State.armOne_withSubs t s base x i).trans ht.frame, fun j hj hj' => ?_, fun k hk => ?_⟩
  · rw [State.armOne_otherBits t base x hj' (by omega), ht.field j hj hj']
  · have hbefore := ht.each k hk
    by_cases hki : k = i
    · subst hki
      rw [if_neg (lt_irrefl k), Prod.mk.injEq] at hbefore
      rw [State.armOne_self t base x hk, if_pos (Nat.lt_succ_self k), State.armed_congr ht.frame hbefore.1 hbefore.2]
    · rw [State.armOne_otherBits t base x (by omega) hki, State.armOne_otherSubs t base x hki, hbefore]
      simp only [show k < i + 1 ↔ k < i by omega]

/-- A state whose NOTIFYBASE has a new address field. -/
def State.withBase (s : State) (x : W64) : State := { s with notifybase := x.extractLsb' 8 56 ++ s.notifybase.extractLsb' 0 8 }

theorem notifyBase_getLsbD (s : State) (x : W64) {j : Nat} (hj : j < 64) :
    (s.withBase x).notifybase.getLsbD j = if j < 8 then s.notifybase.getLsbD j else x.getLsbD j := by
  unfold State.withBase
  rw [BitVec.getLsbD_append]
  split
  · next h => simp [h]
  · next h => simp [show j - 8 < 56 by omega, show 8 + (j - 8) = j by omega]

theorem State.withBase_armed {s : State} {base : Nat} {x : W64} {k : Nat} (hk : k < 8) :
    (s.withBase x).armed base x k = s.armed base x k := by
  have hb : (s.withBase x).notifybase.getLsbD k = s.notifybase.getLsbD k := by rw [notifyBase_getLsbD s x (by omega), if_pos hk]
  exact State.armed_congr rfl hb rfl

/-- What a write of NOTIFYBASE leaves (R386). -/
theorem notifybaseWrite_leaves (s : State) (x : W64) :
    (notifybaseWrite s x).withSubs s = s ∧ (notifybaseWrite s x).notifybase.extractLsb' 8 56 = x.extractLsb' 8 56 ∧
    ∀ k, k < 8 → ((notifybaseWrite s x).notifybase.getLsbD k, (notifybaseWrite s x).subs.getD k none) =
      s.armed (x.toNat / 256 * 256) x k := by
  have hbase : (x.extractLsb' 8 56).toNat * 256 = x.toNat / 256 * 256 := by
    rw [BitVec.extractLsb'_toNat, Nat.shiftRight_eq_div_pow]
    have := x.isLt
    omega
  obtain ⟨hframe, hfield, heach⟩ := armedBelow_fold (s.withBase x) (x.toNat / 256 * 256) x
  have hw : notifybaseWrite s x = (List.range 8).foldl (fun t k => t.armOne (x.toNat / 256 * 256) x k) (s.withBase x) := by
    rw [← hbase]
    rfl
  rw [← hw] at hframe hfield heach
  generalize notifybaseWrite s x = t at *
  refine ⟨?_, ?_, fun k hk => ?_⟩
  · rw [← State.withSubs_withSubs t (s.withBase x) s, hframe]
    rfl
  · apply BitVec.eq_of_getLsbD_eq
    intro j hj
    rw [BitVec.getLsbD_extractLsb', BitVec.getLsbD_extractLsb', hfield (8 + j) (by omega) (by omega),
      notifyBase_getLsbD s x (by omega), if_neg (by omega)]
  · rw [heach k hk, if_pos hk, State.withBase_armed hk]

end Sys2Proof.Machine
end
section
namespace Sys2Proof.Machine

/-- Settles O22: each write by what its register takes; ASPACE through the streams of the context, and NOTIFYBASE by an induction
over the eight subscriptions. -/
theorem csrWriteEffects : Obligations.CsrWriteEffects := by
  intro s a v h gives c
  have taken {i : Instr} {f : Nat → Option State} {t : State} (hi : exec i s = csrEffect s f) (hf : f a = some t) : gives i t :=
    exec_csrEffect_some h hi hf
  have refused {i : Instr} {f : Nat → Option State} (hi : exec i s = csrEffect s f) (hf : f a = none) : gives i s :=
    exec_csrEffect_none h hi hf
  refine ⟨fun hd hv => ?vtype, fun hv => ?vtypeRefused, fun hq hv => ?aspace, fun hq => ?aspaceWaits, fun hv hg => ?lanepart,
    fun ⟨j, hj, hm, hg⟩ => ?lanepartRefused, fun hd hv => ?lanereq, fun hv => ?lanereqRefused, fun hv => ?belstat, fun hv => ?belstatZero,
    fun hv hop hslot => ?ufndata, fun hslot => ?ufndataRefused, fun hr hv hends => ?ufnvalid, fun hr => ?ufnvalidWaits, ?notifybase⟩
  case vtype =>
    refine ⟨_, taken (i := .vtypeCsrWrite v) rfl ((csrWrite_vtype s a v).trans (if_pos ⟨hd, hv⟩)), s.onlyVec_setVec a _, ?_⟩
    rw [State.vec_setVec_self]
    exact ⟨(BitVec.setWidth_eq_extractLsb' (by norm_num)).symm, Vec.setVtype_vlmax _ v, Vec.setVtype_vl _ v⟩
  case vtypeRefused =>
    exact refused (i := .vtypeCsrWrite v) rfl ((csrWrite_vtype s a v).trans (if_neg fun hok => Bool.false_ne_true (hv.symm.trans hok.2)))
  case aspace =>
    refine ⟨_, taken (i := .aspaceCsrWrite v) rfl ((if_pos hq).trans ((csrWrite_aspace s a v).trans (if_pos hv))), fun b hb => ?_,
      fun j hj => State.setAspace_vec_other s hj v, State.setAspace_frame s a v, ?_, fun hd j x hx => State.setAspace_stream hd v hx⟩
    · rw [State.setAspace_front, if_neg hb]
    · rw [State.setAspace_front, if_pos rfl]
  case aspaceWaits => exact refused (i := .aspaceCsrWrite v) rfl (if_neg (by simp [hq]))
  case lanepart =>
    exact ⟨_, taken (i := .lanepartWrite v) rfl ((csrWrite_lanepart s a v).trans (if_pos ((lanepartOk_iff _ v).mpr ⟨hv, hg⟩))),
      s.onlyCore_setCore _ _, State.core_setCore_self _ _ _⟩
  case lanepartRefused =>
    refine refused (i := .lanepartWrite v) rfl ((csrWrite_lanepart s a v).trans (if_neg fun hok => ?_))
    have hlt := ((lanepartOk_iff _ v).mp hok).2 j hj
    rw [hm, if_neg Bool.false_ne_true] at hlt
    omega
  case lanereq =>
    refine ⟨_, taken (i := .lanereqCsrWrite v) rfl ((csrWrite_lanereq s a v).trans (if_pos ⟨hd, hv⟩)), ?_⟩
    unfold State.promptArbiter
    rw [State.core_setCore_self, State.setCore_vec, State.vec_setVec_self]
    exact ⟨rfl, rfl, rfl⟩
  case lanereqRefused => exact refused (i := .lanereqCsrWrite v) rfl ((csrWrite_lanereq s a v).trans (if_neg (by omega)))
  case belstat =>
    subst hv
    exact ⟨_, taken (i := .belstatFullClear _) rfl (csrWrite_belstat_full s a), s.onlyCluster_setCluster _ _, State.cluster_setCluster_self _ _ _⟩
  case belstatZero =>
    subst hv
    exact taken (i := .belstatFullClear 0) rfl (csrWrite_belstat_zero s a)
  case ufndata =>
    refine ⟨_, taken (i := .ufndataAccess (some v)) rfl ((ufndataAccess_write s a v).trans (if_pos ⟨hv, hop, hslot⟩)),
      s.onlyCore_setCore _ _, ?_⟩
    rw [State.core_setCore_self]
    exact ⟨Core.putMicro_micro _ _, nextUfnAddr_toNat _⟩
  case ufndataRefused =>
    exact refused (i := .ufndataAccess (some v)) rfl
      ((ufndataAccess_write s a v).trans (if_neg fun hok => Bool.false_ne_true (hok.2.2.symm.trans hslot)))
  case ufnvalid =>
    exact ⟨_, taken (i := .ufnvalidWrite v) rfl ((if_neg (by simp [hr])).trans ((csrWrite_ufnvalid s a v).trans (if_pos (ufnvalidOk_of hv hends)))),
      s.onlyCore_setCore _ _, State.core_setCore_self _ _ _⟩
  case ufnvalidWaits => exact refused (i := .ufnvalidWrite v) rfl (if_pos hr)
  case notifybase =>
    obtain ⟨hframe, hfield, heach⟩ := notifybaseWrite_leaves s v
    refine ⟨_, taken (i := .notifybaseWrite v) rfl rfl, ?_⟩
    generalize notifybaseWrite s v = t at *
    have leaves {k : Nat} (hk : k < 8) (p : Bool × Option Subscription) (hp : s.armed (v.toNat / 256 * 256) v k = p) :
        t.notifybase.getLsbD k = p.1 ∧ t.subs.getD k none = p.2 := Prod.mk.inj ((heach k hk).trans hp)
    refine ⟨hfield, fun k hk hx => leaves hk _ (s.armed_clear hx), fun k hk hx hb => leaves hk _ (s.armed_kept hx hb), fun k hk hx hb => ?_,
      hframe⟩
    intro pa valid
    have hrise : s.armed (v.toNat / 256 * 256) v k = ((s.readSubscription pa).isSome, s.readSubscription pa) := s.armed_rising hx hb
    refine ⟨fun hbad => leaves hk (false, none) ?_, fun hok => leaves hk (true, some (s.subscriptionAt pa)) ?_⟩
    · rw [hrise, State.readSubscription_none hbad]
      rfl
    · rw [hrise, State.readSubscription_some hok]
      rfl

end Sys2Proof.Machine
end

section
/-! PROOFS. Rotations and functions in a move: the groups that they write, one after the other (R148, R149, R166, R167, R170). -/
namespace Sys2Proof.Machine

/-! ## Groups written one after the other -/

theorem WriteFrame.comp {f g : Nat → Bool → Vec → Vec} (hf : WriteFrame f) (hg : WriteFrame g) :
    WriteFrame fun hi fin v => g hi fin (f hi fin v) := by
  intro hi fin x
  have h := congrArg (fun u : Vec => { u with v := x.v, tag := x.tag, bad := x.bad, told := x.told, m := x.m }) (hg hi fin (f hi fin x))
  exact h.trans (hf hi fin x)

/-- A group's writing over registers that others have written before. -/
theorem groupWritten_over {r : VRun} {m : MReg} {hi : Nat} {d : VReg} {w : Nat} {t : Tag} {res : Nat → Option Nat} (x : Vec)
    (hlanes : r.lanes = r.v.lanes) (hmax : r.vlmax = vlmaxOf r.lanes r.vt) (hfit : GroupFits r.vt d w) :
    GroupWritten x (r.put m hi (r.kinds m hi).ends ⟨d, w, some t, res⟩ x) (r.kinds m hi) d w t res := by
  obtain ⟨⟨helements, houtside⟩, htags⟩ := groupWritten_put (r := { r with v := { r.v with v := x.v, tag := x.tag } }) (m := m) (hi := hi)
    (t := t) (res := res) (x := x) hlanes hmax hfit rfl rfl rfl rfl
  exact ⟨⟨helements, houtside⟩, htags⟩

/-- The elements of a group stand as its registers do. -/
theorem elem_eq_of_registers {x y : Vec} {q : Kinds} {a : VReg} {w : Nat} {v : Vec} (hlanes : q.lanes = v.lanes)
    (hfit : GroupFits q.vt a w) (h : ∀ n, q.inGroup a w n = true → y.v.getD n 0 = x.v.getD n 0) {i : Nat}
    (hi : i < vlmaxOf q.lanes q.vt) : y.elem q.lanes w a i = x.elem q.lanes w a i := by
  rw [hlanes] at hi ⊢
  obtain ⟨h1, h2, -⟩ := hfit.place v hi
  unfold Vec.elem
  dsimp only
  rw [h _ (Bool.and_eq_true_iff.mpr ⟨decide_eq_true h1, decide_eq_true h2⟩)]

/-- What is written over active elements hides what stood there, and the other elements are left as they were before both. -/
theorem Kinds.value_value (q : Kinds) (ones ones' old c : Nat) (res : Option Nat) (i : Nat) :
    q.value ones (q.value ones' old res i) (some c) i = q.value ones old (some c) i := by
  unfold Kinds.value
  by_cases hstart : i < q.start
  · simp only [if_pos hstart]
  · simp only [if_neg hstart]
    by_cases htail : q.vl ≤ i
    · simp only [if_pos htail]
      split <;> rfl
    · simp only [if_neg htail]
      by_cases hlater : q.hi ≤ i
      · simp only [if_pos hlater]
      · simp only [if_neg hlater]
        by_cases hmask : q.mask i = true
        · simp only [if_pos hmask, Option.getD_some]
        · simp only [if_neg hmask]
          split <;> rfl

/-! ## Two groups, and a third over them -/

section
variable {q : Kinds} {v u x y : Vec} {d a b : VReg} {w : Nat} {t t' : Tag} {res res' : Nat → Option Nat}

/-- The elements of a group that a later writing has left. -/
theorem GroupHolds.kept (h : GroupHolds v x q d w t res) (hy : GroupWritten x y q b w t' res') (hlanes : q.lanes = u.lanes)
    (hfit : GroupFits q.vt d w) (hapart : ∀ n, q.inGroup d w n = true → q.inGroup b w n = false) : GroupHolds v y q d w t res := fun i hi =>
  (elem_eq_of_registers hlanes hfit (fun n hn => hy.outside n (hapart n hn)) hi).trans (h i hi)

/-- The elements of a group that an earlier writing has left. -/
theorem GroupWritten.holds_after (hx : GroupWritten v x q b w t' res') (hy : GroupWritten x y q d w t res) (hlanes : q.lanes = u.lanes)
    (hfit : GroupFits q.vt d w) (hapart : ∀ n, q.inGroup d w n = true → q.inGroup b w n = false) : GroupHolds v y q d w t res := by
  intro i hi
  rw [hy.elements i hi, elem_eq_of_registers hlanes hfit (fun n hn => hx.outside n (hapart n hn)) hi]

/-- A group written a second time holds its second results. -/
theorem GroupHolds.over {c : Nat → Nat} (hx : GroupHolds v x q d w t' res') (hy : GroupHolds x y q d w t fun i => some (c i)) :
    GroupHolds v y q d w t fun i => some (c i) := by
  intro i hi
  rw [hy i hi, hx i hi]
  exact q.value_value _ _ _ _ _ i

end

/-! ## Groups of a pair and beside it (R79) -/

section
variable {vt : VType} {d a : VReg}

/-- The second group of a pair (R79, R167). -/
theorem pair_second (h : groupOk vt (d, .pair) = true) :
    (d + BitVec.ofNat 5 vt.lmul).toNat = d.toNat + vt.lmul ∧ d.toNat + 2 * vt.lmul ≤ 32 := by
  have hd : d.toNat < 32 := d.isLt
  have hl := vt.lmul_cases
  simp only [groupOk, decide_eq_true_eq] at h
  have hle : d.toNat + 2 * vt.lmul ≤ 32 := by rcases hl with hl | hl | hl | hl <;> rw [hl] at h ⊢ <;> omega
  refine ⟨?_, hle⟩
  rw [BitVec.toNat_add, BitVec.toNat_ofNat, Nat.mod_eq_of_lt (b := 2 ^ 5) (by omega), Nat.mod_eq_of_lt (by omega)]

theorem groupOk_one_iff : groupOk vt (d, .one) = true ↔ vt.lmul ∣ d.toNat := by
  rw [Nat.dvd_iff_mod_eq_zero]
  exact decide_eq_true_iff

theorem pair_aligned (h : groupOk vt (d, .pair) = true) :
    groupOk vt (d, .one) = true ∧ groupOk vt (d + BitVec.ofNat 5 vt.lmul, .one) = true := by
  have hdvd : vt.lmul ∣ d.toNat := dvd_trans (Dvd.intro_left 2 rfl) (Nat.dvd_of_mod_eq_zero (of_decide_eq_true h))
  rw [groupOk_one_iff, groupOk_one_iff, (pair_second h).1]
  exact ⟨hdvd, hdvd.add (dvd_refl _)⟩

theorem groupFits_one (h : groupOk vt (d, .one) = true) : GroupFits vt d vt.sew := .inl ⟨rfl, h⟩

/-- Is register n one of the group at d of elements of SEW? -/
theorem inGroup_sew {q : Kinds} (hq : q.vt = vt) (n : Nat) :
    q.inGroup d vt.sew n = true ↔ d.toNat ≤ n ∧ n < d.toNat + vt.lmul := by
  have hpos : 0 < vt.sew := by have := vt.sew_cases; omega
  unfold Kinds.inGroup
  rw [hq, Nat.mul_div_cancel _ hpos, Bool.and_eq_true, decide_eq_true_iff, decide_eq_true_iff]

/-- Two groups that are not the same have no register in common. -/
theorem groups_apart {q : Kinds} (hq : q.vt = vt) (hd : groupOk vt (d, .one) = true) (ha : groupOk vt (a, .one) = true) (hne : a ≠ d) (n : Nat)
    (hn : q.inGroup a vt.sew n = true) : q.inGroup d vt.sew n = false := by
  obtain ⟨i, hi⟩ := groupOk_one_iff.mp hd
  obtain ⟨j, hj⟩ := groupOk_one_iff.mp ha
  rw [← Bool.not_eq_true, inGroup_sew hq]
  rw [inGroup_sew hq] at hn
  rintro ⟨h1, h2⟩
  have hlt {x y : Nat} (h : vt.lmul * x < vt.lmul * y + vt.lmul) : x ≤ y := by
    have : vt.lmul * x < vt.lmul * (y + 1) := by rw [Nat.mul_succ]; exact h
    exact Nat.lt_succ_iff.mp (Nat.lt_of_mul_lt_mul_left this)
  have hij : i = j := le_antisymm (hlt (by omega)) (hlt (by omega))
  exact hne (BitVec.eq_of_toNat_eq (by rw [hi, hj, hij]))

theorem pair_apart (h : groupOk vt (d, .pair) = true) : d + BitVec.ofNat 5 vt.lmul ≠ d := by
  intro heq
  have hl := vt.lmul_cases
  have := (pair_second h).1
  rw [heq] at this
  omega

end

/-! ## The results of a pair, and of a rotation -/

theorem GroupHolds.congr {v v' u u' : Vec} {q : Kinds} {d : VReg} {w : Nat} {t : Tag} {res : Nat → Option Nat} (h : GroupHolds v u q d w t res)
    (hv : v'.v = v.v) (hu : u'.v = u.v) : GroupHolds v' u' q d w t res := by
  unfold GroupHolds Vec.elem at h ⊢
  rw [hv, hu]
  exact h

/-- Both groups of a pair hold their results, in one tag (R167). -/
structure PairWritten (v u : Vec) (q : Kinds) (d y : VReg) (w : Nat) (t : Tag) (res res' : Nat → Option Nat) : Prop where
  first : GroupHolds v u q d w t res
  second : GroupHolds v u q y w t res'
  outside : ∀ n, q.inGroup d w n = false → q.inGroup y w n = false → u.v.getD n 0 = v.v.getD n 0
  tags : ∀ n, n < 32 → u.tag.getD n .int32 = if q.inGroup d w n || q.inGroup y w n then t else v.tag.getD n .int32

section
variable {q : Kinds} {v x y z u : Vec} {d a b : VReg} {t t' : Tag} {res res' : Nat → Option Nat} (hlanes : q.lanes = u.lanes)
  (hd : groupOk q.vt (d, .one) = true) (hb : groupOk q.vt (b, .one) = true)
include hlanes hd hb

theorem pairWritten_of (hx : GroupWritten v x q d q.vt.sew t res) (hy : GroupWritten x y q b q.vt.sew t res') (hne : b ≠ d) :
    PairWritten v y q d b q.vt.sew t res res' where
  first := hx.elements.kept hy hlanes (groupFits_one hd) (groups_apart rfl hb hd hne.symm)
  second := hx.holds_after hy hlanes (groupFits_one hb) (groups_apart rfl hd hb hne)
  outside := fun n h1 h2 => (hy.outside n h2).trans (hx.outside n h1)
  tags := fun n hn => by
    rw [hy.tags n hn, hx.tags n hn]
    cases q.inGroup d q.vt.sew n <;> cases q.inGroup b q.vt.sew n <;> rfl

/-- The third result of a rotation is written over those of the pair, and prevails (R166). -/
theorem PairWritten.third {c : Nat → Nat} (ha : groupOk q.vt (a, .one) = true) {res res' : Nat → Nat}
    (hp : PairWritten v y q d b q.vt.sew t (fun i => some (res i)) fun i => some (res' i))
    (hz : GroupWritten y z q a q.vt.sew t' fun i => some (c i)) :
    GroupHolds v z q a q.vt.sew t' (fun i => some (c i)) ∧
    (a ≠ d → GroupHolds v z q d q.vt.sew t fun i => some (res i)) ∧ (a ≠ b → GroupHolds v z q b q.vt.sew t fun i => some (res' i)) ∧
    (∀ n, q.inGroup d q.vt.sew n = false → q.inGroup b q.vt.sew n = false → q.inGroup a q.vt.sew n = false → z.v.getD n 0 = v.v.getD n 0) ∧
    ∀ n, n < 32 → z.tag.getD n .int32 =
      if q.inGroup a q.vt.sew n then t' else if q.inGroup d q.vt.sew n || q.inGroup b q.vt.sew n then t else v.tag.getD n .int32 := by
  refine ⟨?_, fun hne => ?_, fun hne => ?_, fun n h1 h2 h3 => (hz.outside n h3).trans (hp.outside n h1 h2), fun n hn => ?_⟩
  · by_cases had : a = d
    · subst had
      exact hp.first.over hz.elements
    · by_cases hab : a = b
      · subst hab
        exact hp.second.over hz.elements
      · intro i hi
        rw [hz.elements i hi, elem_eq_of_registers hlanes (groupFits_one ha) (fun n hn => hp.outside n
          (groups_apart rfl hd ha had n hn) (groups_apart rfl hb ha hab n hn)) hi]
  · exact hp.first.kept hz hlanes (groupFits_one hd) (groups_apart rfl ha hd hne.symm)
  · exact hp.second.kept hz hlanes (groupFits_one hb) (groups_apart rfl ha hb hne.symm)
  · rw [hz.tags n hn, hp.tags n hn]

end

/-! ## Moves with several destination groups -/

theorem vecMoves_unstreamed {s u : State} {k n : Nat} {ends : Bool} (h : VecMoves s u k ends none n) : VecMoves s u k ends none 0 :=
  { h with advanced := fun j hj => by cases hj }

theorem withStream_none (s : State) (k : Nat) (r : VRun) (m : MReg) (d : VReg) (w : Nat) (regs : List (VReg × Nat))
    (write : Nat → Bool → Vec → Vec) (fl : Nat → Flags) :
    withStream s k r m d w regs none write fl = vecFinish s k r m (r.uecc m regs) none false write fl := by
  unfold withStream
  split
  · next h => exact (if_pos h).symm
  · exact if_neg (by simp)

section
variable {s : State} {k hi : Nat} {e : Entry} {m : MReg} {i : Instr} {fl : Nat → Flags} {write : Nat → Bool → Vec → Vec}
  {regs : List (VReg × Nat)}

/-- A move that reads no stream and writes registers: what it leaves, where its first index is below vl. -/
theorem registers_written
    (hexec : exec i s = vecFinish s k (VRun.of (s.vec k) e false hi) m ((VRun.of (s.vec k) e false hi).uecc m regs) none false write fl)
    (hbad : (s.vec k).bad = []) (hquiet : (Kinds.of (s.vec k) e false hi m).quiet (s.vec k) e fl) (hw : WriteFrame write)
    (hmask : ∀ hi fin x n j, (write hi fin x).maskBit n j = x.maskBit n j) :
    let q := Kinds.of (s.vec k) e false hi m
    ∃ u, exec i s = .next u ∧ VecMoves s u k q.ends none 0 ∧
      if q.start < q.vl then
        (∃ x, x.v = (s.vec k).v ∧ x.tag = (s.vec k).tag ∧ (u.vec k).v = (write q.hi q.ends x).v ∧ (u.vec k).tag = (write q.hi q.ends x).tag) ∧
        FlagsRouted (s.vec k) (u.vec k) e q fl (s.vec k).maskBit
      else (s.vec k).Ended (u.vec k) e := by
  intro q
  obtain ⟨u, hu, hmoves, hvec⟩ := withStream_moves (strm := none) (hexec.trans (withStream_none s k _ m 0 0 regs write fl).symm) hbad hquiet rfl hw
  rw [ite_self] at hmoves
  refine ⟨u, hu, vecMoves_unstreamed hmoves, ?_⟩
  split at hvec
  · next hstart =>
    rw [if_pos hstart, hvec]
    obtain ⟨-, -, hv, htag, -⟩ := VRun.left_frame (r := VRun.of (s.vec k) e false hi) (m := m) (strm := none) (fl := fl) (v := s.vec k) hw
    have hends : (VRun.of (s.vec k) e false hi).ends = q.ends := by
      unfold q Kinds.ends
      rw [decide_eq_false (by omega), Bool.false_or]
      rfl
    rw [hends] at hv htag
    exact ⟨⟨(s.vec k).setEntry ((VRun.of (s.vec k) e false hi).after m fl), rfl, rfl, hv, htag⟩,
      flagsRouted_left hw hstart fun n j _ _ => hmask _ _ _ n j⟩
  · next hstart =>
    rw [if_neg hstart, hvec]
    exact ended_complete _ e

end

end Sys2Proof.Machine
end
section
/-! PROOFS. Rotations and functions (R166, R167, R170): O39. -/
namespace Sys2Proof.Machine

section
variable {s : State} {k p hi : Nat} {e : Entry} (h : s.Moves k p hi e)
include h

theorem State.Moves.vfnOne {a : VReg} (hok : fnOk Tag.composite (s.vec k) e.vtype a none = true) (i : Instr) (f : Fn) (d : VReg) (m : MReg) :
    vfnOne i f d a m s = elementwise s k (VRun.of (s.vec k) e false hi) m d e.vtype.sew (some ((s.vec k).tagOf a)) [(a, e.vtype.sew)] none
      fun n =>
        let x := compositeElement e.vtype ((s.vec k).tagOf a) f false ((s.vec k).elem (s.vec k).lanes e.vtype.sew a n) 0
        (some x.1, x.2) := by
  refine (h.vectorInstr _ _ _ _).trans ?_
  dsimp only
  rw [h.vrun]
  exact if_neg (by simp [VRun.of, hok])

theorem State.Moves.vfnTwo {a : VReg} {b : VSrc} (hok : fnOk Tag.composite (s.vec k) e.vtype a (some b) = true) (i : Instr) (f : Fn) (d : VReg)
    (m : MReg) :
    let q := (VRun.of (s.vec k) e false hi).src ((s.vec k).tagOf a) b
    vfnTwo i f d a b m s = elementwise s k (VRun.of (s.vec k) e false hi) m d e.vtype.sew (some ((s.vec k).tagOf a))
      ([(a, e.vtype.sew)] ++ q.regs) q.strm fun n =>
        let x := compositeElement e.vtype ((s.vec k).tagOf a) f false ((s.vec k).elem (s.vec k).lanes e.vtype.sew a n) (q.get n)
        (some x.1, x.2) := by
  refine (h.vectorInstr _ _ _ _).trans ?_
  dsimp only
  rw [h.vrun]
  exact if_neg (by simp [VRun.of, hok])

theorem State.Moves.exec_vfnUfn {a : VReg} {b : VSrc} (hok : fnOk Tag.user (s.vec k) e.vtype a (some b) = true) (slot : BitVec 4) (d : VReg)
    (m : MReg) :
    let q := (VRun.of (s.vec k) e false hi).src ((s.vec k).tagOf a) b
    exec (.vfnUfn slot d a b m) s = elementwise s k (VRun.of (s.vec k) e false hi) m d e.vtype.sew (some ((s.vec k).tagOf a))
      ([(a, e.vtype.sew)] ++ q.regs) q.strm fun n =>
        let x := ufnElement e.vtype ((s.vec k).tagOf a) ((s.core (coreOf k)).program slot.toNat)
          ((s.vec k).elem (s.vec k).lanes e.vtype.sew a n) (q.get n)
        (some x.1, x.2) := by
  refine (h.vectorInstr _ _ _ _).trans ?_
  dsimp only
  rw [h.vrun]
  exact if_neg (by simp [VRun.of, hok])

/-- What `vfn.sin.cos` writes: the cosine to D's group, then the sine to the one after it (R167). -/
def sinCosWrite (r : VRun) (m : MReg) (d : VReg) (t : Tag) (x : Bool → Nat → Nat × Flags) (hi : Nat) (fin : Bool) (v : Vec) : Vec :=
  r.put m hi fin ⟨d + BitVec.ofNat 5 r.vt.lmul, r.vt.sew, some t, fun n => some (x true n).1⟩
    (r.put m hi fin ⟨d, r.vt.sew, some t, fun n => some (x false n).1⟩ v)

theorem State.Moves.exec_vfnSinCos {a : VReg} (hok : fnOk Tag.composite (s.vec k) e.vtype a none = true) (d : VReg) (m : MReg) :
    let r := VRun.of (s.vec k) e false hi
    let x (sine : Bool) (n : Nat) := compositeElement e.vtype ((s.vec k).tagOf a) .sinCos sine ((s.vec k).elem (s.vec k).lanes e.vtype.sew a n) 0
    exec (.vfnSinCos d a m) s = vecFinish s k r m (r.uecc m [(a, e.vtype.sew)]) none false (sinCosWrite r m d ((s.vec k).tagOf a) x)
      fun n => (x false n).2 ||| (x true n).2 := by
  refine (h.vectorInstr _ _ _ _).trans ?_
  dsimp only
  rw [h.vrun]
  exact if_neg (by simp [VRun.of, hok])

/-- What a rotation writes: x to D's group, then y to the one after it, then z to A's (R166). -/
def rotWrite (r : VRun) (m : MReg) (d a : VReg) (txy tz : Tag) (x : Nat → (Nat × Nat × Nat) × Flags) (hi : Nat) (fin : Bool) (v : Vec) : Vec :=
  r.put m hi fin ⟨a, r.vt.sew, some tz, fun n => some (x n).1.2.2⟩
    (r.put m hi fin ⟨d + BitVec.ofNat 5 r.vt.lmul, r.vt.sew, some txy, fun n => some (x n).1.2.1⟩
      (r.put m hi fin ⟨d, r.vt.sew, some txy, fun n => some (x n).1.1⟩ v))

theorem State.Moves.exec_rot {mode : RotMode} {vec : Bool} {d a : VReg} (hok : vrotOk mode vec (s.vec k) e.vtype d a = true)
    (start n : BitVec 5) (g : Bool) (m : MReg) :
    let r := VRun.of (s.vec k) e false hi
    let y := d + BitVec.ofNat 5 e.vtype.lmul
    let elem (b : VReg) (j : Nat) : Nat := (s.vec k).elem (s.vec k).lanes e.vtype.sew b j
    let x (j : Nat) := rotElement e.vtype ((s.vec k).tagOf d) ((s.vec k).tagOf a) mode vec start.toNat (n.toNat + 1) g (elem d j) (elem y j) (elem a j)
    exec (rotInstr mode vec d a start n g m) s =
      vecFinish s k r m (r.uecc m [(d, e.vtype.sew), (y, e.vtype.sew), (a, e.vtype.sew)]) none false
        (rotWrite r m d a ((s.vec k).tagOf d) ((s.vec k).tagOf a) x) fun j => (x j).2 := by
  have hop : exec (rotInstr mode vec d a start n g m) s = vrotOp (rotInstr mode vec d a start n g m) mode vec d a start n g m s := by
    cases mode <;> cases vec <;> rfl
  refine hop.trans ((h.vectorInstr _ _ _ _).trans ?_)
  dsimp only
  rw [h.vrun]
  exact if_neg (by simp [VRun.of, hok])

end

/-! ## Their destinations -/

theorem VRun.src_strm (r : VRun) (t : Tag) (b : VSrc) : (r.src t b).strm = srcStream b := by
  cases b with
  | vs j =>
    unfold VRun.src
    dsimp only
    cases r.v.stream j <;> rfl
  | _ => rfl

theorem sinCosWrite_frame (r : VRun) (m : MReg) (d : VReg) (t : Tag) (x : Bool → Nat → Nat × Flags) : WriteFrame (sinCosWrite r m d t x) :=
  (put_writeFrame r m _).comp (put_writeFrame r m _)

theorem rotWrite_frame (r : VRun) (m : MReg) (d a : VReg) (txy tz : Tag) (x : Nat → (Nat × Nat × Nat) × Flags) :
    WriteFrame (rotWrite r m d a txy tz x) :=
  ((put_writeFrame r m _).comp (put_writeFrame r m _)).comp (put_writeFrame r m _)

section
variable {r : VRun} {m : MReg} {hi : Nat} {d : VReg} (hlanes : r.lanes = r.v.lanes) (hmax : r.vlmax = vlmaxOf r.lanes r.vt)
  (hd : groupOk r.vt (d, .pair) = true)
include hlanes hmax hd

theorem sinCosWrite_pair (t : Tag) (x : Bool → Nat → Nat × Flags) (z : Vec) :
    PairWritten z (sinCosWrite r m d t x hi (r.kinds m hi).ends z) (r.kinds m hi) d (d + BitVec.ofNat 5 r.vt.lmul) r.vt.sew t
      (fun n => some (x false n).1) fun n => some (x true n).1 := by
  obtain ⟨h1, h2⟩ := pair_aligned hd
  exact pairWritten_of (u := r.v) hlanes h1 h2 (groupWritten_over z hlanes hmax (groupFits_one h1))
    (groupWritten_over _ hlanes hmax (groupFits_one h2)) (pair_apart hd)

theorem rotWrite_groups {a : VReg} (ha : groupOk r.vt (a, .one) = true) (txy tz : Tag) (x : Nat → (Nat × Nat × Nat) × Flags) (v : Vec) :
    let q := r.kinds m hi
    let z := rotWrite r m d a txy tz x hi q.ends v
    let y := d + BitVec.ofNat 5 r.vt.lmul
    let w := r.vt.sew
    GroupHolds v z q a w tz (fun i => some (x i).1.2.2) ∧
    (a ≠ d → GroupHolds v z q d w txy fun i => some (x i).1.1) ∧ (a ≠ y → GroupHolds v z q y w txy fun i => some (x i).1.2.1) ∧
    (∀ n, q.inGroup d w n = false → q.inGroup y w n = false → q.inGroup a w n = false → z.v.getD n 0 = v.v.getD n 0) ∧
    ∀ n, n < 32 → z.tag.getD n .int32 =
      if q.inGroup a w n then tz else if q.inGroup d w n || q.inGroup y w n then txy else v.tag.getD n .int32 := by
  intro q z y w
  obtain ⟨h1, h2⟩ := pair_aligned hd
  obtain ⟨x1, hx1⟩ : ∃ u, u = r.put m hi q.ends ⟨d, w, some txy, fun n => some (x n).1.1⟩ v := ⟨_, rfl⟩
  obtain ⟨x2, hx2⟩ : ∃ u, u = r.put m hi q.ends ⟨y, w, some txy, fun n => some (x n).1.2.1⟩ x1 := ⟨_, rfl⟩
  have hz : z = r.put m hi q.ends ⟨a, w, some tz, fun n => some (x n).1.2.2⟩ x2 := by rw [hx2, hx1]; rfl
  have hfirst : GroupWritten v x1 q d w txy fun n => some (x n).1.1 := by
    rw [hx1]
    exact groupWritten_over v hlanes hmax (groupFits_one h1)
  have hsecond : GroupWritten x1 x2 q y w txy fun n => some (x n).1.2.1 := by
    rw [hx2]
    exact groupWritten_over x1 hlanes hmax (groupFits_one h2)
  have hthird : GroupWritten x2 z q a w tz fun n => some (x n).1.2.2 := by
    rw [hz]
    exact groupWritten_over x2 hlanes hmax (groupFits_one ha)
  clear_value z
  clear hx1 hx2 hz
  have hpair : PairWritten v x2 q d y w txy (fun n => some (x n).1.1) fun n => some (x n).1.2.1 :=
    pairWritten_of (u := r.v) hlanes h1 h2 hfirst hsecond (pair_apart hd)
  exact PairWritten.third (q := q) (u := r.v) (res := fun n => (x n).1.1) (res' := fun n => (x n).1.2.1) (c := fun n => (x n).1.2.2)
    hlanes h1 h2 ha hpair hthird

end

/-! ## The instructions of one destination -/

theorem exec_fnInstr1 {f : Fn} {d a : VReg} {m : MReg} {i : Instr} (h : fnInstr1 f d a m = some i) (s : State) : exec i s = vfnOne i f d a m s := by
  cases f <;> cases h <;> rfl

theorem exec_fnInstr2 {f : Fn} {d a : VReg} {b : VSrc} {m : MReg} {i : Instr} (h : fnInstr2 f d a b m = some i) (s : State) :
    exec i s = vfnTwo i f d a b m s := by
  cases f <;> cases h <;> rfl

/-- Settles O39: a rotation writes its groups one over the other, `vfn.sin.cos` a pair, and the other functions are element-wise. -/
theorem rotationsAndFunctions : Obligations.RotationsAndFunctions := by
  intro s k p hi e d a m h hbad v vt w q y t elem
  refine ⟨fun mode vec start n g hok hd ha => ?rotation, fun hok hd => ?sinCos, fun hd => ⟨fun f i hf hok => ?one, fun f b i hf hok => ?two,
    fun slot b hok => ?user⟩⟩
  case rotation =>
    intro x hquiet
    obtain ⟨u, hu, hmoves, hleft⟩ := registers_written (h.exec_rot hok start n g m) hbad hquiet (rotWrite_frame _ m d a _ _ x)
      fun hi fin z n j => by simp only [rotWrite, maskBit_put]
    refine ⟨u, hu, hmoves, ?_⟩
    split at hleft
    · next hstart =>
      obtain ⟨⟨z, hzv, hzt, huv, hut⟩, hflags⟩ := hleft
      obtain ⟨h1, h2, h3, h4, h5⟩ := rotWrite_groups (r := VRun.of v e false hi) (m := m) (hi := q.hi) rfl rfl hd ha (v.tagOf d) t x z
      rw [if_pos hstart]
      refine ⟨h1.congr hzv.symm huv, fun hne => (h2 hne).congr hzv.symm huv, fun hne => (h3 hne).congr hzv.symm huv, fun n hn1 hn2 hn3 => ?_,
        fun n hn => ?_, hflags⟩
      · rw [huv, ← hzv]
        exact h4 n hn1 hn2 hn3
      · rw [hut, ← hzt]
        exact h5 n hn
    · next hstart =>
      rw [if_neg hstart]
      exact hleft
  case sinCos =>
    intro x hquiet
    obtain ⟨u, hu, hmoves, hleft⟩ := registers_written (h.exec_vfnSinCos hok d m) hbad hquiet (sinCosWrite_frame _ m d t x)
      fun hi fin z n j => by simp only [sinCosWrite, maskBit_put]
    refine ⟨u, hu, hmoves, ?_⟩
    split at hleft
    · next hstart =>
      obtain ⟨⟨z, hzv, hzt, huv, hut⟩, hflags⟩ := hleft
      obtain ⟨h1, h2, h3, h4⟩ := sinCosWrite_pair (r := VRun.of v e false hi) (m := m) (hi := q.hi) rfl rfl hd t x z
      rw [if_pos hstart]
      refine ⟨h1.congr hzv.symm huv, h2.congr hzv.symm huv, fun n hn1 hn2 => ?_, fun n hn => ?_, hflags⟩
      · rw [huv, ← hzv]
        exact h3 n hn1 hn2
      · rw [hut, ← hzt]
        exact h4 n hn
    · next hstart =>
      rw [if_neg hstart]
      exact hleft
  case one =>
    intro x hquiet
    exact elementwise_writes ((exec_fnInstr1 hf s).trans (h.vfnOne hok i f d m)) hbad hquiet rfl (groupFits_one hd)
  case two =>
    intro r x hread hquiet
    have hexec := (exec_fnInstr2 hf s).trans (h.vfnTwo hok i f d m)
    rw [VRun.src_strm] at hexec
    exact elementwise_writes hexec hbad hquiet hread (groupFits_one hd)
  case user =>
    intro r x hread hquiet
    have hexec := h.exec_vfnUfn hok slot d m
    dsimp only at hexec
    rw [VRun.src_strm] at hexec
    exact elementwise_writes hexec hbad hquiet hread (groupFits_one hd)

end Sys2Proof.Machine
end

section
/-! PROOFS. The words of a rotation and its steps (R55 to R64, R67). -/
namespace Sys2Proof.Machine

/-! ## Words (R55, R56) -/

theorem floorShift_eq (v : ℤ) (k : Nat) : floorShift v k = v / 2 ^ k := by
  unfold floorShift
  push_cast
  rfl

/-- The model's wrap through a code is the wrap of R55. -/
theorem wrapS_eq_wrapWord {n : Nat} (hn : 1 ≤ n) (v : ℤ) : wrapS n v = wrapWord n v := by
  obtain ⟨k, rfl⟩ : ∃ k, n = k + 1 := ⟨n - 1, by omega⟩
  have h2 : (2 : Nat) ^ (k + 1) = 2 * 2 ^ k := by ring
  have h2' : (2 : ℤ) ^ (k + 1) = 2 * ((2 ^ k : Nat) : ℤ) := by push_cast; ring
  have hpos : 0 < 2 ^ k := by positivity
  unfold wrapS sextN wrapN wrapWord
  rw [Nat.add_sub_cancel, h2', h2, show ((2 : ℤ) ^ k) = ((2 ^ k : Nat) : ℤ) by push_cast; rfl]
  generalize 2 ^ k = N at *
  have hq0 := Int.emod_nonneg v (show ((2 * N : Nat) : ℤ) ≠ 0 by omega)
  have hq1 := Int.emod_lt_of_pos v (show (0 : ℤ) < (2 * N : Nat) by omega)
  have hcast : ((2 * N : Nat) : ℤ) = 2 * (N : ℤ) := by push_cast; rfl
  have hsum : (v + N) % (2 * (N : ℤ)) = (v % (2 * N : Nat) + N) % (2 * (N : ℤ)) := by rw [hcast, Int.emod_add_emod]
  rw [hsum]
  generalize v % ((2 * N : Nat) : ℤ) = q at *
  rw [Nat.mod_eq_of_lt (by omega)]
  by_cases h : q < N
  · rw [if_pos (by omega), Int.emod_eq_of_lt (by omega) (by omega)]
    omega
  · rw [if_neg (by omega), ← Int.sub_emod_right, Int.emod_eq_of_lt (by omega) (by omega)]
    omega

/-- A word that its width holds is not changed by the wrap. -/
theorem wrapWord_eq_self {n : Nat} (hn : 1 ≤ n) {v : ℤ} (h1 : -2 ^ (n - 1) ≤ v) (h2 : v < 2 ^ (n - 1)) : wrapWord n v = v := by
  unfold wrapWord
  have : (2 : ℤ) ^ n = 2 * 2 ^ (n - 1) := by rw [← pow_succ', Nat.sub_add_cancel hn]
  rw [Int.emod_eq_of_lt (by omega) (by omega)]
  omega

theorem rotWidth_xw (sew : Nat) : (rotWidth sew).xw = (wordWidths sew).1 := by unfold rotWidth wordWidths; split_ifs <;> rfl
theorem rotWidth_zw (sew : Nat) : (rotWidth sew).zw = (wordWidths sew).2.1 := by unfold rotWidth wordWidths; split_ifs <;> rfl
theorem rotWidth_fz (sew : Nat) : (rotWidth sew).fz = (wordWidths sew).2.2 := by unfold rotWidth wordWidths; split_ifs <;> rfl
theorem rotWidth_fx (sew : Nat) : (rotWidth sew).fx = (wordWidths sew).1 - 3 := by unfold rotWidth wordWidths; split_ifs <;> rfl

theorem wordWidths_ge (sew : Nat) : 10 ≤ (wordWidths sew).1 ∧ 9 ≤ (wordWidths sew).2.1 ∧ 7 ≤ (wordWidths sew).2.2 := by
  unfold wordWidths
  split_ifs <;> simp

/-- Three words wrapped to their widths, with NC for one that its width does not hold (R62). -/
def WrappedTo (sew : Nat) (nc : Bool) (u : RotWords) (x y z : ℤ) : Prop :=
  u.x = wrapWord (wordWidths sew).1 x ∧ u.y = wrapWord (wordWidths sew).1 y ∧ u.z = wrapWord (wordWidths sew).2.1 z ∧
    u.nc = (nc || decide (u.x ≠ x ∨ u.y ≠ y ∨ u.z ≠ z))

theorem RotWords.wrap_wrappedTo (sew : Nat) (r : RotWords) : WrappedTo sew r.nc (r.wrap (rotWidth sew)) r.x r.y r.z := by
  obtain ⟨hx, hz, -⟩ := wordWidths_ge sew
  refine ⟨?_, ?_, ?_, ?_⟩
  · rw [← rotWidth_xw, ← wrapS_eq_wrapWord (by rw [rotWidth_xw]; omega)]
    rfl
  · rw [← rotWidth_xw, ← wrapS_eq_wrapWord (by rw [rotWidth_xw]; omega)]
    rfl
  · rw [← rotWidth_zw, ← wrapS_eq_wrapWord (by rw [rotWidth_zw]; omega)]
    rfl
  · unfold RotWords.wrap
    simp only [bne, Bool.or_assoc, ne_eq, Bool.decide_or, decide_not, beq_eq_decide]

/-! ## Shifts and angles (R58 to R60) -/

theorem rotShift_eq_shiftAt (mode : RotMode) {i : Nat} (hi : i < 32) : rotShift mode i = shiftAt mode i := by
  have hyp : ∀ i < 32, hypShift i = shiftAt .hyp i := by decide
  cases mode with
  | hyp => exact hyp i hi
  | _ => rfl

theorem shiftAt_hyp_bounds : ∀ i < 32, 1 ≤ shiftAt .hyp i ∧ shiftAt .hyp i < 32 := by decide

/-- The table of R59 at a shift, before the table shift of R60. -/
theorem rotTable32_eq_angleAt (mode : RotMode) {k : Nat} (hk : k < 32) (h1 : mode = .hyp → 1 ≤ k) :
    (rotTable32 mode k : ℤ) = angleAt 32 mode k := by
  have cir : ∀ k < 32, (rotTable32 .cir k : ℤ) = angleAt 32 .cir k := by decide
  have hyp : ∀ k < 32, 1 ≤ k → (rotTable32 .hyp k : ℤ) = angleAt 32 .hyp k := by decide
  cases mode with
  | cir => exact cir k hk
  | hyp => exact hyp k hk (h1 rfl)
  | lin => unfold rotTable32 angleAt; simp

theorem rotTable_eq_angleAt {sew : Nat} (hsew : sew ∈ [8, 16, 32]) (mode : RotMode) {k : Nat} (hk : k < 32) (h1 : mode = .hyp → 1 ≤ k) :
    rotTable (rotWidth sew) mode k = angleAt sew mode k := by
  have h32 := rotTable32_eq_angleAt mode hk h1
  simp only [List.mem_cons, List.not_mem_nil, or_false] at hsew
  unfold rotTable
  rw [h32]
  obtain rfl | rfl | rfl := hsew <;> rfl

theorem rotTable_rotShift {sew : Nat} (hsew : sew ∈ [8, 16, 32]) (mode : RotMode) {i : Nat} (hi : i < 32) :
    rotTable (rotWidth sew) mode (rotShift mode i) = angleAt sew mode (shiftAt mode i) := by
  rw [rotShift_eq_shiftAt mode hi]
  cases mode with
  | hyp => exact rotTable_eq_angleAt hsew _ (shiftAt_hyp_bounds i hi).2 fun _ => (shiftAt_hyp_bounds i hi).1
  | _ => exact rotTable_eq_angleAt hsew _ hi nofun

/-! ## One step (R57, R62) -/

/-- m of R57. -/
def stepSign (mode : RotMode) : ℤ := match mode with | .cir => 1 | .lin => 0 | .hyp => -1

/-- The direction of a step (R57). -/
def stepDir (mode : RotMode) (vec : Bool) (r : RotWords) : ℤ :=
  match mode, vec with
  | .lin, false => r.z.sign | .lin, true => -r.y.sign
  | _, false => if 0 ≤ r.z then 1 else -1 | _, true => if 0 ≤ r.y then -1 else 1

theorem rotSigma_eq_stepDir (mode : RotMode) (vec : Bool) (r : RotWords) : rotSigma mode vec r = stepDir mode vec r := by
  have hsign (v : ℤ) : v.sign = if 0 < v then 1 else if v = 0 then 0 else -1 := by
    obtain h | h | h := lt_trichotomy v 0
    · rw [Int.sign_eq_neg_one_of_neg h, if_neg (by omega), if_neg (by omega)]
    · rw [h]; rfl
    · rw [Int.sign_eq_one_of_pos h, if_pos h]
  cases mode <;> cases vec
  case lin.false => exact (hsign r.z).symm
  case lin.true =>
    show (if 0 < r.y then -1 else if r.y = 0 then 0 else 1 : ℤ) = -r.y.sign
    rw [hsign]
    split_ifs <;> rfl
  all_goals rfl

theorem rotStep_wrappedTo {sew : Nat} (hsew : sew ∈ [8, 16, 32]) (mode : RotMode) (vec : Bool) {i : Nat} (hi : i < 32) (r : RotWords) :
    let k := shiftAt mode i
    let dir := stepDir mode vec r
    WrappedTo sew r.nc (rotStep (rotWidth sew) mode vec i r) (r.x - stepSign mode * dir * (r.y / 2 ^ k)) (r.y + dir * (r.x / 2 ^ k))
      (r.z - dir * angleAt sew mode k) := by
  intro k dir
  have h := RotWords.wrap_wrappedTo sew { r with
      x := r.x - mode.m * rotSigma mode vec r * floorShift r.y (rotShift mode i)
      y := r.y + rotSigma mode vec r * floorShift r.x (rotShift mode i)
      z := r.z - rotSigma mode vec r * rotTable (rotWidth sew) mode (rotShift mode i) }
  rw [← rotTable_rotShift hsew mode hi]
  dsimp only at h
  unfold k dir
  rw [← rotSigma_eq_stepDir, ← rotShift_eq_shiftAt mode hi, ← floorShift_eq, ← floorShift_eq,
    show stepSign mode = mode.m by cases mode <;> rfl]
  exact h

/-! ## Pre-reduction (R61) -/

theorem quarterTurn_wrapN (x y j : ℤ) : quarterTurn x y (wrapN 2 j) =
    (if j % 4 = 0 then x else if j % 4 = 1 then -y else if j % 4 = 2 then -x else y,
      if j % 4 = 0 then y else if j % 4 = 1 then x else if j % 4 = 2 then -y else -x) := by
  unfold quarterTurn wrapN
  have h : ((j % ((2 ^ 2 : Nat) : ℤ)).toNat : ℤ) = j % 4 := Int.toNat_of_nonneg (Int.emod_nonneg _ (by norm_num))
  have hlt := Int.emod_lt_of_pos j (show (0 : ℤ) < 4 by norm_num)
  generalize (j % ((2 ^ 2 : Nat) : ℤ)).toNat = n at h
  rw [← h] at hlt ⊢
  rw [Nat.mod_eq_of_lt (by omega)]
  obtain rfl | rfl | rfl | rfl : n = 0 ∨ n = 1 ∨ n = 2 ∨ n = 3 := by omega
  all_goals rfl

/-- A quarter turn in Z words (R61). -/
def quarterOf (sew : Nat) : ℤ := 2 ^ ((wordWidths sew).2.2 - 2)

theorem prereduce_rotation (sew : Nat) (r : RotWords) :
    let j := (r.z + quarterOf sew / 2) / quarterOf sew
    WrappedTo sew r.nc (prereduce (rotWidth sew) false r)
      (if j % 4 = 0 then r.x else if j % 4 = 1 then -r.y else if j % 4 = 2 then -r.x else r.y)
      (if j % 4 = 0 then r.y else if j % 4 = 1 then r.x else if j % 4 = 2 then -r.y else -r.x) (r.z - j * quarterOf sew) := by
  intro j
  have hq : (((2 ^ ((rotWidth sew).fz - 2) : Nat)) : ℤ) = quarterOf sew := by rw [rotWidth_fz]; push_cast; rfl
  have hj : floorShift (r.z + quarterOf sew / 2) ((rotWidth sew).fz - 2) = j := by
    rw [floorShift_eq, rotWidth_fz]
    rfl
  have h := RotWords.wrap_wrappedTo sew { r with
    x := (quarterTurn r.x r.y (wrapN 2 j)).1, y := (quarterTurn r.x r.y (wrapN 2 j)).2, z := r.z - j * quarterOf sew }
  unfold prereduce
  dsimp only at h ⊢
  rw [if_neg (by simp), hq, hj]
  rw [quarterTurn_wrapN] at h ⊢
  exact h

theorem prereduce_vectoring_pos (sew : Nat) {r : RotWords} (hx : 0 ≤ r.x) : prereduce (rotWidth sew) true r = r := by
  unfold prereduce
  dsimp only
  rw [if_pos rfl, if_neg (by omega)]

theorem prereduce_vectoring_upper (sew : Nat) {r : RotWords} (hx : r.x < 0) (hy : 0 ≤ r.y) :
    WrappedTo sew r.nc (prereduce (rotWidth sew) true r) r.y (-r.x) (r.z + quarterOf sew) := by
  have hq : (((2 ^ ((rotWidth sew).fz - 2) : Nat)) : ℤ) = quarterOf sew := by rw [rotWidth_fz]; push_cast; rfl
  unfold prereduce
  dsimp only
  rw [if_pos rfl, if_pos hx, if_pos hy, hq]
  exact RotWords.wrap_wrappedTo sew { r with x := r.y, y := -r.x, z := r.z + quarterOf sew }

theorem prereduce_vectoring_lower (sew : Nat) {r : RotWords} (hx : r.x < 0) (hy : r.y < 0) :
    WrappedTo sew r.nc (prereduce (rotWidth sew) true r) (-r.y) r.x (r.z - quarterOf sew) := by
  have hq : (((2 ^ ((rotWidth sew).fz - 2) : Nat)) : ℤ) = quarterOf sew := by rw [rotWidth_fz]; push_cast; rfl
  unfold prereduce
  dsimp only
  rw [if_pos rfl, if_pos hx, if_neg (by omega), hq]
  exact RotWords.wrap_wrappedTo sew { r with x := -r.y, y := r.x, z := r.z - quarterOf sew }

/-! ## The range of convergence (R62) -/

theorem rotReach_eq_sum {sew : Nat} (hsew : sew ∈ [8, 16, 32]) (s n : Nat) (h : s + n ≤ 32) :
    rotReach (rotWidth sew) .cir s n = ∑ i ∈ Finset.range n, angleAt sew .cir (s + i) := by
  unfold rotReach
  induction n with
  | zero => rfl
  | succ n ih =>
    rw [List.range_succ, List.foldl_append, ih (by omega), Finset.sum_range_succ, List.foldl_cons, List.foldl_nil,
      rotTable_rotShift hsew .cir (by omega)]
    rfl

/-- The range of convergence of each mode (R62). -/
def BeyondRange (sew : Nat) (mode : RotMode) (vec : Bool) (s n : Nat) (r : RotWords) : Prop :=
  match mode, vec with
  | .cir, false => s ≠ 0 ∧ ∑ i ∈ Finset.range n, angleAt sew .cir (s + i) < |r.z|
  | .cir, true => s ≠ 0 ∧ (r.x < 0 ∨ (r.x : ℚ) * 2 ^ (1 - (s : ℤ)) ≤ |r.y|)
  | .hyp, false => ⌊(11182 / 10000 : ℚ) * 2 ^ (wordWidths sew).2.2⌋ < |r.z|
  | .hyp, true => r.x ≤ 0 ∨ 806 * r.x ≤ 1000 * |r.y|
  | .lin, false => (2 - 2 ^ (1 - (n : ℤ)) : ℚ) * 2 ^ (wordWidths sew).2.2 ≤ |r.z|
  | .lin, true => r.x ≤ 0 ∨ 2 * r.x ≤ |r.y|

/-- 2^(1−s) for s ≥ 1. -/
theorem two_zpow_one_sub {s : Nat} (hs : 1 ≤ s) : (2 : ℚ) ^ (1 - (s : ℤ)) = 1 / 2 ^ (s - 1) := by
  rw [show 1 - (s : ℤ) = -((s - 1 : Nat) : ℤ) by omega, zpow_neg, zpow_natCast, one_div]

theorem mul_two_zpow_le {s : Nat} (hs : 1 ≤ s) (x y : ℤ) : (x : ℚ) * 2 ^ (1 - (s : ℤ)) ≤ |y| ↔ x ≤ |y| * 2 ^ (s - 1) := by
  rw [two_zpow_one_sub hs, mul_one_div, div_le_iff₀ (by positivity)]
  exact_mod_cast Iff.rfl

theorem floor_11182 (f : Nat) : ⌊(11182 / 10000 : ℚ) * 2 ^ f⌋ = ((11182 * 2 ^ f / 10000 : Nat) : ℤ) := by
  have h : (11182 / 10000 : ℚ) * 2 ^ f = ((11182 * 2 ^ f : Nat) : ℚ) / (10000 : Nat) := by push_cast; ring
  rw [h, ← Int.cast_natCast (11182 * 2 ^ f), Rat.floor_intCast_div_natCast]
  exact (Int.natCast_ediv _ _).symm

theorem linear_reach_le {n : Nat} (hn : 1 ≤ n) (f : Nat) (z : ℤ) :
    (2 - 2 ^ (1 - (n : ℤ)) : ℚ) * 2 ^ f ≤ |z| ↔ (2 ^ n - 1) * 2 ^ f ≤ |z| * 2 ^ (n - 1) := by
  have hpos : (0 : ℚ) < 2 ^ (n - 1) := by positivity
  have h : (2 - 2 ^ (1 - (n : ℤ)) : ℚ) * 2 ^ f = ((2 ^ n - 1) * 2 ^ f : ℚ) / 2 ^ (n - 1) := by
    obtain ⟨k, rfl⟩ : ∃ k, n = k + 1 := ⟨n - 1, by omega⟩
    rw [two_zpow_one_sub hn, Nat.add_sub_cancel, pow_succ]
    field_simp
  rw [h, div_le_iff₀ hpos]
  exact_mod_cast Iff.rfl

theorem rotOutOfRange_iff {sew : Nat} (hsew : sew ∈ [8, 16, 32]) (mode : RotMode) (vec : Bool) {s n : Nat} (hn : 1 ≤ n) (hs : s + n ≤ 32)
    (r : RotWords) : rotOutOfRange (rotWidth sew) mode vec s n r = true ↔ BeyondRange sew mode vec s n r := by
  cases mode <;> cases vec <;> simp only [rotOutOfRange, BeyondRange, Bool.and_eq_true, Bool.or_eq_true, bne_iff_ne, decide_eq_true_eq,
    Int.natCast_natAbs]
  case cir.false => rw [rotReach_eq_sum hsew s n hs]
  case cir.true =>
    refine and_congr_right fun h => or_congr_right ?_
    rw [mul_two_zpow_le (by omega)]
    push_cast
    rfl
  case hyp.false =>
    rw [floor_11182, rotWidth_fz, ← Int.natCast_natAbs, Nat.cast_lt]
  case lin.false =>
    rw [linear_reach_le hn, rotWidth_fz]
    zify [Nat.one_le_two_pow]

/-! ## Compensation and order (R63, R64, R67) -/

/-- The compensation constant of R63. -/
def gainAt (mode : RotMode) (n : Nat) : ℤ :=
  if mode = .cir
      then [11863283, 10610843, 10294030, 10214538, 10194646, 10189672, 10188428, 10188117, 10188040, 10188020, 10188015].getD (n - 1) 10188014
      else [19372660, 20007998, 20166166, 20205669, 20245249, 20255142, 20257615, 20258233, 20258387, 20258426, 20258436, 20258438].getD
        (n - 1) 20258439

theorem rotGain_eq_gainAt (mode : RotMode) (n : Nat) : (rotGain mode n : ℤ) = gainAt mode n := by
  have cir (k : Nat) : ((cirGain.getD k 10188014 : Nat) : ℤ) =
    [11863283, 10610843, 10294030, 10214538, 10194646, 10189672, 10188428, 10188117, 10188040, 10188020, 10188015].getD k 10188014 := by
    iterate 12 (rcases k with - | k; · rfl)
    rfl
  have hyp (k : Nat) : ((hypGain.getD k 20258439 : Nat) : ℤ) =
    [19372660, 20007998, 20166166, 20205669, 20245249, 20255142, 20257615, 20258233, 20258387, 20258426, 20258436, 20258438].getD k 20258439 := by
    iterate 13 (rcases k with - | k; · rfl)
    rfl
  cases mode with
  | cir => exact cir _
  | _ => exact hyp _

theorem roundTo_div (rm : Nat) (m : ℤ) (k : Nat) : (roundTo rm 0 m (-(k : ℤ))).1 = rounded rm ((m : ℚ) / 2 ^ k) := by
  rw [roundTo_eq rm 0 m (-(k : ℤ)) (x := (m : ℚ) / 2 ^ k) (by rw [zpow_neg, zpow_natCast, zpow_zero, div_one, div_eq_mul_inv])]

theorem rotCompensate_wrappedTo (sew : Nat) (mode : RotMode) (n : Nat) (r : RotWords) :
    WrappedTo sew r.nc (rotCompensate (rotWidth sew) mode n r) (rounded 0 ((r.x * gainAt mode n : ℤ) / 2 ^ 24))
      (rounded 0 ((r.y * gainAt mode n : ℤ) / 2 ^ 24)) r.z := by
  rw [← roundTo_div, ← roundTo_div, ← rotGain_eq_gainAt]
  exact RotWords.wrap_wrappedTo sew _

/-- The steps of a rotation, from step s on (R67). -/
def rotSteps (w : RotWidth) (mode : RotMode) (vec : Bool) (s n : Nat) (r : RotWords) : RotWords :=
  (List.range n).foldl (fun x i => rotStep w mode vec (s + i) x) r

/-- The order of a rotation (R67). -/
theorem rotCore_eq (w : RotWidth) (mode : RotMode) (vec : Bool) (s n : Nat) (g : Bool) (r : RotWords) :
    let start := if mode = .cir ∧ s = 0 then prereduce w vec r else r
    let marked := { start with nc := start.nc || rotOutOfRange w mode vec s n start }
    let turned := rotSteps w mode vec s n marked
    rotCore w mode vec s n g r = if g then rotCompensate w mode n turned else turned := by
  unfold rotCore
  simp only [Bool.and_eq_true, decide_eq_true_eq, rotSteps]

theorem rotationSteps : RotationSteps := by
  intro sew mode vec r hsew hcir w xw zw fz m dir next quarter j gain
  refine ⟨fun i hi => rotStep_wrappedTo hsew mode vec hi r, fun _ => ⟨?_, ?_⟩, fun s n hn hs => ⟨?_, fun _ => ?_, fun g => ?_⟩⟩
  · rintro rfl
    exact prereduce_rotation sew r
  · rintro rfl
    exact ⟨prereduce_vectoring_pos sew, fun hx hy => prereduce_vectoring_upper sew hx hy, fun hx hy => prereduce_vectoring_lower sew hx hy⟩
  · exact rotOutOfRange_iff hsew mode vec hn hs r
  · exact rotCompensate_wrappedTo sew mode n r
  · exact rotCore_eq w mode vec s n g r

end Sys2Proof.Machine
end

section
/-! PROOFS. The operands and results of rotations and of user microprograms (R65, R74), and the micro-ops (R75). -/
namespace Sys2Proof.Machine

/-! ## Operands (R65, R74) -/

theorem flagIf_or_flagIf (p q : Prop) [Decidable p] [Decidable q] (f : Flags) : flagIf p f ||| flagIf q f = flagIf (p ∨ q) f := by
  unfold flagIf
  by_cases hp : p <;> by_cases hq : q <;> simp [hp, hq]

theorem flagIf_congr {p q : Prop} [Decidable p] [Decidable q] (h : p ↔ q) (f : Flags) : flagIf p f = flagIf q f := by
  unfold flagIf
  simp only [h]

theorem Val.special_iff (v : Val) : v.special = true ↔ v.isNan = true ∨ v.isInf = true := Bool.or_eq_true_iff

theorem Val.finite_of_not_special {v : Val} (h : ¬ (v.isNan = true ∨ v.isInf = true)) : v.Finite := by
  simpa [Val.Finite, not_or] using h

/-- NV of an infinity or a signalling NaN (R65, R74). -/
theorem Val.rotFlag_eq (v : Val) : v.rotFlag = flagIf (v.isInf = true ∨ v = .nan true) 1 := by
  rcases v with (_ | _) | _ | _ | _ <;> rfl

theorem Val.rotFlag_two (a b : Val) : a.rotFlag ||| b.rotFlag = flagIf (∃ v ∈ [a, b], v.isInf = true ∨ v = .nan true) 1 := by
  rw [rotFlag_eq, rotFlag_eq, flagIf_or_flagIf]
  exact flagIf_congr (by simp) 1

theorem Val.rotFlag_three (a b c : Val) :
    a.rotFlag ||| b.rotFlag ||| c.rotFlag = flagIf (∃ v ∈ [a, b, c], v.isInf = true ∨ v = .nan true) 1 := by
  rw [rotFlag_eq, rotFlag_eq, rotFlag_eq, flagIf_or_flagIf, flagIf_or_flagIf]
  exact flagIf_congr (by simp [or_assoc]) 1

theorem rounded_two (x : ℚ) : rounded 2 x = ⌊x⌋ := by
  unfold rounded
  exact ite_self _

/-- A finite value times a power of two, floored. -/
theorem floorVal_eq {v : Val} (hf : v.Finite) (k : ℤ) : floorVal k v = ⌊v.rat * 2 ^ k⌋ := by
  obtain ⟨h1, h2⟩ := hf
  cases v with
  | nan s => simp [Val.isNan] at h1
  | inf s => simp [Val.isInf] at h2
  | zero s => simp [floorVal]
  | fin m e =>
    show (roundTo 2 0 m (e + k)).1 = _
    rw [roundTo_eq 2 0 m (e + k) (x := (Val.fin m e).rat * 2 ^ k), rounded_two]
    rw [Val.rat_fin, zpow_zero, div_one, zpow_add₀ (by norm_num), mul_assoc]

/-- The exponent of the larger of two values that are not both zero. -/
def CommonExp (e : ℤ) (a b : ℚ) : Prop := (2 : ℚ) ^ e ≤ max |a| |b| ∧ max |a| |b| < (2 : ℚ) ^ (e + 1)

theorem commonExp_left {a b : ℚ} {e : ℤ} (h1 : (2 : ℚ) ^ e ≤ |a|) (h2 : |a| < (2 : ℚ) ^ (e + 1)) (hb : |b| ≤ |a|) : CommonExp e a b := by
  unfold CommonExp
  rw [max_eq_left hb]
  exact ⟨h1, h2⟩

theorem commonExp_swap {a b : ℚ} {e : ℤ} (h : CommonExp e a b) : CommonExp e b a := by
  unfold CommonExp at h ⊢
  rwa [max_comm]

theorem commonExp_max {a b : ℚ} {e e' : ℤ} (h1 : (2 : ℚ) ^ e ≤ |a|) (h2 : |a| < (2 : ℚ) ^ (e + 1)) (h3 : (2 : ℚ) ^ e' ≤ |b|)
    (h4 : |b| < (2 : ℚ) ^ (e' + 1)) : CommonExp (max e e') a b := by
  have mono {i j : ℤ} (h : i ≤ j) : (2 : ℚ) ^ i ≤ 2 ^ j := zpow_le_zpow_right₀ (by norm_num) h
  refine ⟨?_, max_lt (h2.trans_le (mono (by omega))) (h4.trans_le (mono (by omega)))⟩
  obtain h | h := le_total e e'
  · rw [max_eq_right h]
    exact h3.trans (le_max_right _ _)
  · rw [max_eq_left h]
    exact h1.trans (le_max_left _ _)

/-- The common exponent of a pair (R65): 0 where both are zero. -/
theorem pairExp_spec {a b : Val} (ha : a.Finite) (hb : b.Finite) (hna : a.Normal) (hnb : b.Normal) :
    (a.rat = 0 ∧ b.rat = 0 → pairExp a b = 0) ∧ (a.rat ≠ 0 ∨ b.rat ≠ 0 → CommonExp (pairExp a b) a.rat b.rat) := by
  obtain ⟨s, rfl⟩ | ⟨m, e, rfl, hm⟩ := Val.finite_cases ha hna <;> obtain ⟨z, rfl⟩ | ⟨n, d, rfl, hn⟩ := Val.finite_cases hb hnb
  · exact ⟨fun _ => rfl, fun h => absurd h (by simp)⟩
  · obtain ⟨h1, h2⟩ := topExp_bounds hn d
    exact ⟨fun h => absurd h.2 (Val.rat_fin_ne hn), fun _ => commonExp_swap (commonExp_left h1 h2 (by simp))⟩
  · obtain ⟨h1, h2⟩ := topExp_bounds hm e
    exact ⟨fun h => absurd h.1 (Val.rat_fin_ne hm), fun _ => commonExp_left h1 h2 (by simp)⟩
  · obtain ⟨h1, h2⟩ := topExp_bounds hm e
    obtain ⟨h3, h4⟩ := topExp_bounds hn d
    exact ⟨fun h => absurd h.1 (Val.rat_fin_ne hm), fun _ => commonExp_max h1 h2 h3 h4⟩

/-- The exponent that the words of a pair are taken over (R65, R74). -/
theorem wordExp_spec {a b : Val} (ha : a.Finite) (hb : b.Finite) (hna : a.Normal) (hnb : b.Normal) (t : Tag) :
    let e := if t.cls = .float then pairExp a b else 0
    (t.cls ≠ .float ∨ (a.rat = 0 ∧ b.rat = 0) → e = 0) ∧ (t.cls = .float → a.rat ≠ 0 ∨ b.rat ≠ 0 → CommonExp e a.rat b.rat) := by
  intro e
  obtain ⟨h1, h2⟩ := pairExp_spec ha hb hna hnb
  unfold e
  by_cases ht : t.cls = .float
  · rw [if_pos ht]
    exact ⟨fun h => h1 (h.resolve_left (by simp [ht])), fun _ => h2⟩
  · rw [if_neg ht]
    exact ⟨fun _ => rfl, fun h => absurd h ht⟩

theorem rotWidth_fx_cast (sew : Nat) : ((rotWidth sew).fx : ℤ) = (wordWidths sew).1 - 3 := by
  have := (wordWidths_ge sew).1
  rw [rotWidth_fx]
  omega

/-- A word of a result stands for its number, and is written in the tag. -/
theorem encode_word (vt : VType) (t : Tag) (x k : ℤ) :
    Stands (Val.mk x k) (x * 2 ^ k) ∧ Written vt t (Val.mk x k) (encode vt t (Val.mk x k)) :=
  ⟨Val.stands_mk x k, encode_written vt t (Val.stands_normal (Val.stands_mk x k))⟩

/-! ## User microprograms (R74) -/

theorem ufnElement_special (vt : VType) (t : Tag) (prog : List (BitVec 32)) (ca cb : Nat)
    (h : (readVal vt t ca).special = true ∨ (readVal vt t cb).special = true) :
    ufnElement vt t prog ca cb = (canonicalNan t, (readVal vt t ca).rotFlag ||| (readVal vt t cb).rotFlag) :=
  if_pos (Bool.or_eq_true_iff.mpr h)

/-- The micro-registers that a program starts with (R74). -/
def microStart (fx e : ℤ) (a b : ℚ) : Micro := ⟨[⌊a * (2 : ℚ) ^ (fx - e)⌋, ⌊b * (2 : ℚ) ^ (fx - e)⌋, 0, 0, 0, 0, 0, e], false⟩

theorem ufnElement_finite (vt : VType) (t : Tag) (prog : List (BitVec 32)) (ca cb : Nat)
    (ha : (readVal vt t ca).Finite) (hb : (readVal vt t cb).Finite) :
    let a := readVal vt t ca
    let b := readVal vt t cb
    let e := if t.cls = .float then pairExp a b else 0
    let fx : ℤ := (wordWidths t.width).1 - 3
    let m := microRun (rotWidth t.width) prog (microStart fx e a.rat b.rat)
    let y := encode vt t (Val.mk (m.h.getD 0 0) (m.h.getD 7 0 - fx))
    ufnElement vt t prog ca cb = (y.1, y.2 ||| flagIf (m.nc = true) 64) := by
  intro a b e fx m y
  have hsp : ¬ ((a.special || b.special) = true) := by
    rw [Bool.or_eq_true, Val.special_iff, Val.special_iff]
    simp [a, b, ha.1, ha.2, hb.1, hb.2]
  unfold ufnElement
  dsimp only
  rw [if_neg hsp, floorVal_eq ha, floorVal_eq hb, rotWidth_fx_cast, Flags.when_eq]
  rfl

/-! ## The micro-ops (R75) -/

/-- A value wrapped to a micro-register (R74). -/
def microWrap (sew r : Nat) (v : ℤ) : ℤ :=
  wrapWord (if r = 2 then (wordWidths sew).2.1 else if r = 7 then 16 else (wordWidths sew).1) v

theorem microWrap_eq (sew r : Nat) (v : ℤ) : wrapS (microWidth (rotWidth sew) r) v = microWrap sew r v := by
  obtain ⟨h1, h2, -⟩ := wordWidths_ge sew
  have hw : microWidth (rotWidth sew) r = if r = 2 then (wordWidths sew).2.1 else if r = 7 then 16 else (wordWidths sew).1 := by
    rw [← rotWidth_xw, ← rotWidth_zw]
    rfl
  rw [wrapS_eq_wrapWord (by rw [hw]; split_ifs <;> omega), hw]
  rfl

/-- A micro-register written with a value that is wrapped to it, with NC (R74). -/
theorem Micro.set_eq (sew r : Nat) (m : Micro) (v : ℤ) :
    Micro.set (rotWidth sew) m r v = ⟨m.h.set r (microWrap sew r v), m.nc || decide (microWrap sew r v ≠ v)⟩ := by
  unfold Micro.set
  simp only [microWrap_eq, bne, decide_not, beq_eq_decide, ne_eq]

theorem sextN_extract (u : BitVec 32) : sextN 18 (uopField u 0 18) = (u.extractLsb' 0 18).toInt := by
  rw [sextN_eq_toInt, uopField, BitVec.ofNat_toNat, BitVec.setWidth_eq]

/-- A shift by a word's width or more leaves nothing of a value. -/
theorem wrapWord_mul_pow {n k : Nat} (hn : 1 ≤ n) (hk : n ≤ k) (a : ℤ) : wrapWord n (a * 2 ^ k) = 0 := by
  obtain ⟨j, rfl⟩ : ∃ j, k = n + j := ⟨k - n, by omega⟩
  have hlt : (2 : ℤ) ^ (n - 1) < 2 ^ n := pow_lt_pow_right₀ (by norm_num) (by omega)
  unfold wrapWord
  rw [pow_add, show a * (2 ^ n * 2 ^ j) + 2 ^ (n - 1) = 2 ^ (n - 1) + 2 ^ n * (a * 2 ^ j) by ring, Int.add_mul_emod_self_left,
    Int.emod_eq_of_lt (by positivity) hlt, sub_self]

theorem microWrap_mul_pow {sew : Nat} (r : Nat) {k : Nat} (hk : 64 ≤ k) (a : ℤ) : microWrap sew r (a * 2 ^ k) = 0 := by
  have h : ∀ n, (9 ≤ n ∧ n ≤ 42) → wrapWord n (a * 2 ^ k) = 0 := fun n hn => wrapWord_mul_pow (by omega) (by omega) a
  unfold microWrap wordWidths
  split_ifs <;> exact h _ (by norm_num)

/-- A shift to the right past 64 places is one of 64 places, where the value has at most 63 bits. -/
theorem floor_shift_min {v : ℤ} (hv : |v| < 2 ^ 63) (n : Nat) : floorShift v (min n 64) = v / 2 ^ n := by
  rw [floorShift_eq]
  obtain h | h := le_total n 64
  · rw [min_eq_left h]
  · rw [min_eq_right h]
    obtain ⟨h1, h2⟩ := abs_lt.mp hv
    have hpow : (2 : ℤ) ^ 64 ≤ 2 ^ n := pow_le_pow_right₀ (by norm_num) h
    have h64 : (2 : ℤ) ^ 64 = 2 * 2 ^ 63 := by norm_num
    by_cases h0 : 0 ≤ v
    · rw [Int.ediv_eq_zero_of_lt h0 (by omega), Int.ediv_eq_zero_of_lt h0 (by omega)]
    · have h3 (k : ℤ) (hk : 2 ^ 64 ≤ k) : v / k = -1 := by
        rw [Int.ediv_eq_iff_of_pos (by omega)]
        constructor <;> omega
      rw [h3 _ le_rfl, h3 _ hpow]

theorem Micro.set_shift_min (sew r : Nat) (m : Micro) (v : ℤ) (n : Nat) :
    Micro.set (rotWidth sew) m r (v * (2 ^ min n 64 : Nat)) = Micro.set (rotWidth sew) m r (v * 2 ^ n) := by
  obtain h | h := le_total n 64
  · rw [min_eq_left h]
    push_cast
    rfl
  · have hne {k : Nat} (hk : 64 ≤ k) : (0 : ℤ) ≠ v * 2 ^ k ↔ v ≠ 0 := by
      rw [ne_comm, mul_ne_zero_iff]
      simp
    rw [min_eq_right h, Micro.set_eq, Micro.set_eq, Nat.cast_pow, Nat.cast_ofNat]
    rw [microWrap_mul_pow r le_rfl, microWrap_mul_pow r h, decide_eq_decide.mpr ((hne le_rfl).trans (hne h).symm)]

theorem topExp_unique {m e k : ℤ} (hm : m ≠ 0) (h1 : (2 : ℚ) ^ k ≤ |(m : ℚ) * 2 ^ e|) (h2 : |(m : ℚ) * 2 ^ e| < (2 : ℚ) ^ (k + 1)) :
    topExp m e = k := by
  have hlt := (topExp_lt_iff hm e (k + 1)).mpr h2
  have hge := mt (topExp_lt_iff hm e k).mp (not_lt.mpr h1)
  omega

section
variable (sew : Nat) {u : BitVec 32} (m : Micro)

theorem microRun_equations (w : RotWidth) (u : BitVec 32) (us : List (BitVec 32)) :
    microRun w [] m = m ∧ (u.extractLsb' 27 5 = 0 → microRun w (u :: us) m = m) ∧
      (u.extractLsb' 27 5 ≠ 0 → microRun w (u :: us) m = microRun w us (microStep w u m)) := by
  have h0 : u.extractLsb' 27 5 = 0 ↔ uopField u 27 5 = 0 := by
    rw [uopField, ← BitVec.toNat_inj]
    rfl
  exact ⟨rfl, fun h => if_pos (h0.mp h), fun h => if_neg (mt h0.mpr h)⟩

/-- The scaling of `norm`: the exponent of the value is unique, and is added to h7 (R75). -/
theorem microStep_norm (h9 : uopField u 27 5 = 9) {c : ℤ}
    (h1 : (2 : ℚ) ^ (c + ((wordWidths sew).1 - 3 : Nat)) ≤ |(m.get (uopField u 21 3) : ℚ)|)
    (h2 : |(m.get (uopField u 21 3) : ℚ)| < (2 : ℚ) ^ (c + ((wordWidths sew).1 - 3 : Nat) + 1)) :
    microStep (rotWidth sew) u m =
      let x := Micro.set (rotWidth sew) m (uopField u 24 3) ⌊(m.get (uopField u 21 3) : ℚ) * 2 ^ (-c)⌋
      x.set (rotWidth sew) 7 (x.get 7 + c) := by
  have two0 : (2 : ℚ) ≠ 0 := by norm_num
  have hne : m.get (uopField u 21 3) ≠ 0 := by
    intro h
    rw [h, Int.cast_zero, abs_zero] at h1
    exact absurd h1 (not_le.mpr (two_zpow_pos _))
  unfold microStep
  rw [h9]
  dsimp only
  rw [if_neg hne]
  generalize m.get (uopField u 21 3) = a at *
  have hscale : |(a : ℚ) * 2 ^ (-((rotWidth sew).fx : ℤ))| = |(a : ℚ)| / 2 ^ (((wordWidths sew).1 - 3 : Nat) : ℤ) := by
    rw [rotWidth_fx, zpow_neg, ← div_eq_mul_inv, abs_div_zpow]
  have htop : topExp a (-((rotWidth sew).fx : ℤ)) = c := by
    refine topExp_unique hne ?_ ?_
    · rw [hscale, le_div_iff₀ (two_zpow_pos _), ← zpow_add₀ two0]
      exact h1
    · rw [hscale, div_lt_iff₀ (two_zpow_pos _), ← zpow_add₀ two0, add_right_comm]
      exact h2
  rw [htop, roundTo_eq 2 0 a (-c) (x := (a : ℚ) * 2 ^ (-c)) (by rw [zpow_zero, div_one]), rounded_two]
  rfl

theorem microStep_norm_zero (w : RotWidth) (h9 : uopField u 27 5 = 9) (h0 : m.get (uopField u 21 3) = 0) : microStep w u m = m := by
  unfold microStep
  rw [h9]
  exact if_pos h0

end

section
variable (w : RotWidth) {u : BitVec 32} (m : Micro)

/-- The mode that the field of `rot` names (R75). -/
def uopMode (u : BitVec 32) : RotMode := match uopField u 16 2 with | 0 => .cir | 1 => .hyp | _ => .lin

theorem microStep_rot (h : uopField u 27 5 = 1) : microStep w u m =
    let r := rotCore w (uopMode u) (u.getLsbD 15) (uopField u 9 5) (uopField u 4 5 + 1) (u.getLsbD 14) ⟨m.get 0, m.get 1, m.get 2, m.nc⟩
    ⟨((m.h.set 0 r.x).set 1 r.y).set 2 r.z, r.nc⟩ := by
  unfold microStep
  rw [h]
  rfl

theorem microStep_set (h : uopField u 27 5 = 2) :
    microStep w u m = m.set w (uopField u 24 3) ((u.extractLsb' 0 18).toInt * 2 ^ (6 * uopField u 21 3)) := by
  rw [← sextN_extract]
  unfold microStep
  rw [h]
  dsimp only
  push_cast
  rfl

theorem microStep_add (h : uopField u 27 5 = 3) :
    microStep w u m = m.set w (uopField u 24 3) (m.get (uopField u 21 3) + m.get (uopField u 18 3)) := by
  simp only [microStep, h]

theorem microStep_sub (h : uopField u 27 5 = 4) :
    microStep w u m = m.set w (uopField u 24 3) (m.get (uopField u 21 3) - m.get (uopField u 18 3)) := by
  simp only [microStep, h]

theorem microStep_shr (h : uopField u 27 5 = 5) (hn : uopField u 0 18 < 64) :
    microStep w u m = m.set w (uopField u 24 3) (m.get (uopField u 21 3) / 2 ^ uopField u 0 18) := by
  rw [← floorShift_eq]
  simp only [microStep, h, Nat.mod_eq_of_lt hn]

theorem microStep_shl (h : uopField u 27 5 = 6) (hn : uopField u 0 18 < 64) :
    microStep w u m = m.set w (uopField u 24 3) (m.get (uopField u 21 3) * 2 ^ uopField u 0 18) := by
  simp only [microStep, h, Nat.mod_eq_of_lt hn]
  push_cast
  rfl

theorem microStep_mulImm (h : uopField u 27 5 = 7) :
    microStep w u m = m.set w (uopField u 24 3) (rounded 0 ((m.get (uopField u 21 3) * (u.extractLsb' 0 18).toInt : ℤ) / 2 ^ 16)) := by
  rw [← sextN_extract, ← roundTo_div]
  unfold microStep
  rw [h]
  rfl

theorem microStep_mul (h : uopField u 27 5 = 8) :
    microStep w u m = m.set w (uopField u 24 3) (rounded 0 ((m.get (uopField u 21 3) * m.get (uopField u 18 3) : ℤ) / 2 ^ w.fx)) := by
  rw [← roundTo_div]
  simp only [microStep, h]

theorem microStep_reduce (h : uopField u 27 5 = 10) : microStep w u m =
    let a := m.get (uopField u 21 3)
    let j := (a + 2 ^ (uopField u 0 18 - 1)) / 2 ^ uopField u 0 18
    (m.set w (uopField u 24 3) (a - j * 2 ^ uopField u 0 18)).set w (uopField u 18 3) j := by
  unfold microStep
  rw [h]
  dsimp only
  rw [floorShift_eq]
  push_cast
  rfl

theorem microStep_turn (h : uopField u 27 5 = 11) : microStep w u m =
    let p := quarterTurn (m.get 0) (m.get 1) (wrapN 2 (m.get (uopField u 21 3)))
    (m.set w 0 p.1).set w 1 p.2 := by
  simp only [microStep, h]

theorem microStep_select (h : uopField u 27 5 = 12) :
    microStep w u m = if m.get (uopField u 18 3) < 0 then m.set w (uopField u 24 3) (m.get (uopField u 21 3)) else m := by
  simp only [microStep, h]

theorem microStep_abs (h : uopField u 27 5 = 13) : microStep w u m = m.set w (uopField u 24 3) |m.get (uopField u 21 3)| := by
  rw [← Int.natCast_natAbs]
  simp only [microStep, h]

theorem microStep_min (h : uopField u 27 5 = 14) :
    microStep w u m = m.set w (uopField u 24 3) (min (m.get (uopField u 21 3)) (m.get (uopField u 18 3))) := by
  simp only [microStep, h]

theorem microStep_max (h : uopField u 27 5 = 15) :
    microStep w u m = m.set w (uopField u 24 3) (max (m.get (uopField u 21 3)) (m.get (uopField u 18 3))) := by
  simp only [microStep, h]

theorem microStep_shrBy (h : uopField u 27 5 = 16) (hb : 0 ≤ m.get (uopField u 18 3)) (ha : |m.get (uopField u 21 3)| < 2 ^ 63) :
    microStep w u m = m.set w (uopField u 24 3) (m.get (uopField u 21 3) / 2 ^ (m.get (uopField u 18 3)).toNat) := by
  rw [← floor_shift_min ha]
  unfold microStep
  rw [h]
  exact if_pos hb

theorem microStep_shlBy (sew : Nat) (h : uopField u 27 5 = 16) (hb : m.get (uopField u 18 3) < 0) :
    microStep (rotWidth sew) u m =
      m.set (rotWidth sew) (uopField u 24 3) (m.get (uopField u 21 3) * 2 ^ (-m.get (uopField u 18 3)).toNat) := by
  rw [← Micro.set_shift_min]
  unfold microStep
  rw [h]
  exact if_neg (by omega)

end

theorem userPrograms : UserPrograms := by
  refine ⟨fun vt t prog ca cb hrm ht => ?_, fun w u us m => microRun_equations m w u us, fun sew u m hsew hlen => ?_⟩
  · intro a b special
    refine ⟨fun h => ?_, fun ha hb => ?_⟩
    · rw [ufnElement_special _ _ _ _ _ (h.imp (Val.special_iff _).mpr (Val.special_iff _).mpr), canonicalNan_eq, Val.rotFlag_two]
    · have hfa := Val.finite_of_not_special ha
      have hfb := Val.finite_of_not_special hb
      obtain ⟨h1, h2⟩ := wordExp_spec hfa hfb (readVal_normal vt t ca) (readVal_normal vt t cb) t
      refine ⟨_, h1, h2, ?_⟩
      intro f m
      obtain ⟨h3, h4⟩ := encode_word vt t (m.h.getD 0 0) (m.h.getD 7 0 - f)
      rw [ufnElement_finite vt t prog ca cb hfa hfb]
      exact ⟨_, _, h3, h4, rfl⟩
  · intro w xw zw f op d a b n ha hb wrap sets
    have sets_of {v : ℤ} (h : microStep w u m = m.set w d v) : sets v := h.trans (Micro.set_eq sew d m v)
    refine ⟨microStep_rot w m, fun h => ?turn, fun h => sets_of (microStep_set w m h), fun h => sets_of (microStep_add w m h),
      fun h => sets_of (microStep_sub w m h), fun h hn => sets_of (microStep_shr w m h hn), fun h hn => sets_of (microStep_shl w m h hn),
      fun h => sets_of (microStep_mulImm w m h), fun h => sets_of ?mul, fun h => ⟨microStep_norm_zero m w h, fun c h1 h2 => ?norm⟩,
      fun h _ _ => ?reduce, fun h => ?select, fun h => sets_of (microStep_abs w m h), fun h => sets_of (microStep_min w m h),
      fun h => sets_of (microStep_max w m h), fun h => ⟨fun h1 h2 => sets_of (microStep_shrBy w m h h1 h2),
        fun h1 => sets_of (microStep_shlBy m sew h h1)⟩⟩
    case turn =>
      refine (microStep_turn w m h).trans ?_
      rw [quarterTurn_wrapN, Micro.set_eq, Micro.set_eq, Bool.decide_or, ← Bool.or_assoc]
      rfl
    case mul =>
      have := microStep_mul w m h
      rwa [rotWidth_fx] at this
    case norm =>
      refine (microStep_norm sew m h h1 h2).trans ?_
      rw [Micro.set_eq, Micro.set_eq]
      rfl
    case reduce =>
      refine (microStep_reduce w m h).trans ?_
      rw [Micro.set_eq, Micro.set_eq]
      rfl
    case select =>
      have := microStep_select w m h
      split
      · next h0 => exact sets_of (this.trans (if_pos h0))
      · next h0 => exact this.trans (if_neg h0)

end Sys2Proof.Machine
end

section
/-! PROOFS. One element of `vrot` (R65 to R68). -/
namespace Sys2Proof.Machine

/-! ## Tags and operands (R65) -/

/-- The tags of Z beside a fixed or float pair (R65). -/
def zTagOk (mode : RotMode) (tz : Tag) : Bool :=
  match mode with
  | .cir => tz.cls = .angle
  | _ => tz.cls = .fixed || tz.cls = .float

theorem zTagOk_cls {mode : RotMode} {tz : Tag} (h : zTagOk mode tz = true) : tz.cls ≠ .smallFloat := by
  intro hc
  unfold zTagOk at h
  rw [hc] at h
  cases mode <;> cases h

/-- The tags of a rotation (R65): a pair of fixed or float tag with an angle, fixed or float, or int32 in linear rotation. -/
theorem rotTagsOk_cases {mode : RotMode} {vec : Bool} {txy tz : Tag} (h : rotTagsOk mode vec txy tz = true) :
    txy.width = tz.width ∧
      ((txy.cls ≠ .integer ∧ tz.cls ≠ .smallFloat) ∨ (mode = .lin ∧ vec = false ∧ txy = .int32 ∧ tz = .int32)) := by
  unfold rotTagsOk at h
  rw [Bool.and_eq_true] at h
  obtain ⟨h1, h2⟩ := h
  simp only [Bool.and_eq_true, decide_eq_true_eq] at h1
  refine ⟨h1.1.1, ?_⟩
  split at h2
  · next hc => exact .inl ⟨by simp [hc], zTagOk_cls (mode := mode) h2⟩
  · next hc => exact .inl ⟨by simp [hc], zTagOk_cls (mode := mode) h2⟩
  · simp only [Bool.and_eq_true, decide_eq_true_eq, Bool.not_eq_true'] at h2
    obtain ⟨⟨⟨hmode, hvec⟩, hxy⟩, hz⟩ := h2
    exact .inr ⟨hmode, hvec, hxy, hz⟩
  · cases h2

theorem Tag.fmt_eq_none {t : Tag} (h1 : t.cls ≠ .float) (h2 : t.cls ≠ .smallFloat) : t.fmt = none := by
  revert h1 h2
  cases t <;> decide

theorem readVal_grid_finite {t : Tag} (ht : t.fmt = none) (vt : VType) (c : Nat) : (readVal vt t c).Finite := by
  rw [readVal_grid ht]
  exact Val.stands_finite (Val.stands_mk _ _)

theorem Val.rotFlag_finite {v : Val} (h : v.Finite) : v.rotFlag = 0 := by
  rw [rotFlag_eq]
  refine if_neg ?_
  rintro (h1 | rfl)
  · rw [h.2] at h1
    cases h1
  · exact absurd h.1 (by simp [isNan])

section
variable {vt : VType} {txy tz : Tag} {mode : RotMode} {vec g : Bool} {s n cx cy cz : Nat}

theorem rotElement_special (h : (readVal vt txy cx).special = true ∨ (readVal vt txy cy).special = true) :
    rotElement vt txy tz mode vec s n g cx cy cz =
      ((canonicalNan txy, canonicalNan txy, if tz.cls = .float then canonicalNan tz else cz),
        (readVal vt txy cx).rotFlag ||| (readVal vt txy cy).rotFlag ||| if tz.cls = .float then (readVal vt tz cz).rotFlag else Flags.none) :=
  if_pos (Bool.or_eq_true_iff.mpr h)

theorem not_special_or {a b : Val} (ha : a.Finite) (hb : b.Finite) : ¬ ((a.special || b.special) = true) := by
  rw [Bool.or_eq_true, Val.special_iff, Val.special_iff]
  simp [ha.1, ha.2, hb.1, hb.2]

theorem rotElement_special_z (hx : (readVal vt txy cx).Finite) (hy : (readVal vt txy cy).Finite) (hz : (readVal vt tz cz).special = true) :
    rotElement vt txy tz mode vec s n g cx cy cz =
      ((canonicalNan txy, canonicalNan txy, canonicalNan tz), (readVal vt tz cz).rotFlag ||| flagIf (txy.cls ≠ .float) 1) := by
  unfold rotElement
  dsimp only
  rw [if_neg (not_special_or hx hy), if_pos hz, Flags.when_decide]
  rfl

/-- Does a float Z leave its word (R65)? -/
@[reducible] def BigZ (tz : Tag) (z : Val) : Prop := tz.cls = .float ∧ 2 ≤ |z.rat|

/-- The model's test of it, by the exponent. -/
def topZ (tz : Tag) (z : Val) : Bool :=
  tz.cls = .float && (match z with | .fin m ex => decide (1 ≤ topExp m ex) | _ => false)

theorem topZ_iff {z : Val} (hf : z.Finite) (hn : z.Normal) : topZ tz z = true ↔ BigZ tz z := by
  unfold BigZ topZ
  rw [Bool.and_eq_true, decide_eq_true_iff]
  refine and_congr_right fun _ => ?_
  obtain ⟨z, rfl⟩ | ⟨m, e, rfl, hm⟩ := Val.finite_cases hf hn
  · simp
  · have h := topExp_lt_iff hm e 1
    rw [zpow_one] at h
    rw [decide_eq_true_iff, ← not_lt, h, not_lt, Val.rat_fin]

theorem Val.neg?_iff_rat {z : Val} (h : z.rat ≠ 0) : z.neg? = true ↔ z.rat < 0 := by
  cases z with
  | fin m e => rw [rat_fin_neg]; exact decide_eq_true_iff
  | _ => exact absurd rfl h

theorem BigZ.rat_ne {z : Val} (h : BigZ tz z) : z.rat ≠ 0 := fun h0 => by
  have := h.2
  rw [h0, abs_zero] at this
  exact absurd this (by norm_num)

/-- The model's words of the finite operands of a rotation, over the exponent e. -/
def pairWords (w : RotWidth) (tz : Tag) (e : ℤ) (x y z : Val) : RotWords :=
  ⟨floorVal ((w.fx : Int) - e) x, floorVal ((w.fx : Int) - e) y,
    if topZ tz z then (if z.neg? then -((2 ^ (w.zw - 1) : Nat) : ℤ) else ((2 ^ (w.zw - 1) : Nat) : ℤ) - 1) else floorVal w.fz z, topZ tz z⟩

/-- The words that the finite operands of a rotation enter, over the exponent e (R65). -/
def rotStart (sew : Nat) (e : ℤ) (x y z : Val) (big : Prop) [Decidable big] : RotWords :=
  ⟨⌊x.rat * (2 : ℚ) ^ (((wordWidths sew).1 - 3 : ℤ) - e)⌋, ⌊y.rat * (2 : ℚ) ^ (((wordWidths sew).1 - 3 : ℤ) - e)⌋, 
    if big then (if z.rat < 0 then -2 ^ ((wordWidths sew).2.1 - 1) else 2 ^ ((wordWidths sew).2.1 - 1) - 1)
      else ⌊z.rat * 2 ^ (wordWidths sew).2.2⌋, decide big⟩

theorem pairWords_eq_rotStart {sew : Nat} {e : ℤ} {x y z : Val} (hx : x.Finite) (hy : y.Finite) (hz : z.Finite) (hn : z.Normal) :
    pairWords (rotWidth sew) tz e x y z = rotStart sew e x y z (BigZ tz z) := by
  have htop := topZ_iff (tz := tz) hz hn
  unfold pairWords rotStart
  rw [floorVal_eq hx, floorVal_eq hy, floorVal_eq hz, rotWidth_fx_cast, rotWidth_zw, rotWidth_fz, zpow_natCast]
  push_cast
  by_cases h : BigZ tz z
  · rw [htop.mpr h, decide_eq_true h, if_pos rfl, if_pos h]
    simp only [Val.neg?_iff_rat h.rat_ne]
  · rw [Bool.eq_false_iff.mpr (mt htop.mp h), decide_eq_false h, if_neg (by simp), if_neg h]

theorem rotElement_finite (hc : txy.cls ≠ .integer) (hx : (readVal vt txy cx).Finite) (hy : (readVal vt txy cy).Finite)
    (hz : (readVal vt tz cz).Finite) :
    let x := readVal vt txy cx
    let y := readVal vt txy cy
    let z := readVal vt tz cz
    let e := if txy.cls = .float then pairExp x y else 0
    let f : ℤ := (wordWidths txy.width).1 - 3
    let u := rotCore (rotWidth txy.width) mode vec s n g (rotStart txy.width e x y z (BigZ tz z))
    let xo := encode vt txy (Val.mk u.x (e - f))
    let yo := encode vt txy (Val.mk u.y (e - f))
    let zo := encode vt tz (Val.mk u.z (-((wordWidths txy.width).2.2 : ℤ)))
    rotElement vt txy tz mode vec s n g cx cy cz =
      ((xo.1, yo.1, zo.1), xo.2 ||| yo.2 ||| zo.2 ||| flagIf (u.nc = true) 64) := by
  intro x y z e f u xo yo zo
  have hns : ¬ (z.special = true) := by
    rw [Val.special_iff]
    simp [z, hz.1, hz.2]
  refine (if_neg (not_special_or hx hy)).trans ((if_neg hns).trans ((if_neg hc).trans ?_))
  rw [← Flags.when_eq]
  unfold xo yo zo u f
  rw [← pairWords_eq_rotStart hx hy hz (readVal_normal vt tz cz), ← rotWidth_fx_cast, ← rotWidth_fz]
  rfl

end

/-! ## int32 (R65, R68) -/

theorem intValue_int32 (c : Nat) : intValue .int32 c = sextN 32 c := rfl

theorem encode_grid_mk {vt : VType} {t : Tag} (ht : t.fmt = none) (x k : ℤ) : GridWritten vt t (x * 2 ^ k) (encode vt t (Val.mk x k)) := by
  by_cases hx : x = 0
  · have h0 := narrow_written (vt := vt) (t := t) 0
    rw [narrow_zero, Int.cast_zero, zero_div] at h0
    have henc : encode vt t (.zero false) = (0, Flags.none) := by
      unfold encode
      rw [ht]
    rw [hx, Int.cast_zero, zero_mul, Val.mk, if_pos rfl, henc]
    exact h0
  · rw [Val.mk, if_neg hx]
    exact encode_grid_fin ht x k

/-- Before a step of linear rotation of int32 from step 0 on, the Z word counts what the steps still to come can take away. -/
def LinearLeft (n i : Nat) (z : ℤ) : Prop := ∃ b : ℤ, z = b * 2 ^ (35 - n) ∧ |b| ≤ 2 ^ (n - i) - 1

theorem linearLeft_step {n i : Nat} (hi : i < n) {z : ℤ} (h : LinearLeft n i z) (hn : n ≤ 32) :
    LinearLeft n (i + 1) (z - z.sign * 2 ^ (34 - i)) := by
  obtain ⟨b, rfl, hb⟩ := h
  have hp : (0 : ℤ) < 2 ^ (35 - n) := by positivity
  have hsplit : (2 : ℤ) ^ (34 - i) = 2 ^ (n - (i + 1)) * 2 ^ (35 - n) := by rw [← pow_add]; congr 1; omega
  have hnext : (2 : ℤ) ^ (n - i) = 2 * 2 ^ (n - (i + 1)) := by rw [← pow_succ']; congr 1; omega
  have h1 : (1 : ℤ) ≤ 2 ^ (n - (i + 1)) := one_le_pow₀ (by norm_num)
  refine ⟨b - b.sign * 2 ^ (n - (i + 1)), ?_, ?_⟩
  · rw [Int.sign_mul, Int.sign_eq_one_of_pos hp, hsplit]
    ring
  · rw [hnext] at hb
    generalize (2 : ℤ) ^ (n - (i + 1)) = q at *
    obtain ⟨hb1, hb2⟩ := abs_le.mp hb
    rw [abs_le]
    obtain h | h | h := lt_trichotomy b 0
    · rw [Int.sign_eq_neg_one_of_neg h]
      omega
    · subst h
      simp only [Int.sign_zero]
      omega
    · rw [Int.sign_eq_one_of_pos h]
      omega

theorem linearLeft_range {n i : Nat} (hi : 1 ≤ n) (hn : n ≤ 32) {z : ℤ} (h : LinearLeft n i z) : -2 ^ 35 ≤ z ∧ z < 2 ^ 35 := by
  obtain ⟨b, rfl, hb⟩ := h
  have hp : (0 : ℤ) < 2 ^ (35 - n) := by positivity
  have hle : (2 : ℤ) ^ (n - i) ≤ 2 ^ n := pow_le_pow_right₀ (by norm_num) (by omega)
  have h35 : (2 : ℤ) ^ 35 = 2 ^ n * 2 ^ (35 - n) := by rw [← pow_add]; congr 1; omega
  obtain ⟨hb1, hb2⟩ := abs_le.mp hb
  rw [h35]
  constructor
  · rw [← neg_mul]
    exact mul_le_mul_of_nonneg_right (by omega) hp.le
  · exact mul_lt_mul_of_pos_right (by omega) hp

/-- The steps of linear rotation of int32 from step 0 on bring the Z word to 0, where it starts within their reach. -/
theorem rotSteps_linear_z {n : Nat} (h1 : 1 ≤ n) (hn : n ≤ 32) {r : RotWords} (hr : LinearLeft n 0 r.z) :
    (rotSteps (rotWidth 32) .lin false 0 n r).z = 0 := by
  have hend : LinearLeft n n (rotSteps (rotWidth 32) .lin false 0 n r).z := by
    refine foldl_range_keeps (fun i (u : RotWords) => LinearLeft n i u.z) hr fun i hi u hu => ?_
    rw [Nat.zero_add]
    have hnext := linearLeft_step hi hu hn
    obtain ⟨hlo, hhi⟩ := linearLeft_range h1 hn hnext
    obtain ⟨-, -, hz, -⟩ := rotStep_wrappedTo (sew := 32) (by decide) .lin false (i := i) (by omega) u
    rw [hz]
    exact (wrapWord_eq_self (n := 36) (by norm_num) hlo hhi).symm ▸ hnext
  obtain ⟨b, hz, hb⟩ := hend
  rw [Nat.sub_self] at hb
  rw [hz, show b = 0 by simpa using hb, zero_mul]

theorem rotCore_linear_z {n : Nat} (g : Bool) (h1 : 1 ≤ n) (hn : n ≤ 32) {r : RotWords} (hr : LinearLeft n 0 r.z) :
    (rotCore (rotWidth 32) .lin false 0 n g r).z = 0 := by
  have hz := rotSteps_linear_z h1 hn (r := { r with nc := r.nc || rotOutOfRange (rotWidth 32) .lin false 0 n r }) hr
  have hcore := rotCore_eq (rotWidth 32) .lin false 0 n g r
  dsimp only at hcore
  rw [if_neg (show ¬ (RotMode.lin = .cir ∧ 0 = 0) by simp)] at hcore
  rw [hcore]
  cases g with
  | false => exact hz
  | true =>
    obtain ⟨-, -, hcz, -⟩ := rotCompensate_wrappedTo 32 .lin n
      (rotSteps (rotWidth 32) .lin false 0 n { r with nc := r.nc || rotOutOfRange (rotWidth 32) .lin false 0 n r })
    rw [hz] at hcz
    exact hcz

/-- The words of an int32 element (R65): only that of X can leave its width. -/
def intStart (n : Nat) (a c b : ℤ) : RotWords := ⟨wrapWord 42 (a * 2 ^ (n - 1)), c, b * 2 ^ (35 - n), decide ((2 : ℤ) ^ (42 - n) ≤ |a|)⟩

theorem wrap_intStart {n : Nat} (h1 : 1 ≤ n) (hn : n ≤ 32) {a c b : ℤ} (hc : -2 ^ 31 ≤ c ∧ c < 2 ^ 31) (hb1 : -2 ^ n ≤ b)
    (hb2 : b < 2 ^ n) :
    RotWords.wrap (rotWidth 32) ⟨a * (2 ^ (n - 1) : Nat), c, b * (2 ^ (34 - (n - 1)) : Nat), decide ((2 : ℤ) ^ (42 - n) ≤ |a|)⟩ =
      intStart n a c b := by
  have hp : (0 : ℤ) < 2 ^ (35 - n) := by positivity
  have hq : (0 : ℤ) < 2 ^ (n - 1) := by positivity
  have h35 : (2 : ℤ) ^ 35 = 2 ^ n * 2 ^ (35 - n) := by rw [← pow_add]; congr 1; omega
  have h41 : (2 : ℤ) ^ 41 = 2 ^ (42 - n) * 2 ^ (n - 1) := by rw [← pow_add]; congr 1; omega
  have hy' : wrapWord 42 c = c := wrapWord_eq_self (by norm_num) (by norm_num; omega) (by norm_num; omega)
  have hz' : wrapWord 36 (b * 2 ^ (35 - n)) = b * 2 ^ (35 - n) := by
    refine wrapWord_eq_self (by norm_num) ?_ ?_ <;> rw [show 36 - 1 = 35 from rfl, h35]
    · rw [← neg_mul]
      exact mul_le_mul_of_nonneg_right hb1 hp.le
    · exact mul_lt_mul_of_pos_right hb2 hp
  have hx' : ¬ (2 : ℤ) ^ (42 - n) ≤ |a| → wrapWord 42 (a * 2 ^ (n - 1)) = a * 2 ^ (n - 1) := by
    intro h
    obtain ⟨h1, h2⟩ := abs_lt.mp (not_le.mp h)
    refine wrapWord_eq_self (by norm_num) ?_ ?_ <;> rw [show 42 - 1 = 41 from rfl, h41]
    · rw [← neg_mul]
      exact mul_le_mul_of_nonneg_right h1.le hq.le
    · exact mul_lt_mul_of_pos_right h2 hq
  have hcast : (⟨a * (2 ^ (n - 1) : Nat), c, b * (2 ^ (34 - (n - 1)) : Nat), decide ((2 : ℤ) ^ (42 - n) ≤ |a|)⟩ : RotWords) =
      ⟨a * 2 ^ (n - 1), c, b * 2 ^ (35 - n), decide ((2 : ℤ) ^ (42 - n) ≤ |a|)⟩ := by
    rw [show 34 - (n - 1) = 35 - n by omega]
    push_cast
    rfl
  rw [hcast]
  obtain ⟨hx, hy, hz, hnc⟩ := RotWords.wrap_wrappedTo 32 ⟨a * 2 ^ (n - 1), c, b * 2 ^ (35 - n), decide ((2 : ℤ) ^ (42 - n) ≤ |a|)⟩
  rw [show (wordWidths 32).1 = 42 from rfl] at hx hy
  rw [show (wordWidths 32).2.1 = 36 from rfl] at hz
  generalize RotWords.wrap (rotWidth 32) _ = u at *
  obtain ⟨ux, uy, uz, unc⟩ := u
  dsimp only at hx hy hz hnc
  rw [hy'] at hy
  rw [hz'] at hz
  subst hx hy hz
  unfold intStart
  rw [hnc]
  congr 1
  by_cases h : (2 : ℤ) ^ (42 - n) ≤ |a|
  · simp [h]
  · simp [h, hx' h]

theorem intValue_int32_bounds (c : Nat) : -2 ^ 31 ≤ intValue .int32 c ∧ intValue .int32 c < 2 ^ 31 := by
  have h := intValue_range .int32 c
  rw [show intLo .int32 = -2 ^ 31 by decide, show intHi .int32 = 2 ^ 31 - 1 by decide] at h
  omega

theorem exactProduct_iff (n : Nat) (a b : ℤ) : exactProduct n a b = true ↔ |a| < 2 ^ (42 - n) ∧ |b| < 2 ^ n - 1 := by
  unfold exactProduct
  rw [Bool.and_eq_true, decide_eq_true_iff, decide_eq_true_iff, Int.natCast_natAbs, Int.natCast_natAbs]

section
variable {vt : VType} {mode : RotMode} {vec g : Bool} {s n cx cy cz : Nat}

/-- An int32 element whose words fit (R65, R68). -/
theorem rotElement_int32 (h1 : 1 ≤ n) (hn : n ≤ 32) (hb1 : -2 ^ n ≤ intValue .int32 cz) (hb2 : intValue .int32 cz < 2 ^ n) :
    let a := intValue .int32 cx
    let c := intValue .int32 cy
    let b := intValue .int32 cz
    let u := rotCore (rotWidth 32) mode vec s n g (intStart n a c b)
    let yo := intResult vt .int32 (if s = 0 ∧ |a| < 2 ^ (42 - n) ∧ |b| < 2 ^ n - 1 then c + a * b else u.y)
    let zo := encode vt .int32 (Val.mk u.z ((n : ℤ) - 35))
    rotElement vt .int32 .int32 mode vec s n g cx cy cz = ((cx, yo.1, zo.1), yo.2 ||| zo.2 ||| flagIf (u.nc = true) 64) := by
  intro a c b u yo zo
  have hfin (c : Nat) : (readVal vt .int32 c).Finite := readVal_grid_finite rfl vt c
  have hns (c : Nat) : ¬ ((readVal vt .int32 c).special = true) := by
    rw [Val.special_iff]
    simp [(hfin c).1, (hfin c).2]
  have hw := wrap_intStart (a := a) (b := b) h1 hn (intValue_int32_bounds cy) hb1 hb2
  unfold rotElement
  dsimp only
  rw [if_neg (not_special_or (hfin cx) (hfin cy)), if_neg (hns cz), if_pos (show Tag.int32.cls = .integer from rfl),
    ← intValue_int32, ← intValue_int32, ← intValue_int32,
    Int.natCast_natAbs, show Tag.int32.width = 32 from rfl, hw, narrow_integer rfl, Flags.when_eq, show (n : ℤ) - 1 - 34 = n - 35 by ring]
  simp only [Bool.and_eq_true, decide_eq_true_eq, exactProduct_iff]
  rfl

end

theorem rotatedElements : RotatedElements := by
  intro vt txy tz mode vec g s n cx cy cz hrm htags h1 hsn x y z nv nan special zw fz f r
  obtain ⟨hwidth, hcls⟩ := rotTagsOk_cases htags
  refine ⟨fun h => ?_, fun hx hy hz => ?_, fun hc hx hy hz => ?_, fun hint => ?_⟩
  · have hr := rotElement_special (vt := vt) (tz := tz) (mode := mode) (vec := vec) (g := g) (s := s) (n := n) (cz := cz)
      (h.imp (Val.special_iff _).mpr (Val.special_iff _).mpr)
    have hflag : (if tz.cls = .float then z.rotFlag else Flags.none) = z.rotFlag := by
      split
      · rfl
      · next htz =>
        have hsmall : tz.cls ≠ .smallFloat := by
          obtain ⟨-, h⟩ | ⟨-, -, -, rfl⟩ := hcls
          · exact h
          · decide
        exact (Val.rotFlag_finite (readVal_grid_finite (Tag.fmt_eq_none htz hsmall) vt cz)).symm
    refine hr.trans ?_
    rw [hflag, Val.rotFlag_three, canonicalNan_eq, canonicalNan_eq]
  · refine (rotElement_special_z (Val.finite_of_not_special hx) (Val.finite_of_not_special hy) ((Val.special_iff _).mpr hz)).trans ?_
    rw [Val.rotFlag_eq, canonicalNan_eq, canonicalNan_eq]
    unfold nv
    rw [flagIf_congr (p := ∃ v ∈ [z], v.isInf = true ∨ v = .nan true) (q := z.isInf = true ∨ z = .nan true) (by simp)]
  · have hfx := Val.finite_of_not_special hx
    have hfy := Val.finite_of_not_special hy
    have hfz := Val.finite_of_not_special hz
    obtain ⟨he1, he2⟩ := wordExp_spec hfx hfy (readVal_normal vt txy cx) (readVal_normal vt txy cy) txy
    refine ⟨_, fun h => he1 (h.imp_left fun h => by simp [h]), he2, ?_⟩
    intro big u
    have hr := rotElement_finite (vt := vt) (txy := txy) (tz := tz) (mode := mode) (vec := vec) (g := g) (s := s) (n := n) hc hfx hfy hfz
    obtain ⟨hx1, hx2⟩ := encode_word vt txy u.x ((if txy.cls = .float then pairExp x y else 0) - f)
    obtain ⟨hy1, hy2⟩ := encode_word vt txy u.y ((if txy.cls = .float then pairExp x y else 0) - f)
    obtain ⟨hz1, hz2⟩ := encode_word vt tz u.z (-(fz : ℤ))
    rw [zpow_neg, zpow_natCast, ← div_eq_mul_inv] at hz1
    unfold r
    rw [hr]
    exact ⟨_, _, _, _, _, _, hx1, hy1, hz1, hx2, hy2, hz2, rfl⟩
  · subst hint
    obtain ⟨hc, -⟩ | ⟨rfl, rfl, -, rfl⟩ := hcls
    · exact absurd rfl hc
    intro a c b fits u
    have hn : n ≤ 32 := by omega
    refine ⟨fun hfits => ?_, fun hfits hg hb1 hb2 => ?_⟩
    · have hpos : (1 : ℤ) ≤ 2 ^ n := one_le_pow₀ (by norm_num)
      have hb := abs_lt.mp hfits.2.2
      have hz0 : u.z = 0 := by
        unfold u
        rw [hfits.1]
        exact rotCore_linear_z g h1 hn ⟨b, rfl, hfits.2.2.le⟩
      have hr := rotElement_int32 (vt := vt) (mode := .lin) (vec := false) (g := g) (s := s) (cx := cx) (cy := cy) h1 hn
        (show -2 ^ n ≤ intValue .int32 cz by omega) (show intValue .int32 cz < 2 ^ n by omega)
      dsimp only at hr
      rw [if_pos hfits] at hr
      unfold r
      rw [hr]
      have hzo : encode vt .int32 (Val.mk u.z ((n : ℤ) - 35)) = (0, Flags.none) := by
        rw [hz0]
        rfl
      exact congrArg (fun q => (cx, _, q)) (congrArg Prod.fst hzo)
    · have hr := rotElement_int32 (vt := vt) (mode := .lin) (vec := false) (g := g) (s := s) (cx := cx) (cy := cy) h1 hn hb1 hb2
      dsimp only at hr
      rw [if_neg hfits] at hr
      have hzo := encode_grid_mk (vt := vt) (t := .int32) rfl u.z ((n : ℤ) - 35)
      unfold r
      rw [hr]
      exact ⟨_, rfl, hzo, rfl⟩

end Sys2Proof.Machine
end

section
/-! PROOFS. Special and exact results of the composite functions: what is written, and what codes hold (R35, R71, R168). -/
namespace Sys2Proof.Machine

/-! ## Where R168 or R71 decides a result -/

/-- The scale of the angles that q15 keeps in half-turns (R70). -/
def halfOf (f : Fn) (t : Tag) : ℤ := if f = .atan2 && t.cls = .fixed then 1 else 0

/-- A half-turn of q15 written as −1 (R168). -/
def halfTurned (f : Fn) (t : Tag) (r : Nat × Flags) : Nat × Flags :=
  if isHalfTurn f t r then (2 ^ (t.width - 1), r.2 &&& ~~~Flags.sa) else r

section
variable {vt : VType} {t : Tag} {f : Fn} {second : Bool} {ca cb : Nat}

/-- A result that the free number does not change is the element. -/
theorem compositeElement_of_fnResult {y : Nat × Flags} (h : ∀ v, fnResult vt t f second v (fnFree vt t f second ca cb).1 ca cb = y) :
    compositeElement vt t f second ca cb = halfTurned f t y := by
  unfold compositeElement
  have hfree : fnFreeResult vt t f second ca cb = y := by
    unfold fnFreeResult
    exact h _
  rw [h none, hfree]
  dsimp only
  rw [ite_self]
  rfl

theorem compositeElement_special {x : Val} {fl : Flags}
    (h : specialResult f second (fnArgs vt t f ca cb).1 (fnArgs vt t f ca cb).2 = some (x, fl)) :
    compositeElement vt t f second ca cb =
      halfTurned f t ((writeResult vt t (x.scale (halfOf f t))).1, (writeResult vt t (x.scale (halfOf f t))).2 ||| fl) := by
  refine compositeElement_of_fnResult fun v => ?_
  unfold fnResult
  dsimp only
  rw [h]
  rfl

theorem compositeElement_exact {x : Val} (hs : specialResult f second (fnArgs vt t f ca cb).1 (fnArgs vt t f ca cb).2 = none)
    (hcpx : vt.getLsbD 20 = false)
    (h : exactResult f second t (fnArgs vt t f ca cb).1 (fnArgs vt t f ca cb).2 (fnFree vt t f second ca cb).1 = some x) :
    compositeElement vt t f second ca cb = halfTurned f t (writeResult vt t (x.scale (halfOf f t))) := by
  refine compositeElement_of_fnResult fun v => ?_
  have hcpx' : cpxOf vt f = false := by
    unfold cpxOf VType.cpx
    rw [hcpx]
    rfl
  unfold fnResult
  dsimp only
  rw [hs, h, hcpx']
  rfl

end

theorem Val.scale_zero (v : Val) : v.scale 0 = v := by
  cases v with
  | fin m e => exact congrArg (Val.fin m) (add_zero e)
  | _ => rfl

section
variable {vt : VType} {t : Tag} {f : Fn} {second : Bool} {ca cb : Nat} (ht : t.cls = .float)
include ht

theorem fnArgs_float : fnArgs vt t f ca cb = (readVal vt t ca, readVal vt t cb) := by
  unfold fnArgs
  simp [ht]

theorem halfTurned_float (r : Nat × Flags) : halfTurned f t r = r := by
  unfold halfTurned isHalfTurn
  simp [ht]

theorem writeResult_float (v : Val) : writeResult vt t (v.scale (halfOf f t)) = encode vt t v := by
  have h : halfOf f t = 0 := by simp [halfOf, ht]
  unfold writeResult
  rw [if_neg (by simp [ht]), h, Val.scale_zero]

theorem compositeElement_float_special {x : Val} {fl : Flags}
    (h : specialResult f second (readVal vt t ca) (readVal vt t cb) = some (x, fl)) :
    compositeElement vt t f second ca cb = ((encode vt t x).1, (encode vt t x).2 ||| fl) := by
  have hs := compositeElement_special (vt := vt) (t := t) (f := f) (second := second) (ca := ca) (cb := cb) (x := x) (fl := fl)
    (by rw [fnArgs_float ht]; exact h)
  rwa [halfTurned_float ht, writeResult_float ht] at hs

theorem compositeElement_float_exact {x : Bool → Val} (hs : specialResult f second (readVal vt t ca) (readVal vt t cb) = none)
    (hcpx : vt.getLsbD 20 = false) (h : ∀ z, exactResult f second t (readVal vt t ca) (readVal vt t cb) z = some (x z)) :
    ∃ z, compositeElement vt t f second ca cb = encode vt t (x z) := by
  have he := compositeElement_exact (vt := vt) (t := t) (f := f) (second := second) (ca := ca) (cb := cb)
    (x := x (fnFree vt t f second ca cb).1) (by rw [fnArgs_float ht]; exact hs) hcpx (by rw [fnArgs_float ht]; exact h _)
  rw [halfTurned_float ht, writeResult_float ht] at he
  exact ⟨_, he⟩

end

/-! ## The tags of fp32, fp16 and bf16 -/

/-- What the rows of R35 of fp32, fp16 and bf16 have in common. -/
structure IeeeRow (f : FloatRow) : Prop where
  inf : f.inf = some (f.maxCode + 1)
  nan : ∃ c, f.nan = some c
  bias_ge : 4 ≤ f.bias
  p_ge : 1 ≤ f.p
  bias_gt : (f.p : ℤ) + 1 ≤ f.bias
  bias_lt : f.bias + f.p < 2 ^ (f.p + 1)
  top : (2 : ℤ) ^ f.eb - 2 - f.bias = f.bias
  max_lt : f.maxCode + 1 < 2 ^ (f.eb + f.p)
  max_ge : 2 ^ f.p ≤ f.maxCode
  maxValue_ge : (2 : ℚ) ^ f.bias ≤ f.maxValue
  maxValue_lt : f.maxValue < (2 : ℚ) ^ (f.bias + 1)

theorem floatRow_ieee {t : Tag} {f : FloatRow} (hf : floatRow t = some f) (ht : t.cls = .float) : IeeeRow f := by
  cases t <;> cases ht <;> cases hf <;>
    exact ⟨rfl, ⟨_, rfl⟩, by decide, by decide, by decide, by decide, by decide, by decide, by decide, by norm_num, by norm_num⟩

/-! ## What is written for a NaN, an infinity or a zero -/

section
variable {vt : VType} {t : Tag} {f : FloatRow} (hf : floatRow t = some f) (ht : t.cls = .float)
include hf ht

theorem encode_nan (b : Bool) : encode vt t (.nan b) = (f.nan.getD 0, 0) := by
  have h := encode_written vt t (Val.normal_nan b)
  obtain ⟨c, hc⟩ := (floatRow_ieee hf ht).nan
  unfold Written at h
  rw [hf] at h
  dsimp only at h
  rw [hc] at h ⊢
  exact h

theorem encode_inf (s : Bool) : encode vt t (.inf s) = (f.code (s = true) (f.maxCode + 1), 0) := by
  have h := encode_written vt t (Val.normal_inf s)
  unfold Written at h
  rw [hf] at h
  dsimp only at h
  rw [(floatRow_ieee hf ht).inf] at h
  exact h

omit ht in
theorem encode_zero (s : Bool) : encode vt t (.zero s) = (f.code (s = true) 0, 0) := by
  have h := encode_written vt t (Val.normal_zero s)
  unfold Written at h
  rw [hf] at h
  exact h

omit hf ht in
/-- The sign of a code. -/
theorem code_sign (r : FloatRow) {c : Nat} (hc : c < 2 ^ (r.eb + r.p)) (s : Bool) :
    decide (r.code (s = true) c / 2 ^ (r.eb + r.p) % 2 = 1) = s := by
  have hN : 0 < 2 ^ (r.eb + r.p) := by positivity
  cases s with
  | false => simp [FloatRow.code, Nat.div_eq_of_lt hc]
  | true => simp [FloatRow.code, Nat.add_div_left c hN, Nat.div_eq_of_lt hc]

omit ht in
theorem readAs_zero (vt : VType) (s : Bool) : ReadAs vt t (f.code (s = true) 0) (.zero s) := by
  obtain ⟨-, -, hmag, -⟩ := code_fields f (c := 0) (by positivity) (s = true)
  unfold ReadAs
  rw [hf]
  dsimp only
  rw [hmag, if_pos (.inl rfl), code_sign f (by positivity)]

theorem readAs_inf (vt : VType) (s : Bool) : ReadAs vt t (f.code (s = true) (f.maxCode + 1)) (.inf s) := by
  have hi := floatRow_ieee hf ht
  obtain ⟨-, -, hmag, -⟩ := code_fields f hi.max_lt (s = true)
  have hmax := hi.max_ge
  unfold ReadAs
  rw [hf]
  dsimp only
  rw [hmag, if_neg (by omega), if_pos hi.inf, code_sign f hi.max_lt]

end

/-! ## Numbers that a float tag holds -/

/-- A number that the significand of a row holds, at some exponent. -/
def Significand (f : FloatRow) (x : ℚ) : Prop := ∃ q g : ℤ, x = q * 2 ^ g ∧ |q| < 2 ^ (f.p + 1)

/-- A result is a code of a number, without flags. -/
def HoldsNumber (f : FloatRow) (r : Nat × Flags) (x : ℚ) : Prop :=
  r.2 = 0 ∧ r.1 < 2 ^ (f.eb + f.p + 1) ∧ r.1 % 2 ^ (f.eb + f.p) ≤ f.maxCode ∧ f.rat r.1 = x

/-- A significand on a grid at most as fine as its own is not rounded. -/
theorem rounded_significand {f : FloatRow} {x : ℚ} (hx : Significand f x) {top : ℤ} (htop : (2 : ℚ) ^ top ≤ |x|) (rm : Nat) :
    (rounded rm (x / 2 ^ (top - f.p)) : ℚ) * 2 ^ (top - (f.p : ℤ)) = x := by
  obtain ⟨q, g, rfl, hq⟩ := hx
  have two0 : (2 : ℚ) ≠ 0 := by norm_num
  have hq' : (|q| : ℚ) < 2 ^ ((f.p : ℤ) + 1) := by
    have : ((|q| : ℤ) : ℚ) < ((2 ^ (f.p + 1) : ℤ) : ℚ) := by exact_mod_cast hq
    push_cast at this
    exact_mod_cast this
  have hlt : (2 : ℚ) ^ top < 2 ^ ((f.p : ℤ) + 1 + g) := by
    refine htop.trans_lt ?_
    rw [abs_mul, abs_of_pos (two_zpow_pos g), zpow_add₀ two0 _ g]
    exact mul_lt_mul_of_pos_right hq' (two_zpow_pos g)
  have hle : top - f.p ≤ g := by
    have := (zpow_lt_zpow_iff_right₀ (by norm_num : (1 : ℚ) < 2)).mp hlt
    omega
  have hint : (q : ℚ) * 2 ^ g / 2 ^ (top - (f.p : ℤ)) = ((q * (2 ^ (g - (top - f.p)).toNat : Nat) : ℤ) : ℚ) := by
    rw [mul_div_assoc, ← zpow_sub₀ two0, two_zpow_toNat (by omega)]
    push_cast
    rfl
  have hne := (two_zpow_pos (top - (f.p : ℤ))).ne'
  rw [← eq_div_iff hne, hint, rounded_intCast]

section
variable {vt : VType} {t : Tag} {f : FloatRow} (hf : floatRow t = some f) (ht : t.cls = .float)
include hf ht

omit ht in
/-- A normal number that the tag holds is written as it is. -/
theorem encode_number {m e : ℤ} {x : ℚ} (hx : (m : ℚ) * 2 ^ e = x) (hs : Significand f x) (hlo : (2 : ℚ) ^ (1 - f.bias) ≤ |x|)
    (hhi : |x| ≤ f.maxValue) : HoldsNumber f (encode vt t (.fin m e)) x := by
  have hm : m ≠ 0 := by
    rintro rfl
    rw [← hx, Int.cast_zero, zero_mul, abs_zero] at hlo
    exact absurd hlo (not_le.mpr (two_zpow_pos _))
  have h := encode_written vt t (Val.normal_fin (e := e).mpr hm)
  unfold Written at h
  rw [hf] at h
  dsimp only at h
  rw [Val.rat_fin, hx] at h
  obtain ⟨top, h1, h2, h⟩ := h
  have hgrid (rm : Nat) := rounded_significand hs h1 rm
  have htop : 1 - f.bias ≤ top := by
    have := (zpow_lt_zpow_iff_right₀ (by norm_num : (1 : ℚ) < 2)).mp (hlo.trans_lt h2)
    omega
  rw [max_eq_left (by omega)] at h
  dsimp only at h
  simp only [hgrid] at h
  rw [if_neg (fun hc => absurd hc.2.2 (not_lt.mpr hlo)), if_neg (not_lt.mpr hhi)] at h
  obtain ⟨hr1, -, hr2, hr3, hr4⟩ := h
  refine ⟨?_, hr1, hr2, hr3⟩
  rw [hr4]
  simp [flagIf]

omit ht in
theorem encode_zero_number (s : Bool) : HoldsNumber f (encode vt t (.zero s)) 0 := by
  obtain ⟨h1, -, h2, h3⟩ := code_fields f (c := 0) (by positivity) (s = true)
  rw [encode_zero hf]
  refine ⟨rfl, h1, by rw [h2]; omega, ?_⟩
  show f.rat (f.code (s = true) 0) = 0
  rw [h3, f.mag_zero, mul_zero]

/-- A small multiple of an eighth is written as it is. -/
theorem encode_small {m e : ℤ} {x : ℚ} (hx : (m : ℚ) * 2 ^ e = x) (hm : m ≠ 0) (hm3 : |m| ≤ 3) (he : -3 ≤ e) (he0 : e ≤ 0) :
    HoldsNumber f (encode vt t (.fin m e)) x := by
  have hi := floatRow_ieee hf ht
  have mono {i j : ℤ} (h : i ≤ j) : (2 : ℚ) ^ i ≤ 2 ^ j := zpow_le_zpow_right₀ (by norm_num) h
  have habs : |x| = (|m| : ℤ) * 2 ^ e := by rw [← hx, abs_mul, abs_of_pos (two_zpow_pos e), Int.cast_abs]
  have h1 : (1 : ℚ) ≤ (|m| : ℤ) := by exact_mod_cast Int.one_le_abs hm
  have h3 : ((|m| : ℤ) : ℚ) ≤ 3 := by exact_mod_cast hm3
  have hb := hi.bias_ge
  refine encode_number hf hx ⟨m, e, hx.symm, ?_⟩ ?_ ?_
  · have : (2 : ℤ) ^ 2 ≤ 2 ^ (f.p + 1) := pow_le_pow_right₀ (by norm_num) (by have := hi.p_ge; omega)
    omega
  · rw [habs]
    calc (2 : ℚ) ^ (1 - f.bias) ≤ 2 ^ e := mono (by omega)
      _ ≤ _ := le_mul_of_one_le_left (two_zpow_pos e).le h1
  · rw [habs]
    have he1 : (2 : ℚ) ^ e ≤ 1 := by have := mono he0; rwa [zpow_zero] at this
    have h4 : (4 : ℚ) ≤ 2 ^ f.bias := by have := mono (show 2 ≤ f.bias by omega); norm_num at this ⊢; exact this
    have := hi.maxValue_ge
    have hp := two_zpow_pos e
    nlinarith

/-- A power of two of a normal exponent is written as it is. -/
theorem encode_pow {j : ℤ} (h1 : 1 - f.bias ≤ j) (h2 : j ≤ f.bias) : HoldsNumber f (encode vt t (.fin 1 j)) ((2 : ℚ) ^ j) := by
  have hi := floatRow_ieee hf ht
  have mono {i j : ℤ} (h : i ≤ j) : (2 : ℚ) ^ i ≤ 2 ^ j := zpow_le_zpow_right₀ (by norm_num) h
  have habs := abs_of_pos (two_zpow_pos j)
  refine encode_number hf (by simp) ⟨1, j, by simp, ?_⟩ ?_ ?_
  · rw [abs_one]
    exact one_lt_pow₀ (by norm_num) (by omega)
  · rw [habs]
    exact mono h1
  · rw [habs]
    exact (mono h2).trans hi.maxValue_ge

end

/-! ## What a code holds -/

/-- The number of a code has the significand of its row. -/
theorem rat_significand (f : FloatRow) (c : Nat) : Significand f (f.rat c) := by
  have two0 : (2 : ℚ) ≠ 0 := by norm_num
  have hM : c % 2 ^ f.p < 2 ^ f.p := Nat.mod_lt _ (by positivity)
  have hpow : (2 : ℤ) ^ (f.p + 1) = 2 * (2 ^ f.p : Nat) := by push_cast; ring
  obtain ⟨σ, hσ, hσ1⟩ : ∃ σ : ℤ, (if c / 2 ^ (f.eb + f.p) % 2 = 1 then (-1 : ℚ) else 1) = σ ∧ (σ = -1 ∨ σ = 1) := by
    split
    · exact ⟨-1, by norm_num, .inl rfl⟩
    · exact ⟨1, by norm_num, .inr rfl⟩
  have scale (q : Nat) (k : ℤ) (h : q < 2 * 2 ^ f.p) : Significand f (σ * (2 ^ k * ((q : ℚ) / 2 ^ f.p))) := by
    refine ⟨σ * q, k - f.p, ?_, ?_⟩
    · rw [zpow_sub₀ two0, zpow_natCast]
      push_cast
      ring
    · rw [hpow]
      rcases hσ1 with rfl | rfl <;> rw [abs_mul] <;> simp <;> exact_mod_cast h
  unfold FloatRow.rat
  dsimp only
  rw [hσ]
  split
  · exact scale _ _ (by omega)
  · have := scale (2 ^ f.p + c % 2 ^ f.p) (((c / 2 ^ f.p % 2 ^ f.eb : Nat) : ℤ) - f.bias) (by omega)
    rw [show (((2 ^ f.p + c % 2 ^ f.p : Nat)) : ℚ) / 2 ^ f.p = 1 + (c % 2 ^ f.p : Nat) / 2 ^ f.p by push_cast; field_simp] at this
    exact this

/-- What an operand of a float tag that is a number not 0 is. -/
structure NumberOf (f : FloatRow) (x : ℚ) : Prop where
  significand : Significand f x
  lo : (2 : ℚ) ^ (1 - f.bias - f.p) ≤ |x|
  hi : |x| ≤ f.maxValue

theorem readAs_number {vt : VType} {t : Tag} {f : FloatRow} (hf : floatRow t = some f) {c : Nat} {v : Val} (h : ReadAs vt t c v)
    (hfin : v.Finite) (h0 : v.rat ≠ 0) : NumberOf f v.rat := by
  obtain ⟨m, -, hm⟩ := Tag.fmt_of_floatRow hf
  unfold ReadAs at h
  rw [hf] at h
  dsimp only at h
  split at h
  · rw [h] at h0
    exact absurd rfl h0
  · next hz =>
    split at h
    · rw [h] at hfin
      exact absurd hfin.2 (by simp [Val.isInf])
    · split at h
      · rw [h] at hfin
        exact absurd hfin.1 (by simp [Val.isNan])
      · next hle =>
        rw [Val.stands_rat h]
        have habs : |f.rat c| = f.mag (c % 2 ^ (f.eb + f.p)) := by
          have h0 : 0 ≤ f.mag (c % 2 ^ (f.eb + f.p)) := by
            rw [← f.mag_zero]
            exact f.mag_strictMono.monotone (Nat.zero_le _)
          rw [f.rat_eq]
          split <;> simp [abs_of_nonneg h0]
        have h1 : f.mag 1 = (2 : ℚ) ^ (1 - f.bias - f.p) := by
          have := f.mag_grid (k := 0) (q := 1) (.inl rfl) Nat.one_le_two_pow
          rw [Nat.zero_mul, Nat.zero_add] at this
          rw [this]
          norm_num
        refine ⟨rat_significand f c, ?_, ?_⟩ <;> rw [habs]
        · rw [← h1]
          exact f.mag_strictMono.monotone (by omega)
        · rw [hm.maxValue_eq]
          exact f.mag_strictMono.monotone (by omega)

end Sys2Proof.Machine
end

section
/-! PROOFS. The exact results of the composite functions on float tags (R71). -/
namespace Sys2Proof.Machine

/-! ## Integers, powers of two and squares among the values -/

theorem Val.eq_fin_of_rat_ne {v : Val} (h : v.rat ≠ 0) : ∃ m e, v = .fin m e := by
  cases v with
  | fin m e => exact ⟨m, e, rfl⟩
  | _ => exact absurd rfl h

theorem Val.eq_fin_of_rat_pos {v : Val} (h : 0 < v.rat) : ∃ m e, v = .fin m e ∧ 0 < m := by
  obtain ⟨m, e, rfl⟩ := eq_fin_of_rat_ne h.ne'
  refine ⟨m, e, rfl, ?_⟩
  rw [rat_fin, mul_pos_iff_of_pos_right (two_zpow_pos e)] at h
  exact_mod_cast h

/-- An integer value, where the exponent is not so large that the model looks no further. -/
theorem Val.toInt?_fin {m e j : ℤ} (h : (m : ℚ) * 2 ^ e = j) (he : e < 64) : (Val.fin m e).toInt? = some j := by
  unfold toInt?
  dsimp only
  by_cases h0 : 0 ≤ e
  · rw [if_pos h0, if_pos he]
    rw [two_zpow_toNat h0] at h
    exact congrArg some (by exact_mod_cast h)
  · rw [if_neg h0]
    have hm : m = j * (2 ^ (-e).toNat : Nat) := by
      have hp := two_zpow_toNat (k := -e) (by omega)
      have : (m : ℚ) = j * 2 ^ (-e) := by rw [← h, mul_assoc, ← zpow_add₀ (by norm_num), add_neg_cancel, zpow_zero, mul_one]
      rw [hp] at this
      exact_mod_cast this
    have hne : ((2 ^ (-e).toNat : Nat) : ℤ) ≠ 0 := by positivity
    rw [hm, Int.mul_emod_left, if_pos rfl, Int.mul_ediv_cancel _ hne]

theorem two_zpow_le_of_fin {m e : ℤ} (hm : m ≠ 0) : (2 : ℚ) ^ e ≤ |(m : ℚ) * 2 ^ e| := by
  rw [abs_mul, abs_of_pos (two_zpow_pos e)]
  refine le_mul_of_one_le_left (two_zpow_pos e).le ?_
  exact_mod_cast Int.one_le_abs hm

theorem Val.toInt?_of_rat {v : Val} (hf : v.Finite) (hn : v.Normal) {j : ℤ} (h : v.rat = j) (hj : |j| < 2 ^ 64) : v.toInt? = some j := by
  obtain ⟨s, rfl⟩ | ⟨m, e, rfl, hm⟩ := Val.finite_cases hf hn
  · rw [rat_zero] at h
    have : j = 0 := by exact_mod_cast h.symm
    rw [this]
    rfl
  · refine toInt?_fin h ?_
    have hle := two_zpow_le_of_fin (e := e) hm
    rw [← rat_fin, h] at hle
    have hlt : (2 : ℚ) ^ e < 2 ^ (64 : ℤ) := hle.trans_lt (by exact_mod_cast hj)
    exact (zpow_lt_zpow_iff_right₀ (by norm_num)).mp hlt

theorem Val.pow2?_of_rat {v : Val} {j : ℤ} (h : v.rat = 2 ^ j) : v.pow2? = some j := by
  have two0 : (2 : ℚ) ≠ 0 := by norm_num
  obtain ⟨m, e, rfl, hm⟩ := eq_fin_of_rat_pos (h ▸ two_zpow_pos j)
  rw [rat_fin] at h
  have hle := two_zpow_le_of_fin (e := e) hm.ne'
  rw [h, abs_of_pos (two_zpow_pos j), zpow_le_zpow_iff_right₀ (by norm_num)] at hle
  have hpow : m = (2 ^ (j - e).toNat : Nat) := by
    have : (m : ℚ) = 2 ^ (j - e) := by rw [zpow_sub₀ two0, ← h, mul_div_cancel_right₀ _ (two_zpow_pos e).ne']
    rw [two_zpow_toNat (by omega)] at this
    exact_mod_cast this
  have habs : m.natAbs = 2 ^ (j - e).toNat := by omega
  unfold pow2? topExp
  dsimp only
  rw [habs, Nat.log2_two_pow, if_pos (by simpa using hm)]
  congr 1
  omega

/-- The halving steps keep the root between a value and the next place of the step (R71). -/
theorem sqrtFloor_eq_sqrt (n : Nat) : sqrtFloor n = Nat.sqrt n := by
  have hloop : ∀ k : Nat, n < 2 ^ (k + 1) * 2 ^ (k + 1) → (List.range (k + 1)).foldl (fun r i =>
      let c := r + 2 ^ (k - i)
      if c * c ≤ n then c else r) 0 = Nat.sqrt n := by
    intro k hk
    have hinv := foldl_range_keeps (f := fun r i => let c := r + 2 ^ (k - i); if c * c ≤ n then c else r) (n := k + 1)
      (fun i r => r * r ≤ n ∧ n < (r + 2 ^ (k + 1 - i)) * (r + 2 ^ (k + 1 - i))) (b := 0) ⟨by simp, by simpa using hk⟩ ?_
    · rw [Nat.sub_self, pow_zero] at hinv
      exact (Nat.eq_sqrt.mpr hinv).symm ▸ rfl
    · rintro i hi r ⟨h1, h2⟩
      have hnext : 2 ^ (k + 1 - i) = 2 ^ (k - i) + 2 ^ (k - i) := by rw [← two_mul, ← pow_succ', ← Nat.sub_add_comm (by omega)]
      dsimp only
      rw [Nat.add_sub_add_right]
      split
      · next hc =>
        refine ⟨hc, ?_⟩
        rwa [hnext, ← Nat.add_assoc] at h2
      · next hc => exact ⟨h1, not_le.mp hc⟩
  refine hloop _ (Nat.lt_log2_self.trans_le ?_)
  rw [← pow_add]
  exact Nat.pow_le_pow_right (by norm_num) (by omega)

/-- The exact root of a square on a float tag. -/
theorem exactRoot_of_square {t : Tag} (ht : t.cls = .float) {m e : ℤ} {x : ℚ} (hx : 0 < x) (h : (m : ℚ) * 2 ^ e = x ^ 2) :
    ∃ r k : ℤ, exactRoot t (.fin m e) = some (.fin r k) ∧ (r : ℚ) * 2 ^ k = x := by
  have two0 : (2 : ℚ) ≠ 0 := by norm_num
  obtain ⟨m', e', hm', he', heven, hval⟩ : ∃ m' e' : ℤ, m' = (if e % 2 = 0 then m else 2 * m) ∧ e' = (if e % 2 = 0 then e else e - 1) ∧
      e' = e' / 2 + e' / 2 ∧ (m' : ℚ) * 2 ^ e' = x ^ 2 := by
    by_cases he : e % 2 = 0
    · exact ⟨m, e, by rw [if_pos he], by rw [if_pos he], by omega, h⟩
    · refine ⟨2 * m, e - 1, by rw [if_neg he], by rw [if_neg he], by omega, ?_⟩
      rw [← h, zpow_sub_one₀ two0]
      push_cast
      field_simp
  have hk := two_zpow_pos (e' / 2)
  have hsq : (m' : ℚ) = (x / 2 ^ (e' / 2)) * (x / 2 ^ (e' / 2)) := by
    rw [div_mul_div_comm, ← zpow_add₀ two0, ← heven, eq_div_iff (two_zpow_pos e').ne', hval, sq]
  have hpos : 0 < m' := by
    have : (0 : ℚ) < m' := by rw [hsq]; positivity
    exact_mod_cast this
  obtain ⟨q, hq⟩ : IsSquare m'.toNat := by
    rw [← Rat.isSquare_natCast_iff]
    refine ⟨x / 2 ^ (e' / 2), ?_⟩
    rw [← hsq, ← Int.cast_natCast, Int.toNat_of_nonneg hpos.le]
  have hq' : m' = (q * q : Nat) := by omega
  have hq0 : (q : ℤ) ≠ 0 := by
    rintro h0
    rw [hq', show q = 0 by omega] at hpos
    simp at hpos
  refine ⟨q, e' / 2, ?_, ?_⟩
  · unfold exactRoot
    dsimp only
    rw [← hm', ← he', if_neg (show t.cls ≠ .fixed by simp [ht]), Nat.mul_zero, pow_zero, Nat.mul_one, hq, sqrtFloor_eq_sqrt, Nat.sqrt_eq,
      if_pos (by rw [hq']; push_cast; ring), if_neg (by simp [ht])]
    unfold Val.mk
    rw [if_neg hq0]
    simp
  · have hqx : (q : ℚ) * q = (x / 2 ^ (e' / 2)) * (x / 2 ^ (e' / 2)) := by
      rw [← hsq, hq']
      push_cast
      rfl
    have : (q : ℚ) = x / 2 ^ (e' / 2) := (mul_self_inj (by positivity) (by positivity)).mp hqx
    rw [eq_div_iff hk.ne'] at this
    exact_mod_cast this

/-! ## Exact results (R71) -/

section
variable {vt : VType} {t : Tag} {f : FloatRow} {ca cb : Nat} (hf : floatRow t = some f) (ht : t.cls = .float) (hcpx : vt.getLsbD 20 = false)
include hf ht

theorem normalPow_float {j : ℤ} (h1 : 1 - f.bias ≤ j) (h2 : j ≤ f.bias) : normalPow t j = true := by
  obtain ⟨m, hm, hmatch⟩ := Tag.fmt_of_floatRow hf
  have htop := (floatRow_ieee hf ht).top
  unfold normalPow
  rw [hm]
  dsimp only
  rw [hmatch.bias, hmatch.eb, Bool.and_eq_true, decide_eq_true_iff, decide_eq_true_iff]
  exact ⟨h1, by omega⟩

include hcpx

omit hf in
theorem number_of_exact {fn : Fn} {second : Bool} {x : ℚ} {v : Bool → Val}
    (hs : specialResult fn second (readVal vt t ca) (readVal vt t cb) = none)
    (h : ∀ z, exactResult fn second t (readVal vt t ca) (readVal vt t cb) z = some (v z)) (hv : ∀ z, HoldsNumber f (encode vt t (v z)) x) :
    HoldsNumber f (compositeElement vt t fn second ca cb) x := by
  obtain ⟨z, hz⟩ := compositeElement_float_exact ht hs hcpx h
  rw [hz]
  exact hv z

omit hf hcpx ht in
theorem special_none_positive {fn : Fn} (hfn : fn = .ln ∨ fn = .log2 ∨ fn = .sqrt) {m e : ℤ} (hm : 0 < m) (b : Val) :
    specialResult fn false (.fin m e) b = none := by
  have hneg : ¬ (Val.fin m e).neg? = true := by
    show ¬ decide (m < 0) = true
    rw [decide_eq_true_iff]
    omega
  rcases hfn with rfl | rfl | rfl <;> exact (if_neg hneg).trans (if_neg (by simp [Val.isInf]))

theorem exp_zero (s : Bool) (ha : readVal vt t ca = .zero s) : HoldsNumber f (compositeElement vt t .exp false ca cb) 1 := by
  have hone : HoldsNumber f (encode vt t (.fin 1 0)) 1 :=
    encode_small hf ht (by norm_num) (by decide) (by decide) (by decide) (by decide)
  exact number_of_exact (v := fun _ => .fin 1 0) ht hcpx (by rw [ha]; rfl) (fun z => by rw [ha]; rfl) fun z => hone

theorem exp2_integer {j : ℤ} (h1 : 1 - f.bias ≤ j) (h2 : j ≤ f.bias) (hj : (readVal vt t ca).rat = j) (ha : (readVal vt t ca).Finite) :
    HoldsNumber f (compositeElement vt t .exp2 false ca cb) ((2 : ℚ) ^ j) := by
  have hi := floatRow_ieee hf ht
  have hbias : f.bias < 2 ^ 64 := by cases t <;> cases ht <;> cases hf <;> decide
  have hint := Val.toInt?_of_rat ha (readVal_normal vt t ca) hj (abs_lt.mpr ⟨by omega, by omega⟩)
  refine number_of_exact (v := fun _ => .fin 1 j) ht hcpx ?_ (fun z => ?_) fun z => encode_pow hf ht h1 h2
  · obtain ⟨s, h⟩ | ⟨m, e, h, -⟩ := Val.finite_cases ha (readVal_normal vt t ca) <;> rw [h] <;> rfl
  · unfold exactResult
    dsimp only
    rw [hint]
    exact if_pos (normalPow_float hf ht h1 h2)

omit hf in
theorem log_one {fn : Fn} (hfn : fn = .ln ∨ fn = .log2) (ha : (readVal vt t ca).rat = 1) :
    ∃ s, compositeElement vt t fn false ca cb = encode vt t (.zero s) := by
  have hpow := Val.pow2?_of_rat (v := readVal vt t ca) (j := 0) (by rw [ha, zpow_zero])
  obtain ⟨m, e, hv, hm⟩ := Val.eq_fin_of_rat_pos (ha ▸ zero_lt_one)
  have hnone := special_none_positive (fn := fn) (hfn.imp_right .inl) (e := e) hm (readVal vt t cb)
  rw [← hv] at hnone
  refine compositeElement_float_exact (x := fun z => .zero z) ht hnone hcpx fun z => ?_
  rcases hfn with rfl | rfl
  · have heqv : (readVal vt t ca).eqv (.fin 1 0) = true := by
      rw [Val.eqv_iff, hv]
      refine ⟨rfl, rfl, ?_, ?_⟩ <;> unfold Below <;> rw [hv] at ha <;> simp only [ha] <;> norm_num [Val.rat]
    exact if_pos heqv
  · unfold exactResult
    dsimp only
    rw [hpow]
    rfl

theorem log2_pow {j : ℤ} (ha : (readVal vt t ca).rat = (2 : ℚ) ^ j) (hj : j ≠ 0) :
    HoldsNumber f (compositeElement vt t .log2 false ca cb) j := by
  have hi := floatRow_ieee hf ht
  have mono {i j : ℤ} (h : i ≤ j) : (2 : ℚ) ^ i ≤ 2 ^ j := zpow_le_zpow_right₀ (by norm_num) h
  have hpos := two_zpow_pos j
  obtain ⟨m, e, hv, hm⟩ := Val.eq_fin_of_rat_pos (ha ▸ hpos)
  have hnone := special_none_positive (fn := .log2) (.inr (.inl rfl)) (e := e) hm (readVal vt t cb)
  have hnum := readAs_number hf (readVal_readAs vt t ca) (by rw [hv]; exact ⟨rfl, rfl⟩) (by rw [ha]; exact hpos.ne')
  rw [ha] at hnum
  have hlo := hnum.lo
  have hhi := hnum.hi
  rw [abs_of_pos hpos] at hlo hhi
  rw [zpow_le_zpow_iff_right₀ (by norm_num)] at hlo
  have hlt := hhi.trans_lt hi.maxValue_lt
  rw [zpow_lt_zpow_iff_right₀ (by norm_num)] at hlt
  have hb1 := hi.bias_gt
  have hb2 := hi.bias_lt
  have hb3 := hi.bias_ge
  have habs : |j| < 2 ^ (f.p + 1) := abs_lt.mpr ⟨by omega, by omega⟩
  refine number_of_exact (v := fun _ => .fin j 0) ht hcpx (by rw [hv]; exact hnone) (fun z => ?_) fun z => ?_
  · unfold exactResult
    dsimp only
    rw [Val.pow2?_of_rat ha]
    dsimp only
    rw [if_neg hj]
  · have h1 : (1 : ℚ) ≤ |(j : ℚ)| := by exact_mod_cast Int.one_le_abs hj
    refine encode_number hf (by simp) ⟨j, 0, by simp, habs⟩ ?_ ?_
    · refine le_trans ?_ h1
      have := mono (show 1 - f.bias ≤ 0 by omega)
      rwa [zpow_zero] at this
    · have hp : (2 : ℚ) ^ ((f.p : ℤ) + 1) = ((2 ^ (f.p + 1) : ℤ) : ℚ) := by push_cast; exact_mod_cast rfl
      calc |(j : ℚ)| = ((|j| : ℤ) : ℚ) := (Int.cast_abs).symm
        _ ≤ 2 ^ ((f.p : ℤ) + 1) := by rw [hp, Int.cast_le]; exact habs.le
        _ ≤ 2 ^ f.bias := mono hb1
        _ ≤ f.maxValue := hi.maxValue_ge

theorem sqrt_square {c : Nat} {m e : ℤ} (hc : ReadAs vt t c (.fin m e)) (hm : 0 < m) (ha : (readVal vt t ca).rat = (Val.fin m e).rat ^ 2) :
    HoldsNumber f (compositeElement vt t .sqrt false ca cb) (Val.fin m e).rat := by
  have hi := floatRow_ieee hf ht
  have hx : 0 < (Val.fin m e).rat := by rw [Val.rat_fin]; exact mul_pos (by exact_mod_cast hm) (two_zpow_pos e)
  have hroot := readAs_number hf hc ⟨rfl, rfl⟩ hx.ne'
  obtain ⟨M, E, hv, hM⟩ := Val.eq_fin_of_rat_pos (ha ▸ pow_pos hx 2)
  have hnum := readAs_number hf (readVal_readAs vt t ca) (by rw [hv]; exact ⟨rfl, rfl⟩) (by rw [ha]; exact (pow_pos hx 2).ne')
  have hnone := special_none_positive (fn := .sqrt) (.inr (.inr rfl)) (e := E) hM (readVal vt t cb)
  generalize (Val.fin m e).rat = x at *
  obtain ⟨r, k, hr, hrx⟩ := exactRoot_of_square ht hx (m := M) (e := E) (by rw [← ha, hv]; rfl)
  refine number_of_exact (v := fun _ => .fin r k) ht hcpx (by rw [hv]; exact hnone) (fun z => by rw [hv]; exact hr) fun z => ?_
  refine encode_number hf hrx hroot.significand ?_ hroot.hi
  rw [abs_of_pos hx]
  by_contra hlt
  have hsq : x ^ 2 < (2 : ℚ) ^ (1 - f.bias - f.p) := by
    calc x ^ 2 < ((2 : ℚ) ^ (1 - f.bias)) ^ 2 := pow_lt_pow_left₀ (not_le.mp hlt) hx.le (by norm_num)
      _ = (2 : ℚ) ^ (1 - f.bias + (1 - f.bias)) := by rw [sq, ← zpow_add₀ (by norm_num)]
      _ ≤ _ := zpow_le_zpow_right₀ (by norm_num) (by have := hi.bias_gt; omega)
  have := hnum.lo
  rw [ha, abs_of_pos (pow_pos hx 2)] at this
  exact absurd hsq (not_lt.mpr this)

theorem recip_pow {j : ℤ} (h1 : 1 - f.bias ≤ -j) (h2 : -j ≤ f.bias) (ha : (readVal vt t ca).rat = (2 : ℚ) ^ j) :
    HoldsNumber f (compositeElement vt t .recip false ca cb) ((2 : ℚ) ^ (-j)) := by
  obtain ⟨m, e, hv, hm⟩ := Val.eq_fin_of_rat_pos (ha ▸ two_zpow_pos j)
  have habs : (readVal vt t ca).abs.rat = (2 : ℚ) ^ j := by rw [Val.rat_abs, ha, abs_of_pos (two_zpow_pos j)]
  have hneg : ¬ (readVal vt t ca).neg? = true := by
    rw [hv]
    show ¬ decide (m < 0) = true
    rw [decide_eq_true_iff]
    omega
  refine number_of_exact (v := fun _ => .fin 1 (-j)) ht hcpx (by rw [hv]; rfl) (fun z => ?_) fun z => encode_pow hf ht h1 h2
  unfold exactResult
  dsimp only
  rw [Val.pow2?_of_rat habs]
  dsimp only
  rw [if_pos (normalPow_float hf ht h1 h2), if_neg hneg]

/-! ### Whole quarter turns -/

omit hf ht hcpx in
theorem sinCos_exact {m e j : ℤ} (h : (m : ℚ) * 2 ^ e = j / 4) (second : Bool) (t : Tag) (b : Val) (z : Bool) :
    exactResult .sinCos second t (.fin m e) b z = some (quarterValue second (wrapN 2 j) z) := by
  have hscale : (m : ℚ) * 2 ^ (e + 2) = j := by
    rw [zpow_add₀ (by norm_num), ← mul_assoc, h]
    norm_num
  by_cases he : e + 2 < 64
  · have hint : ((Val.fin m e).scale 2).toInt? = some j := Val.toInt?_fin hscale he
    unfold exactResult
    dsimp only
    rw [hint]
  · have hint : ((Val.fin m e).scale 2).toInt? = none := by
      show (if 0 ≤ e + 2 then _ else _ : Option ℤ) = none
      rw [if_pos (by omega), if_neg he]
    have hj : j = 4 * (m * (2 ^ e.toNat : Nat)) := by
      rw [two_zpow_toNat (by omega), eq_div_iff (by norm_num)] at h
      have : m * (2 ^ e.toNat : Nat) * 4 = j := by exact_mod_cast h
      omega
    have hwrap : wrapN 2 j = 0 := by
      unfold wrapN
      rw [hj]
      norm_num
    unfold exactResult
    dsimp only
    rw [hint, hwrap]
    exact if_pos (by omega)

/-- Cosine and sine of j quarter turns. -/
def quarterNumber (sine : Bool) (j : ℤ) : ℚ :=
  if sine then (if j % 4 = 1 then 1 else if j % 4 = 3 then -1 else 0) else if j % 4 = 0 then 1 else if j % 4 = 2 then -1 else 0

omit hcpx in
theorem encode_quarter (vt : VType) (second : Bool) (j : ℤ) (z : Bool) :
    HoldsNumber f (encode vt t (quarterValue second (wrapN 2 j) z)) (quarterNumber second j) := by
  have h1 : HoldsNumber f (encode vt t (.fin 1 0)) 1 :=
    encode_small hf ht (by norm_num) (by decide) (by decide) (by decide) (by decide)
  have h2 : HoldsNumber f (encode vt t (.fin (-1) 0)) (-1) :=
    encode_small hf ht (by norm_num) (by decide) (by decide) (by decide) (by decide)
  have h0 := encode_zero_number (vt := vt) hf z
  have hw : wrapN 2 j = (j % 4).toNat := rfl
  have hlt := Int.emod_lt_of_pos j (show (0 : ℤ) < 4 by norm_num)
  have hge := Int.emod_nonneg j (show (4 : ℤ) ≠ 0 by norm_num)
  unfold quarterNumber
  rw [hw]
  obtain h | h | h | h : j % 4 = 0 ∨ j % 4 = 1 ∨ j % 4 = 2 ∨ j % 4 = 3 := by omega
  all_goals rw [h]; cases second
  exacts [h1, h0, h0, h1, h2, h0, h0, h2]

theorem sinCos_quarter {j : ℤ} (hj : (readVal vt t ca).rat = j / 4) (ha : (readVal vt t ca).Finite) (second : Bool) :
    HoldsNumber f (compositeElement vt t .sinCos second ca cb) (quarterNumber second j) := by
  obtain ⟨s, h⟩ | ⟨m, e, h, -⟩ := Val.finite_cases ha (readVal_normal vt t ca)
  · have hj0 : j = 0 := by
      rw [h, Val.rat_zero, eq_comm, div_eq_zero_iff] at hj
      exact_mod_cast hj.resolve_right (by norm_num)
    have hs (x : Val) (hx : specialResult .sinCos second (.zero s) (readVal vt t cb) = some (x, Flags.none)) :
        compositeElement vt t .sinCos second ca cb = encode vt t x := by
      rw [compositeElement_float_special ht (x := x) (fl := Flags.none) (by rw [h]; exact hx)]
      exact Prod.ext rfl (Flags.or_zero _)
    rw [hj0]
    cases second with
    | false =>
      rw [hs (.fin 1 0) rfl]
      exact encode_small hf ht (by norm_num [quarterNumber]) (by decide) (by decide) (by decide) (by decide)
    | true =>
      rw [hs (.zero s) rfl]
      exact encode_zero_number hf s
  · rw [h] at hj
    refine number_of_exact (v := fun z => quarterValue second (wrapN 2 j) z) ht hcpx (by rw [h]; rfl)
      (fun z => by rw [h]; exact sinCos_exact hj second t _ z) fun z => encode_quarter hf ht vt second j z

end

end Sys2Proof.Machine
end

section
/-! PROOFS. The special results of the composite functions (R168, R169), and the values of rotations and functions: O40. -/
namespace Sys2Proof.Machine

/-! ## The rows for NaNs and for operands of each sign (R168, R169) -/

theorem special_nan_one {fn : Fn}
    (hfn : fn ∈ [Fn.sinCos, .exp, .exp2, .ln, .log2, .sqrt, .rsqrt, .recip, .tanh, .sigm, .gelu]) (sine : Bool) {a : Val}
    (ha : a.isNan = true) (b : Val) : specialResult fn sine a b = some (.nan false, sigOf [a]) := by
  cases a with
  | nan s =>
    rw [sigOf_one]
    simp only [List.mem_cons, List.not_mem_nil, or_false] at hfn
    rcases hfn with rfl | rfl | rfl | rfl | rfl | rfl | rfl | rfl | rfl | rfl | rfl <;> rfl
  | _ => cases ha

theorem special_nan_two {fn : Fn} (hfn : fn ∈ [Fn.div, .atan2, .softx]) {a b : Val} (h : a.isNan = true ∨ b.isNan = true) :
    specialResult fn false a b = some (.nan false, sigOf [a, b]) := by
  rw [sigOf_two]
  simp only [List.mem_cons, List.not_mem_nil, or_false] at hfn
  have hnan : (a.isNan || b.isNan) = true := Bool.or_eq_true_iff.mpr h
  rcases hfn with rfl | rfl | rfl <;> exact if_pos hnan

theorem special_hypot_inf {a b : Val} (h : a.isInf = true ∨ b.isInf = true) :
    specialResult .hypot false a b = some (.inf false, sigOf [a, b]) := by
  rw [sigOf_two]
  exact if_pos (Bool.or_eq_true_iff.mpr h)

theorem special_hypot_nan {a b : Val} (ha : a.isInf = false) (hb : b.isInf = false) (h : a.isNan = true ∨ b.isNan = true) :
    specialResult .hypot false a b = some (.nan false, sigOf [a, b]) := by
  rw [sigOf_two]
  have hinf : ¬ (a.isInf || b.isInf) = true := by simp [ha, hb]
  exact (if_neg hinf).trans (if_pos (Bool.or_eq_true_iff.mpr h))

/-- A logarithm or root of a negative value (R168). -/
theorem special_below {fn : Fn} (hfn : fn ∈ [Fn.ln, .log2, .sqrt, .rsqrt]) {a : Val}
    (h : a = .inf true ∨ ∃ m e, a = .fin m e ∧ m < 0) (b : Val) : specialResult fn false a b = some (.nan false, Flags.nv) := by
  simp only [List.mem_cons, List.not_mem_nil, or_false] at hfn
  obtain rfl | ⟨m, e, rfl, hm⟩ := h
  · rcases hfn with rfl | rfl | rfl | rfl <;> rfl
  · have hneg : (Val.fin m e).neg? = true := decide_eq_true hm
    rcases hfn with rfl | rfl | rfl | rfl <;> exact if_pos hneg

/-- A value that is a zero or finite, by its form. -/
theorem Val.finite_forms {v : Val} (h : v.isNan = false ∧ v.isInf = false) : (∃ s, v = .zero s) ∨ ∃ m e, v = .fin m e := by
  cases v with
  | nan s => cases h.1
  | inf s => cases h.2
  | zero s => exact .inl ⟨s, rfl⟩
  | fin m e => exact .inr ⟨m, e, rfl⟩

section
variable {a b : Val} (hb : b.isNan = false ∧ b.isInf = false)
include hb

theorem special_div_inf (s : Bool) : specialResult .div false (.inf s) b = some (.inf (s != b.neg?), Flags.none) := by
  obtain ⟨z, rfl⟩ | ⟨m, e, rfl⟩ := Val.finite_forms hb <;> rfl

omit hb in
theorem special_div_by_inf (ha : a.isNan = false ∧ a.isInf = false) (z : Bool) :
    specialResult .div false a (.inf z) = some (.zero (a.neg? != z), Flags.none) := by
  obtain ⟨s, rfl⟩ | ⟨m, e, rfl⟩ := Val.finite_forms ha <;> rfl

theorem special_atan2_zero (s : Bool) :
    specialResult .atan2 false (.zero s) b = some (if b.neg? then .fin (if s then -1 else 1) (-1) else .zero s, Flags.none) := by
  obtain ⟨z, rfl⟩ | ⟨m, e, rfl⟩ := Val.finite_forms hb <;> rfl

theorem special_atan2_inf (s : Bool) : specialResult .atan2 false (.inf s) b = some (.fin (if s then -1 else 1) (-2), Flags.none) := by
  obtain ⟨z, rfl⟩ | ⟨m, e, rfl⟩ := Val.finite_forms hb <;> rfl

omit hb in
theorem sign_fin (m e : ℤ) : (if m < 0 then (-1 : ℤ) else 1) = if (Val.fin m e).neg? = true then -1 else 1 := by simp [Val.neg?]

omit hb in
theorem special_atan2_by_zero (m e : ℤ) (z : Bool) :
    specialResult .atan2 false (.fin m e) (.zero z) = some (.fin (if (Val.fin m e).neg? then -1 else 1) (-2), Flags.none) := by
  rw [← sign_fin]
  rfl

omit hb in
theorem special_atan2_of_inf (ha : a.isNan = false ∧ a.isInf = false) (z : Bool) : specialResult .atan2 false a (.inf z) =
    some (if z then .fin (if a.neg? then -1 else 1) (-1) else .zero a.neg?, Flags.none) := by
  obtain ⟨s, rfl⟩ | ⟨m, e, rfl⟩ := Val.finite_forms ha
  · cases z <;> rfl
  · cases z
    · rfl
    · rw [← sign_fin]
      rfl

theorem special_softx_inf (s : Bool) : specialResult .softx false (.inf s) b = some (if s then .zero false else .inf false, Flags.none) := by
  obtain ⟨z, rfl⟩ | ⟨m, e, rfl⟩ := Val.finite_forms hb <;> cases s <;> rfl

omit hb in
theorem special_softx_by_inf (ha : a.isNan = false) :
    specialResult .softx false a (.inf false) = some (if a = .inf false then .fin 1 0 else .zero false, Flags.none) := by
  cases a with
  | nan s => cases ha
  | _ => rfl

omit hb in
theorem special_softx_by_neg_inf (ha : a.isNan = false) : specialResult .softx false a (.inf true) = some (.zero false, Flags.nv) := by
  cases a with
  | nan s => cases ha
  | _ => rfl

end

/-! ## q15 -/

section
variable {vt : VType} {fn : Fn} {ca cb : Nat}

theorem readVal_q15 (c : Nat) : readVal vt .q15 c = Val.mk (intValue .q15 c) (-15) := readVal_grid rfl vt c

theorem fnArgs_q15 (hfn : fn ≠ .sinCos) :
    fnArgs vt .q15 fn ca cb = (Val.mk (intValue .q15 ca) (-15), Val.mk (intValue .q15 cb) (-15)) := by
  unfold fnArgs
  dsimp only
  rw [if_neg (by simp [hfn]), readVal_q15, readVal_q15]

theorem composite_q15_special (h1 : fn ≠ .sinCos) (h2 : fn ≠ .atan2) {x : Val} {fl : Flags}
    (h : specialResult fn false (Val.mk (intValue .q15 ca) (-15)) (Val.mk (intValue .q15 cb) (-15)) = some (x, fl)) :
    compositeElement vt .q15 fn false ca cb = ((writeResult vt .q15 x).1, (writeResult vt .q15 x).2 ||| fl) := by
  have hs := compositeElement_special (vt := vt) (t := .q15) (f := fn) (second := false) (ca := ca) (cb := cb) (x := x) (fl := fl)
    (by rw [fnArgs_q15 h1]; exact h)
  have hhalf : halfOf fn .q15 = 0 := by simp [halfOf, h2]
  have hturn (r : Nat × Flags) : halfTurned fn .q15 r = r := by simp [halfTurned, isHalfTurn, h2]
  rwa [hturn, hhalf, Val.scale_zero] at hs

theorem writeResult_q15_nan (q : Bool) : writeResult vt .q15 (.nan q) = (0, Flags.nv) := rfl

theorem writeResult_q15_inf (s : Bool) : writeResult vt .q15 (.inf s) = (if s then 0x8000 else 0x7FFF, Flags.sa) := by cases s <;> rfl

/-- 1 lies one step above the greatest value of q15. -/
theorem writeResult_q15_one : writeResult vt .q15 (.fin 1 0) = (0x7FFF, Flags.sa) := by
  simp [writeResult, encode, Tag.fmt, Tag.cls, roundTo, narrow, Tag.frac, Tag.saturate, Tag.hi, Tag.lo, Tag.signed, Tag.width, wrapN,
    Flags.when]

theorem composite_q15_nan (h1 : fn ≠ .sinCos) (h2 : fn ≠ .atan2) {q : Bool}
    (h : specialResult fn false (Val.mk (intValue .q15 ca) (-15)) (Val.mk (intValue .q15 cb) (-15)) = some (.nan q, Flags.nv)) :
    compositeElement vt .q15 fn false ca cb = (0, 1) := by
  rw [composite_q15_special h1 h2 h, writeResult_q15_nan]
  rfl

theorem composite_q15_inf (h1 : fn ≠ .sinCos) (h2 : fn ≠ .atan2) {s : Bool}
    (h : specialResult fn false (Val.mk (intValue .q15 ca) (-15)) (Val.mk (intValue .q15 cb) (-15)) = some (.inf s, Flags.dz)) :
    compositeElement vt .q15 fn false ca cb = (if s then 0x8000 else 0x7FFF, 2 ||| 32) := by
  rw [composite_q15_special h1 h2 h, writeResult_q15_inf]
  exact Prod.ext rfl (show Flags.sa ||| Flags.dz = 2 ||| 32 by decide)

end

/-- The special results of q15 (R168). -/
theorem special_q15 (vt : VType) (ca cb : Nat) :
    let a := intValue .q15 ca
    let b := intValue .q15 cb
    let r (fn : Fn) := compositeElement vt .q15 fn false ca cb
    (a < 0 → ∀ fn ∈ [Fn.ln, .log2, .sqrt, .rsqrt], r fn = (0, 1)) ∧
    (a = 0 → r .ln = (0x8000, 2 ||| 32) ∧ r .log2 = (0x8000, 2 ||| 32) ∧ r .rsqrt = (0x7FFF, 2 ||| 32) ∧ r .recip = (0x7FFF, 2 ||| 32)) ∧
    (b = 0 → r .div = if a = 0 then (0, 1) else (if a < 0 then 0x8000 else 0x7FFF, 2 ||| 32)) ∧
    (a = 0 → b < 0 → r .atan2 = (0x8000, 0)) := by
  intro a b r
  have zero {n : ℤ} (h : n = 0) : Val.mk n (-15) = .zero false := if_pos h
  have fin {n : ℤ} (h : n ≠ 0) : Val.mk n (-15) = .fin n (-15) := if_neg h
  refine ⟨fun ha fn hfn => ?_, fun ha => ⟨?_, ?_, ?_, ?_⟩, fun hb => ?_, fun ha hb => ?_⟩
  · have h := special_below hfn (a := Val.mk a (-15)) (.inr ⟨_, _, fin ha.ne, ha⟩) (Val.mk b (-15))
    have hne : fn ≠ .sinCos ∧ fn ≠ .atan2 := by
      constructor <;> rintro rfl <;> simp at hfn
    exact composite_q15_nan hne.1 hne.2 h
  · exact composite_q15_inf (fn := .ln) (s := true) nofun nofun (by rw [zero ha]; rfl)
  · exact composite_q15_inf (fn := .log2) (s := true) nofun nofun (by rw [zero ha]; rfl)
  · exact composite_q15_inf (fn := .rsqrt) (s := false) nofun nofun (by rw [zero ha]; rfl)
  · exact composite_q15_inf (fn := .recip) (s := false) nofun nofun (by rw [zero ha]; rfl)
  · by_cases ha : a = 0
    · rw [if_pos ha]
      exact composite_q15_nan (fn := .div) (q := false) nofun nofun (by rw [zero ha, zero hb]; rfl)
    · rw [if_neg ha]
      have h := composite_q15_inf (vt := vt) (fn := .div) (ca := ca) (cb := cb) (s := decide (a < 0) != false) nofun nofun
        (by rw [fin ha, zero hb]; rfl)
      rw [Bool.bne_false] at h
      simp only [decide_eq_true_eq] at h
      exact h
  · have hneg : (Val.fin b (-15)).neg? = true := decide_eq_true hb
    have h := compositeElement_special (vt := vt) (t := .q15) (f := .atan2) (second := false) (ca := ca) (cb := cb) (x := .fin 1 (-1))
      (fl := Flags.none) (by
        rw [fnArgs_q15 (fn := .atan2) nofun, zero ha, fin hb.ne, special_atan2_zero ⟨rfl, rfl⟩, if_pos hneg]
        rfl)
    refine h.trans ?_
    rw [show (Val.fin 1 (-1)).scale (halfOf .atan2 .q15) = .fin 1 0 from rfl, writeResult_q15_one]
    decide

theorem specialResults : SpecialResults := by
  refine ⟨fun vt ca cb _ => special_q15 vt ca cb, fun vt t f ca cb hrm hf ht => ?_⟩
  intro a b r gives number canon sgn below finite
  have writes {fn : Fn} {sine : Bool} {x : Val} {fl : Flags} (h : specialResult fn sine a b = some (x, fl)) :
      r fn sine = ((encode vt t x).1, (encode vt t x).2 ||| fl) := compositeElement_float_special ht h
  have isNan {fn : Fn} {sine z : Bool} {fl : Flags} (h : specialResult fn sine a b = some (.nan z, fl)) : canon fn sine fl := by
    refine (writes h).trans ?_
    rw [encode_nan hf ht, Flags.zero_or]
  have isZero {fn : Fn} {sine s : Bool} {fl : Flags} (h : specialResult fn sine a b = some (.zero s, fl)) : gives fn sine (.zero s) fl := by
    have hr := writes h
    rw [encode_zero hf, Flags.zero_or] at hr
    refine ⟨by rw [hr], ?_⟩
    rw [hr]
    exact readAs_zero hf _ s
  have isInf {fn : Fn} {sine s : Bool} {fl : Flags} (h : specialResult fn sine a b = some (.inf s, fl)) : gives fn sine (.inf s) fl := by
    have hr := writes h
    rw [encode_inf hf ht, Flags.zero_or] at hr
    refine ⟨by rw [hr], ?_⟩
    rw [hr]
    exact readAs_inf hf ht _ s
  have isSmall {fn : Fn} {sine : Bool} {m e : ℤ} {x : ℚ} (h : specialResult fn sine a b = some (.fin m e, Flags.none))
      (hx : (m : ℚ) * 2 ^ e = x) (hm : m ≠ 0 ∧ |m| ≤ 3 ∧ -3 ≤ e ∧ e ≤ 0) : number fn sine x := by
    have hr := writes h
    have hn := encode_small (vt := vt) hf ht hx hm.1 hm.2.1 hm.2.2.1 hm.2.2.2
    show HoldsNumber f (r fn sine) x
    rw [hr, show Flags.none = 0 from rfl, Flags.or_zero]
    exact hn
  refine ⟨fun fn hfn ha sine => isNan (special_nan_one hfn sine ha b), fun fn hfn h => isNan (special_nan_two hfn h),
    fun h => isInf (special_hypot_inf h), fun ha hb h => isNan (special_hypot_nan ha hb h), fun s ha => ?zero, fun s ha => ?inf,
    fun ha => ⟨isNan (special_below (by simp) ha b), isNan (special_below (by simp) ha b), isNan (special_below (by simp) ha b),
      isNan (special_below (by simp) ha b)⟩, fun s z => ?div, fun s z hs hz => ?atan2, fun ha hb => ?softx, fun ha hb => ?softxNeg,
    fun hb => ⟨fun ha => ?softxInf, fun ha => ?softxOfNeg⟩, fun hcpx => ?exact⟩
  case zero =>
    exact ⟨isSmall (m := 1) (e := 0) (by rw [ha]; rfl) (by norm_num) (by decide), isZero (by rw [ha]; rfl), isInf (by rw [ha]; rfl),
      isInf (by rw [ha]; rfl), isZero (by rw [ha]; rfl), isInf (by rw [ha]; rfl), isInf (by rw [ha]; rfl)⟩
  case inf =>
    refine ⟨isNan (z := false) (by rw [ha]; rfl), isNan (z := false) (by rw [ha]; rfl), ?_, ?_, isZero (by rw [ha]; rfl),
      isSmall (m := if s then -1 else 1) (e := 0) (by rw [ha]; rfl) ?_ (by cases s <;> decide), fun hs => ?_, fun hs => ?_⟩
    · cases s
      · exact isInf (by rw [ha]; rfl)
      · exact isZero (by rw [ha]; rfl)
    · cases s
      · exact isInf (by rw [ha]; rfl)
      · exact isZero (by rw [ha]; rfl)
    · cases s <;> norm_num [sgn]
    · subst hs
      exact ⟨isInf (by rw [ha]; rfl), isInf (by rw [ha]; rfl), isInf (by rw [ha]; rfl), isZero (by rw [ha]; rfl),
        isSmall (m := 1) (e := 0) (by rw [ha]; rfl) (by norm_num) (by decide), isInf (by rw [ha]; rfl)⟩
    · subst hs
      exact ⟨isZero (by rw [ha]; rfl), isZero (by rw [ha]; rfl)⟩
  case div =>
    refine ⟨fun ha hb => isNan (z := false) (by rw [ha, hb]; rfl), fun ha hb => isNan (z := false) (by rw [ha, hb]; rfl),
      fun ha hb hz => isInf (by rw [ha, special_div_inf hb, hz]; rfl), fun ha hs hb => isZero (by rw [hb, special_div_by_inf ha, hs]; rfl),
      fun m e ha hs hb => isInf (by rw [ha, hb, ← hs, ha]; rfl)⟩
  case atan2 =>
    have isPart {m e : ℤ} {x : ℚ} (h : specialResult .atan2 false a b = some (.fin (if s then -m else m) e, Flags.none))
        (hx : sgn s * ((m : ℚ) * 2 ^ e) = x) (hm : m ≠ 0 ∧ |m| ≤ 3 ∧ -3 ≤ e ∧ e ≤ 0) : number .atan2 false x := by
      refine isSmall h ?_ ?_
      · rw [← hx]
        cases s <;> simp [sgn]
      · cases s <;> simpa using hm
    refine ⟨fun ha hb => ?_,
      fun m e ha hb => isPart (m := 1) (e := -2) (by rw [ha, hb, special_atan2_by_zero, ← ha, hs]) (by norm_num; ring) (by decide),
      fun ha hb => ?_, fun ha hb => isPart (m := 1) (e := -2) (by rw [ha, special_atan2_inf hb]) (by norm_num; ring) (by decide), fun ha hb => ?_⟩
    · have h : specialResult .atan2 false a b = some (if z then .fin (if s then -1 else 1) (-1) else .zero s, Flags.none) := by
        rw [ha, special_atan2_zero hb, hz]
      cases z
      · exact isZero h
      · exact isPart (m := 1) (e := -1) h (by norm_num; ring) (by decide)
    · cases z
      · exact isPart (m := 1) (e := -3) (by rw [ha, hb]; rfl) (by norm_num) (by decide)
      · exact isPart (m := 3) (e := -3) (by rw [ha, hb]; rfl) (by norm_num) (by decide)
    · have h : specialResult .atan2 false a b = some (if z then .fin (if s then -1 else 1) (-1) else .zero s, Flags.none) := by
        rw [hb, special_atan2_of_inf ha, hs]
      cases z
      · exact isZero h
      · exact isPart (m := 1) (e := -1) h (by norm_num; ring) (by decide)
  case softx =>
    have h : specialResult .softx false a b = some (if a = .inf false then .fin 1 0 else .zero false, Flags.none) := by
      rw [hb, special_softx_by_inf ha]
    split
    · next hinf =>
      rw [if_pos hinf] at h
      exact isSmall h (by norm_num) (by decide)
    · next hinf =>
      rw [if_neg hinf] at h
      exact isZero h
  case softxNeg => exact isZero (by rw [hb, special_softx_by_neg_inf ha]; rfl)
  case softxInf => exact isInf (by rw [ha, special_softx_inf hb]; rfl)
  case softxOfNeg => exact isZero (by rw [ha, special_softx_inf hb]; rfl)
  case exact =>
    intro low
    refine ⟨fun s ha => ⟨exp_zero hf ht hcpx s ha, ?_⟩, fun j h1 h2 hj ha => exp2_integer hf ht hcpx h1 h2 hj ha, fun ha => ?_,
      fun j ha hj => log2_pow hf ht hcpx ha hj, fun c m e hc hm ha => sqrt_square hf ht hcpx hc hm ha,
      fun j h1 h2 ha => recip_pow hf ht hcpx h1 h2 ha, fun j hj ha => ?_⟩
    · have hi := (floatRow_ieee hf ht).bias_ge
      have h := exp2_integer (cb := cb) hf ht hcpx (j := 0) (by omega) (by omega) (show a.rat = _ by rw [ha]; simp)
        (show a.Finite by rw [ha]; exact ⟨rfl, rfl⟩)
      rwa [zpow_zero] at h
    · have isLog {fn : Fn} (hfn : fn = .ln ∨ fn = .log2) : ∃ s, gives fn false (.zero s) 0 := by
        obtain ⟨s, h⟩ := log_one (cb := cb) ht hcpx hfn ha
        have hr : r fn false = _ := h.trans (encode_zero hf s)
        refine ⟨s, by rw [hr], ?_⟩
        rw [hr]
        exact readAs_zero hf _ s
      obtain ⟨s, hs⟩ := isLog (.inl rfl)
      exact ⟨s, hs, isLog (.inr rfl)⟩
    · have hcos := sinCos_quarter (cb := cb) hf ht hcpx hj ha false
      have hsin := sinCos_quarter (cb := cb) hf ht hcpx hj ha true
      unfold quarterNumber at hcos hsin
      refine ⟨hcos.1, hsin.1, fun h => ?_, fun h => ?_, fun h => ?_, fun h => ?_⟩ <;> rw [h] at hcos hsin <;> exact ⟨hcos, hsin⟩

/-- Settles O40: the steps and elements of rotations, the special and exact results of composite functions, and the micro-ops. -/
theorem functionValues : Obligations.FunctionValues := ⟨rotationSteps, rotatedElements, specialResults, userPrograms⟩

end Sys2Proof.Machine
end

section
/-! PROOFS. Encoding and decoding agree (R88 to R98): O4, O5 and O6. -/
namespace Sys2Proof

/-! ### The fields of a word -/

/-- The fields of a word of format S3, MT or V3 (R88). -/
theorem fields_encS3 (maj d a b : BitVec 5) (fn z : BitVec 6) :
    (encS3 maj d a b fn z).extractLsb' 27 5 = maj ∧ (encS3 maj d a b fn z).extractLsb' 22 5 = d ∧
    (encS3 maj d a b fn z).extractLsb' 17 5 = a ∧ (encS3 maj d a b fn z).extractLsb' 12 5 = b ∧
    (encS3 maj d a b fn z).extractLsb' 6 6 = fn ∧ (encS3 maj d a b fn z).extractLsb' 0 6 = z := by
  unfold encS3
  refine ⟨?_, ?_, ?_, ?_, ?_, ?_⟩ <;>
    simp (disch := decide) only [BitVec.extractLsb'_append_eq_of_le, BitVec.extractLsb'_append_eq_of_add_le, Nat.reduceSub,
      BitVec.extractLsb'_eq_self]

/-- The parts of the fields that the words of MAJ 23 divide (R97). -/
theorem parts_encS3 (maj d a b : BitVec 5) (fn z : BitVec 6) :
    (encS3 maj d a b fn z).extractLsb' 25 2 = d.extractLsb' 3 2 ∧ (encS3 maj d a b fn z).extractLsb' 23 2 = d.extractLsb' 1 2 ∧
    (encS3 maj d a b fn z).extractLsb' 23 4 = d.extractLsb' 1 4 ∧ (encS3 maj d a b fn z).extractLsb' 22 1 = d.extractLsb' 0 1 ∧
    (encS3 maj d a b fn z).extractLsb' 12 4 = b.extractLsb' 0 4 ∧ (encS3 maj d a b fn z).getLsbD 16 = b.getLsbD 4 ∧
    (encS3 maj d a b fn z).extractLsb' 4 2 = z.extractLsb' 4 2 ∧ (encS3 maj d a b fn z).extractLsb' 2 2 = z.extractLsb' 2 2 ∧
    (encS3 maj d a b fn z).extractLsb' 2 4 = z.extractLsb' 2 4 ∧ (encS3 maj d a b fn z).extractLsb' 1 5 = z.extractLsb' 1 5 ∧
    (encS3 maj d a b fn z).extractLsb' 0 2 = z.extractLsb' 0 2 ∧ (encS3 maj d a b fn z).extractLsb' 0 1 = z.extractLsb' 0 1 ∧
    (encS3 maj d a b fn z).getLsbD 1 = z.getLsbD 1 ∧ (encS3 maj d a b fn z).getLsbD 0 = z.getLsbD 0 := by
  unfold encS3
  refine ⟨?_, ?_, ?_, ?_, ?_, ?_, ?_, ?_, ?_, ?_, ?_, ?_, ?_, ?_⟩ <;>
    simp (disch := decide) only [BitVec.extractLsb'_append_eq_of_le, BitVec.extractLsb'_append_eq_of_add_le, Nat.reduceSub,
      BitVec.getLsbD_append, Nat.reduceLT, ↓reduceIte]

/-- The fields of a word of format V3 (R88); of a `vfn` of a user slot, the slot (R170). -/
theorem fields_encV3 (maj d a b : BitVec 5) (fn : BitVec 6) (o m : BitVec 3) :
    (encV3 maj d a b fn o m).extractLsb' 27 5 = maj ∧ (encV3 maj d a b fn o m).extractLsb' 22 5 = d ∧
    (encV3 maj d a b fn o m).extractLsb' 17 5 = a ∧ (encV3 maj d a b fn o m).extractLsb' 12 5 = b ∧
    (encV3 maj d a b fn o m).extractLsb' 6 6 = fn ∧ (encV3 maj d a b fn o m).extractLsb' 6 4 = fn.extractLsb' 0 4 ∧
    (encV3 maj d a b fn o m).extractLsb' 3 3 = o ∧ (encV3 maj d a b fn o m).extractLsb' 0 3 = m := by
  unfold encV3
  refine ⟨?_, ?_, ?_, ?_, ?_, ?_, ?_, ?_⟩ <;>
    simp (disch := decide) only [BitVec.extractLsb'_append_eq_of_le, BitVec.extractLsb'_append_eq_of_add_le, Nat.reduceSub,
      BitVec.extractLsb'_eq_self]

/-- The fields of a word of format SI (R88), and of an amount of `shi` (R118). -/
theorem fields_encSI (maj d a : BitVec 5) (f3 : BitVec 3) (imm : BitVec 14) :
    (encSI maj d a f3 imm).extractLsb' 27 5 = maj ∧ (encSI maj d a f3 imm).extractLsb' 22 5 = d ∧
    (encSI maj d a f3 imm).extractLsb' 17 5 = a ∧ (encSI maj d a f3 imm).extractLsb' 14 3 = f3 ∧
    (encSI maj d a f3 imm).extractLsb' 0 14 = imm ∧ (encSI maj d a f3 imm).extractLsb' 12 2 = imm.extractLsb' 12 2 ∧
    (encSI maj d a f3 imm).extractLsb' 6 6 = imm.extractLsb' 6 6 ∧ (encSI maj d a f3 imm).extractLsb' 0 6 = imm.extractLsb' 0 6 := by
  unfold encSI
  refine ⟨?_, ?_, ?_, ?_, ?_, ?_, ?_, ?_⟩ <;>
    simp (disch := decide) only [BitVec.extractLsb'_append_eq_of_le, BitVec.extractLsb'_append_eq_of_add_le, Nat.reduceSub,
      BitVec.extractLsb'_eq_self]

/-- The fields of a word of formats U and J (R88). -/
theorem fields_encU (maj d : BitVec 5) (imm : BitVec 22) :
    (encU maj d imm).extractLsb' 27 5 = maj ∧ (encU maj d imm).extractLsb' 22 5 = d ∧ (encU maj d imm).extractLsb' 0 22 = imm := by
  unfold encU
  refine ⟨?_, ?_, ?_⟩ <;>
    simp (disch := decide) only [BitVec.extractLsb'_append_eq_of_le, BitVec.extractLsb'_append_eq_of_add_le, Nat.reduceSub,
      BitVec.extractLsb'_eq_self]

/-- The fields of a word of format M (R88). -/
theorem fields_encM (maj d a : BitVec 5) (c : BitVec 4) (sz : BitVec 3) (off : BitVec 10) :
    (encM maj d a c sz off).extractLsb' 27 5 = maj ∧ (encM maj d a c sz off).extractLsb' 22 5 = d ∧
    (encM maj d a c sz off).extractLsb' 17 5 = a ∧ (encM maj d a c sz off).extractLsb' 13 4 = c ∧
    (encM maj d a c sz off).extractLsb' 10 3 = sz ∧ (encM maj d a c sz off).extractLsb' 0 10 = off := by
  unfold encM
  refine ⟨?_, ?_, ?_, ?_, ?_, ?_⟩ <;>
    simp (disch := decide) only [BitVec.extractLsb'_append_eq_of_le, BitVec.extractLsb'_append_eq_of_add_le, Nat.reduceSub,
      BitVec.extractLsb'_eq_self]

/-- The fields of a word of format AMO (R88), and its three scope bits. -/
theorem fields_encAmo (maj d a b : BitVec 5) (c : BitVec 4) (op : BitVec 5) (sc : BitVec 2) :
    (encAmo maj d a b c op sc).extractLsb' 27 5 = maj ∧ (encAmo maj d a b c op sc).extractLsb' 22 5 = d ∧
    (encAmo maj d a b c op sc).extractLsb' 17 5 = a ∧ (encAmo maj d a b c op sc).extractLsb' 12 5 = b ∧
    (encAmo maj d a b c op sc).extractLsb' 8 4 = c ∧ (encAmo maj d a b c op sc).extractLsb' 3 5 = op ∧
    (encAmo maj d a b c op sc).extractLsb' 2 1 = 0 ∧ (encAmo maj d a b c op sc).extractLsb' 0 2 = sc ∧
    (encAmo maj d a b c op sc).extractLsb' 0 3 = 0#1 ++ sc := by
  have scope : encAmo maj d a b c op sc = maj ++ d ++ a ++ b ++ c ++ op ++ (0#1 ++ sc) := by
    unfold encAmo
    exact BitVec.append_assoc.trans rfl
  refine ⟨?_, ?_, ?_, ?_, ?_, ?_, ?_, ?_, ?_⟩
  case refine_9 =>
    rw [scope]
    exact BitVec.extractLsb'_append_eq_right
  all_goals
    unfold encAmo
    simp (disch := decide) only [BitVec.extractLsb'_append_eq_of_le, BitVec.extractLsb'_append_eq_of_add_le, Nat.reduceSub,
      BitVec.extractLsb'_eq_self]
    try rfl

/-- The fields of a word of format BR (R88). -/
theorem fields_encBr (a b : BitVec 5) (cnd : BitVec 3) (off : BitVec 14) :
    (encBr a b cnd off).extractLsb' 27 5 = 8 ∧ (encBr a b cnd off).extractLsb' 22 5 = a ∧
    (encBr a b cnd off).extractLsb' 17 5 = b ∧ (encBr a b cnd off).extractLsb' 14 3 = cnd ∧
    (encBr a b cnd off).extractLsb' 0 14 = off := fields_encSI 8 a b cnd off |>.imp id fun h => ⟨h.1, h.2.1, h.2.2.1, h.2.2.2.1⟩

/-- The fields of a word of format SYS (R88), and the parts of K16. -/
theorem fields_encSys (d : BitVec 5) (fn : BitVec 6) (k : BitVec 16) :
    (encSys d fn k).extractLsb' 27 5 = 11 ∧ (encSys d fn k).extractLsb' 22 5 = d ∧ (encSys d fn k).extractLsb' 16 6 = fn ∧
    (encSys d fn k).extractLsb' 0 16 = k ∧ (encSys d fn k).extractLsb' 11 5 = k.extractLsb' 11 5 ∧
    (encSys d fn k).extractLsb' 6 5 = k.extractLsb' 6 5 ∧ (encSys d fn k).extractLsb' 0 11 = k.extractLsb' 0 11 ∧
    (encSys d fn k).extractLsb' 2 14 = k.extractLsb' 2 14 ∧ (encSys d fn k).extractLsb' 0 2 = k.extractLsb' 0 2 ∧
    (encSys d fn k).extractLsb' 0 6 = k.extractLsb' 0 6 := by
  unfold encSys
  refine ⟨?_, ?_, ?_, ?_, ?_, ?_, ?_, ?_, ?_, ?_⟩ <;>
    simp (disch := decide) only [BitVec.extractLsb'_append_eq_of_le, BitVec.extractLsb'_append_eq_of_add_le, Nat.reduceSub,
      BitVec.extractLsb'_eq_self]
  rfl

/-- The fields of a word of format VR (R88). -/
theorem fields_encVR (d a s n : BitVec 5) (mode : BitVec 2) (k g : Bool) (m : BitVec 3) :
    (encVR d a s n mode k g m).extractLsb' 27 5 = 14 ∧ (encVR d a s n mode k g m).extractLsb' 22 5 = d ∧
    (encVR d a s n mode k g m).extractLsb' 17 5 = a ∧ (encVR d a s n mode k g m).extractLsb' 12 5 = s ∧
    (encVR d a s n mode k g m).extractLsb' 7 5 = n ∧ (encVR d a s n mode k g m).extractLsb' 5 2 = mode ∧
    (encVR d a s n mode k g m).getLsbD 4 = k ∧ (encVR d a s n mode k g m).getLsbD 3 = g ∧
    (encVR d a s n mode k g m).extractLsb' 0 3 = m := by
  unfold encVR
  refine ⟨?_, ?_, ?_, ?_, ?_, ?_, ?_, ?_, ?_⟩ <;>
    simp (disch := decide) only [BitVec.extractLsb'_append_eq_of_le, BitVec.extractLsb'_append_eq_of_add_le, Nat.reduceSub,
      BitVec.extractLsb'_eq_self, BitVec.getLsbD_append, Nat.reduceLT, ↓reduceIte, decide_true, BitVec.getLsbD_ofBool, Bool.true_and]
  rfl

/-- The fields of a word of format VM (R88). -/
theorem fields_encVM (maj d a b : BitVec 5) (c : BitVec 4) (mop : BitVec 3) (h : BitVec 2) (m : BitVec 3) :
    (encVM maj d a b c mop h m).extractLsb' 27 5 = maj ∧ (encVM maj d a b c mop h m).extractLsb' 22 5 = d ∧
    (encVM maj d a b c mop h m).extractLsb' 17 5 = a ∧ (encVM maj d a b c mop h m).extractLsb' 12 5 = b ∧
    (encVM maj d a b c mop h m).extractLsb' 8 4 = c ∧ (encVM maj d a b c mop h m).extractLsb' 5 3 = mop ∧
    (encVM maj d a b c mop h m).extractLsb' 3 2 = h ∧ (encVM maj d a b c mop h m).extractLsb' 0 3 = m := by
  unfold encVM
  refine ⟨?_, ?_, ?_, ?_, ?_, ?_, ?_, ?_⟩ <;>
    simp (disch := decide) only [BitVec.extractLsb'_append_eq_of_le, BitVec.extractLsb'_append_eq_of_add_le, Nat.reduceSub,
      BitVec.extractLsb'_eq_self]

/-! ### Every word is a word of each format, up to its fixed bits -/

theorem exists_encS3 (w : InstrWord) : ∃ maj d a b fn z, w = encS3 maj d a b fn z :=
  ⟨w.extractLsb' 27 5, w.extractLsb' 22 5, w.extractLsb' 17 5, w.extractLsb' 12 5, w.extractLsb' 6 6, w.extractLsb' 0 6, by
    unfold encS3
    simp (disch := decide) only [BitVec.extractLsb'_append_extractLsb'_eq_extractLsb']
    exact BitVec.extractLsb'_eq_self.symm⟩

theorem exists_encV3 (w : InstrWord) : ∃ maj d a b fn o m, w = encV3 maj d a b fn o m :=
  ⟨w.extractLsb' 27 5, w.extractLsb' 22 5, w.extractLsb' 17 5, w.extractLsb' 12 5, w.extractLsb' 6 6, w.extractLsb' 3 3,
    w.extractLsb' 0 3, by
    unfold encV3
    simp (disch := decide) only [BitVec.extractLsb'_append_extractLsb'_eq_extractLsb']
    exact BitVec.extractLsb'_eq_self.symm⟩

theorem exists_encSI (w : InstrWord) : ∃ maj d a f3 imm, w = encSI maj d a f3 imm :=
  ⟨w.extractLsb' 27 5, w.extractLsb' 22 5, w.extractLsb' 17 5, w.extractLsb' 14 3, w.extractLsb' 0 14, by
    unfold encSI
    simp (disch := decide) only [BitVec.extractLsb'_append_extractLsb'_eq_extractLsb']
    exact BitVec.extractLsb'_eq_self.symm⟩

theorem exists_encU (w : InstrWord) : ∃ maj d imm, w = encU maj d imm :=
  ⟨w.extractLsb' 27 5, w.extractLsb' 22 5, w.extractLsb' 0 22, by
    unfold encU
    simp (disch := decide) only [BitVec.extractLsb'_append_extractLsb'_eq_extractLsb']
    exact BitVec.extractLsb'_eq_self.symm⟩

theorem exists_encM (w : InstrWord) : ∃ maj d a c sz off, w = encM maj d a c sz off :=
  ⟨w.extractLsb' 27 5, w.extractLsb' 22 5, w.extractLsb' 17 5, w.extractLsb' 13 4, w.extractLsb' 10 3, w.extractLsb' 0 10, by
    unfold encM
    simp (disch := decide) only [BitVec.extractLsb'_append_extractLsb'_eq_extractLsb']
    exact BitVec.extractLsb'_eq_self.symm⟩

theorem exists_encVM (w : InstrWord) : ∃ maj d a b c mop h m, w = encVM maj d a b c mop h m :=
  ⟨w.extractLsb' 27 5, w.extractLsb' 22 5, w.extractLsb' 17 5, w.extractLsb' 12 5, w.extractLsb' 8 4, w.extractLsb' 5 3,
    w.extractLsb' 3 2, w.extractLsb' 0 3, by
    unfold encVM
    simp (disch := decide) only [BitVec.extractLsb'_append_extractLsb'_eq_extractLsb']
    exact BitVec.extractLsb'_eq_self.symm⟩

theorem exists_encAmo (w : InstrWord) (hz : w.extractLsb' 2 1 = 0) : ∃ maj d a b c op sc, w = encAmo maj d a b c op sc :=
  ⟨w.extractLsb' 27 5, w.extractLsb' 22 5, w.extractLsb' 17 5, w.extractLsb' 12 5, w.extractLsb' 8 4, w.extractLsb' 3 5,
    w.extractLsb' 0 2, by
    unfold encAmo
    rw [show (0#1 : BitVec 1) = w.extractLsb' 2 1 from hz.symm]
    simp (disch := decide) only [BitVec.extractLsb'_append_extractLsb'_eq_extractLsb']
    exact BitVec.extractLsb'_eq_self.symm⟩

theorem exists_encBr (w : InstrWord) (hm : w.extractLsb' 27 5 = 8) : ∃ a b cnd off, w = encBr a b cnd off := by
  obtain ⟨maj, a, b, cnd, off, rfl⟩ := exists_encSI w
  rw [(fields_encSI maj a b cnd off).1] at hm
  exact ⟨a, b, cnd, off, by rw [hm]; rfl⟩

theorem exists_encSys (w : InstrWord) (hm : w.extractLsb' 27 5 = 11) : ∃ d fn k, w = encSys d fn k :=
  ⟨w.extractLsb' 22 5, w.extractLsb' 16 6, w.extractLsb' 0 16, by
    unfold encSys
    rw [show (11#5 : BitVec 5) = w.extractLsb' 27 5 from hm.symm]
    simp (disch := decide) only [BitVec.extractLsb'_append_extractLsb'_eq_extractLsb']
    exact BitVec.extractLsb'_eq_self.symm⟩

/-- A bit as a field of one bit. -/
theorem ofBool_getLsbD {n : Nat} (w : BitVec n) (i : Nat) : BitVec.ofBool (w.getLsbD i) = w.extractLsb' i 1 := by
  refine BitVec.eq_of_getLsbD_eq fun j hj => ?_
  obtain rfl : j = 0 := by omega
  simp

theorem exists_encVR (w : InstrWord) (hm : w.extractLsb' 27 5 = 14) : ∃ d a s n mode k g m, w = encVR d a s n mode k g m :=
  ⟨w.extractLsb' 22 5, w.extractLsb' 17 5, w.extractLsb' 12 5, w.extractLsb' 7 5, w.extractLsb' 5 2, w.getLsbD 4, w.getLsbD 3,
    w.extractLsb' 0 3, by
    unfold encVR
    rw [show (14#5 : BitVec 5) = w.extractLsb' 27 5 from hm.symm, ofBool_getLsbD, ofBool_getLsbD]
    simp (disch := decide) only [BitVec.extractLsb'_append_extractLsb'_eq_extractLsb']
    exact BitVec.extractLsb'_eq_self.symm⟩

/-! ### Fields that name a mask or stream register, and second operands -/

@[simp] theorem low3_ext3 (r : BitVec 3) : low3 (ext3 r) = r := by revert r; decide

@[simp] theorem high0_ext3 (r : BitVec 3) : high0 (ext3 r) = true := by revert r; decide

theorem exists_ext3 {r : BitVec 5} : high0 r = true → ∃ x, r = ext3 x := by revert r; decide

@[simp] theorem ext3_eq_zero {r : BitVec 3} : ext3 r = 0 ↔ r = 0 := by revert r; decide

theorem eq_of_toNat_eq_lit {n k : Nat} {x : BitVec n} (h : x.toNat = k) : x = BitVec.ofNat n k := by
  rw [← h, BitVec.ofNat_toNat, BitVec.setWidth_eq]

/-- Decoding a second operand reads back an accepted one. -/
theorem decodeSrc_field (mask : Nat) (s : VSrc) (k : VSrc → Except Reject Instr) (h : s.accepted mask = true) :
    decodeSrc mask s.opf s.field k = k s := by
  have mask : mask.testBit s.opf.toNat = true := h
  rw [decodeSrc, if_pos mask]
  cases s with
  | vs r =>
    have high : (ext3 r).extractLsb' 3 2 = 0 := of_decide_eq_true (high0_ext3 r)
    show (if (ext3 r).extractLsb' 3 2 = 0 then k (.vs (low3 (ext3 r))) else _) = _
    rw [if_pos high, low3_ext3]
  | _ => rfl

/-- A second operand that decodes is accepted, and stands in its fields. -/
theorem exists_src {mask : Nat} {o : BitVec 3} {b : BitVec 5} {k : VSrc → Except Reject Instr} {i : Instr}
    (h : decodeSrc mask o b k = .ok i) : ∃ s, s.accepted mask = true ∧ o = s.opf ∧ b = s.field ∧ k s = .ok i := by
  unfold decodeSrc at h
  split at h
  · next hm =>
    split at h
    · next ho => exact ⟨.vv b, by rwa [eq_of_toNat_eq_lit ho] at hm, eq_of_toNat_eq_lit ho, rfl, h⟩
    · next ho => exact ⟨.vx b, by rwa [eq_of_toNat_eq_lit ho] at hm, eq_of_toNat_eq_lit ho, rfl, h⟩
    · next ho => exact ⟨.vi b, by rwa [eq_of_toNat_eq_lit ho] at hm, eq_of_toNat_eq_lit ho, rfl, h⟩
    · next ho =>
      split at h
      · next hb =>
        obtain ⟨s, rfl⟩ := exists_ext3 (decide_eq_true hb)
        exact ⟨.vs s, by rwa [eq_of_toNat_eq_lit ho] at hm, eq_of_toNat_eq_lit ho, rfl, by rwa [← low3_ext3 s]⟩
      · cases h
    · next ho => exact ⟨.wide b, by rwa [eq_of_toNat_eq_lit ho] at hm, eq_of_toNat_eq_lit ho, rfl, h⟩
    · next ho => exact ⟨.narrow b, by rwa [eq_of_toNat_eq_lit ho] at hm, eq_of_toNat_eq_lit ho, rfl, h⟩
    · cases h
  · cases h

/-! ### Every word that decodes is the word of its instruction -/

/-- Whatever instruction an answer of the decoder names, it is well formed and its word is w. -/
def Faithful (w : InstrWord) (r : Except Reject Instr) : Prop :=
  ∀ i, r = .ok i → encode i = some w ∧ WellFormed i = true

theorem faithful_error (w : InstrWord) (x : Reject) : Faithful w (.error x) := nofun

theorem faithful_ok {w : InstrWord} {i : Instr} (h : encode i = some w ∧ WellFormed i = true) : Faithful w (.ok i) :=
  fun j hj => by cases hj; exact h

theorem faithful_need {w : InstrWord} {c : Bool} {i : Instr} (h : c = true → encode i = some w ∧ WellFormed i = true) :
    Faithful w (need c i) := by
  cases c with
  | true => exact faithful_ok (h rfl)
  | false => exact faithful_error _ _

/-- A test of order 1 before an answer. -/
theorem faithful_ite {w : InstrWord} {c : Prop} [Decidable c] {r : Except Reject Instr} (h : c → Faithful w r) :
    Faithful w (if c then r else .error .illop) := by
  split
  · next hc => exact h hc
  · exact faithful_error _ _

/-- An answer with a second operand, whose word holds that operand. -/
theorem faithful_src {maj d a b : BitVec 5} {fn : BitVec 6} {o m : BitVec 3} {mask : Nat} {k : VSrc → Except Reject Instr}
    (h : ∀ s, s.accepted mask = true → Faithful (encSrc maj d a s fn m) (k s)) :
    Faithful (encV3 maj d a b fn o m) (decodeSrc mask o b k) := by
  intro i hi
  obtain ⟨s, hs, rfl, rfl, hk⟩ := exists_src hi
  exact h s hs i hk

theorem faithful_decodeSop (w : InstrWord) (hm : w.extractLsb' 27 5 = 1) : Faithful w (decodeSop w) := by
  obtain ⟨maj, d, a, b, fn, z, rfl⟩ := exists_encS3 w
  simp only [decodeSop, fields_encS3] at hm ⊢
  subst hm
  split
  any_goals exact faithful_error _ _
  all_goals
    rename_i hfn
    obtain rfl := eq_of_toNat_eq_lit hfn
    refine faithful_need ?_
    simp only [Bool.and_eq_true, decide_eq_true_eq, and_imp]
    intros
    subst_vars
    exact ⟨rfl, rfl⟩

/-- The amount of `shi` and its selector (R118). -/
theorem shi_append (imm : BitVec 14) (sel : BitVec 2) (hs : imm.extractLsb' 12 2 = sel) (hz : imm.extractLsb' 6 6 = 0) :
    sel ++ (0#6 : BitVec 6) ++ imm.extractLsb' 0 6 = imm := by
  rw [← hs, show (0#6 : BitVec 6) = imm.extractLsb' 6 6 from hz.symm]
  simp (disch := decide) only [BitVec.extractLsb'_append_extractLsb'_eq_extractLsb']
  exact BitVec.extractLsb'_eq_self

theorem faithful_decodeSopi (w : InstrWord) (hm : w.extractLsb' 27 5 = 2) : Faithful w (decodeSopi w) := by
  obtain ⟨maj, d, a, f3, imm, rfl⟩ := exists_encSI w
  simp only [decodeSopi, fields_encSI] at hm ⊢
  subst hm
  split
  case h_7 hf =>
    obtain rfl := eq_of_toNat_eq_lit hf
    have shi (sel : BitVec 2) (hs : (imm.extractLsb' 12 2).toNat = sel.toNat) (hz : imm.extractLsb' 6 6 = 0) :
        some (encSI 2 d a 6 (sel ++ (0#6 : BitVec 6) ++ imm.extractLsb' 0 6)) = some (encSI 2 d a 6 imm) :=
      congrArg (fun x => some (encSI 2 d a 6 x)) (shi_append imm sel (BitVec.eq_of_toNat_eq hs) hz)
    split
    · next hs => exact faithful_need fun hz => ⟨shi 0 hs (of_decide_eq_true hz), rfl⟩
    · next hs => exact faithful_need fun hz => ⟨shi 1 hs (of_decide_eq_true hz), rfl⟩
    · next hs => exact faithful_need fun hz => ⟨shi 2 hs (of_decide_eq_true hz), rfl⟩
    · exact faithful_error _ _
  case h_8 =>
    have hf : f3.toNat = 7 := by
      have := f3.isLt
      simp only [imp_false] at *
      omega
    obtain rfl := eq_of_toNat_eq_lit hf
    exact faithful_ok ⟨rfl, rfl⟩
  all_goals
    rename_i hf
    obtain rfl := eq_of_toNat_eq_lit hf
    exact faithful_ok ⟨rfl, rfl⟩

theorem faithful_decodeLd (w : InstrWord) (hm : w.extractLsb' 27 5 = 5) : Faithful w (decodeLd w) := by
  obtain ⟨maj, d, a, c, sz, off, rfl⟩ := exists_encM w
  simp only [decodeLd, fields_encM] at hm ⊢
  subst hm
  split
  any_goals exact faithful_error _ _
  all_goals
    rename_i hsz
    obtain rfl := eq_of_toNat_eq_lit hsz
    exact faithful_ok ⟨rfl, rfl⟩

theorem faithful_decodeSt (w : InstrWord) (hm : w.extractLsb' 27 5 = 6) : Faithful w (decodeSt w) := by
  obtain ⟨maj, d, a, c, sz, off, rfl⟩ := exists_encM w
  simp only [decodeSt, fields_encM] at hm ⊢
  subst hm
  split
  any_goals exact faithful_error _ _
  all_goals
    rename_i hsz
    obtain rfl := eq_of_toNat_eq_lit hsz
    exact faithful_ok ⟨rfl, rfl⟩

theorem faithful_decodeAmo (w : InstrWord) (hm : w.extractLsb' 27 5 = 7) : Faithful w (decodeAmo w) := by
  by_cases hz : w.extractLsb' 2 1 = 0
  · obtain ⟨maj, d, a, b, c, op, sc, rfl⟩ := exists_encAmo w hz
    simp only [decodeAmo, fields_encAmo] at hm ⊢
    subst hm
    split
    any_goals exact faithful_error _ _
    all_goals
      rename_i hop
      obtain rfl := eq_of_toNat_eq_lit hop
      exact faithful_need fun _ => ⟨rfl, rfl⟩
  · simp only [decodeAmo]
    split
    any_goals exact faithful_error _ _
    all_goals exact faithful_need fun h => absurd (of_decide_eq_true h) hz

theorem faithful_decodeBr (w : InstrWord) (hm : w.extractLsb' 27 5 = 8) : Faithful w (decodeBr w) := by
  obtain ⟨a, b, cnd, off, rfl⟩ := exists_encBr w hm
  simp only [decodeBr, fields_encBr]
  split
  any_goals exact faithful_error _ _
  all_goals
    rename_i hcnd
    obtain rfl := eq_of_toNat_eq_lit hcnd
    exact faithful_ok ⟨rfl, rfl⟩

/-- K16 by its register and its low bits (R88). -/
theorem k16_append (k : BitVec 16) : k.extractLsb' 11 5 ++ k.extractLsb' 0 11 = k := by
  simp (disch := decide) only [BitVec.extractLsb'_append_extractLsb'_eq_extractLsb']
  exact BitVec.extractLsb'_eq_self

theorem k16_append_zero {k : BitVec 16} (h : k.extractLsb' 0 11 = 0) : k.extractLsb' 11 5 ++ (0#11 : BitVec 11) = k := by
  rw [show (0#11 : BitVec 11) = k.extractLsb' 0 11 from h.symm, k16_append]

theorem k16_append_two {k : BitVec 16} (h : k.extractLsb' 0 6 = 0) :
    k.extractLsb' 11 5 ++ k.extractLsb' 6 5 ++ (0#6 : BitVec 6) = k := by
  rw [show (0#6 : BitVec 6) = k.extractLsb' 0 6 from h.symm]
  simp (disch := decide) only [BitVec.extractLsb'_append_extractLsb'_eq_extractLsb']
  exact BitVec.extractLsb'_eq_self

theorem k16_scope {k : BitVec 16} (h : k.extractLsb' 2 14 = 0) : (0#14 : BitVec 14) ++ k.extractLsb' 0 2 = k := by
  rw [show (0#14 : BitVec 14) = k.extractLsb' 2 14 from h.symm]
  simp (disch := decide) only [BitVec.extractLsb'_append_extractLsb'_eq_extractLsb']
  exact BitVec.extractLsb'_eq_self

theorem faithful_decodeSys (w : InstrWord) (hm : w.extractLsb' 27 5 = 11) : Faithful w (decodeSys w) := by
  obtain ⟨d, fn, k, rfl⟩ := exists_encSys w hm
  have word {k' : BitVec 16} (fn : BitVec 6) (h : k' = k) : some (encSys d fn k') = some (encSys d fn k) := by rw [h]
  simp only [decodeSys, fields_encSys]
  split
  any_goals exact faithful_error _ _
  all_goals
    rename_i hfn
    obtain rfl := eq_of_toNat_eq_lit hfn
  case h_1 | h_2 | h_3 => exact faithful_ok ⟨word _ (k16_append k), rfl⟩
  all_goals
    refine faithful_need ?_
    simp only [Bool.and_eq_true, decide_eq_true_eq, ne_eq, and_imp]
  case h_4 =>
    rintro rfl hk
    exact ⟨rfl, decide_eq_true hk⟩
  case h_5 =>
    rintro rfl hk
    exact ⟨word _ (k16_scope hk), rfl⟩
  case h_8 =>
    rintro rfl hk
    exact ⟨word _ (k16_append_zero hk), rfl⟩
  case h_13 | h_15 | h_17 => exact fun hk => ⟨word _ (k16_append_zero hk), rfl⟩
  case h_16 =>
    rintro rfl hk
    exact ⟨word _ (k16_append_two hk), rfl⟩
  all_goals
    intros
    subst_vars
    exact ⟨rfl, rfl⟩

theorem faithful_decodeVcfg (w : InstrWord) (hm : w.extractLsb' 27 5 = 12) : Faithful w (decodeVcfg w) := by
  obtain ⟨maj, d, a, b, fn, z, rfl⟩ := exists_encS3 w
  simp only [decodeVcfg, fields_encS3] at hm ⊢
  subst hm
  split
  any_goals exact faithful_error _ _
  all_goals
    rename_i hfn
    obtain rfl := eq_of_toNat_eq_lit hfn
    refine faithful_need ?_
    simp only [Bool.and_eq_true, decide_eq_true_eq, and_imp]
    intros
    subst_vars
    exact ⟨rfl, rfl⟩

/-- An answer under one OPF value (R158). -/
theorem faithful_opf {maj d a b : BitVec 5} {fn : BitVec 6} {o m o' : BitVec 3} {r r' : Except Reject Instr}
    (h : Faithful (encV3 maj d a b fn o' m) r) (h' : Faithful (encV3 maj d a b fn o m) r') :
    Faithful (encV3 maj d a b fn o m) (if o = o' then r else r') := by
  split
  · next ho => exact ho ▸ h
  · exact h'

/-- An answer whose field must be zero. -/
theorem faithful_zero {w : BitVec 5 → InstrWord} {x : BitVec 5} {i : Instr} (h : encode i = some (w 0) ∧ WellFormed i = true) :
    Faithful (w x) (need (decide (x = 0)) i) :=
  faithful_need fun hx => of_decide_eq_true hx ▸ h

theorem faithful_decodeVop (w : InstrWord) (hm : w.extractLsb' 27 5 = 13) : Faithful w (decodeVop w) := by
  obtain ⟨maj, d, a, b, fn, o, m, rfl⟩ := exists_encV3 w
  simp only [decodeVop, fields_encV3] at hm ⊢
  subst hm
  split
  any_goals exact faithful_error _ _
  all_goals
    rename_i hfn
    obtain rfl := eq_of_toNat_eq_lit hfn
  case h_18 | h_19 | h_20 | h_21 =>
    refine faithful_src fun s hs => faithful_need ?_
    simp only [Bool.and_eq_true, decide_eq_true_eq, and_imp]
    intro hd h0
    obtain ⟨r, rfl⟩ := exists_ext3 hd
    rw [low3_ext3]
    exact ⟨rfl, (Bool.and_eq_true _ _).mpr ⟨hs, decide_eq_true fun hr => h0 (ext3_eq_zero.mpr hr)⟩⟩
  case h_22 | h_23 => exact faithful_ite fun ho => ho ▸ faithful_zero (w := fun b => encV3 13 d a b _ _ m) ⟨rfl, rfl⟩
  case h_24 =>
    refine faithful_opf (faithful_need fun hb => ?_) (faithful_error _ _)
    obtain ⟨r, rfl⟩ := exists_ext3 hb
    rw [low3_ext3]
    exact ⟨rfl, rfl⟩
  case h_25 =>
    refine faithful_opf (faithful_zero (w := fun b => encV3 13 d a b _ _ m) ⟨rfl, rfl⟩)
      (faithful_opf (faithful_need ?_) (faithful_error _ _))
    simp only [Bool.and_eq_true, decide_eq_true_eq, and_imp]
    rintro rfl hb
    obtain ⟨r, rfl⟩ := exists_ext3 hb
    rw [low3_ext3]
    exact ⟨rfl, rfl⟩
  case h_26 =>
    exact faithful_opf (faithful_zero (w := fun a => encV3 13 d a b _ _ m) ⟨rfl, rfl⟩)
      (faithful_opf (faithful_zero (w := fun a => encV3 13 d a b _ _ m) ⟨rfl, rfl⟩) (faithful_error _ _))
  case h_27 =>
    exact faithful_opf (faithful_zero (w := fun b => encV3 13 d a b _ _ m) ⟨rfl, rfl⟩)
      (faithful_opf (faithful_zero (w := fun b => encV3 13 d a b _ _ m) ⟨rfl, rfl⟩)
        (faithful_opf (faithful_zero (w := fun b => encV3 13 d a b _ _ m) ⟨rfl, rfl⟩) (faithful_error _ _)))
  case h_28 =>
    exact faithful_opf (faithful_zero (w := fun b => encV3 13 d a b _ _ m) ⟨rfl, rfl⟩)
      (faithful_opf (faithful_zero (w := fun b => encV3 13 d a b _ _ m) ⟨rfl, rfl⟩) (faithful_error _ _))
  case h_29 =>
    refine faithful_opf (faithful_zero (w := fun b => encV3 13 d a b _ _ m) ⟨rfl, rfl⟩)
      (faithful_opf (faithful_need ?_) (faithful_error _ _))
    simp only [Bool.and_eq_true, decide_eq_true_eq, and_imp]
    intro hd h0
    obtain ⟨r, rfl⟩ := exists_ext3 hd
    rw [low3_ext3]
    exact ⟨rfl, decide_eq_true fun hr => h0 (ext3_eq_zero.mpr hr)⟩
  all_goals exact faithful_src fun s hs => faithful_ok ⟨rfl, hs⟩

theorem faithful_decodeVrot (w : InstrWord) (hm : w.extractLsb' 27 5 = 14) : Faithful w (decodeVrot w) := by
  obtain ⟨d, a, s, n, mode, k, g, m, rfl⟩ := exists_encVR w hm
  simp only [decodeVrot, fields_encVR]
  split
  any_goals exact faithful_error _ _
  all_goals
    rename_i hmode
    obtain rfl := eq_of_toNat_eq_lit hmode
    exact faithful_need fun h => ⟨rfl, h⟩

/-- The slot of a user function (R170). -/
theorem slot_append {fn : BitVec 6} : 32 ≤ fn.toNat → fn.toNat ≤ 47 → (2#2 : BitVec 2) ++ fn.extractLsb' 0 4 = fn := by
  revert fn
  decide

theorem faithful_decodeVfn (w : InstrWord) (hm : w.extractLsb' 27 5 = 15) : Faithful w (decodeVfn w) := by
  obtain ⟨maj, d, a, b, fn, o, m, rfl⟩ := exists_encV3 w
  simp only [decodeVfn, fields_encV3] at hm ⊢
  subst hm
  split
  · next hlo =>
    refine faithful_ite fun hhi => faithful_src fun s hs => faithful_ok ⟨?_, hs⟩
    exact congrArg (fun fn => some (encSrc 15 d a s fn m)) (slot_append hlo hhi)
  split
  any_goals exact faithful_error _ _
  all_goals
    rename_i hfn
    obtain rfl := eq_of_toNat_eq_lit hfn
  case h_12 | h_13 | h_14 | h_15 => exact faithful_src fun s hs => faithful_ok ⟨rfl, hs⟩
  all_goals exact faithful_opf (faithful_zero (w := fun b => encV3 15 d a b _ _ m) ⟨rfl, rfl⟩) (faithful_error _ _)

theorem faithful_decodeVred (w : InstrWord) (hm : w.extractLsb' 27 5 = 16) : Faithful w (decodeVred w) := by
  obtain ⟨maj, d, a, b, fn, o, m, rfl⟩ := exists_encV3 w
  simp only [decodeVred, fields_encV3] at hm ⊢
  subst hm
  split
  any_goals exact faithful_error _ _
  all_goals
    rename_i hfn
    obtain rfl := eq_of_toNat_eq_lit hfn
  case h_9 => exact faithful_opf (faithful_ok ⟨rfl, rfl⟩) (faithful_error _ _)
  case h_10 | h_11 | h_12 | h_13 =>
    refine faithful_opf (faithful_need ?_) (faithful_error _ _)
    simp only [Bool.and_eq_true, decide_eq_true_eq, and_imp]
    intro hd h0 ha hb
    obtain ⟨d, rfl⟩ := exists_ext3 hd
    obtain ⟨a, rfl⟩ := exists_ext3 ha
    obtain ⟨b, rfl⟩ := exists_ext3 hb
    simp only [low3_ext3]
    exact ⟨rfl, decide_eq_true fun hr => h0 (ext3_eq_zero.mpr hr)⟩
  case h_14 | h_15 =>
    refine faithful_opf (faithful_need ?_) (faithful_error _ _)
    simp only [Bool.and_eq_true, decide_eq_true_eq, and_imp]
    rintro ha rfl
    obtain ⟨a, rfl⟩ := exists_ext3 ha
    rw [low3_ext3]
    exact ⟨rfl, rfl⟩
  case h_16 | h_17 =>
    refine faithful_opf (faithful_need ?_) (faithful_error _ _)
    simp only [Bool.and_eq_true, decide_eq_true_eq, and_imp]
    rintro rfl rfl ha h0
    obtain ⟨a, rfl⟩ := exists_ext3 ha
    rw [low3_ext3]
    exact ⟨rfl, decide_eq_true fun hr => h0 (ext3_eq_zero.mpr hr)⟩
  case h_18 =>
    refine faithful_opf (faithful_need ?_) (faithful_error _ _)
    simp only [Bool.and_eq_true, decide_eq_true_eq, and_imp]
    rintro rfl rfl
    exact ⟨rfl, rfl⟩
  all_goals exact faithful_src fun s hs => faithful_ok ⟨rfl, hs⟩

theorem faithful_decodeVperm (w : InstrWord) (hm : w.extractLsb' 27 5 = 17) : Faithful w (decodeVperm w) := by
  obtain ⟨maj, d, a, b, fn, o, m, rfl⟩ := exists_encV3 w
  simp only [decodeVperm, fields_encV3] at hm ⊢
  subst hm
  split
  any_goals exact faithful_error _ _
  all_goals
    rename_i hfn
    obtain rfl := eq_of_toNat_eq_lit hfn
  case h_1 | h_2 | h_5 =>
    exact faithful_src fun s hs => faithful_need fun hi => ⟨rfl, (Bool.and_eq_true _ _).mpr ⟨hs, hi⟩⟩
  case h_6 | h_7 =>
    refine faithful_opf (faithful_need ?_) (faithful_error _ _)
    simp only [Bool.and_eq_true, decide_eq_true_eq, and_imp]
    rintro hb rfl
    obtain ⟨b, rfl⟩ := exists_ext3 hb
    rw [low3_ext3]
    exact ⟨rfl, rfl⟩
  case h_8 =>
    refine faithful_opf (faithful_need fun hm => ?_) (faithful_error _ _)
    obtain rfl := of_decide_eq_true hm
    exact ⟨rfl, rfl⟩
  all_goals exact faithful_opf (faithful_ok ⟨rfl, rfl⟩) (faithful_error _ _)

theorem faithful_decodeVld (w : InstrWord) (hm : w.extractLsb' 27 5 = 18) : Faithful w (decodeVld w) := by
  obtain ⟨maj, d, a, b, c, mop, h, m, rfl⟩ := exists_encVM w
  simp only [decodeVld, fields_encVM] at hm ⊢
  subst hm
  split
  any_goals exact faithful_error _ _
  all_goals
    rename_i hmop
    obtain rfl := eq_of_toNat_eq_lit hmop
  case h_1 | h_5 =>
    refine faithful_need fun hc => ?_
    obtain ⟨hh, hb⟩ := (Bool.and_eq_true _ _).mp hc
    obtain rfl := of_decide_eq_true hb
    exact ⟨rfl, hh⟩
  all_goals exact faithful_need fun hc => ⟨rfl, hc⟩

theorem faithful_decodeVst (w : InstrWord) (hm : w.extractLsb' 27 5 = 19) : Faithful w (decodeVst w) := by
  obtain ⟨maj, d, a, b, c, mop, h, m, rfl⟩ := exists_encVM w
  simp only [decodeVst, fields_encVM] at hm ⊢
  subst hm
  split
  any_goals exact faithful_error _ _
  all_goals
    rename_i hmop
    obtain rfl := eq_of_toNat_eq_lit hmop
  case h_1 | h_5 =>
    refine faithful_need fun hc => ?_
    obtain ⟨hh, hb⟩ := (Bool.and_eq_true _ _).mp hc
    obtain rfl := of_decide_eq_true hb
    exact ⟨rfl, hh⟩
  all_goals exact faithful_need fun hc => ⟨rfl, hc⟩

theorem faithful_decodeStrm (w : InstrWord) (hm : w.extractLsb' 27 5 = 20) : Faithful w (decodeStrm w) := by
  obtain ⟨maj, d, a, b, fn, z, rfl⟩ := exists_encS3 w
  simp only [decodeStrm, fields_encS3] at hm ⊢
  subst hm
  split
  any_goals exact faithful_error _ _
  all_goals
    rename_i hfn
    obtain rfl := eq_of_toNat_eq_lit hfn
    refine faithful_need ?_
    simp only [Bool.and_eq_true, decide_eq_true_eq, and_imp]
    intro _ hreg
    obtain ⟨r, rfl⟩ := exists_ext3 hreg
    intros
    subst_vars
    rw [low3_ext3]
    exact ⟨rfl, rfl⟩

theorem faithful_decodeScl (w : InstrWord) (hm : w.extractLsb' 27 5 = 21) : Faithful w (decodeScl w) := by
  obtain ⟨maj, d, a, b, fn, z, rfl⟩ := exists_encS3 w
  simp only [decodeScl, fields_encS3] at hm ⊢
  subst hm
  split
  any_goals exact faithful_error _ _
  all_goals
    rename_i hfn
    obtain rfl := eq_of_toNat_eq_lit hfn
    refine faithful_need ?_
    simp only [Bool.and_eq_true, decide_eq_true_eq, and_imp]
    intros
    subst_vars
    exact ⟨rfl, rfl⟩

/-- Three scope bits that are zero (R95). -/
theorem scope_zero {w : InstrWord} (h : w.extractLsb' 0 3 = 0) : w.extractLsb' 2 1 = 0 ∧ w.extractLsb' 0 2 = 0 := by
  have bit (i : Nat) (hi : i < 3) : w.getLsbD i = false := by
    have := congrArg (fun x => x.getLsbD i) h
    simpa [hi] using this
  constructor
  · refine BitVec.eq_of_getLsbD_eq fun i hi => ?_
    obtain rfl : i = 0 := by omega
    simpa using bit 2 (by omega)
  · refine BitVec.eq_of_getLsbD_eq fun i hi => ?_
    simpa [hi] using bit i (by omega)

theorem exists_encAmo_zero {w : InstrWord} (h : w.extractLsb' 0 3 = 0) : ∃ maj d a b c op, w = encAmo maj d a b c op 0 := by
  obtain ⟨maj, d, a, b, c, op, sc, rfl⟩ := exists_encAmo w (scope_zero h).1
  obtain rfl : sc = 0 := by simpa only [fields_encAmo] using (scope_zero h).2
  exact ⟨maj, d, a, b, c, op, rfl⟩

theorem faithful_decodeCopy (w : InstrWord) (hm : w.extractLsb' 27 5 = 22) : Faithful w (decodeCopy w) := by
  by_cases hz : w.extractLsb' 0 3 = 0
  · obtain ⟨maj, d, a, b, c, op, rfl⟩ := exists_encAmo_zero hz
    simp only [decodeCopy, fields_encAmo] at hm ⊢
    subst hm
    split
    any_goals exact faithful_error _ _
    all_goals
      rename_i hop
      obtain rfl := eq_of_toNat_eq_lit hop
      exact faithful_need fun hc => ⟨rfl, (Bool.and_eq_true _ _).mp hc |>.2⟩
  · simp only [decodeCopy, hz, decide_false, Bool.false_and]
    split <;> exact faithful_error _ _

/-- The parts of the fields of MAJ 23 (R97). -/
theorem mat_d {d : BitVec 5} : d.extractLsb' 3 2 = 0 → (0#2 : BitVec 2) ++ d.extractLsb' 1 2 ++ d.extractLsb' 0 1 = d := by
  revert d; decide

theorem mat_d_even {d : BitVec 5} :
    d.extractLsb' 3 2 = 0 → d.extractLsb' 0 1 = 0 → (0#2 : BitVec 2) ++ d.extractLsb' 1 2 ++ (0#1 : BitVec 1) = d := by
  revert d; decide

theorem mat_ac {d : BitVec 5} : d.extractLsb' 1 4 = 0 → (0#4 : BitVec 4) ++ d.extractLsb' 0 1 = d := by
  revert d; decide

theorem mat_ws {b : BitVec 5} : b.getLsbD 4 = false → (0#1 : BitVec 1) ++ b.extractLsb' 0 4 = b := by
  revert b; decide

theorem mat_f {z : BitVec 6} : z.extractLsb' 4 2 = 0 →
    (0#2 : BitVec 2) ++ z.extractLsb' 2 2 ++ BitVec.ofBool (z.getLsbD 1) ++ BitVec.ofBool (z.getLsbD 0) = z := by
  revert z; decide

theorem mat_clr {z : BitVec 6} : z.extractLsb' 1 5 = 0 → (0#5 : BitVec 5) ++ BitVec.ofBool (z.getLsbD 0) = z := by
  revert z; decide

theorem mat_fd {z : BitVec 6} : z.extractLsb' 2 4 = 0 → (0#4 : BitVec 4) ++ z.extractLsb' 0 2 = z := by
  revert z; decide

theorem mat_acF {z : BitVec 6} : z.extractLsb' 1 5 = 0 → (0#5 : BitVec 5) ++ z.extractLsb' 0 1 = z := by
  revert z; decide

theorem faithful_decodeMat (w : InstrWord) (hm : w.extractLsb' 27 5 = 23) : Faithful w (decodeMat w) := by
  obtain ⟨maj, d, a, b, fn, z, rfl⟩ := exists_encS3 w
  have word (d' : BitVec 5) (b' : BitVec 5) (z' : BitVec 6) (hd : d' = d) (hb : b' = b) (hz : z' = z) :
      some (encS3 23 d' a b' fn z') = some (encS3 23 d a b fn z) := by rw [hd, hb, hz]
  simp only [decodeMat, fields_encS3, parts_encS3] at hm ⊢
  subst hm
  split
  any_goals exact faithful_error _ _
  all_goals
    rename_i hfn
    obtain rfl := eq_of_toNat_eq_lit hfn
    refine faithful_need ?_
    simp only [Bool.and_eq_true, Bool.not_eq_true', decide_eq_true_eq, ne_eq, and_imp]
  case h_1 =>
    rintro hb rfl h0 ha
    exact ⟨word _ _ _ rfl (mat_ws hb) rfl, (Bool.and_eq_true _ _).mpr ⟨decide_eq_true h0, decide_eq_true ha⟩⟩
  case h_2 =>
    rintro hd rfl hb hz hs
    exact ⟨word _ _ _ (mat_d hd) (mat_ws hb) (mat_f hz), hs⟩
  case h_3 =>
    rintro hd rfl rfl
    exact ⟨word _ _ _ (mat_ac hd) rfl rfl, rfl⟩
  case h_4 =>
    rintro rfl rfl hz
    exact ⟨word _ _ _ rfl rfl (mat_clr hz), rfl⟩
  case h_5 =>
    rintro rfl rfl hz
    exact ⟨word _ _ _ rfl rfl (mat_fd hz), rfl⟩
  case h_6 =>
    rintro hd hac rfl
    exact ⟨word _ _ _ (mat_d_even hd hac) rfl rfl, rfl⟩
  case h_7 =>
    rintro hd hac rfl rfl
    exact ⟨word _ _ _ (mat_d_even hd hac) rfl rfl, rfl⟩
  case h_8 =>
    rintro rfl hz
    exact ⟨word _ _ _ rfl rfl (mat_acF hz), rfl⟩
  case h_9 =>
    rintro rfl rfl rfl hz
    exact ⟨word _ _ _ rfl rfl (mat_acF hz), rfl⟩

theorem faithful_decodeFab (w : InstrWord) (hm : w.extractLsb' 27 5 = 24) : Faithful w (decodeFab w) := by
  by_cases hz : w.extractLsb' 0 3 = 0
  · obtain ⟨maj, d, a, b, c, op, rfl⟩ := exists_encAmo_zero hz
    simp only [decodeFab, fields_encAmo] at hm ⊢
    subst hm
    split
    any_goals exact faithful_error _ _
    all_goals
      rename_i hop
      obtain rfl := eq_of_toNat_eq_lit hop
    case h_1 => exact faithful_need fun _ => ⟨rfl, rfl⟩
    case h_2 => exact faithful_need fun hc => ⟨rfl, hc⟩
    case h_3 =>
      refine faithful_need fun hc => ?_
      obtain rfl := of_decide_eq_true ((Bool.and_eq_true _ _).mp hc).2
      exact ⟨rfl, rfl⟩
  · simp only [decodeFab, hz, decide_false, Bool.false_and]
    split <;> exact faithful_error _ _

theorem faithful_decodeWord (w : InstrWord) : Faithful w (decodeWord w) := by
  unfold decodeWord
  split
  any_goals exact faithful_error _ _
  all_goals
    rename_i hmaj
    replace hmaj := eq_of_toNat_eq_lit hmaj
  case h_1 => exact faithful_decodeSop w hmaj
  case h_2 => exact faithful_decodeSopi w hmaj
  case h_3 | h_4 | h_9 =>
    obtain ⟨maj, d, imm, rfl⟩ := exists_encU w
    simp only [fields_encU] at hmaj ⊢
    subst hmaj
    exact faithful_ok ⟨rfl, rfl⟩
  case h_5 => exact faithful_decodeLd w hmaj
  case h_6 => exact faithful_decodeSt w hmaj
  case h_7 => exact faithful_decodeAmo w hmaj
  case h_8 => exact faithful_decodeBr w hmaj
  case h_10 =>
    obtain ⟨maj, d, a, f3, imm, rfl⟩ := exists_encSI w
    simp only [fields_encSI] at hmaj ⊢
    subst hmaj
    refine faithful_ite fun hf => ?_
    subst hf
    exact faithful_ok ⟨rfl, rfl⟩
  case h_11 => exact faithful_decodeSys w hmaj
  case h_12 => exact faithful_decodeVcfg w hmaj
  case h_13 => exact faithful_decodeVop w hmaj
  case h_14 => exact faithful_decodeVrot w hmaj
  case h_15 => exact faithful_decodeVfn w hmaj
  case h_16 => exact faithful_decodeVred w hmaj
  case h_17 => exact faithful_decodeVperm w hmaj
  case h_18 => exact faithful_decodeVld w hmaj
  case h_19 => exact faithful_decodeVst w hmaj
  case h_20 => exact faithful_decodeStrm w hmaj
  case h_21 => exact faithful_decodeScl w hmaj
  case h_22 => exact faithful_decodeCopy w hmaj
  case h_23 => exact faithful_decodeMat w hmaj
  case h_24 => exact faithful_decodeFab w hmaj

/-- Settles O6: each class of words by the fields of its format. -/
theorem encodeDecode : Obligations.EncodeDecode := fun w i => faithful_decodeWord w i

/-! ### Decoding reads back what encoding wrote -/

/-! The fields that select a table and its row. -/

theorem maj_encS3 (maj d a b : BitVec 5) (fn z : BitVec 6) : (encS3 maj d a b fn z).extractLsb' 27 5 = maj := (fields_encS3 ..).1

theorem fn_encS3 (maj d a b : BitVec 5) (fn z : BitVec 6) : (encS3 maj d a b fn z).extractLsb' 6 6 = fn := by
  simp only [fields_encS3]

theorem maj_encV3 (maj d a b : BitVec 5) (fn : BitVec 6) (o m : BitVec 3) : (encV3 maj d a b fn o m).extractLsb' 27 5 = maj :=
  (fields_encV3 ..).1

theorem fn_encV3 (maj d a b : BitVec 5) (fn : BitVec 6) (o m : BitVec 3) : (encV3 maj d a b fn o m).extractLsb' 6 6 = fn := by
  simp only [fields_encV3]

theorem maj_encAmo (maj d a b : BitVec 5) (c : BitVec 4) (op : BitVec 5) (sc : BitVec 2) :
    (encAmo maj d a b c op sc).extractLsb' 27 5 = maj := (fields_encAmo ..).1

theorem op_encAmo (maj d a b : BitVec 5) (c : BitVec 4) (op : BitVec 5) (sc : BitVec 2) :
    (encAmo maj d a b c op sc).extractLsb' 3 5 = op := by simp only [fields_encAmo]

theorem maj_encVM (maj d a b : BitVec 5) (c : BitVec 4) (mop : BitVec 3) (h : BitVec 2) (m : BitVec 3) :
    (encVM maj d a b c mop h m).extractLsb' 27 5 = maj := (fields_encVM ..).1

theorem mop_encVM (maj d a b : BitVec 5) (c : BitVec 4) (mop : BitVec 3) (h : BitVec 2) (m : BitVec 3) :
    (encVM maj d a b c mop h m).extractLsb' 5 3 = mop := by simp only [fields_encVM]

theorem maj_encSI (maj d a : BitVec 5) (f3 : BitVec 3) (imm : BitVec 14) : (encSI maj d a f3 imm).extractLsb' 27 5 = maj :=
  (fields_encSI ..).1

theorem f3_encSI (maj d a : BitVec 5) (f3 : BitVec 3) (imm : BitVec 14) : (encSI maj d a f3 imm).extractLsb' 14 3 = f3 := by
  simp only [fields_encSI]

theorem sel_encSI (maj d a : BitVec 5) (f3 : BitVec 3) (imm : BitVec 14) :
    (encSI maj d a f3 imm).extractLsb' 12 2 = imm.extractLsb' 12 2 := by simp only [fields_encSI]

theorem maj_encM (maj d a : BitVec 5) (c : BitVec 4) (sz : BitVec 3) (off : BitVec 10) :
    (encM maj d a c sz off).extractLsb' 27 5 = maj := (fields_encM ..).1

theorem sz_encM (maj d a : BitVec 5) (c : BitVec 4) (sz : BitVec 3) (off : BitVec 10) :
    (encM maj d a c sz off).extractLsb' 10 3 = sz := by simp only [fields_encM]

theorem maj_encBr (a b : BitVec 5) (cnd : BitVec 3) (off : BitVec 14) : (encBr a b cnd off).extractLsb' 27 5 = 8 :=
  (fields_encBr ..).1

theorem cnd_encBr (a b : BitVec 5) (cnd : BitVec 3) (off : BitVec 14) : (encBr a b cnd off).extractLsb' 14 3 = cnd := by
  simp only [fields_encBr]

theorem maj_encU (maj d : BitVec 5) (imm : BitVec 22) : (encU maj d imm).extractLsb' 27 5 = maj := (fields_encU ..).1

theorem maj_encVR (d a s n : BitVec 5) (mode : BitVec 2) (k g : Bool) (m : BitVec 3) :
    (encVR d a s n mode k g m).extractLsb' 27 5 = 14 := (fields_encVR ..).1

theorem mode_encVR (d a s n : BitVec 5) (mode : BitVec 2) (k g : Bool) (m : BitVec 3) :
    (encVR d a s n mode k g m).extractLsb' 5 2 = mode ∧ (encVR d a s n mode k g m).getLsbD 4 = k := by simp only [fields_encVR, and_self]

/-- The parts of an immediate of `shi` (R118). -/
theorem parts_shi (sel : BitVec 2) (sh : BitVec 6) :
    (sel ++ (0#6 : BitVec 6) ++ sh : BitVec 14).extractLsb' 12 2 = sel ∧ (sel ++ (0#6 : BitVec 6) ++ sh : BitVec 14).extractLsb' 6 6 = 0 ∧
    (sel ++ (0#6 : BitVec 6) ++ sh : BitVec 14).extractLsb' 0 6 = sh := by
  refine ⟨?_, ?_, ?_⟩ <;>
    simp (disch := decide) only [BitVec.extractLsb'_append_eq_of_le, BitVec.extractLsb'_append_eq_of_add_le, Nat.reduceSub,
      BitVec.extractLsb'_eq_self]
  rfl

/-- The parts of K16 with a register in its high bits (R88). -/
theorem parts_k16 (a : BitVec 5) (n : BitVec 11) :
    (a ++ n : BitVec 16).extractLsb' 11 5 = a ∧ (a ++ n : BitVec 16).extractLsb' 0 11 = n := by
  refine ⟨?_, ?_⟩ <;>
    simp (disch := decide) only [BitVec.extractLsb'_append_eq_of_le, BitVec.extractLsb'_append_eq_of_add_le, Nat.reduceSub,
      BitVec.extractLsb'_eq_self]

/-- The parts of K16 of `sys.tlb.flush` (R145). -/
theorem parts_k16_two (a b : BitVec 5) :
    (a ++ b ++ (0#6 : BitVec 6) : BitVec 16).extractLsb' 11 5 = a ∧ (a ++ b ++ (0#6 : BitVec 6) : BitVec 16).extractLsb' 6 5 = b ∧
    (a ++ b ++ (0#6 : BitVec 6) : BitVec 16).extractLsb' 0 6 = 0 := by
  refine ⟨?_, ?_, ?_⟩ <;>
    simp (disch := decide) only [BitVec.extractLsb'_append_eq_of_le, BitVec.extractLsb'_append_eq_of_add_le, Nat.reduceSub,
      BitVec.extractLsb'_eq_self, BitVec.ofNat_eq_ofNat]

/-- The parts of K16 of `sys.fence.s` (R131). -/
theorem parts_k16_scope (sc : BitVec 2) :
    ((0#14 : BitVec 14) ++ sc : BitVec 16).extractLsb' 2 14 = 0 ∧ ((0#14 : BitVec 14) ++ sc : BitVec 16).extractLsb' 0 2 = sc := by
  revert sc
  decide

/-- The parts of the D field of `mat.mma` and `mat.feed` (R97). -/
theorem parts_slot_quarter (fd : BitVec 2) (ac : BitVec 1) :
    ((0#2 : BitVec 2) ++ fd ++ ac : BitVec 5).extractLsb' 3 2 = 0 ∧ ((0#2 : BitVec 2) ++ fd ++ ac : BitVec 5).extractLsb' 1 2 = fd ∧
    ((0#2 : BitVec 2) ++ fd ++ ac : BitVec 5).extractLsb' 0 1 = ac := by
  revert fd ac
  decide

/-- The parts of the D field of `mat.anchor` (R97). -/
theorem parts_anchor (ac : BitVec 1) :
    ((0#4 : BitVec 4) ++ ac : BitVec 5).extractLsb' 1 4 = 0 ∧ ((0#4 : BitVec 4) ++ ac : BitVec 5).extractLsb' 0 1 = ac := by
  revert ac
  decide

/-- The parts of a B field that names a weight set (R97). -/
theorem parts_weights (ws : BitVec 4) :
    ((0#1 : BitVec 1) ++ ws : BitVec 5).extractLsb' 0 4 = ws ∧ ((0#1 : BitVec 1) ++ ws : BitVec 5).getLsbD 4 = false := by
  revert ws
  decide

/-- The parts of the low six bits of `mat.mma` (R97). -/
theorem parts_mma (sp : BitVec 2) (x y : Bool) :
    ((0#2 : BitVec 2) ++ sp ++ BitVec.ofBool x ++ BitVec.ofBool y : BitVec 6).extractLsb' 4 2 = 0 ∧
    ((0#2 : BitVec 2) ++ sp ++ BitVec.ofBool x ++ BitVec.ofBool y : BitVec 6).extractLsb' 2 2 = sp ∧
    ((0#2 : BitVec 2) ++ sp ++ BitVec.ofBool x ++ BitVec.ofBool y : BitVec 6).getLsbD 1 = x ∧
    ((0#2 : BitVec 2) ++ sp ++ BitVec.ofBool x ++ BitVec.ofBool y : BitVec 6).getLsbD 0 = y := by
  revert sp x y
  decide

/-- The parts of the low six bits of `mat.bel` (R97). -/
theorem parts_bel (x : Bool) :
    ((0#5 : BitVec 5) ++ BitVec.ofBool x : BitVec 6).extractLsb' 1 5 = 0 ∧ ((0#5 : BitVec 5) ++ BitVec.ofBool x : BitVec 6).getLsbD 0 = x := by
  revert x
  decide

/-- The parts of the low six bits of `mat.slot` (R97). -/
theorem parts_mat_slot (fd : BitVec 2) :
    ((0#4 : BitVec 4) ++ fd : BitVec 6).extractLsb' 2 4 = 0 ∧ ((0#4 : BitVec 4) ++ fd : BitVec 6).extractLsb' 0 2 = fd := by
  revert fd
  decide

/-- The parts of the low six bits of `mat.drain` (R97). -/
theorem parts_drain (ac : BitVec 1) :
    ((0#5 : BitVec 5) ++ ac : BitVec 6).extractLsb' 1 5 = 0 ∧ ((0#5 : BitVec 5) ++ ac : BitVec 6).extractLsb' 0 1 = ac := by
  revert ac
  decide

/-- The slot of a user function (R170). -/
theorem parts_slot (slot : BitVec 4) : ((2#2 : BitVec 2) ++ slot : BitVec 6).extractLsb' 0 4 = slot ∧
    32 ≤ ((2#2 : BitVec 2) ++ slot : BitVec 6).toNat ∧ ((2#2 : BitVec 2) ++ slot : BitVec 6).toNat ≤ 47 := by
  revert slot
  decide

theorem maj_encSys (d : BitVec 5) (fn : BitVec 6) (k : BitVec 16) : (encSys d fn k).extractLsb' 27 5 = 11 := (fields_encSys ..).1

theorem fn_encSys (d : BitVec 5) (fn : BitVec 6) (k : BitVec 16) : (encSys d fn k).extractLsb' 16 6 = fn := by
  simp only [fields_encSys]

/-! The table of each class. -/

theorem decodeWord_sop {w : InstrWord} (h : w.extractLsb' 27 5 = 1) : decodeWord w = decodeSop w := by
  rw [decodeWord, h]
  rfl

theorem decodeWord_sopi {w : InstrWord} (h : w.extractLsb' 27 5 = 2) : decodeWord w = decodeSopi w := by
  rw [decodeWord, h]
  rfl

theorem decodeWord_ld {w : InstrWord} (h : w.extractLsb' 27 5 = 5) : decodeWord w = decodeLd w := by
  rw [decodeWord, h]
  rfl

theorem decodeWord_st {w : InstrWord} (h : w.extractLsb' 27 5 = 6) : decodeWord w = decodeSt w := by
  rw [decodeWord, h]
  rfl

theorem decodeWord_amo {w : InstrWord} (h : w.extractLsb' 27 5 = 7) : decodeWord w = decodeAmo w := by
  rw [decodeWord, h]
  rfl

theorem decodeWord_br {w : InstrWord} (h : w.extractLsb' 27 5 = 8) : decodeWord w = decodeBr w := by
  rw [decodeWord, h]
  rfl

theorem decodeWord_sys {w : InstrWord} (h : w.extractLsb' 27 5 = 11) : decodeWord w = decodeSys w := by
  rw [decodeWord, h]
  rfl

theorem decodeWord_vcfg {w : InstrWord} (h : w.extractLsb' 27 5 = 12) : decodeWord w = decodeVcfg w := by
  rw [decodeWord, h]
  rfl

theorem decodeWord_vop {w : InstrWord} (h : w.extractLsb' 27 5 = 13) : decodeWord w = decodeVop w := by
  rw [decodeWord, h]
  rfl

theorem decodeWord_vrot {w : InstrWord} (h : w.extractLsb' 27 5 = 14) : decodeWord w = decodeVrot w := by
  rw [decodeWord, h]
  rfl

theorem decodeWord_vfn {w : InstrWord} (h : w.extractLsb' 27 5 = 15) : decodeWord w = decodeVfn w := by
  rw [decodeWord, h]
  rfl

theorem decodeWord_vred {w : InstrWord} (h : w.extractLsb' 27 5 = 16) : decodeWord w = decodeVred w := by
  rw [decodeWord, h]
  rfl

theorem decodeWord_vperm {w : InstrWord} (h : w.extractLsb' 27 5 = 17) : decodeWord w = decodeVperm w := by
  rw [decodeWord, h]
  rfl

theorem decodeWord_vld {w : InstrWord} (h : w.extractLsb' 27 5 = 18) : decodeWord w = decodeVld w := by
  rw [decodeWord, h]
  rfl

theorem decodeWord_vst {w : InstrWord} (h : w.extractLsb' 27 5 = 19) : decodeWord w = decodeVst w := by
  rw [decodeWord, h]
  rfl

theorem decodeWord_strm {w : InstrWord} (h : w.extractLsb' 27 5 = 20) : decodeWord w = decodeStrm w := by
  rw [decodeWord, h]
  rfl

theorem decodeWord_scl {w : InstrWord} (h : w.extractLsb' 27 5 = 21) : decodeWord w = decodeScl w := by
  rw [decodeWord, h]
  rfl

theorem decodeWord_copy {w : InstrWord} (h : w.extractLsb' 27 5 = 22) : decodeWord w = decodeCopy w := by
  rw [decodeWord, h]
  rfl

theorem decodeWord_mat {w : InstrWord} (h : w.extractLsb' 27 5 = 23) : decodeWord w = decodeMat w := by
  rw [decodeWord, h]
  rfl

theorem decodeWord_fab {w : InstrWord} (h : w.extractLsb' 27 5 = 24) : decodeWord w = decodeFab w := by
  rw [decodeWord, h]
  rfl

theorem need_of {c : Bool} {i j : Instr} (h : c = true) (hij : i = j) : need c i = .ok j := by
  rw [need, if_pos h, hij]

theorem decodeWord_encode (i : Instr) (w : InstrWord) (hwf : WellFormed i = true) (he : encode i = some w) :
    decodeWord w = .ok i := by
  cases i with
  | sopAdd | sopSub | sopAnd | sopOr | sopXor | sopSll | sopSrl | sopSra | sopSlt | sopSltu | sopMin | sopMax | sopMinu | sopMaxu
  | sopMul | sopMulh | sopMulhu | sopDiv | sopDivu | sopRem | sopRemu | sopClz | sopCtz | sopPopc | sopBrev | sopSextB | sopSextH
  | sopSextW | sopZextB | sopZextH | sopZextW | sopMod383 | sopDiv383 =>
    obtain rfl := Option.some.inj he
    rw [decodeWord_sop (maj_encS3 ..), decodeSop, fn_encS3]
    change need _ _ = _
    simp only [fields_encS3]
    rfl
  | sopiAddi | sopiAndi | sopiOri | sopiXori | sopiSlti | sopiSltiu | sopiMuli =>
    obtain rfl := Option.some.inj he
    rw [decodeWord_sopi (maj_encSI ..), decodeSopi, f3_encSI]
    change Except.ok _ = _
    simp only [fields_encSI]
  | sopiShiSll | sopiShiSrl | sopiShiSra =>
    obtain rfl := Option.some.inj he
    rw [decodeWord_sopi (maj_encSI ..), decodeSopi, f3_encSI, sel_encSI, (parts_shi ..).1]
    change need _ _ = _
    simp only [fields_encSI, parts_shi]
    rfl
  | lui | auipc | jal =>
    obtain rfl := Option.some.inj he
    rw [decodeWord, maj_encU]
    change Except.ok _ = _
    simp only [fields_encU]
  | ldB | ldH | ldW | ldD | ldBu | ldHu | ldWu =>
    obtain rfl := Option.some.inj he
    rw [decodeWord_ld (maj_encM ..), decodeLd, sz_encM]
    change Except.ok _ = _
    simp only [fields_encM]
  | stB | stH | stW | stD =>
    obtain rfl := Option.some.inj he
    rw [decodeWord_st (maj_encM ..), decodeSt, sz_encM]
    change Except.ok _ = _
    simp only [fields_encM]
  | amoSwap | amoAdd | amoAnd | amoOr | amoXor | amoMin | amoMax | amoMinu | amoMaxu | amoCas | amoSwapW | amoAddW | amoAndW
  | amoOrW | amoXorW | amoMinW | amoMaxW | amoMinuW | amoMaxuW | amoCasW =>
    obtain rfl := Option.some.inj he
    rw [decodeWord_amo (maj_encAmo ..), decodeAmo, op_encAmo]
    change need _ _ = _
    simp only [fields_encAmo]
    rfl
  | brEq | brNe | brLt | brGe | brLtu | brGeu =>
    obtain rfl := Option.some.inj he
    rw [decodeWord_br (maj_encBr ..), decodeBr, cnd_encBr]
    change Except.ok _ = _
    simp only [fields_encBr]
  | jalr =>
    obtain rfl := Option.some.inj he
    rw [decodeWord, maj_encSI]
    change (if _ then Except.ok _ else _) = _
    simp only [fields_encSI]
    rfl
  | sysCsrRw | sysCsrRs | sysCsrRc =>
    obtain rfl := Option.some.inj he
    rw [decodeWord_sys (maj_encSys ..), decodeSys, fn_encSys]
    change Except.ok _ = _
    simp only [fields_encSys, parts_k16]
  | sysFenceC =>
    obtain rfl := Option.some.inj he
    rw [decodeWord_sys (maj_encSys ..), decodeSys, fn_encSys]
    change need _ _ = _
    simp only [fields_encSys]
    exact need_of hwf rfl
  | sysFenceS | sysTrap | sysEret | sysWfe | sysHalt | sysYield | sysTime | sysCycle | sysSnap | sysGen | sysLaunch | sysTlbFlush
  | sysAspace =>
    obtain rfl := Option.some.inj he
    rw [decodeWord_sys (maj_encSys ..), decodeSys, fn_encSys]
    change need _ _ = _
    simp only [fields_encSys, parts_k16, parts_k16_two, parts_k16_scope]
    rfl
  | vcfgSetl | vcfgSettype | vcfgTag | vcfgGetmax | vcfgLanereq =>
    obtain rfl := Option.some.inj he
    rw [decodeWord_vcfg (maj_encS3 ..), decodeVcfg, fn_encS3]
    change need _ _ = _
    simp only [fields_encS3]
    rfl
  | vopAdd | vopSub | vopRsub | vopMin | vopMax | vopAnd | vopOr | vopXor | vopSll | vopSrl | vopSra | vopMul | vopMulh | vopMacc
  | vopNmsac | vopAvg | vopShrRnd =>
    obtain rfl := Option.some.inj he
    rw [encSrc, decodeWord_vop (maj_encV3 ..), decodeVop, fn_encV3]
    change decodeSrc _ _ _ _ = _
    simp only [fields_encV3]
    exact decodeSrc_field _ _ _ hwf
  | vopCmpEq | vopCmpNe | vopCmpLt | vopCmpLe =>
    obtain rfl := Option.some.inj he
    obtain ⟨hs, hd⟩ := (Bool.and_eq_true _ _).mp hwf
    rw [encSrc, decodeWord_vop (maj_encV3 ..), decodeVop, fn_encV3]
    change decodeSrc _ _ _ _ = _
    simp only [fields_encV3, high0_ext3, low3_ext3, Bool.true_and, ne_eq, ext3_eq_zero]
    exact (decodeSrc_field _ _ _ hs).trans (need_of hd rfl)
  | vopNeg | vopAbs | vopMerge =>
    obtain rfl := Option.some.inj he
    rw [decodeWord_vop (maj_encV3 ..), decodeVop, fn_encV3]
    change (if _ then need _ _ else _) = _
    simp only [fields_encV3, high0_ext3, low3_ext3]
    rfl
  | vopMv d src m =>
    cases src with
    | reg | strm =>
      obtain rfl := Option.some.inj he
      rw [decodeWord_vop (maj_encV3 ..), decodeVop, fn_encV3]
      change (if _ then need _ _ else _) = _
      simp only [fields_encV3, high0_ext3, low3_ext3]
      rfl
  | vopSplat d src m =>
    cases src with
    | vx | vi =>
      obtain rfl := Option.some.inj he
      rw [decodeWord_vop (maj_encV3 ..), decodeVop, fn_encV3]
      change (if _ then need _ _ else _) = _
      simp only [fields_encV3]
      rfl
  | vopCvt form d a m =>
    cases form with
    | same | wide | narrow =>
      obtain rfl := Option.some.inj he
      rw [decodeWord_vop (maj_encV3 ..), decodeVop, fn_encV3]
      change (if _ then need _ _ else _) = _
      simp only [fields_encV3]
      rfl
  | vopCvtSat form d a m =>
    cases form with
    | wide => cases hwf
    | same | narrow =>
      obtain rfl := Option.some.inj he
      rw [decodeWord_vop (maj_encV3 ..), decodeVop, fn_encV3]
      change (if _ then need _ _ else _) = _
      simp only [fields_encV3]
      rfl
  | vopFclass dst a m =>
    cases dst with
    | vec =>
      obtain rfl := Option.some.inj he
      rw [decodeWord_vop (maj_encV3 ..), decodeVop, fn_encV3]
      change (if _ then need _ _ else _) = _
      simp only [fields_encV3]
      rfl
    | mask =>
      obtain rfl := Option.some.inj he
      rw [decodeWord_vop (maj_encV3 ..), decodeVop, fn_encV3]
      change (if _ then need _ _ else _) = _
      simp only [fields_encV3, high0_ext3, low3_ext3, Bool.true_and, ne_eq, ext3_eq_zero]
      exact need_of hwf rfl
  | vrotCirRot | vrotCirVec | vrotHypRot | vrotHypVec | vrotLinRot | vrotLinVec =>
    obtain rfl := Option.some.inj he
    rw [decodeWord_vrot (maj_encVR ..), decodeVrot, (mode_encVR ..).1, (mode_encVR ..).2]
    change need _ _ = _
    simp only [fields_encVR]
    exact need_of hwf rfl
  | vfnSinCos | vfnExp | vfnExp2 | vfnLn | vfnLog2 | vfnSqrt | vfnRsqrt | vfnRecip | vfnTanh | vfnSigm | vfnGelu =>
    obtain rfl := Option.some.inj he
    rw [decodeWord_vfn (maj_encV3 ..), decodeVfn, fn_encV3]
    change (if _ then need _ _ else _) = _
    simp only [fields_encV3]
    rfl
  | vfnDiv | vfnAtan2 | vfnHypot | vfnSoftx =>
    obtain rfl := Option.some.inj he
    rw [encSrc, decodeWord_vfn (maj_encV3 ..), decodeVfn, fn_encV3]
    change (if _ then _ else decodeSrc _ _ _ _) = _
    simp only [fields_encV3]
    exact (if_neg (by decide)).trans (decodeSrc_field _ _ _ hwf)
  | vfnUfn =>
    obtain rfl := Option.some.inj he
    rw [encSrc, decodeWord_vfn (maj_encV3 ..)]
    simp only [decodeVfn, fields_encV3, parts_slot, if_true]
    exact decodeSrc_field _ _ _ hwf
  | vredRedsum | vredRedsumOrd | vredRedmax | vredRedmin | vredRedand | vredRedor | vredScanAdd | vredScanMax =>
    obtain rfl := Option.some.inj he
    rw [encSrc, decodeWord_vred (maj_encV3 ..), decodeVred, fn_encV3]
    change decodeSrc _ _ _ _ = _
    simp only [fields_encV3]
    exact decodeSrc_field _ _ _ hwf
  | vredRedsumW =>
    obtain rfl := Option.some.inj he
    rw [decodeWord_vred (maj_encV3 ..), decodeVred, fn_encV3]
    change (if _ then Except.ok _ else _) = _
    simp only [fields_encV3]
    rfl
  | vredMaskAnd | vredMaskOr | vredMaskXor | vredMaskAndn | vredMaskCutoff | vredMaskThru =>
    obtain rfl := Option.some.inj he
    rw [decodeWord_vred (maj_encV3 ..), decodeVred, fn_encV3]
    change (if _ then need _ _ else _) = _
    simp only [fields_encV3, high0_ext3, low3_ext3, Bool.and_true, Bool.true_and, decide_true, ne_eq, ext3_eq_zero]
    exact need_of hwf rfl
  | vredMaskFirst | vredMaskCount | vredIota =>
    obtain rfl := Option.some.inj he
    rw [decodeWord_vred (maj_encV3 ..), decodeVred, fn_encV3]
    change (if _ then need _ _ else _) = _
    simp only [fields_encV3, high0_ext3, low3_ext3]
    rfl
  | vpermSlideup | vpermSlidedown | vpermGather =>
    obtain rfl := Option.some.inj he
    obtain ⟨hs, himm⟩ := (Bool.and_eq_true _ _).mp hwf
    rw [encSrc, decodeWord_vperm (maj_encV3 ..), decodeVperm, fn_encV3]
    change decodeSrc _ _ _ _ = _
    simp only [fields_encV3]
    exact (decodeSrc_field _ _ _ hs).trans (need_of himm rfl)
  | vpermSlide1up | vpermSlide1down | vpermExtract | vpermInsert =>
    obtain rfl := Option.some.inj he
    rw [decodeWord_vperm (maj_encV3 ..), decodeVperm, fn_encV3]
    change (if _ then Except.ok _ else _) = _
    simp only [fields_encV3]
    rfl
  | vpermCompress | vpermExpand | vpermReshape =>
    obtain rfl := Option.some.inj he
    rw [decodeWord_vperm (maj_encV3 ..), decodeVperm, fn_encV3]
    change (if _ then need _ _ else _) = _
    simp only [fields_encV3, high0_ext3, low3_ext3]
    rfl
  | vldUnit | vldFf =>
    obtain rfl := Option.some.inj he
    rw [decodeWord_vld (maj_encVM ..), decodeVld, mop_encVM]
    change need _ _ = _
    simp only [fields_encVM, decide_true, Bool.and_true]
    exact need_of hwf rfl
  | vldStr | vld2d | vldIdx | vldShape =>
    obtain rfl := Option.some.inj he
    rw [decodeWord_vld (maj_encVM ..), decodeVld, mop_encVM]
    change need _ _ = _
    simp only [fields_encVM]
    exact need_of hwf rfl
  | vstUnit | vstMx =>
    obtain rfl := Option.some.inj he
    rw [decodeWord_vst (maj_encVM ..), decodeVst, mop_encVM]
    change need _ _ = _
    simp only [fields_encVM, decide_true, Bool.and_true]
    exact need_of hwf rfl
  | vstStr | vst2d | vstIdx | vstShape =>
    obtain rfl := Option.some.inj he
    rw [decodeWord_vst (maj_encVM ..), decodeVst, mop_encVM]
    change need _ _ = _
    simp only [fields_encVM]
    exact need_of hwf rfl
  | strmBind | strmBindOut | strmFree | strmStatus | strmSkip =>
    obtain rfl := Option.some.inj he
    rw [decodeWord_strm (maj_encS3 ..), decodeStrm, fn_encS3]
    change need _ _ = _
    simp only [fields_encS3, high0_ext3, low3_ext3]
    rfl
  | sclLd | sclSt | sclTov | sclFromv =>
    obtain rfl := Option.some.inj he
    rw [decodeWord_scl (maj_encS3 ..), decodeScl, fn_encS3]
    change need _ _ = _
    simp only [fields_encS3]
    rfl
  | copyCopy | copyCopy2d | copyFill =>
    obtain rfl := Option.some.inj he
    rw [decodeWord_copy (maj_encAmo ..), decodeCopy, op_encAmo]
    change need _ _ = _
    simp only [fields_encAmo]
    exact need_of hwf rfl
  | matWld =>
    obtain rfl := Option.some.inj he
    rw [decodeWord_mat (maj_encS3 ..), decodeMat, fn_encS3]
    change need _ _ = _
    simp only [fields_encS3, parts_encS3, parts_weights, Bool.not_false, decide_true, Bool.true_and]
    exact need_of hwf rfl
  | matMma =>
    obtain rfl := Option.some.inj he
    rw [decodeWord_mat (maj_encS3 ..), decodeMat, fn_encS3]
    change need _ _ = _
    simp only [fields_encS3, parts_encS3, parts_slot_quarter, parts_weights, parts_mma, Bool.not_false, decide_true,
          Bool.true_and]
    exact need_of hwf rfl
  | matAnchor | matBel | matSlot | matFeed | matFeedEnd | matDrain | matDrainEnd =>
    obtain rfl := Option.some.inj he
    rw [decodeWord_mat (maj_encS3 ..), decodeMat, fn_encS3]
    change need _ _ = _
    simp only [fields_encS3, parts_encS3, parts_slot_quarter, parts_anchor, parts_bel, parts_mat_slot, parts_drain]
    rfl
  | fabEnq | fabNotify =>
    obtain rfl := Option.some.inj he
    rw [decodeWord_fab (maj_encAmo ..), decodeFab, op_encAmo]
    change need _ _ = _
    simp only [fields_encAmo]
    rfl
  | fabAdd96 =>
    obtain rfl := Option.some.inj he
    rw [decodeWord_fab (maj_encAmo ..), decodeFab, op_encAmo]
    change need _ _ = _
    simp only [fields_encAmo]
    exact need_of hwf rfl
  | _ => cases he

/-- Settles O4: the five words by their bits. -/
theorem decodeSampleWords : Obligations.DecodeSampleWords := by
  unfold Obligations.DecodeSampleWords
  decide

/-- Settles O5: the fields of each format read back, row by row of the table. -/
theorem decodeEncode : Obligations.DecodeEncode := decodeWord_encode

end Sys2Proof
end

section
/-! PROOFS. Reset values (R78, R85 to R87), and x0 with `sys.time`, `sys.cycle` and `sys.gen` (R78, R142): O9, O29. -/
namespace Sys2Proof.Machine

/-! ## The units at reset -/

theorem State.reset_front {k : Nat} (h : k < 1024) : State.reset.front k = Front.reset := if_pos h

theorem State.reset_front_drone (c : Nat) : State.reset.front (droneOf c) = Front.resetDrone :=
  if_neg (Nat.not_lt.mpr (Nat.le_add_right 1024 c))

theorem State.reset_vec (k : Nat) : State.reset.vec k = Vec.reset := rfl

theorem State.reset_cluster (c : Nat) : State.reset.cluster c = Cluster.reset := rfl

/-- An array filled with its default reads as the default, within its bounds and beyond. -/
theorem getD_replicate_self {α : Type} (n i : Nat) (x : α) : (Vector.replicate n x).getD i x = x := by
  simp only [Vector.getD, Vector.toArray_replicate, Array.getD_eq_getD_getElem?, Array.getElem?_replicate]
  split <;> rfl

theorem Front.reset_xr (r : XReg) : Front.reset.xr r = 0 := by
  unfold Front.xr
  split
  · rfl
  · exact getD_replicate_self 32 _ 0

/-- m0 is all ones and the other masks hold 0 (R80). -/
theorem Vec.reset_maskBit (n : MReg) (i : Nat) : Vec.reset.maskBit n i = decide (n = 0) := by
  unfold Vec.maskBit
  by_cases h : n = 0
  · rw [decide_eq_true h, Bool.true_or]
  · have hn : n.toNat ≠ 0 := fun h0 => h (BitVec.eq_of_toNat_eq h0)
    have hm : Vec.reset.m.getD n.toNat 0 = 0 := by
      change ((Vector.replicate 8 0).set 0 (BitVec.allOnes 4096)).getD n.toNat 0 = 0
      rw [Vector.getD, Array.getD_eq_getD_getElem?, Vector.toArray_set, Array.getElem?_set_ne (by simp) hn.symm, ← Array.getD_eq_getD_getElem?]
      exact getD_replicate_self 8 n.toNat (0 : BitVec 4096)
    rw [hm, decide_eq_false h, Bool.false_or]
    exact BitVec.getLsbD_zero

/-! ## What the CSRs read -/

/-- The registers of the user block of a context (R85). -/
theorem csrRead_context {k : Nat} (h : isDrone k = false) (s : State) :
    csrRead s k 0x000 = userCsr s k 0x000 ∧ csrRead s k 0x001 = userCsr s k 0x001 ∧ csrRead s k 0x003 = userCsr s k 0x003 ∧
    csrRead s k 0x005 = userCsr s k 0x005 ∧ csrRead s k 0x006 = userCsr s k 0x006 ∧ csrRead s k 0x007 = userCsr s k 0x007 ∧
    csrRead s k 0x008 = userCsr s k 0x008 := by
  have hctx (m : Nat) : (if isDrone k then none else userCsr s k m) = userCsr s k m := by rw [h, if_neg Bool.false_ne_true]
  exact ⟨hctx _, hctx _, hctx _, hctx _, hctx _, hctx _, hctx _⟩

theorem isDrone_context {k : Nat} (h : k < 1024) : isDrone k = false := decide_eq_false (Nat.not_le.mpr h)

/-- Settles O9. -/
theorem resetValues : Obligations.ResetValues := by
  unfold Obligations.ResetValues
  refine ⟨fun k hk => ?_, fun c _ => ?_, rfl⟩
  · obtain ⟨h0, h1, h3, h5, h6, h7, h8⟩ := csrRead_context (isDrone_context hk) State.reset
    rw [State.reset_front hk, State.reset_vec, h0, h1, h3, h5, h6, h7, h8]
    exact ⟨Front.reset_xr, rfl, rfl, rfl, rfl, rfl, Vec.reset_maskBit, fun n => getD_replicate_self 256 n _, fun n => getD_replicate_self 32 n _,
      fun r => getD_replicate_self 32 r.toNat _, fun j => getD_replicate_self 8 j.toNat _, rfl, rfl, rfl, rfl, rfl, rfl, rfl⟩
  · refine ⟨?_, rfl, rfl, fun j => ?_⟩
    · rw [State.reset_front_drone]
      rfl
    · rw [State.reset_cluster]
      exact congrArg Tile.anchor (getD_replicate_self 2 j Tile.reset)

/-! ## x0 and the counts -/

theorem State.writeX_zero (s : State) (a : Nat) (v : W64) : (s.writeX a 0 v).front a = s.front a := by
  rw [State.writeX_front_self]
  exact if_pos rfl

section
variable {s : State} {a : Nat} {d : XReg} (h : s.Issues a [] [d])
include h

/-- An instruction of the shape of R117 to R119 computes its value. -/
theorem computes_aluOp {i : Instr} {f : Front → W64} (hi : exec i s = aluOp d [] f s) :
    s.Computes a i d (f (s.front a)) ((s.front a).pc + 4) := by
  obtain ⟨⟨df, ha⟩, hr⟩ := h
  exact ⟨_, hi.trans (aluOp_ready ha hr), scalarResult_writeX ..⟩

end

/-- Settles O29: the three counts are instructions of the shape of R117 to R119. -/
theorem xZeroAndCounts : Obligations.XZeroAndCounts := by
  unfold Obligations.XZeroAndCounts
  refine ⟨fun s a v => ⟨(s.front a).xr_zero, s.writeX_zero a v⟩, fun s a d h => ?_⟩
  have hcycle : exec (.sysCycle d) s = aluOp d [] (fun _ => (s.cluster (clusterOf a)).cycle) s := by
    obtain ⟨⟨df, ha⟩, -⟩ := h
    change onFront s _ = _
    unfold onFront
    rw [ha]
  have hgen : (s.front a).curgen.zeroExtend 64 = BitVec.ofNat 64 (s.front a).curgen.toNat := (BitVec.ofNat_toNat ..).symm
  exact ⟨computes_aluOp h (f := fun _ => s.time) rfl, computes_aluOp h hcycle, hgen ▸ computes_aluOp h (f := fun f => f.curgen.zeroExtend 64) rfl⟩

end Sys2Proof.Machine
end

section
/-! PROOFS. CSR instructions: what they answer, and their traps (R81, R82, R84, R98, R130, R391): O19, O21. -/
namespace Sys2Proof.Machine

/-! ## The three instructions -/

/-- What a CSR write leaves, where there is one: none when R82 refuses it. -/
def csrWritten (s : State) (a : Nat) (n : CsrNum) (new : Option W64) : Option State := new.elim (some s) (csrWrite s a n)

theorem csrWritten_none_iff (s : State) (a : Nat) (n : CsrNum) (new : Option W64) :
    (csrWritten s a n new).isNone = true ↔ ∃ v, new = some v ∧ csrWrite s a n v = none := by
  cases new <;> simp [csrWritten]

/-- What an access answers to a register that reads `old`, in the order of R98. -/
def csrAnswer (s : State) (a : Nat) (d : XReg) (n : CsrNum) (w : InstrWord) (old : W64) (new : Option W64) : Out :=
  if (csrWritten s a n new).isNone && !privFirst n (s.front a).sup new.isSome then s.scalarTrap a (wordTrap 2 w)
  else if csrPriv n (s.front a).sup new.isSome then s.scalarTrap a (wordTrap 4 w)
  else if csrWaits s a n new then .next s
  else .next (((readEffect ((csrWritten s a n new).getD s) a n new.isSome).writeX a d old).retire a ((s.front a).pc + 4))

/-- The three instructions differ in the value that they write (R130). -/
theorem exec_csrInstr_op (fn : Nat) (d x : XReg) (n : CsrNum) (s : State) : ∃ g, exec (csrInstr fn d x n) s = csrOp (csrInstr fn d x n) g d x n s ∧
    ∀ old v, g.map (fun g => g old v) = csrNew fn x old v := by
  have hnew (g : W64 → W64 → W64) (old v : W64) :
      (if x = 0 then none else some g : Option (W64 → W64 → W64)).map (fun g => g old v) = if x = 0 then none else some (g old v) := by
    split <;> rfl
  match fn with
  | 0 => exact ⟨some fun _ x => x, rfl, fun _ _ => rfl⟩
  | 1 => exact ⟨_, rfl, hnew _⟩
  | _ + 2 => exact ⟨_, rfl, hnew _⟩

section
variable {s : State} {a : Nat} {d x : XReg} {n : CsrNum} (h : s.Issues a [x] [d])
include h

theorem csrOp_unassigned (hread : csrRead s a n = none) (i : Instr) (g : Option (W64 → W64 → W64)) :
    csrOp i g d x n s = s.scalarTrap a (wordTrap 2 ((Sys2Proof.encode i).getD 0)) := by
  rw [csrOp, onFront_ready h]
  dsimp only
  rw [hread]

theorem csrOp_assigned {old : W64} (hread : csrRead s a n = some old) (i : Instr) (g : Option (W64 → W64 → W64)) :
    csrOp i g d x n s = csrAnswer s a d n ((Sys2Proof.encode i).getD 0) old (g.map fun g => g old ((s.front a).xr x)) := by
  rw [csrOp, onFront_ready h]
  dsimp only
  rw [hread]
  cases g <;> rfl

/-- An unassigned number traps (R82). -/
theorem exec_csrInstr_unassigned (hread : csrRead s a n = none) (fn : Nat) :
    exec (csrInstr fn d x n) s = s.scalarTrap a (wordTrap 2 ((Sys2Proof.encode (csrInstr fn d x n)).getD 0)) := by
  obtain ⟨g, hg, -⟩ := exec_csrInstr_op fn d x n s
  rw [hg, csrOp_unassigned h hread]

theorem exec_csrInstr {old : W64} (hread : csrRead s a n = some old) (fn : Nat) :
    exec (csrInstr fn d x n) s =
      csrAnswer s a d n ((Sys2Proof.encode (csrInstr fn d x n)).getD 0) old (csrNew fn x old ((s.front a).xr x)) := by
  obtain ⟨g, hg, hnew⟩ := exec_csrInstr_op fn d x n s
  rw [hg, csrOp_assigned h hread, hnew]

end

/-! ## Accesses that pass the tests (R81, R82, R84) -/

/-- An access that passes the tests and need not wait leaves the old value in x(D). -/
theorem csrAnswer_passes {s u : State} {a : Nat} {n : CsrNum} {new : Option W64} (hw : csrWritten s a n new = some u)
    (hp : csrPriv n (s.front a).sup new.isSome = false) (hq : csrWaits s a n new = false) (d : XReg) (w : InstrWord) (old : W64) :
    csrAnswer s a d n w old new = .next (((readEffect u a n new.isSome).writeX a d old).retire a ((s.front a).pc + 4)) := by
  simp [csrAnswer, hw, hp, hq]

theorem readEffect_none {n : CsrNum} (htrc : n ≠ 0x543) {writes : Bool} (hufn : n ≠ 0x203 ∨ writes = true) (s : State) (a : Nat) :
    readEffect s a n writes = s := by
  unfold readEffect
  rw [if_neg (fun hc => htrc (of_decide_eq_true (Bool.and_eq_true_iff.mp hc).1)), if_neg (by simpa using fun h => hufn.resolve_left (· h))]

theorem readEffect_trcdata {s : State} {a : Nat} (h : (s.front a).sup = true) (writes : Bool) :
    readEffect s a 0x543 writes = { s with trcaddr := s.trcaddr + 1 } := by
  unfold readEffect
  rw [h]
  rfl

/-- A core after a read of UFNDATA. -/
def Core.skipMicro (c : Core) : Core := { c with ufnaddr := nextUfnAddr c.ufnaddr }

/-- A read of UFNDATA advances UFNADDR (R76). -/
theorem readEffect_ufndata (s : State) (a : Nat) :
    readEffect s a 0x203 false = s.setCore (coreOf a) (s.core (coreOf a)).skipMicro := rfl

theorem nextUfnAddr_eq (x : BitVec 10) : nextUfnAddr x = BitVec.ofNat 10 (x.toNat / 64 * 64 + (x.toNat + 1) % 64) := by
  rw [← nextUfnAddr_toNat, BitVec.ofNat_toNat, BitVec.setWidth_eq]

/-- Settles O19. -/
theorem csrAccess : Obligations.CsrAccess := by
  unfold Obligations.CsrAccess
  intro s a fn d x n old h hread new hp hq
  have hexec := exec_csrInstr h hread fn
  rw [show csrNew fn x old ((s.front a).xr x) = new from rfl] at hexec
  have hreads (hn : new = none) : exec (csrInstr fn d x n) s =
      .next (((readEffect s a n false).writeX a d old).retire a ((s.front a).pc + 4)) := by
    rw [hn] at hexec hp hq
    exact hexec.trans (csrAnswer_passes (u := s) rfl hp hq ..)
  have hd (t : State) : (((t.writeX a d old).retire a ((s.front a).pc + 4)).front a).xr d = if d = 0 then 0 else old := by
    rw [State.writeX_retire_xr]
    by_cases h0 : d = 0
    · rw [h0, if_neg (by simp), if_pos rfl, Front.xr_zero]
    · rw [if_pos ⟨rfl, h0⟩, if_neg h0]
  refine ⟨fun hn htrc hufn => ?_, fun hn htrc hsup => ?_, fun hn hufn => ?_, fun v u hv htrc hu => ?_⟩
  · rw [readEffect_none htrc (.inl hufn)] at hreads
    exact ⟨_, hreads hn, scalarResult_writeX ..⟩
  · subst htrc
    rw [readEffect_trcdata hsup] at hreads
    exact ⟨_, hreads hn, hd _, rfl, rfl⟩
  · subst hufn
    rw [readEffect_ufndata] at hreads
    refine ⟨_, hreads hn, hd _, ?_, rfl⟩
    rw [State.retire_core, State.writeX_core, State.core_setCore_self]
    exact nextUfnAddr_eq _
  · rw [hv] at hexec hp hq
    have hw : csrWritten s a n (some v) = some u := hu
    rw [csrAnswer_passes hw hp hq, readEffect_none htrc (.inr (Option.isSome_some ..))] at hexec
    exact ⟨_, hexec, scalarResult_writeX ..⟩

/-! ## Traps -/

/-- A scalar instruction that traps, with no older vector instruction in the way (R135). -/
theorem State.scalarTrap_traps {s : State} {a : Nat} {i : Instr} {x : Trap} (hb : s.vecBusy a = false) (hh : s.HandlerOk a)
    (hi : exec i s = s.scalarTrap a x) : s.Traps a i x := by
  obtain ⟨fired, ht, hfired⟩ := State.takeTrap_eq hh false (s.front a).pc x
  rw [State.scalarTrap, if_neg (by simp [hb]), ht] at hi
  exact ⟨_, hi, trapTaken_front _ x (State.front_setFront_self ..), fun b hb => by exact (State.front_setFront ..).trans (if_neg hb), rfl, hfired⟩

/-- The number of a CSR names its block (R81). -/
theorem csrBlock_eq (n : CsrNum) : (n.extractLsb' 8 3).toNat = n.toNat / 256 := by
  rw [BitVec.extractLsb'_toNat, Nat.shiftRight_eq_div_pow]
  have := n.isLt
  omega

/-- The PRIV test (R81). -/
theorem csrPriv_iff (n : CsrNum) (sup writes : Bool) : csrPriv n sup writes = true ↔
    sup = false ∧ ((256 ≤ n.toNat ∧ n.toNat < 1280) ∨ ((1280 ≤ n.toNat ∧ n.toNat < 1536) ∧ writes = true)) := by
  have h5 : n.extractLsb' 8 3 = 5 ↔ n.toNat / 256 = 5 := by rw [← csrBlock_eq, ← BitVec.toNat_inj]; rfl
  unfold csrPriv
  simp only [csrBlock_eq, Bool.and_eq_true, Bool.or_eq_true, decide_eq_true_iff, Bool.not_eq_true']
  refine and_congr_right' (or_congr ?_ (and_congr_left' ?_)) <;> omega

theorem traceReadOnly_iff (n : CsrNum) : traceReadOnly n = true ↔
    n = 0x541 ∨ n = 0x543 ∨ n = 0x545 ∨ n = 0x546 ∨ n = 0x553 ∨ 0x560 ≤ n.toNat := by
  unfold traceReadOnly
  simp only [← BitVec.toNat_inj, Bool.or_eq_true, decide_eq_true_iff, or_assoc]
  rfl

/-- The test of R391 that comes before that of the value. -/
theorem privFirst_iff (n : CsrNum) (sup writes : Bool) : privFirst n sup writes = true ↔
    sup = false ∧ (1280 ≤ n.toNat ∧ n.toNat < 1536) ∧ writes = true ∧ traceReadOnly n = false := by
  have h5 : n.extractLsb' 8 3 = 5 ↔ n.toNat / 256 = 5 := by rw [← csrBlock_eq, ← BitVec.toNat_inj]; rfl
  unfold privFirst
  simp only [h5, csrPriv_iff, Bool.and_eq_true, decide_eq_true_iff, Bool.not_eq_true']
  constructor
  · rintro ⟨⟨h5, hro⟩, hsup, hblock | ⟨hblock, hwrites⟩⟩
    · omega
    · exact ⟨hsup, hblock, hwrites, hro⟩
  · rintro ⟨hsup, hblock, hwrites, hro⟩
    exact ⟨⟨by omega, hro⟩, hsup, .inr ⟨hblock, hwrites⟩⟩

theorem csrAnswer_illfld {s : State} {a : Nat} {n : CsrNum} {new : Option W64} (hw : (csrWritten s a n new).isNone = true)
    (hp : privFirst n (s.front a).sup new.isSome = false) (d : XReg) (w : InstrWord) (old : W64) :
    csrAnswer s a d n w old new = s.scalarTrap a (wordTrap 2 w) := by
  simp [csrAnswer, hw, hp]

theorem csrAnswer_priv {s : State} {a : Nat} {n : CsrNum} {new : Option W64}
    (hw : (csrWritten s a n new).isNone = true → privFirst n (s.front a).sup new.isSome = true)
    (hp : csrPriv n (s.front a).sup new.isSome = true) (d : XReg) (w : InstrWord) (old : W64) :
    csrAnswer s a d n w old new = s.scalarTrap a (wordTrap 4 w) := by
  unfold csrAnswer
  rw [if_neg (by simpa using hw), if_pos hp]

/-- Settles O21. -/
theorem csrTraps : Obligations.CsrTraps := by
  unfold Obligations.CsrTraps
  intro s a fn d x n h hb hh
  refine ⟨fun hread => State.scalarTrap_traps hb hh (exec_csrInstr_unassigned h hread fn), fun old hread => ?_⟩
  have hexec := exec_csrInstr h hread fn
  generalize csrNew fn x old ((s.front a).xr x) = new at hexec ⊢
  have hsup : (s.front a).status.getLsbD 0 = (s.front a).sup := rfl
  dsimp only
  rw [← csrWritten_none_iff, ← traceReadOnly_iff, hsup]
  refine ⟨fun hw hro => ?_, fun huser h5 hnew hro => ?_, fun hw huser hblock => ?_⟩
  · refine State.scalarTrap_traps hb hh (hexec.trans (csrAnswer_illfld hw (Bool.eq_false_iff.mpr fun hp => ?_) ..))
    obtain ⟨huser, h5, -, hrw⟩ := (privFirst_iff ..).mp hp
    exact absurd (hro huser h5) (by simp [hrw])
  · have hfirst := (privFirst_iff n (s.front a).sup new.isSome).mpr ⟨huser, h5, hnew, Bool.eq_false_iff.mpr hro⟩
    exact State.scalarTrap_traps hb hh (hexec.trans (csrAnswer_priv (fun _ => hfirst) ((csrPriv_iff ..).mpr ⟨huser, .inr ⟨h5, hnew⟩⟩) ..))
  · exact State.scalarTrap_traps hb hh (hexec.trans (csrAnswer_priv (fun h => absurd h hw) ((csrPriv_iff ..).mpr ⟨huser, hblock⟩) ..))

end Sys2Proof.Machine
end

section
/-! PROOFS. CSR numbers: who has them, and what plain registers read after a write (R82, R83, R85 to R87, R391 to R394): O20. -/
namespace Sys2Proof.Machine

/-! ## Which numbers are assigned -/

/-- The user block of a context holds nine registers (R85). -/
theorem userCsr_isSome (s : State) (k m : Nat) : (userCsr s k m).isSome = decide (m < 9) := by
  unfold userCsr
  split
  case h_10 =>
    simp only [imp_false] at *
    simp only [Option.isSome_none, Bool.false_eq, decide_eq_false_iff_not]
    omega
  all_goals rfl

/-- The numbers of the other blocks that are assigned (R83, R86, R391). -/
def csrAssigned (m : Nat) : Prop :=
  (9 ≤ m ∧ m ≤ 0xC) ∨ (0x100 ≤ m ∧ m ≤ 0x108) ∨ (0x200 ≤ m ∧ m ≤ 0x204) ∨ (0x300 ≤ m ∧ m ≤ 0x302) ∨ m = 0x400 ∨ m = 0x401 ∨
    (0x500 ≤ m ∧ m ≤ 0x546) ∨ (0x548 ≤ m ∧ m ≤ 0x553) ∨ (0x560 ≤ m ∧ m ≤ 0x568) ∨ (0x570 ≤ m ∧ m ≤ 0x572) ∨ m = 0x57E ∨ m = 0x57F

/-- What a CSR of a range of equal registers reads as, and one of the user block. -/
def csrReadRange (s : State) (a m : Nat) : Option W64 :=
  let c := s.core (coreOf a)
  let q := s.cluster (clusterOf a)
  if m < 0x009 then (if isDrone a then none else userCsr s a m)
  else if 0x500 ≤ m ∧ m ≤ 0x507 then some (c.evc.getD (m - 0x500) 0)
  else if 0x508 ≤ m ∧ m ≤ 0x50F then some ((c.evs.getD (m - 0x508) 0).zeroExtend 64)
  else if 0x510 ≤ m ∧ m ≤ 0x517 then some (q.kvc.getD (m - 0x510) 0)
  else if 0x518 ≤ m ∧ m ≤ 0x51F then some ((q.kvs.getD (m - 0x518) 0).zeroExtend 64)
  else if 0x520 ≤ m ∧ m ≤ 0x52F then some (s.dvc.getD (m - 0x520) 0)
  else if 0x530 ≤ m ∧ m ≤ 0x53F then some ((s.dvs.getD (m - 0x530) 0).zeroExtend 64)
  else if 0x548 ≤ m ∧ m ≤ 0x54B then some (c.bpaddr.getD (m - 0x548) 0)
  else if 0x54C ≤ m ∧ m ≤ 0x54F then some ((c.bpctl.getD (m - 0x54C) 0).zeroExtend 64)
  else if 0x560 ≤ m ∧ m ≤ 0x563 then some (c.tspc.getD (m - 0x560) 0)
  else if 0x564 ≤ m ∧ m ≤ 0x567 then some (c.tvcp.getD (m - 0x564) 0)
  else none

/-- The numbers of the ranges. -/
def csrInRange (m : Nat) : Prop :=
  m < 9 ∨ (0x500 ≤ m ∧ m ≤ 0x53F) ∨ (0x548 ≤ m ∧ m ≤ 0x54F) ∨ (0x560 ≤ m ∧ m ≤ 0x567)

/-- The registers that have a number of their own. -/
theorem csrRead_cases (s : State) (a : Nat) (n : CsrNum) :
    csrRead s a n = csrReadRange s a n.toNat ∧ (csrAssigned n.toNat → csrInRange n.toNat) ∨
      (csrRead s a n).isSome = true ∧ csrAssigned n.toNat ∧ ¬ csrInRange n.toNat := by
  unfold csrRead csrAssigned csrInRange
  dsimp only
  generalize n.toNat = m
  split
  case h_41 =>
    simp only [imp_false] at *
    exact .inl ⟨rfl, by omega⟩
  all_goals exact .inr ⟨rfl, by decide, by decide⟩

theorem csrRead_range {s : State} {a : Nat} {n : CsrNum} (h : csrInRange n.toNat) : csrRead s a n = csrReadRange s a n.toNat := by
  obtain ⟨hr, -⟩ | ⟨-, -, hn⟩ := csrRead_cases s a n
  · exact hr
  · exact absurd h hn

theorem csrReadRange_isSome (s : State) (a m : Nat) : (csrReadRange s a m).isSome = true ↔
    (m < 9 ∧ isDrone a = false) ∨ (¬ m < 9 ∧ csrInRange m) := by
  unfold csrReadRange csrInRange
  dsimp only
  by_cases h9 : m < 9
  · rw [if_pos h9]
    cases isDrone a <;> simp [userCsr_isSome, h9]
  · have hsome {c : Prop} [Decidable c] (x : W64) (o : Option W64) : (if c then some x else o).isSome = true ↔ c ∨ o.isSome = true := by
      split <;> simp_all
    rw [if_neg h9]
    simp only [hsome, h9, Option.isSome_none, Bool.false_eq_true, or_false, false_and, false_or, not_false_eq_true, true_and]
    omega

theorem csrRead_isSome (s : State) (a : Nat) (n : CsrNum) :
    (csrRead s a n).isSome = true ↔ (n.toNat < 9 ∧ isDrone a = false) ∨ csrAssigned n.toNat := by
  obtain ⟨hr, hn⟩ | ⟨hr, hn, -⟩ := csrRead_cases s a n
  · rw [hr, csrReadRange_isSome]
    unfold csrAssigned csrInRange at *
    cases isDrone a <;> simp only [Bool.true_eq_false, and_false, and_true, false_or] <;> omega
  · simp [hr, hn]

/-! ## Values that fit their register -/

/-- A value whose bits from w upward are zero is its low bits. -/
theorem zeroExtend_extractLsb'_of_lt {w : Nat} {x : W64} (h : x.toNat < 2 ^ w) : (x.extractLsb' 0 w).zeroExtend 64 = x := by
  apply BitVec.eq_of_toNat_eq
  rw [BitVec.toNat_setWidth, BitVec.extractLsb'_toNat, Nat.shiftRight_zero, Nat.mod_eq_of_lt h, Nat.mod_eq_of_lt x.isLt]

/-- Zero bits from w upward bound a value. -/
theorem toNat_lt_of_high {w k : Nat} {x : W64} (h : x.extractLsb' w k = 0) (hk : w + k = 64) : x.toNat < 2 ^ w := by
  have hx : x.toNat < 2 ^ k * 2 ^ w := by rw [← Nat.pow_add, Nat.add_comm, hk]; exact x.isLt
  have h0 := congrArg BitVec.toNat h
  rw [BitVec.extractLsb'_toNat, Nat.shiftRight_eq_div_pow, Nat.mod_eq_of_lt (Nat.div_lt_of_lt_mul (Nat.mul_comm .. ▸ hx))] at h0
  exact (Nat.div_eq_zero_iff_lt (Nat.two_pow_pos w)).mp h0

theorem fits_low {w : Nat} {x : W64} (h : fits w x = true) : (x.extractLsb' 0 w).zeroExtend 64 = x :=
  zeroExtend_extractLsb'_of_lt (of_decide_eq_true h)

theorem high_low {w k : Nat} {x : W64} (h : x.extractLsb' w k = 0) (hk : w + k = 64 := by rfl) : (x.extractLsb' 0 w).zeroExtend 64 = x :=
  zeroExtend_extractLsb'_of_lt (toNat_lt_of_high h hk)

/-! ## Registers of plain bits -/

section
variable {s t : State} {a : Nat} {v : W64}

/-- A register of the user block reads what a write has left in the vector side. -/
theorem csrRead_setVec (hd : isDrone a = false) (u : Vec) :
    csrRead (s.setVec a u) a 0x000 = some (u.vtype.zeroExtend 64) ∧ csrRead (s.setVec a u) a 0x003 = some (u.vstart.zeroExtend 64) ∧
    csrRead (s.setVec a u) a 0x006 = some (u.scalebase.zeroExtend 64) ∧ csrRead (s.setVec a u) a 0x007 = some (u.flags.zeroExtend 64) ∧
    csrRead (s.setVec a u) a 0x008 = some (u.ftrap.zeroExtend 64) := by
  obtain ⟨h0, -, h3, -, h6, h7, h8⟩ := csrRead_context hd (s.setVec a u)
  rw [h0, h3, h6, h7, h8, userCsr, userCsr, userCsr, userCsr, userCsr, State.vec_setVec_self]
  exact ⟨rfl, rfl, rfl, rfl, rfl⟩

theorem csrRead_setFront (f : Front) :
    csrRead (s.setFront a f) a 0x100 = some (f.status.zeroExtend 64) ∧ csrRead (s.setFront a f) a 0x101 = some (f.cause.zeroExtend 64) ∧
    csrRead (s.setFront a f) a 0x102 = some f.epc ∧ csrRead (s.setFront a f) a 0x103 = some f.tval ∧
    csrRead (s.setFront a f) a 0x104 = some f.tvec ∧ csrRead (s.setFront a f) a 0x105 = some f.scratch := by
  have hf := State.front_setFront_self s a f
  exact ⟨congrArg (fun f : Front => some (f.status.zeroExtend 64)) hf, congrArg (fun f : Front => some (f.cause.zeroExtend 64)) hf,
    congrArg (fun f : Front => some f.epc) hf, congrArg (fun f : Front => some f.tval) hf, congrArg (fun f : Front => some f.tvec) hf,
    congrArg (fun f : Front => some f.scratch) hf⟩

theorem csrRead_setCore (c : Core) :
    csrRead (s.setCore (coreOf a) c) a 0x200 = some (c.lanepart.zeroExtend 64) ∧
    csrRead (s.setCore (coreOf a) c) a 0x202 = some (c.ufnaddr.zeroExtend 64) ∧
    csrRead (s.setCore (coreOf a) c) a 0x204 = some (c.ufnvalid.zeroExtend 64) ∧
    csrRead (s.setCore (coreOf a) c) a 0x551 = some (c.smpctl.zeroExtend 64) ∧
    csrRead (s.setCore (coreOf a) c) a 0x552 = some c.smpbase := by
  have hc := State.core_setCore_self s (coreOf a) c
  exact ⟨congrArg (fun c : Core => some (c.lanepart.zeroExtend 64)) hc, congrArg (fun c : Core => some (c.ufnaddr.zeroExtend 64)) hc,
    congrArg (fun c : Core => some (c.ufnvalid.zeroExtend 64)) hc, congrArg (fun c : Core => some (c.smpctl.zeroExtend 64)) hc,
    congrArg (fun c : Core => some c.smpbase) hc⟩

theorem csrRead_setCluster (q : Cluster) :
    csrRead (s.setCluster (clusterOf a) q) a 0x300 = some ((BitVec.ofBool q.belpol).zeroExtend 64) ∧
    csrRead (s.setCluster (clusterOf a) q) a 0x302 = some (q.droopth.zeroExtend 64) := by
  have hq := State.cluster_setCluster_self s (clusterOf a) q
  exact ⟨congrArg (fun q : Cluster => some ((BitVec.ofBool q.belpol).zeroExtend 64)) hq,
    congrArg (fun q : Cluster => some (q.droopth.zeroExtend 64)) hq⟩

end

/-- The numbers of the plain registers that are alone (R85 to R87, R391, R394). -/
def csrPlain (m : Nat) : Prop :=
  m = 0x003 ∨ m = 0x006 ∨ m = 0x007 ∨ m = 0x008 ∨ m = 0x101 ∨ m = 0x102 ∨ m = 0x103 ∨ m = 0x104 ∨ m = 0x105 ∨
  m = 0x202 ∨ m = 0x300 ∨ m = 0x302 ∨ m = 0x400 ∨ m = 0x542 ∨ m = 0x552

/-- The one bit of a value. -/
theorem ofBool_low {x : W64} (h : fits 1 x = true) : (BitVec.ofBool (x.getLsbD 0)).zeroExtend 64 = x := by
  have hbit : BitVec.ofBool (x.getLsbD 0) = x.extractLsb' 0 1 := by
    ext i hi
    obtain rfl : i = 0 := by omega
    simp
  rw [hbit, fits_low h]

theorem csrWrite_plain_reads {s t : State} {a : Nat} {n : CsrNum} {v : W64} (hn : csrPlain n.toNat) (h : csrWrite s a n v = some t) :
    csrRead t a n = some v := by
  have hlit (m : Nat) (hm : n.toNat = m) : n = BitVec.ofNat 11 m := by rw [← hm, BitVec.ofNat_toNat, BitVec.setWidth_eq]
  have hctx {b : Bool} {u : Vec} (h : (if !isDrone a && b then some (s.setVec a u) else none) = some t) :
      isDrone a = false ∧ b = true ∧ s.setVec a u = t := by
    obtain ⟨hc, ht⟩ := Option.ite_none_right_eq_some.mp h
    simp only [Bool.and_eq_true, Bool.not_eq_true'] at hc
    exact ⟨hc.1, hc.2, Option.some.inj ht⟩
  have hcond {c : Prop} [Decidable c] {u : State} (h : (if c then some u else none) = some t) : c ∧ u = t := by
    obtain ⟨hc, ht⟩ := Option.ite_none_right_eq_some.mp h
    exact ⟨hc, Option.some.inj ht⟩
  unfold csrPlain at hn
  rcases hn with hm | hm | hm | hm | hm | hm | hm | hm | hm | hm | hm | hm | hm | hm | hm
  all_goals obtain rfl := hlit _ hm
  · obtain ⟨hd, hf, rfl⟩ := hctx h
    obtain ⟨-, hr, -⟩ := csrRead_setVec (s := s) hd { s.vec a with vstart := v.extractLsb' 0 13 }
    exact hr.trans (congrArg some (fits_low hf))
  · obtain ⟨hd, hf, rfl⟩ := hctx h
    obtain ⟨-, -, hr, -⟩ := csrRead_setVec (s := s) hd { s.vec a with scalebase := v.extractLsb' 0 8 }
    exact hr.trans (congrArg some (fits_low hf))
  · obtain ⟨hd, hf, rfl⟩ := hctx h
    obtain ⟨-, -, -, hr, -⟩ := csrRead_setVec (s := s) hd { s.vec a with flags := v.extractLsb' 0 7 }
    exact hr.trans (congrArg some (fits_low hf))
  · obtain ⟨hd, hf, rfl⟩ := hctx h
    obtain ⟨-, -, -, -, hr⟩ := csrRead_setVec (s := s) hd { s.vec a with ftrap := v.extractLsb' 0 7 }
    exact hr.trans (congrArg some (fits_low hf))
  · obtain ⟨hf, rfl⟩ := hcond h
    obtain ⟨-, hr, -⟩ := csrRead_setFront (s := s) (a := a) { s.front a with cause := v.extractLsb' 0 29 }
    exact hr.trans (congrArg some (fits_low hf))
  · obtain ⟨-, rfl⟩ := hcond h
    obtain ⟨-, -, hr, -⟩ := csrRead_setFront (s := s) (a := a) { s.front a with epc := v }
    exact hr
  · obtain rfl := Option.some.inj h
    obtain ⟨-, -, -, hr, -⟩ := csrRead_setFront (s := s) (a := a) { s.front a with tval := v }
    exact hr
  · obtain ⟨-, rfl⟩ := hcond h
    obtain ⟨-, -, -, -, hr, -⟩ := csrRead_setFront (s := s) (a := a) { s.front a with tvec := v }
    exact hr
  · obtain rfl := Option.some.inj h
    obtain ⟨-, -, -, -, -, hr⟩ := csrRead_setFront (s := s) (a := a) { s.front a with scratch := v }
    exact hr
  · obtain ⟨hf, rfl⟩ := hcond h
    obtain ⟨-, hr, -⟩ := csrRead_setCore (s := s) (a := a) { s.core (coreOf a) with ufnaddr := v.extractLsb' 0 10 }
    exact hr.trans (congrArg some (fits_low hf))
  · obtain ⟨hf, rfl⟩ := hcond h
    obtain ⟨hr, -⟩ := csrRead_setCluster (s := s) (a := a) { s.cluster (clusterOf a) with belpol := v.getLsbD 0 }
    exact hr.trans (congrArg some (ofBool_low hf))
  · obtain ⟨hf, rfl⟩ := hcond h
    obtain ⟨-, hr⟩ := csrRead_setCluster (s := s) (a := a) { s.cluster (clusterOf a) with droopth := v.extractLsb' 0 8 }
    exact hr.trans (congrArg some (fits_low hf))
  · obtain ⟨hf, rfl⟩ := hcond h
    exact congrArg some (fits_low hf)
  · obtain ⟨hf, rfl⟩ := hcond h
    exact congrArg some (fits_low hf)
  · obtain ⟨-, rfl⟩ := hcond h
    obtain ⟨-, -, -, -, hr⟩ := csrRead_setCore (s := s) (a := a) { s.core (coreOf a) with smpbase := v }
    exact hr

/-- STATUS keeps its read-only bit (R86). -/
theorem csrWrite_status_reads {s t : State} {a : Nat} {v : W64} (h : csrWrite s a 0x100 v = some t) :
    csrRead t a 0x100 = some ((v &&& 0xF) ||| ((s.front a).status.zeroExtend 64 &&& 0x10)) := by
  obtain ⟨hf, ht⟩ := Option.ite_none_right_eq_some.mp h
  obtain rfl := Option.some.inj ht
  obtain ⟨hr, -⟩ := csrRead_setFront (s := s) (a := a)
    { s.front a with status := (s.front a).status.extractLsb' 4 1 ++ v.extractLsb' 0 4 }
  have hbits (b : BitVec 5) : (b.extractLsb' 4 1 ++ v.extractLsb' 0 4).zeroExtend 64 = (v &&& 0xF) ||| (b.zeroExtend 64 &&& 0x10) := by
    have hv : v &&& 0xF = (v.extractLsb' 0 4).zeroExtend 64 := by
      apply BitVec.eq_of_toNat_eq
      rw [BitVec.toNat_and, BitVec.toNat_setWidth, BitVec.extractLsb'_toNat, Nat.shiftRight_zero]
      exact (Nat.and_two_pow_sub_one_eq_mod v.toNat 4).trans (by omega)
    rw [hv]
    generalize v.extractLsb' 0 4 = low
    revert b low
    decide
  exact hr.trans (congrArg some (hbits _))

/-! ## Registers with a test of their own -/

theorem csrWrite_vtype_reads {s t : State} {a : Nat} {v : W64} (h : csrWrite s a 0x000 v = some t) : csrRead t a 0x000 = some v := by
  rw [csrWrite_vtype] at h
  obtain ⟨⟨hd, hv⟩, ht⟩ := Option.ite_none_right_eq_some.mp h
  obtain rfl := Option.some.inj ht
  obtain ⟨hr, -⟩ := csrRead_setVec (s := s) hd ((s.vec a).setVtype v)
  unfold vtypeValid at hv
  simp only [Bool.and_eq_true, decide_eq_true_iff] at hv
  exact hr.trans (congrArg some (high_low hv.1.1.1))

theorem csrWrite_aspace_reads {s t : State} {a : Nat} {v : W64} (h : csrWrite s a 0x106 v = some t) : csrRead t a 0x106 = some v := by
  rw [csrWrite_aspace] at h
  obtain ⟨-, ht⟩ := Option.ite_none_right_eq_some.mp h
  obtain rfl := Option.some.inj ht
  have hf := State.setAspace_front s a v a
  rw [if_pos rfl] at hf
  exact congrArg (fun f : Front => some f.aspace) hf

theorem csrWrite_lanepart_reads {s t : State} {a : Nat} {v : W64} (h : csrWrite s a 0x200 v = some t) : csrRead t a 0x200 = some v := by
  rw [csrWrite_lanepart, BitVec.setWidth_eq_extractLsb' (by norm_num)] at h
  obtain ⟨hv, ht⟩ := Option.ite_none_right_eq_some.mp h
  obtain rfl := Option.some.inj ht
  obtain ⟨hr, -⟩ := csrRead_setCore (s := s) (a := a) { s.core (coreOf a) with lanepart := v.extractLsb' 0 24 }
  exact hr.trans (congrArg some (high_low ((lanepartOk_iff _ _).mp hv).1))

theorem csrWrite_ufnvalid_reads {s t : State} {a : Nat} {v : W64} (h : csrWrite s a 0x204 v = some t) : csrRead t a 0x204 = some v := by
  rw [csrWrite_ufnvalid, BitVec.setWidth_eq_extractLsb' (by norm_num)] at h
  obtain ⟨hv, ht⟩ := Option.ite_none_right_eq_some.mp h
  obtain rfl := Option.some.inj ht
  obtain ⟨-, -, hr, -⟩ := csrRead_setCore (s := s) (a := a) { s.core (coreOf a) with ufnvalid := v.extractLsb' 0 16 }
  unfold ufnvalidOk at hv
  simp only [Bool.and_eq_true, decide_eq_true_iff] at hv
  exact hr.trans (congrArg some (high_low hv.1))

theorem csrWrite_smpctl_reads {s t : State} {a : Nat} {v : W64} (h : csrWrite s a 0x551 v = some t) : csrRead t a 0x551 = some v := by
  obtain ⟨hv, ht⟩ := Option.ite_none_right_eq_some.mp h
  simp only [Bool.and_eq_true, decide_eq_true_iff] at hv
  have hlow := high_low hv.1.1.1
  obtain rfl := Option.some.inj ht
  have hread (c : Core) (hc : c.smpctl = v.extractLsb' 0 32) : csrRead (s.setCore (coreOf a) c) a 0x551 = some v := by
    obtain ⟨-, -, -, hr, -⟩ := csrRead_setCore (s := s) (a := a) c
    rw [hr, hc, hlow]
  split
  · exact hread _ rfl
  · exact hread _ rfl

/-! ## Ranges of registers -/

section
variable (s : State) (a : Nat) {m : Nat}

theorem csrReadRange_evc (h : 0x500 ≤ m ∧ m ≤ 0x507) : csrReadRange s a m = some ((s.core (coreOf a)).evc.getD (m - 0x500) 0) := by
  rw [csrReadRange, if_neg, if_pos h]
  omega

theorem csrReadRange_evs (h : 0x508 ≤ m ∧ m ≤ 0x50F) :
    csrReadRange s a m = some (((s.core (coreOf a)).evs.getD (m - 0x508) 0).zeroExtend 64) := by
  rw [csrReadRange, if_neg, if_neg, if_pos h]
  all_goals omega

theorem csrReadRange_kvc (h : 0x510 ≤ m ∧ m ≤ 0x517) : csrReadRange s a m = some ((s.cluster (clusterOf a)).kvc.getD (m - 0x510) 0) := by
  rw [csrReadRange, if_neg, if_neg, if_neg, if_pos h]
  all_goals omega

theorem csrReadRange_kvs (h : 0x518 ≤ m ∧ m ≤ 0x51F) :
    csrReadRange s a m = some (((s.cluster (clusterOf a)).kvs.getD (m - 0x518) 0).zeroExtend 64) := by
  rw [csrReadRange, if_neg, if_neg, if_neg, if_neg, if_pos h]
  all_goals omega

theorem csrReadRange_dvc (h : 0x520 ≤ m ∧ m ≤ 0x52F) : csrReadRange s a m = some (s.dvc.getD (m - 0x520) 0) := by
  rw [csrReadRange, if_neg, if_neg, if_neg, if_neg, if_neg, if_pos h]
  all_goals omega

theorem csrReadRange_dvs (h : 0x530 ≤ m ∧ m ≤ 0x53F) : csrReadRange s a m = some ((s.dvs.getD (m - 0x530) 0).zeroExtend 64) := by
  rw [csrReadRange, if_neg, if_neg, if_neg, if_neg, if_neg, if_neg, if_pos h]
  all_goals omega

theorem csrReadRange_bpaddr (h : 0x548 ≤ m ∧ m ≤ 0x54B) :
    csrReadRange s a m = some ((s.core (coreOf a)).bpaddr.getD (m - 0x548) 0) := by
  rw [csrReadRange, if_neg, if_neg, if_neg, if_neg, if_neg, if_neg, if_neg, if_pos h]
  all_goals omega

theorem csrReadRange_bpctl (h : 0x54C ≤ m ∧ m ≤ 0x54F) :
    csrReadRange s a m = some (((s.core (coreOf a)).bpctl.getD (m - 0x54C) 0).zeroExtend 64) := by
  rw [csrReadRange, if_neg, if_neg, if_neg, if_neg, if_neg, if_neg, if_neg, if_neg, if_pos h]
  all_goals omega

end

/-- An entry of an array reads what was written. -/
theorem getD_setIfInBounds_self {α : Type} {n i : Nat} (v : Vector α n) (h : i < n) (x d : α) : (v.setIfInBounds i x).getD i d = x := by
  rw [getD_setIfInBounds, if_pos ⟨rfl, h⟩]

/-- A selector reads back what was written (R392). -/
theorem evsWrite_reads {s t : State} {a : Nat} {n : CsrNum} {v : W64}
    (hn : (0x508 ≤ n.toNat ∧ n.toNat ≤ 0x50F) ∨ (0x518 ≤ n.toNat ∧ n.toNat ≤ 0x51F) ∨ (0x530 ≤ n.toNat ∧ n.toNat ≤ 0x53F))
    (h : evsWrite s a n v = some t) : csrReadRange t a n.toNat = some v := by
  obtain ⟨hv, ht⟩ := Option.ite_none_left_eq_some.mp h
  simp only [Bool.or_eq_true, decide_eq_true_iff, ne_eq, not_or, not_not] at hv
  have hlow := high_low hv.1
  dsimp only at ht
  split at ht
  next hlt =>
    obtain rfl := Option.some.inj ht
    rw [csrReadRange_evs _ _ (by omega), State.core_setCore_self, getD_setIfInBounds_self _ (by omega), hlow]
  next hge =>
  split at ht
  next hlt =>
    obtain rfl := Option.some.inj ht
    rw [csrReadRange_kvs _ _ (by omega), State.cluster_setCluster_self, getD_setIfInBounds_self _ (by omega), hlow]
  next hge' =>
    obtain rfl := Option.some.inj ht
    rw [csrReadRange_dvs _ _ (by omega), getD_setIfInBounds_self _ (by omega), hlow]

/-- A counter and a breakpoint register read back what was written (R392, R393). -/
theorem plainWrite_range_reads {s t : State} {a : Nat} {n : CsrNum} {v : W64}
    (hn : (0x500 ≤ n.toNat ∧ n.toNat ≤ 0x53F) ∨ (0x548 ≤ n.toNat ∧ n.toNat ≤ 0x54F))
    (h : plainWrite s a n v = some t) : csrReadRange t a n.toNat = some v := by
  unfold plainWrite at h
  dsimp only at h
  split at h
  case h_17 =>
    split at h
    next hm =>
      obtain rfl := Option.some.inj h
      rw [csrReadRange_evc _ _ hm, State.core_setCore_self, getD_setIfInBounds_self _ (by omega)]
    split at h
    next hm =>
      obtain rfl := Option.some.inj h
      rw [csrReadRange_kvc _ _ hm, State.cluster_setCluster_self, getD_setIfInBounds_self _ (by omega)]
    split at h
    next hm =>
      obtain rfl := Option.some.inj h
      rw [csrReadRange_dvc _ _ hm, getD_setIfInBounds_self _ (by omega)]
    split at h
    next hm =>
      obtain ⟨-, ht⟩ := Option.ite_none_right_eq_some.mp h
      obtain rfl := Option.some.inj ht
      rw [csrReadRange_bpaddr _ _ hm, State.core_setCore_self, getD_setIfInBounds_self _ (by omega)]
    split at h
    next hm =>
      obtain ⟨hv, ht⟩ := Option.ite_none_right_eq_some.mp h
      simp only [Bool.and_eq_true] at hv
      obtain rfl := Option.some.inj ht
      rw [csrReadRange_bpctl _ _ hm, State.core_setCore_self, getD_setIfInBounds_self _ (by omega), fits_low hv.1.1.1.1]
    nomatch h
  all_goals omega

theorem csrWrite_range_reads {s t : State} {a : Nat} {n : CsrNum} {v : W64}
    (hn : (0x500 ≤ n.toNat ∧ n.toNat ≤ 0x53F) ∨ (0x548 ≤ n.toNat ∧ n.toNat ≤ 0x54F))
    (h : csrWrite s a n v = some t) : csrRead t a n = some v := by
  rw [csrRead_range (by unfold csrInRange; omega)]
  unfold csrWrite at h
  split at h
  case h_13 =>
    split at h
    next hm => exact evsWrite_reads hm h
    next => exact plainWrite_range_reads hn h
  all_goals omega

/-- Settles O20. -/
theorem csrNumbers : Obligations.CsrNumbers := by
  unfold Obligations.CsrNumbers
  refine ⟨fun s t a n v h => ⟨fun hn => ?_, fun hn => ?_⟩, fun s a n => ?_⟩
  · have hcases : n = 0x000 ∨ n = 0x106 ∨ n = 0x200 ∨ n = 0x204 ∨ n = 0x551 ∨ csrPlain n.toNat ∨
        (0x500 ≤ n.toNat ∧ n.toNat ≤ 0x53F) ∨ (0x548 ≤ n.toNat ∧ n.toNat ≤ 0x54F) := by
      unfold csrPlain
      simp only [← BitVec.toNat_inj, BitVec.reduceToNat] at hn ⊢
      omega
    rcases hcases with rfl | rfl | rfl | rfl | rfl | hplain | hrange
    · exact csrWrite_vtype_reads h
    · exact csrWrite_aspace_reads h
    · exact csrWrite_lanepart_reads h
    · exact csrWrite_ufnvalid_reads h
    · exact csrWrite_smpctl_reads h
    · exact csrWrite_plain_reads hplain h
    · exact csrWrite_range_reads hrange h
  · subst hn
    exact csrWrite_status_reads h
  · rw [Bool.eq_iff_iff, csrRead_isSome, decide_eq_true_iff]
    unfold csrAssigned
    simp only [← BitVec.toNat_inj]
    rfl

end Sys2Proof.Machine
end

section
/-! PROOFS. `vcfg.settype`, `vcfg.getmax` and `vcfg.lanereq` (R85, R154, R156, R157): O31. -/
namespace Sys2Proof.Machine

/-- The two readings of VLMAX. -/
theorem vlmaxFor_eq (grant : BitVec 8) (vt : VType) : vlmaxFor grant vt = vlmaxOf (lanesOf grant) vt := by
  unfold vlmaxFor vlmaxOf lanesOf
  rw [List.countP_eq_length_filter]

section
variable {s : State} {k : Nat} {d a : XReg} (h : s.Issues k [a] [d])
include h

theorem exec_vcfgSettype : exec (.vcfgSettype d a) s =
    if vtypeValid ((s.front k).xr a) then
      .next (((s.setVec k ((s.vec k).setVtype ((s.front k).xr a))).writeX k d
        (((s.vec k).setVtype ((s.front k).xr a)).vlmax.zeroExtend 64)).retire k ((s.front k).pc + 4))
    else s.scalarTrap k (wordTrap 2 ((Sys2Proof.encode (.vcfgSettype d a)).getD 0)) := by
  have hexec : exec (.vcfgSettype d a) s = execVcfgSettype d a s := rfl
  rw [hexec, execVcfgSettype, onFront_ready h]
  dsimp only [vtypeWrite]
  cases vtypeValid ((s.front k).xr a) with
  | false => rfl
  | true => simp only [if_pos, State.vec_setVec_self]

theorem exec_vcfgGetmax : exec (.vcfgGetmax d a) s =
    if vtypeValid ((s.front k).xr a) then
      .next ((s.writeX k d (BitVec.ofNat 64 (vlmaxFor (s.vec k).fgrant (((s.front k).xr a).setWidth 24)))).retire k ((s.front k).pc + 4))
    else s.scalarTrap k (wordTrap 2 ((Sys2Proof.encode (.vcfgGetmax d a)).getD 0)) := by
  have hexec : exec (.vcfgGetmax d a) s = execVcfgGetmax d a s := rfl
  rw [hexec, execVcfgGetmax, onFront_ready h, vlmaxFor_eq, BitVec.setWidth_eq_extractLsb' (by norm_num)]
  dsimp only
  cases vtypeValid ((s.front k).xr a) <;> rfl

theorem exec_vcfgLanereq : exec (.vcfgLanereq d a) s =
    if ((s.front k).xr a).toNat ≤ 8 then
      .next ((((s.setVec k { s.vec k with lanereq := ((s.front k).xr a).setWidth 4 }).promptArbiter (coreOf k)).writeX k d
        ((s.vec k).lanereq.zeroExtend 64)).retire k ((s.front k).pc + 4))
    else s.scalarTrap k (wordTrap 2 ((Sys2Proof.encode (.vcfgLanereq d a)).getD 0)) := by
  have hexec : exec (.vcfgLanereq d a) s = execVcfgLanereq d a s := rfl
  rw [hexec, execVcfgLanereq, onFront_ready h, BitVec.setWidth_eq_extractLsb' (by norm_num)]
  dsimp only [lanereqWrite]
  by_cases hx : ((s.front k).xr a).toNat ≤ 8
  · rw [decide_eq_true hx, if_pos hx]
    rfl
  · rw [decide_eq_false hx, if_neg hx]
    rfl

end

/-- Settles O31. -/
theorem vectorConfiguration : Obligations.VectorConfiguration := by
  unfold Obligations.VectorConfiguration
  intro s k d a h x v npc word
  have hzero {n : Nat} (y : BitVec n) : BitVec.ofNat 64 y.toNat = y.zeroExtend 64 := BitVec.ofNat_toNat ..
  have hset := exec_vcfgSettype h
  have hget := exec_vcfgGetmax h
  have hreq := exec_vcfgLanereq h
  refine ⟨fun hv => ?_, fun hv => ?_, fun hx => ?_, fun hb hh => ⟨fun hv => ⟨?_, ?_⟩, fun hx => ?_⟩⟩
  · have hvm := v.setVtype_vlmax x
    have hvl := v.setVtype_vl x
    rw [hvm, ← vlmaxFor_eq] at hvl
    rw [← vlmaxFor_eq] at hvm
    refine ⟨v.setVtype x, (BitVec.setWidth_eq_extractLsb' (by norm_num)).symm, hvm, hvl, rfl, ?_⟩
    rw [← hvm, hzero]
    exact ⟨_, hset.trans (if_pos hv), scalarResult_writeX ..⟩
  · exact ⟨_, hget.trans (if_pos hv), scalarResult_writeX ..⟩
  · rw [hzero]
    exact ⟨_, hreq.trans (if_pos hx), scalarResult_writeX ..⟩
  · exact State.scalarTrap_traps hb hh (hset.trans (if_neg (by simpa using hv)))
  · exact State.scalarTrap_traps hb hh (hget.trans (if_neg (by simpa using hv)))
  · exact State.scalarTrap_traps hb hh (hreq.trans (if_neg (by simpa using hx)))

end Sys2Proof.Machine
end

section
/-! PROOFS. A step of a front: the turn of the contexts, the fetch, the tests on the word, and the instruction (R88, R98, R128,
R134, R246, R315): O1, O2. -/
namespace Sys2Proof.Machine

/-! ## A step whose choice stands in the schedule -/

/-- The move of a choice once time has passed. -/
def State.moveOf (s : State) (c : Choice) : Out :=
  match s.begin c with
  | .done t => .next t.settle
  | .run i t => settleOut (c.finish s (exec i t))

theorem State.moveOf_done {s t : State} {c : Choice} (h : s.begin c = .done t) : s.moveOf c = .next t.settle := by
  rw [State.moveOf, h]

theorem State.moveOf_run {s t : State} {c : Choice} {i : Instr} (h : s.begin c = .run i t) :
    s.moveOf c = settleOut (c.finish s (exec i t)) := by
  rw [State.moveOf, h]

/-- The state in which a front begins its move: time has passed (R246). -/
def State.frontTime (s : State) (a : Nat) (df : Bool) : State := s.tick (clusterOf a) (s.edgesBefore (.front a df))

/-- What is left of a schedule. -/
def State.withSched (s : State) (rest : List Choice) : State := { s with sched := rest }

/-- The state in which a front moves. -/
def State.asFront (s : State) (a : Nat) (df : Bool) : State := { s with actor := .front a df }

theorem step_front {s : State} {a : Nat} {df : Bool} {rest : List Choice} (h : s.sched = .front a df :: rest) :
    step s = ((s.withSched rest).frontTime a df).moveOf (((s.withSched rest).frontTime a df).turn (.front a df)) := by
  have hnext : s.nextChoice = some (.front a df, { s with sched := rest }) := by
    rw [State.nextChoice, h]
  unfold step
  rw [hnext]
  rfl

/-! ## The turn of the contexts (R315) -/

/-- Nothing before the first that qualifies does. -/
theorem find?_takeWhile_first {p : Nat → Bool} {a b : Nat} : ∀ {l : List Nat}, (l.takeWhile (· ≠ a)).find? p = some b →
    (l.takeWhile (· ≠ b)).find? p = none
  | [], _ => rfl
  | x :: l, h => by
    by_cases hx : x = a
    · simp [hx] at h
    · rw [List.takeWhile_cons_of_pos (by simpa using hx)] at h
      by_cases hp : p x = true
      · rw [List.find?_cons_of_pos hp] at h
        obtain rfl := Option.some.inj h
        rw [List.takeWhile_cons_of_neg (by simp)]
        rfl
      · rw [List.find?_cons_of_neg hp] at h
        have hxb : x ≠ b := fun hxb => hp (hxb ▸ List.find?_some h)
        rw [List.takeWhile_cons_of_pos (by simpa using hxb), List.find?_cons_of_neg hp]
        exact find?_takeWhile_first h

section
variable {s : State} {a b : Nat} (h : b ∈ s.frontsBefore a)
include h

/-- The contexts before a context in the order are those of its core. -/
theorem State.frontsBefore_core : isDrone a = false ∧ isDrone b = false ∧ coreOf b = coreOf a ∧ clusterOf b = clusterOf a := by
  unfold State.frontsBefore at h
  split at h
  · simp at h
  · next hd =>
    obtain ⟨i, -, hb⟩ := List.mem_map.mp (List.takeWhile_subset _ h)
    have ha : a < 1024 := by simpa [isDrone] using hd
    have hcore : coreOf a = a / 4 := if_pos ha
    have hlt : b < 1024 := by omega
    refine ⟨by simpa using hd, isDrone_context hlt, ?_, ?_⟩
    · rw [hcore, coreOf, if_pos hlt]
      omega
    · rw [clusterOf, if_pos hlt, clusterOf, if_pos ha]
      omega

theorem State.frontTime_core (df : Bool) (t : State) : t.frontTime b df = t.frontTime a df := by
  obtain ⟨ha, hb, hcore, hcluster⟩ := State.frontsBefore_core h
  unfold State.frontTime State.edgesBefore
  dsimp only
  rw [ha, hb, hcore, hcluster]

end

theorem State.turn_ready {s : State} {a b : Nat} {df : Bool} (h : (s.frontsBefore a).find? s.ready? = some b) :
    s.turn (.front a df) = .front b df ∧ s.turn (.front b df) = .front b df := by
  obtain ⟨ha, hb, hcore, -⟩ := State.frontsBefore_core (List.mem_of_find?_eq_some h)
  refine ⟨by rw [State.turn, h]; rfl, ?_⟩
  have hnone : (s.frontsBefore b).find? s.ready? = none := by
    unfold State.frontsBefore at h ⊢
    rw [ha] at h
    rw [hb, hcore]
    exact find?_takeWhile_first h
  rw [State.turn, hnone]
  rfl

theorem State.turn_none {s : State} {a : Nat} (h : ∀ b ∈ s.frontsBefore a, s.ready? b = false) (df : Bool) :
    s.turn (.front a df) = .front a df := by
  have hnone : (s.frontsBefore a).find? s.ready? = none := List.find?_eq_none.mpr fun b hb => by simp [h b hb]
  rw [State.turn, hnone]
  rfl

/-! ## The fetch (R88, R121, R128) -/

/-- Nothing keeps a front from fetching. -/
def Front.fetches (f : Front) : Prop :=
  f.run = .running ∧ f.freezing = false ∧ f.frozen = false ∧ f.stopped = false ∧ (f.preempt && f.ie) = false

theorem Front.fetches_test {f : Front} (h : f.fetches) :
    (decide (f.run ≠ .running) || f.freezing || f.frozen || f.stopped || (f.preempt && f.ie)) = false := by
  obtain ⟨hrun, hfreezing, hfrozen, hstopped, hpreempt⟩ := h
  rw [hrun, hfreezing, hfrozen, hstopped, hpreempt]
  rfl

section
variable {s : State} {a : Nat} (h : (s.front a).fetches)
include h

theorem State.beginFront_word {w : InstrWord} (hw : s.fetchWord a = .word w) : s.beginFront a = s.beginWord a w := by
  unfold State.beginFront
  dsimp only
  rw [Front.fetches_test h, hw]
  rfl

/-- A fetch that fails as the first of a handler is fatal (R134). -/
theorem State.beginFront_fatal {c : Nat} (hc : s.fetchWord a = .trap c) (hentering : (s.front a).entering = true) :
    s.beginFront a = .done (((s.dropArrived (.front a)).noteFault a false (s.front a).aspace (s.front a).pc 4 c).fatal a (s.front a).cause true) := by
  unfold State.beginFront
  dsimp only
  rw [Front.fetches_test h, hc, hentering]
  rfl

/-- A fetch that fails traps (R128, R135). -/
theorem State.beginFront_trap {c : Nat} (hc : s.fetchWord a = .trap c) (hentering : (s.front a).entering = false)
    (hb : s.vecBusy a = false) :
    s.beginFront a = .done (((s.dropArrived (.front a)).noteFault a false (s.front a).aspace (s.front a).pc 4 c).takeTrap a false (s.front a).pc
      { code := c, tval := (s.front a).pc }) := by
  unfold State.beginFront
  dsimp only
  rw [Front.fetches_test h, hc, hentering, hb]
  rfl

end

/-- The word at an address of this device. -/
def State.wordAt (s : State) (pa : Nat) : InstrWord :=
  wordOfBytes (s.readByte pa) (s.readByte (pa + 1)) (s.readByte (pa + 2)) (s.readByte (pa + 3))

/-- A fetch from this device that passes its checks. -/
theorem State.fetchWord_local {s : State} {a pa : Nat} {io : Bool} (h : s.checkOwn a .fetch (s.front a).pc 4 = .ok (pa, io))
    (hd : isDomain pa = false) : s.fetchWord a = if s.uecc pa 4 then .trap 10 else .word (s.wordAt pa) := by
  unfold State.fetchWord
  dsimp only
  rw [State.checkFor_local h hd]
  dsimp only
  rw [hd]
  rfl

/-- A fetch that fails a check, with nothing on its way from other devices. -/
theorem State.fetchWord_error {s : State} {a c : Nat} (h : s.checkOwn a .fetch (s.front a).pc 4 = .error c) (harrived : s.arrived = [])
    (hrequests : s.requests = []) : s.fetchWord a = .trap (fetchCode (s.front a).pc c) := by
  have hcheck : s.checkFor (.front a) a false (s.front a).aspace (s.front a).sup .fetch (s.front a).pc 4 4 = .error c := by
    unfold State.checkFor State.arrivedFor State.asked
    rw [harrived, hrequests]
    unfold State.checkOwn at h
    split
    next hva =>
      rw [State.check, hva] at h
      exact h
    next => simpa using h
  unfold State.fetchWord
  dsimp only
  rw [hcheck]

/-- The test of canonical addresses (R128). -/
theorem canonical_iff (va : W64) : canonical va = true ↔ va.toNat / 2 ^ 57 = if va.getLsbD 56 then 127 else 0 := by
  have h : (va.extractLsb' 57 7).toNat = va.toNat / 2 ^ 57 := by
    rw [BitVec.extractLsb'_toNat, Nat.shiftRight_eq_div_pow]
    have := va.isLt
    omega
  unfold canonical
  rw [decide_eq_true_iff, ← BitVec.toNat_inj, h]
  cases va.getLsbD 56 <;> rfl

theorem fetchCode_eq (pc : W64) (c : Nat) :
    fetchCode pc c = if c = 10 ∨ c = 11 ∨ (c = 14 ∧ pc.toNat / 2 ^ 57 ≠ (if pc.getLsbD 56 then 127 else 0)) then c else 9 := by
  unfold fetchCode
  simp only [ne_eq, ← canonical_iff, Bool.or_eq_true, Bool.and_eq_true, decide_eq_true_iff, Bool.not_eq_true', Bool.not_eq_true, or_assoc]

/-! ## The tests on the word (R20, R98, R135) -/

/-- A trap that the word itself causes, before its meaning. -/
def State.wordTraps (s : State) (a : Nat) (w : InstrWord) (code : Nat) : Begin :=
  .done ((s.takeTrap a false (s.front a).pc (wordTrap code w)).finishIssue s a)

/-- Does a word belong to the other kind of agent (R20)? -/
def foreignWord (a : Nat) (w : InstrWord) : Bool := if isDrone a then contextWord w else droneWord w

/-- May the handler of a held trap not issue a word (R135, R241)? -/
def Front.bars (f : Front) (w : InstrWord) : Bool := f.held && (viqWord w || arrayWord w)

theorem State.beginWord_barred {s : State} {a : Nat} {w : InstrWord} (hb : s.vecBusy a = false)
    (h : (foreignWord a w || (s.front a).bars w) = true) : s.beginWord a w = s.wordTraps a w 1 := by
  unfold foreignWord Front.bars at h
  unfold State.beginWord State.wordTraps
  dsimp only
  rw [hb]
  rcases Bool.or_eq_true_iff.mp h with hforeign | hbars
  · rw [if_pos hforeign]
    rfl
  · rw [hbars]
    cases hforeign : (if isDrone a then contextWord w else droneWord w) <;> rfl

section
variable {s : State} {a : Nat} {w : InstrWord} (hf : foreignWord a w = false) (hh : (s.front a).bars w = false)
include hf hh

theorem State.beginWord_ok {i : Instr} (h : decodeWord w = .ok i) : s.beginWord a w = .run i s := by
  unfold foreignWord at hf
  unfold Front.bars at hh
  unfold State.beginWord
  dsimp only
  rw [hf, hh, h]
  rfl

theorem State.beginWord_reject {r : Reject} (h : decodeWord w = .error r) (hb : s.vecBusy a = false)
    (hviq : isDrone a = true ∨ viqWord w = false ∨ setlWord w = true) : s.beginWord a w = s.wordTraps a w (rejectCode r) := by
  have hfront : (!isDrone a && viqWord w && !setlWord w) = false := by
    obtain h | h | h := hviq <;> simp [h]
  unfold foreignWord at hf
  unfold Front.bars at hh
  unfold State.beginWord
  dsimp only
  rw [hf, hh, h, hb, hfront]
  rfl

end

/-- The instruction that a front runs (R88). -/
theorem State.beginFront_runs {s : State} {a pa : Nat} {io : Bool} {i : Instr}
    (h : (s.front a).fetches) (hcheck : s.checkOwn a .fetch (s.front a).pc 4 = .ok (pa, io)) (hd : isDomain pa = false)
    (hu : s.uecc pa 4 = false) (hf : foreignWord a (s.wordAt pa) = false) (hh : (s.front a).bars (s.wordAt pa) = false)
    (hi : decodeWord (s.wordAt pa) = .ok i) : s.beginFront a = .run i s := by
  have hw := State.fetchWord_local hcheck hd
  rw [hu] at hw
  exact (State.beginFront_word h hw).trans (State.beginWord_ok hf hh hi)

/-- A step of a front whose turn it is. -/
theorem step_front_turn {s : State} {a : Nat} {df : Bool} {rest : List Choice} (h : s.sched = .front a df :: rest)
    (hturn : ∀ b ∈ ((s.withSched rest).frontTime a df).frontsBefore a, ((s.withSched rest).frontTime a df).ready? b = false) :
    step s = ((s.withSched rest).frontTime a df).moveOf (.front a df) := by
  rw [step_front h, State.turn_none hturn]

/-- Settles O1. -/
theorem stepRunsFetchedInstruction : Obligations.StepRunsFetchedInstruction := by
  unfold Obligations.StepRunsFetchedInstruction
  intro s a df rest hs s1 before u f
  have hbefore : before = (s.withSched rest).frontTime a df := rfl
  clear_value before
  refine ⟨fun b hb => ?_, fun pa io i hturn hrun hfreezing hfrozen hstopped hpreempt hcheck hd hu hf hh hi => ?_⟩
  · have hstep := step_front (s := s.withSched (.front b df :: rest)) (rest := rest) rfl
    obtain ⟨hta, htb⟩ := State.turn_ready (df := df) hb
    have htime : (s.withSched rest).frontTime b df = before := (State.frontTime_core (List.mem_of_find?_eq_some hb) df _).trans hbefore.symm
    have hsame : (s.withSched (.front b df :: rest)).withSched rest = s.withSched rest := rfl
    rw [hsame, htime, htb] at hstep
    rw [step_front hs, ← hbefore, hta]
    exact hstep.symm
  · have hbegin : before.begin (.front a df) = .run i u := State.beginFront_runs ⟨hrun, hfreezing, hfrozen, hstopped, hpreempt⟩ hcheck hd hu hf hh hi
    have hstep : step s = settleOut (finishFront before a (exec i u)) := by
      subst hbefore
      exact (step_front_turn hs hturn).trans (State.moveOf_run hbegin)
    refine ⟨fun t ht => ?_, fun r hr => ?_, fun r hr => ?_⟩
    · rw [hstep, ht]
      rfl
    · rw [hstep, hr]
      rfl
    · rw [hstep, hr]
      rfl

/-! ## Traps before any instruction -/

/-- A trap as the only move of a front. -/
structure TrapStep (s t : State) (a : Nat) (x : Trap) : Prop where
  taken : TrapTaken s t a false (s.front a).pc x
  others : ∀ b, b ≠ a → t.front b = s.front b
  vecs : t.vecs = s.vecs
  mem : t.mem = s.mem

/-- A trap leaves the fronts, the vector sides and the memory as a front that takes it does. -/
theorem trapStep_of {s t : State} {a : Nat} {x : Trap} (hf : t.fronts = s.fronts.put a (trapFront s a false (s.front a).pc x))
    (hvecs : t.vecs = s.vecs) (hmem : t.mem = s.mem) : TrapStep s t a x := by
  have hfront (b : Nat) : t.front b = (s.setFront a (trapFront s a false (s.front a).pc x)).front b := by
    unfold State.front
    rw [hf]
    rfl
  exact ⟨trapTaken_front _ x ((hfront a).trans (State.front_setFront_self ..)),
    fun b hb => (hfront b).trans ((State.front_setFront ..).trans (if_neg hb)), hvecs, hmem⟩

/-- A front that has not issued adds at most the account of its fetch (R268). -/
theorem State.finishIssue_unissued {s t : State} {a : Nat} (h : t.hasIssued s a = false) :
    ∃ touches, t.finishIssue s a = { t with touches := touches } := by
  unfold State.finishIssue
  rw [h]
  dsimp only
  rw [if_neg Bool.false_ne_true]
  split
  · unfold State.noteFetch
    dsimp only
    split
    · exact ⟨t.touches, rfl⟩
    · exact ⟨_, rfl⟩
  · exact ⟨t.touches, rfl⟩

section
variable {s : State} {a : Nat} (hh : s.HandlerOk a)
include hh

/-- A fetch that fails (R128, R135). -/
theorem trapStep_fetch (c : Nat) (x : Trap) : TrapStep s
    (((s.dropArrived (.front a)).noteFault a false (s.front a).aspace (s.front a).pc 4 c).takeTrap a false (s.front a).pc x) a x := by
  have hsees : s.SeesAs ((s.dropArrived (.front a)).noteFault a false (s.front a).aspace (s.front a).pc 4 c) := ⟨rfl, fun _ => rfl, fun _ => rfl⟩
  obtain ⟨fired, ht, -⟩ := State.takeTrap_eq (hsees.handlerOk rfl hh) false (s.front a).pc x
  rw [ht]
  exact trapStep_of rfl rfl rfl

/-- A trap that the word itself causes (R98). -/
theorem trapStep_word (code : Nat) (w : InstrWord) :
    ∃ t, s.wordTraps a w code = .done t ∧ TrapStep s t a (wordTrap code w) := by
  obtain ⟨fired, ht, -⟩ := State.takeTrap_eq hh false (s.front a).pc (wordTrap code w)
  have hfront : (s.takeTrap a false (s.front a).pc (wordTrap code w)).front a = trapFront s a false (s.front a).pc (wordTrap code w) := by
    rw [ht]
    exact State.front_setFront_self ..
  have hissued : (s.takeTrap a false (s.front a).pc (wordTrap code w)).hasIssued s a = false := by
    rw [State.hasIssued, hfront]
    exact decide_eq_false fun h => h rfl
  obtain ⟨touches, hfin⟩ := State.finishIssue_unissued hissued
  refine ⟨_, rfl, ?_⟩
  rw [hfin, ht]
  exact trapStep_of rfl rfl rfl

end

/-- Settles O2. -/
theorem stepTrapsBadWords : Obligations.StepTrapsBadWords := by
  unfold Obligations.StepTrapsBadWords
  intro s a df rest hs s1 before u f hturn hrun hfreezing hfrozen hstopped hpreempt traps
  have hfetches : (u.front a).fetches := ⟨hrun, hfreezing, hfrozen, hstopped, hpreempt⟩
  have hdone {t : State} (h : u.beginFront a = .done t) : step s = .next t.settle :=
    (step_front_turn hs hturn).trans (State.moveOf_done h)
  have htraps {t : State} {x : Trap} (h : u.beginFront a = .done t) (ht : TrapStep u t a x) : traps x :=
    ⟨t, hdone h, ht.taken, ht.others, ht.vecs, ht.mem⟩
  refine ⟨fun c hcheck harrived hrequests => ?_, fun pa io hcheck hd hb hh => ⟨fun hu hentering => ?_, fun hu => ?_⟩⟩
  · have hw := State.fetchWord_error hcheck harrived hrequests
    rw [fetchCode_eq] at hw
    exact ⟨fun hentering => hdone (State.beginFront_fatal hfetches hw hentering),
      fun hentering hb hh => htraps (State.beginFront_trap hfetches hw hentering hb) (trapStep_fetch hh _ _)⟩
  · have hw := State.fetchWord_local hcheck hd
    rw [hu, if_pos rfl] at hw
    exact htraps (State.beginFront_trap hfetches hw hentering hb) (trapStep_fetch hh _ _)
  · have hw := State.fetchWord_local hcheck hd
    rw [hu, if_neg Bool.false_ne_true] at hw
    intro w foreign barred
    have hword {code : Nat} (h : u.beginWord a w = u.wordTraps a w code) : traps (wordTrap code w) := by
      obtain ⟨t, ht, htrap⟩ := trapStep_word hh code w
      exact htraps ((State.beginFront_word hfetches hw).trans (h.trans ht)) htrap
    have hreject {r : Reject} (hf : foreignWord a w = false) (hbar : (u.front a).bars w = false)
        (hviq : isDrone a = true ∨ viqWord w = false ∨ setlWord w = true) (hi : decodeWord w = .error r) : traps (wordTrap (rejectCode r) w) :=
      hword (State.beginWord_reject hf hbar hi hb hviq)
    exact ⟨fun hbad => hword (code := 1) (State.beginWord_barred hb hbad), fun hf hbar hviq => ⟨hreject hf hbar hviq, hreject hf hbar hviq⟩⟩

end Sys2Proof.Machine
end

section
/-! PROOFS. Issue from the VIQ and commit (R98, R135, R248, R257): O33. -/
namespace Sys2Proof.Machine

/-! ## What VECTOR_ISSUE answers -/

/-- Does an entry's word decode to an instruction with a property? -/
def Entry.decodesTo (e : Entry) (f : Instr → Bool) : Bool := match decodeWord e.word with | .ok i => f i | .error _ => false

/-- Do the tests of an entry wait, or its destinations (R248; log 8)? -/
def Vec.issueWaits (v : Vec) (e : Entry) : Bool := e.decodesTo fun i => v.testsPending e i || !v.entriesFree e

/-- An entry as it joins those in flight. -/
def Entry.issued (e : Entry) : Entry := { e with pix0 := e.pix, flags := 0, fpx := none, undo := Undo.empty, tally := Tally.empty }

/-- The head of the VIQ has joined the entries in flight. -/
def Vec.issueHead (v : Vec) (e : Entry) (l : List Entry) : Vec := { v with viq := l, infl := v.infl ++ [e.issued] }

/-- A core whose vector issue shows a word. -/
def Core.showVector (g : Core) (k : Nat) (w : InstrWord) : Core := { g with vshown := g.vshown.put (ctxOf k) w }

/-- The head of the VIQ has issued. -/
def State.issueHead (s : State) (k : Nat) (e : Entry) (l : List Entry) : State :=
  (s.setVec k ((s.vec k).issueHead e l)).setCore (coreOf k) ((s.core (coreOf k)).showVector k e.word)

/-- What the tests of the head of the VIQ lead to, once nothing keeps them. -/
def State.issueTested (s : State) (k : Nat) (e : Entry) (l : List Entry) : Out :=
  match issueTest s k e with
  | some c => s.stopVec k e e.pix.toNat (wordTrap c e.word)
  | none =>
    if e.decodesTo (s.presencePending k) then presenceWait s k e
    else if e.decodesTo (s.streamPending k) then .next s
    else .next (s.issueHead k e l)

section
variable {s : State} {k : Nat} {e : Entry} {l : List Entry}

/-- A side that rests, or has 16 instructions in flight, issues nothing (R135, R248, R257). -/
theorem exec_vectorIssue_rests (h : s.vectorRests k = true ∨ 16 ≤ (s.vec k).infl.length) : exec (.vectorIssue k) s = .next s := by
  refine if_pos ?_
  simpa using h

theorem exec_vectorIssue (hviq : (s.vec k).viq = e :: l) (hrests : s.vectorRests k = false) (hlen : (s.vec k).infl.length < 16) :
    exec (.vectorIssue k) s = if e.done then .next (s.issueHead k e l) else if (s.vec k).issueWaits e then .next s else s.issueTested k e l := by
  have hexec : exec (.vectorIssue k) s = execVectorIssue k s := rfl
  rw [hexec, execVectorIssue]
  dsimp only
  rw [if_neg (by simp [hrests, hlen]), hviq]
  dsimp only
  refine if_congr Iff.rfl rfl ?_
  unfold Vec.issueWaits State.issueTested Entry.decodesTo issueTest
  cases decodeWord e.word with
  | error r => rfl
  | ok i => rfl

end

/-! ## The head of the VIQ as the oldest entry that has not completed -/

/-- The head of the VIQ behind completed entries alone, and alone with its place in program order. -/
structure Vec.HeadOldest (v : Vec) (e : Entry) (l : List Entry) : Prop where
  viq : v.viq = e :: l
  isOpen : e.done = false
  done : ∀ x ∈ v.infl, x.done = true
  younger : ∀ x ∈ l, x.po ≠ e.po
  older : ∀ x ∈ v.infl, x.po ≠ e.po

section
variable {v : Vec} {e : Entry} {l : List Entry} (h : v.HeadOldest e l)
include h

theorem Vec.HeadOldest.open_ : v.open_ = e :: l.filter fun e => !e.done := by
  unfold Vec.open_
  rw [List.filter_eq_nil_iff.mpr fun y hy => by simp [h.done y hy], h.viq, List.nil_append, List.filter_cons_of_pos (by simp [h.isOpen])]

theorem Vec.HeadOldest.oldest : v.oldest e = true := by
  unfold Vec.oldest
  rw [h.open_]
  exact decide_eq_true rfl

/-- A stop at its own index leaves the entry as it is. -/
theorem Vec.HeadOldest.putEntry : v.putEntry (e.haltedAt e.pix.toNat) = v := by
  have hpix : BitVec.ofNat 13 e.pix.toNat = e.pix := by rw [BitVec.ofNat_toNat, BitVec.setWidth_eq]
  have hself : e.haltedAt e.pix.toNat = e := by
    unfold Entry.haltedAt
    rw [hpix]
    simp
  have hsame (xs : List Entry) (hx : ∀ x ∈ xs, x.po ≠ e.po) : (xs.map fun y => if y.po = e.po then e else y) = xs := by
    rw [List.map_congr_left fun y hy => if_neg (hx y hy), List.map_id'' fun _ => rfl]
  unfold Vec.putEntry
  rw [hself, hsame _ h.older, h.viq, List.map_cons, if_pos rfl, hsame _ h.younger, ← h.viq]

/-- The entries of the VIQ stay there, and nothing is unwound (R257, R258). -/
theorem Vec.HeadOldest.pullBack : v.pullBack.viq = (e :: l).map Entry.stopped ∧
    { v.pullBack with flags := v.flags, viq := v.viq, infl := v.infl, vstart := v.vstart } = v := by
  have hfind : v.infl.find? (fun e => !e.done && (e.flags &&& v.ftrap) ≠ 0) = none := List.find?_eq_none.mpr fun y hy => by simp [h.done y hy]
  have hdrop : v.infl.dropWhile (·.done) = [] := List.dropWhile_eq_nil_iff.mpr h.done
  unfold Vec.pullBack
  rw [hfind]
  refine ⟨?_, rfl⟩
  dsimp only [Vec.fromVcp]
  rw [hdrop, h.viq, List.nil_append]

end

section
variable {s : State} {k : Nat} {e : Entry} {l : List Entry} (h : (s.vec k).HeadOldest e l) (hdone : s.elementsDone k = true)
include h hdone

theorem State.stopVec_head (x : Trap) : s.stopVec k e e.pix.toNat x = .next (s.vectorTrap k e e.pix.toNat x) := by
  unfold State.stopVec State.mayTrap
  rw [h.oldest, hdone]
  rfl

end

/-- The trap of the head of the VIQ leaves its entries there, and the files and streams as they are (R98, R135). -/
theorem State.vectorTrap_head {s : State} {k : Nat} {e : Entry} {l : List Entry} (h : (s.vec k).HeadOldest e l) (hh : s.HandlerOk k) {x : Trap}
    (hreg : x.reg = none) :
    let t := s.vectorTrap k e e.pix.toNat x
    TrapTaken s t k true e.addr x ∧ (t.front k).held = true ∧ (t.vec k).viq = (e :: l).map Entry.stopped ∧
      { t.vec k with flags := (s.vec k).flags, viq := (s.vec k).viq, infl := (s.vec k).infl, vstart := (s.vec k).vstart } = s.vec k ∧
      t.mem = s.mem := by
  obtain ⟨hviq, hframe⟩ := h.pullBack
  obtain ⟨u, hu⟩ : ∃ u, u = (s.setVec k (s.vec k).pullBack).forget (.vector k) := ⟨_, rfl⟩
  have hvec : u.vec k = (s.vec k).pullBack := by rw [hu]; exact State.vec_setVec_self s k _
  have hok : u.HandlerOk k := by
    rw [hu]
    exact State.SeesAs.handlerOk (s := s) ⟨rfl, fun _ => rfl, fun _ => rfl⟩ rfl hh
  obtain ⟨fired, htrap, -⟩ := State.takeTrap_eq hok true e.addr x
  have ht : s.vectorTrap k e e.pix.toNat x = { u.setFront k (trapFront u k true e.addr x) with fired := fired } := by
    rw [State.vectorTrap_eq s k e _ hreg, h.putEntry, ← hu, htrap]
  have hfront : u.front k = s.front k := by rw [hu]; rfl
  have hself : (s.vectorTrap k e e.pix.toNat x).front k = trapFront u k true e.addr x := by
    rw [ht]
    exact State.front_setFront_self u k _
  have hself' : (s.vectorTrap k e e.pix.toNat x).vec k = (s.vec k).pullBack := by
    rw [ht]
    exact hvec
  refine ⟨(trapTaken_front e.addr x hself).congr hfront ?_ ?_, ?_, ?_, ?_, ?_⟩
  · rw [hvec]
    exact (congrArg Vec.vtype hframe :)
  · rw [hvec]
    exact (congrArg Vec.vl hframe :)
  · rw [hself]
    exact Bool.or_true _
  · rw [hself', hviq]
  · rw [hself']
    exact hframe
  · rw [ht, hu]
    rfl

/-! ## Commit -/

/-- With sampling off a commit takes no record (R394). -/
theorem State.sample_off {s : State} {k : Nat} (h : (s.core (coreOf k)).smpctl.getLsbD 0 = false) (e : Entry) : s.sample k e = s := by
  unfold State.sample
  dsimp only
  rw [h]
  split
  · rfl
  · split <;> rfl

/-- What a stop of a drone may change of a state: not what its vector side or the memory holds (R257, R393). -/
structure FrozenOnly (s t : State) (k : Nat) : Prop where
  vec : t.vec k = s.vec k
  front : { t.front k with
    freezing := (s.front k).freezing, frozen := (s.front k).frozen, spc := (s.front k).spc, vcp := (s.front k).vcp } = s.front k
  mem : t.mem = s.mem

theorem FrozenOnly.refl (s : State) (k : Nat) : FrozenOnly s s k := ⟨rfl, rfl, rfl⟩

theorem FrozenOnly.trans {s t u : State} {k : Nat} (h1 : FrozenOnly s t k) (h2 : FrozenOnly t u k) : FrozenOnly s u k where
  vec := h2.vec.trans h1.vec
  front := (congrArg (fun f : Front => { f with
    freezing := (s.front k).freezing, frozen := (s.front k).frozen, spc := (s.front k).spc, vcp := (s.front k).vcp }) h2.front).trans h1.front
  mem := h2.mem.trans h1.mem

theorem State.fire_frozenOnly (s : State) (src k : Nat) : FrozenOnly s (s.fire src) k := by
  unfold State.fire
  split
  · exact ⟨rfl, rfl, rfl⟩
  · exact .refl s k

theorem State.freeze_drone {k : Nat} (hd : isDrone k = true) (s : State) : FrozenOnly s (s.freeze k) k := by
  obtain ⟨u, hu⟩ : ∃ u, u = s.setFront k { s.front k with freezing := true } := ⟨_, rfl⟩
  have hfront : u.front k = { s.front k with freezing := true } := by rw [hu]; exact State.front_setFront_self ..
  have hfreeze : s.freeze k = u.tryFreeze k := by rw [hu]; rfl
  have hvec : u.vec k = s.vec k := by rw [hu]; rfl
  have hmem : u.mem = s.mem := by rw [hu]; rfl
  rw [hfreeze]
  unfold State.tryFreeze
  rw [hd]
  dsimp only
  split
  · exact ⟨hvec, by rw [hfront], hmem⟩
  · refine ⟨hvec, ?_, hmem⟩
    rw [if_pos rfl]
    rw [State.setCluster_front, State.front_setFront_self, hfront]

/-- What the comparators that an issue or commit meets do (R393). -/
def State.breakActs (s : State) (a kind : Nat) (pc : W64) : List Nat :=
  (if isDrone a then (List.range 4).map (fun q => 4 * clusterOf a + q) else [coreOf a]).flatMap fun g => (List.range 4).filterMap fun n =>
    if bpHit ((s.core g).bpaddr.getD n 0) ((s.core g).bpctl.getD n 0) kind (if isDrone a then none else some (ctxOf a)) pc then
      some (((s.core g).bpctl.getD n 0).extractLsb' 4 2).toNat else none

theorem State.breakpoints_eq (s : State) (a kind : Nat) (pc : W64) : s.breakpoints a kind pc =
    let u := if (s.breakActs a kind pc).any (fun t => t = 0 || t = 2) then s.fire 0 else s
    if (s.breakActs a kind pc).any (fun t => t = 1 || t = 2) then u.freeze a else u := rfl

/-- Where no comparator of its core is armed a commit of a context meets none. -/
theorem State.breakActs_off {s : State} {k : Nat} (hd : isDrone k = false) (h : ∀ n, ((s.core (coreOf k)).bpctl.getD n 0).getLsbD 0 = false)
    (kind : Nat) (pc : W64) : s.breakActs k kind pc = [] := by
  have hmiss (n : Nat) (ctx : Option Nat) :
      bpHit ((s.core (coreOf k)).bpaddr.getD n 0) ((s.core (coreOf k)).bpctl.getD n 0) kind ctx pc = false := by
    unfold bpHit
    rw [h n]
    rfl
  unfold State.breakActs
  rw [hd]
  refine List.flatMap_eq_nil_iff.mpr fun g hg => List.filterMap_eq_nil_iff.mpr fun n _ => if_neg ?_
  obtain rfl : g = coreOf k := by simpa using hg
  rw [hmiss]
  exact Bool.false_ne_true

/-- Where no comparator of its core is armed a commit changes nothing that the vector side holds (R393). -/
theorem State.breakpoints_off {s : State} {k : Nat} (h : ∀ n, ((s.core (coreOf k)).bpctl.getD n 0).getLsbD 0 = false) (kind : Nat) (pc : W64) :
    FrozenOnly s (s.breakpoints k kind pc) k := by
  rw [State.breakpoints_eq]
  cases hd : isDrone k with
  | true =>
    obtain ⟨u, hu⟩ : ∃ u, u = if (s.breakActs k kind pc).any (fun t => t = 0 || t = 2) then s.fire 0 else s := ⟨_, rfl⟩
    have hfired : FrozenOnly s u k := by
      rw [hu]
      split
      · exact s.fire_frozenOnly 0 k
      · exact .refl s k
    rw [← hu]
    dsimp only
    split
    · exact hfired.trans (State.freeze_drone hd u)
    · exact hfired
  | false =>
    rw [State.breakActs_off hd h]
    exact .refl s k

/-- The oldest entry in flight has committed, and counts (R85, R248, R392). -/
def State.commitHead (s : State) (k : Nat) (l : List Entry) : State :=
  ((s.setVec k { s.vec k with infl := l }).setFront k { s.front k with instret := (s.front k).instret + 1 }).countCore (coreOf k) 2 1

section
variable {s : State} {k : Nat} {e : Entry} {l : List Entry} (hinfl : (s.vec k).infl = e :: l)
include hinfl

theorem exec_vectorCommit_done (hdone : e.done = true) (h : (s.core (coreOf k)).smpctl.getLsbD 0 = false) :
    exec (.vectorCommit k) s = .next ((s.commitHead k l).breakpoints k 1 e.addr) := by
  have hexec : exec (.vectorCommit k) s = execVectorCommit k s := rfl
  rw [hexec, execVectorCommit]
  dsimp only
  rw [hinfl]
  dsimp only
  rw [hdone, State.sample_off h]
  rfl

theorem exec_vectorCommit_open (hdone : e.done = false) : exec (.vectorCommit k) s = .next s := by
  have hexec : exec (.vectorCommit k) s = execVectorCommit k s := rfl
  rw [hexec, execVectorCommit]
  dsimp only
  rw [hinfl]
  dsimp only
  rw [hdone]
  rfl

end

/-- A head whose tests wait stays in the VIQ (log 8). -/
theorem exec_vectorIssue_waits {s : State} {k : Nat} {e : Entry} {l : List Entry} (hviq : (s.vec k).viq = e :: l) (hd : e.done = false)
    (hw : (s.vec k).issueWaits e = true) : exec (.vectorIssue k) s = .next s := by
  by_cases h : s.vectorRests k = true ∨ 16 ≤ (s.vec k).infl.length
  · exact exec_vectorIssue_rests h
  · rw [not_or, Bool.not_eq_true, Nat.not_le] at h
    rw [exec_vectorIssue hviq h.1 h.2, hd, hw]
    rfl

/-- An entry that waits behind an older one that has not completed takes no trap (R135). -/
theorem State.stopVec_younger {s : State} {k : Nat} {e x : Entry} (hopen : (s.vec k).open_.head? = some x) (hpo : x.po ≠ e.po) (n : Nat) (y : Trap) :
    s.stopVec k e n y = .next s := by
  obtain ⟨xs, hxs⟩ := List.head?_eq_some_iff.mp hopen
  have hyoung : (s.vec k).oldest e = false := by
    unfold Vec.oldest
    rw [hxs]
    exact decide_eq_false hpo
  unfold State.stopVec State.mayTrap
  rw [hyoung]
  rfl

section
variable {s : State} {k : Nat} {e : Entry} {l : List Entry} (htest : issueTest s k e = none)
include htest

/-- The wait on a slot or a quarter of a tile (R225, R237). -/
theorem State.issueTested_presence (h : e.decodesTo (s.presencePending k) = true) : s.issueTested k e l = presenceWait s k e := by
  rw [State.issueTested, htest]
  exact if_pos h

/-- The wait on the entries that a stream has still to write (R203, R207). -/
theorem State.issueTested_stream (hp : e.decodesTo (s.presencePending k) = false) (h : e.decodesTo (s.streamPending k) = true) :
    s.issueTested k e l = .next s := by
  rw [State.issueTested, htest, hp, h]
  rfl

theorem State.issueTested_issues (hp : e.decodesTo (s.presencePending k) = false) (h : e.decodesTo (s.streamPending k) = false) :
    s.issueTested k e l = .next (s.issueHead k e l) := by
  rw [State.issueTested, htest, hp, h]
  rfl

end

theorem State.issueTested_stops {s : State} {k : Nat} {e : Entry} {l : List Entry} {c : Nat} (htest : issueTest s k e = some c) :
    s.issueTested k e l = s.stopVec k e e.pix.toNat (wordTrap c e.word) := by
  rw [State.issueTested, htest]

/-- What the issue of the head changes. -/
theorem State.issueHead_changes (s : State) (k : Nat) (e : Entry) (l : List Entry) :
    (∀ j, j ≠ k → (s.issueHead k e l).vec j = s.vec j) ∧
    (∀ g, { (s.issueHead k e l).core g with vshown := (s.core g).vshown } = s.core g) ∧
    (s.issueHead k e l).vec k = (s.vec k).issueHead e l := by
  refine ⟨fun j hj => (State.vec_setVec ..).trans (if_neg hj), fun g => ?_, State.vec_setVec_self ..⟩
  unfold State.issueHead
  rw [State.core_setCore]
  split
  · next hg =>
    rw [hg]
    rfl
  · rfl

/-- What a commit changes, where no comparator of its core is armed. -/
theorem State.commitHead_changes {s : State} {k : Nat} (l : List Entry) (hbp : ∀ n, ((s.core (coreOf k)).bpctl.getD n 0).getLsbD 0 = false)
    (pc : W64) : let t := (s.commitHead k l).breakpoints k 1 pc
    t.vec k = { s.vec k with infl := l } ∧ (t.front k).x = (s.front k).x ∧ (t.front k).pc = (s.front k).pc ∧
      (t.front k).instret = (s.front k).instret + 1 ∧ t.mem = s.mem := by
  intro t
  obtain ⟨u, hu⟩ : ∃ u, u = (s.setVec k { s.vec k with infl := l }).setFront k { s.front k with instret := (s.front k).instret + 1 } := ⟨_, rfl⟩
  have hcount : Accounted u (s.commitHead k l) := by rw [hu]; exact State.countCore_accounted _ _ _ _
  have hcore : ((s.commitHead k l).core (coreOf k)).bpctl = (s.core (coreOf k)).bpctl := by
    have hc : ((s.commitHead k l).core (coreOf k)).bpctl = (u.core (coreOf k)).bpctl := (congrArg Core.bpctl (hcount.cores (coreOf k)) :)
    rw [hc, hu]
    rfl
  have hkept : FrozenOnly (s.commitHead k l) t k := State.breakpoints_off (by rw [hcore]; exact hbp) 1 pc
  have hfront : (s.commitHead k l).front k = { s.front k with instret := (s.front k).instret + 1 } := by
    rw [hcount.front, hu]
    exact State.front_setFront_self _ _ _
  refine ⟨?_, ?_, ?_, ?_, ?_⟩
  · have hvec : (s.commitHead k l).vec k = u.vec k := (congrArg (fun x : State => x.vec k) hcount.rest :)
    rw [hkept.vec, hvec, hu]
    exact State.vec_setVec_self _ _ _
  · have h : (t.front k).x = ((s.commitHead k l).front k).x := (congrArg Front.x hkept.front :)
    rw [h, hfront]
  · have h : (t.front k).pc = ((s.commitHead k l).front k).pc := (congrArg Front.pc hkept.front :)
    rw [h, hfront]
  · have h : (t.front k).instret = ((s.commitHead k l).front k).instret := (congrArg Front.instret hkept.front :)
    rw [h, hfront]
  · have hmem : (s.commitHead k l).mem = u.mem := (congrArg State.mem hcount.rest :)
    rw [hkept.mem, hmem, hu]
    rfl

/-- Settles O33. -/
theorem vectorIssueAndCommit : Obligations.VectorIssueAndCommit := by
  unfold Obligations.VectorIssueAndCommit
  intro s k e l v waits absent
  have hwaits : waits = v.issueWaits e := by
    change (match decodeWord e.word with | .ok i => v.testsPending e i || !v.entriesFree e | .error _ => false) = _
    unfold Vec.issueWaits Entry.decodesTo
    rfl
  have habsent : absent = e.decodesTo := rfl
  clear_value waits absent
  subst hwaits habsent
  have hexec (hviq : v.viq = e :: l) (hrests : s.vectorRests k = false) (hlen : v.infl.length < 16) (hd : e.done = false)
      (hw : v.issueWaits e = false) : exec (.vectorIssue k) s = s.issueTested k e l := by
    rw [exec_vectorIssue hviq hrests hlen, hd, hw]
    rfl
  refine ⟨fun hviq => ⟨fun hstay => ?_, fun hrests hlen hw hd htest => ⟨fun hp hf => ?_, fun hp hf hdone hels hh hl hi => ?_, fun hp hs => ?_⟩,
    fun hrests hlen hgo => ⟨fun hready => ?_, fun c hd htest => ⟨fun ⟨x, _, _, hpo, hopen⟩ => ?_, fun hdone hels hh hl hi => ?_⟩⟩⟩,
    fun hinfl hd hsmp hbp => ?_, fun hinfl hd => exec_vectorCommit_open hinfl hd⟩
  · obtain hrests | hlen | ⟨hd, hw⟩ := hstay
    · exact exec_vectorIssue_rests (.inl hrests)
    · exact exec_vectorIssue_rests (.inr hlen)
    · exact exec_vectorIssue_waits hviq hd hw
  · rw [hexec hviq hrests hlen hd hw, State.issueTested_presence htest hp, presenceWait, hf]
    rfl
  · have hhead : v.HeadOldest e l := ⟨hviq, hd, hdone, hl, hi⟩
    obtain ⟨htaken, -, -, -, hmem⟩ := State.vectorTrap_head hhead hh (x := { code := 11 }) rfl
    rw [hexec hviq hrests hlen hd hw, State.issueTested_presence htest hp, presenceWait, hf, if_pos rfl, State.stopVec_head hhead hels]
    exact ⟨_, rfl, htaken, hmem⟩
  · rw [hexec hviq hrests hlen hd hw, State.issueTested_stream htest hp hs]
  · have hissues : exec (.vectorIssue k) s = .next (s.issueHead k e l) := by
      cases hd : e.done with
      | true =>
        rw [exec_vectorIssue hviq hrests hlen, hd]
        rfl
      | false =>
        obtain ⟨htest, hp, hs⟩ := hready.resolve_left (by simp [hd])
        rw [hexec hviq hrests hlen hd (hgo.resolve_left (by simp [hd])), State.issueTested_issues htest hp hs]
    obtain ⟨hothers, hcores, hvec⟩ := s.issueHead_changes k e l
    refine ⟨_, hissues, hothers, hcores, rfl, ?_, ?_, ?_⟩
    · rw [hvec]
      rfl
    · rw [hvec]
      exact ⟨e.issued, rfl, rfl, rfl, rfl, rfl⟩
    · rw [hvec]
      rfl
  · rw [hexec hviq hrests hlen hd (hgo.resolve_left (by simp [hd])), State.issueTested_stops htest, State.stopVec_younger hopen hpo]
  · have hhead : v.HeadOldest e l := ⟨hviq, hd, hdone, hl, hi⟩
    obtain ⟨htaken, hheld, hvq, hframe, hmem⟩ := State.vectorTrap_head hhead hh (x := wordTrap c e.word) rfl
    rw [hexec hviq hrests hlen hd (hgo.resolve_left (by simp [hd])), State.issueTested_stops htest, State.stopVec_head hhead hels]
    refine ⟨_, rfl, htaken, hheld, ?_, (congrArg Vec.v hframe :), (congrArg Vec.tag hframe :), (congrArg Vec.m hframe :),
      (congrArg Vec.s hframe :), hmem⟩
    rw [hvq, List.length_map, List.length_cons]
  · obtain ⟨hvec, hx, hpc, hinstret, hmem⟩ := State.commitHead_changes l hbp e.addr
    refine ⟨_, exec_vectorCommit_done hinfl hd hsmp, by rw [hvec], hinstret, by rw [hvec], fun r => ?_, hpc, hmem⟩
    unfold Front.xr
    rw [hx]

end Sys2Proof.Machine
end

section
/-! PROOFS. What the read of a vector load does beside its registers (R272, R280, R287, R344). -/
namespace Sys2Proof.Machine

/-! ## The read of a move -/

/-- What the read of a move leaves: the generations adopted, the account, and the bytes of other devices used up. -/
structure LoadDone (s u : State) (k : Nat) : Prop where
  rest : { u with fronts := s.fronts, vecs := s.vecs, cores := s.cores, threads := s.threads, arrived := s.arrived, touches := s.touches } = s
  fronts : ∀ b, b ≠ k → u.front b = s.front b
  front : { u.front k with curgen := (s.front k).curgen } = s.front k
  threads : (u.threads.map fun x => { x with gen := 0 }) = s.threads.map fun x => { x with gen := 0 }
  others : ∀ j, j ≠ k → u.vec j = s.vec j
  vec : { u.vec k with s := (s.vec k).s } = s.vec k
  streams : ((u.vec k).s.map fun o => o.map fun x => { x with gen := 0 }) = (s.vec k).s.map fun o => o.map fun x => { x with gen := 0 }
  cores : ∀ g, { u.core g with evc := (s.core g).evc } = s.core g

theorem loadDone_of {s w : State} {k : Nat} {e : Entry} {g : BitVec 2} (h : Accounted (s.adoptVec k e g) w) :
    LoadDone s (w.dropArrived (.vector k)) k := by
  obtain ⟨hothers, hfront, hfronts⟩ := State.foldl_adopt k [g] s
  change ∀ b, b ≠ k → (s.adopt k g).front b = s.front b at hothers
  change { (s.adopt k g).front k with curgen := (s.front k).curgen } = s.front k at hfront
  change { s.adopt k g with fronts := s.fronts } = s at hfronts
  have hfork := State.forkOn_forked (s.adopt k g) k (s.vecForks k e)
  have hw := h.rest
  have hwcores := h.cores
  unfold State.adoptVec at hw hwcores
  generalize s.adopt k g = t at hothers hfront hfronts hfork hw hwcores
  generalize t.forkOn k (s.vecForks k e) = u at hfork hw hwcores
  have hwfront (b : Nat) : w.front b = t.front b :=
    (congrArg (fun x : State => x.front b) hw :).trans (congrArg (fun x : State => x.front b) hfork.rest :)
  have hwvec (b : Nat) : w.vec b = u.vec b := (congrArg (fun x : State => x.vec b) hw :)
  have htvec (b : Nat) : t.vec b = s.vec b := (congrArg (fun x : State => x.vec b) hfronts :)
  exact {
    rest := by
      have h1 := congrArg (fun x : State => { x with
        fronts := s.fronts, vecs := s.vecs, cores := s.cores, threads := s.threads, arrived := s.arrived, touches := s.touches }) hw
      have h2 := congrArg (fun x : State => { x with
        fronts := s.fronts, vecs := s.vecs, cores := s.cores, threads := s.threads, arrived := s.arrived, touches := s.touches }) hfork.rest
      have h3 := congrArg (fun x : State => { x with
        vecs := s.vecs, cores := s.cores, threads := s.threads, arrived := s.arrived, touches := s.touches }) hfronts
      exact h1.trans (h2.trans h3)
    fronts := fun b hb => (hwfront b).trans (hothers b hb)
    front := (congrArg (fun f : Front => { f with curgen := (s.front k).curgen }) (hwfront k)).trans hfront
    threads := by
      have h1 : w.threads = u.threads := (congrArg State.threads hw :)
      have h2 : t.threads = s.threads := (congrArg State.threads hfronts :)
      exact (congrArg (fun l : List Thread => l.map fun x => { x with gen := 0 }) h1).trans (hfork.threads.trans (by rw [h2]))
    others := fun j hj => (hwvec j).trans ((hfork.others j hj).trans (htvec j))
    vec := by
      have h1 := hfork.vec
      rw [htvec, ← hwvec] at h1
      exact h1
    streams := by
      have h1 := hfork.streams
      rw [htvec, ← hwvec] at h1
      exact h1
    cores := fun g => by
      have h1 : u.core g = s.core g := (congrArg (fun x : State => x.core g) hfork.rest :).trans (congrArg (fun x : State => x.core g) hfronts :)
      exact h1 ▸ hwcores g }

/-- The generation that the agent has after a read (R280). -/
theorem front_of_accounted {s w : State} {k : Nat} {e : Entry} {g : BitVec 2} (h : Accounted (s.adoptVec k e g) w) :
    (w.dropArrived (.vector k)).front k = (s.adopt k g).front k :=
  (congrArg (fun x : State => x.front k) h.rest :).trans
    (congrArg (fun x : State => x.front k) (State.forkOn_forked (s.adopt k g) k (s.vecForks k e)).rest :)

section
variable {s u : State} {k : Nat} (h : LoadDone s u k)
include h

theorem LoadDone.note (x : Touch) : LoadDone s (u.note x) k := ⟨h.rest, h.fronts, h.front, h.threads, h.others, h.vec, h.streams, h.cores⟩

theorem LoadDone.mayTrap (e : Entry) : u.mayTrap k e = s.mayTrap k e := by
  have hinfl : (u.vec k).infl = (s.vec k).infl := (congrArg Vec.infl h.vec :)
  have hold : (u.vec k).oldest e = (s.vec k).oldest e := (congrArg (fun x : Vec => x.oldest e) h.vec :)
  have hreq : u.requests = s.requests := (congrArg State.requests h.rest :)
  have hacc : (u.front k).acc = (s.front k).acc := (congrArg Front.acc h.front :)
  unfold State.mayTrap State.elementsDone
  rw [hold, hacc, hreq, hinfl]

/-- The handler can still be entered. -/
theorem LoadDone.handlerOk (v : Vec) (hok : s.HandlerOk k) : (u.setVec k v).HandlerOk k := by
  have hsees : s.SeesAs (u.setVec k v) := {
    rest := (congrArg (fun y : State => { y with requests := s.requests, fired := s.fired }) h.rest :)
    utlb := fun g => (congrArg Core.utlb (h.cores g) :)
    fence := fun g => (congrArg Core.fence (h.cores g) :) }
  have htvec : (u.front k).tvec = (s.front k).tvec := (congrArg Front.tvec h.front :)
  obtain ⟨htarget, hfetch⟩ := hok
  refine ⟨?_, ?_⟩
  · rw [State.setVec_front, htvec]
    exact htarget
  · rw [State.setVec_front, htvec, hsees.fetchable _ (congrArg Front.aspace h.front :) (congrArg Front.launch h.front :)]
    exact hfetch

/-- What a move of a load leaves, by what it leaves of the vector side: `s'` is the state at its start, or what `vld.ff` has made of it
with VL settled. -/
theorem LoadDone.vecMemMoves {s' : State} {L : Vec} {ends : Bool} (hs : { s' with vecs := s.vecs } = s)
    (hothers : ∀ j, j ≠ k → s'.vec j = s.vec j) (hstreams : (s'.vec k).s = (s.vec k).s) (hL : L.s = (u.vec k).s)
    (hstart : L.vstart = if ends then 0 else (s'.vec k).vstart)
    (hvec : { L with
      v := (s'.vec k).v, tag := (s'.vec k).tag, bad := (s'.vec k).bad, told := (s'.vec k).told, e := (s'.vec k).e, s := (s'.vec k).s,
      flags := (s'.vec k).flags, infl := (s'.vec k).infl, vstart := (s'.vec k).vstart } = s'.vec k) :
    VecMemMoves s' (u.setVec k L) k ends := by
  have hfront (b : Nat) : s'.front b = s.front b := (congrArg (fun x : State => x.front b) hs :)
  have hcore (g : Nat) : s'.core g = s.core g := (congrArg (fun x : State => x.core g) hs :)
  have hthreads : s'.threads = s.threads := (congrArg State.threads hs :)
  exact {
    vstart := by rw [State.vec_setVec_self]; exact hstart
    others := fun j hj => by rw [State.vec_setVec, if_neg hj, h.others j hj, hothers j hj]
    fronts := fun b hb => (h.fronts b hb).trans (hfront b).symm
    front := by rw [hfront]; exact h.front
    forked := by rw [hthreads]; exact h.threads
    cores := fun g => by rw [hcore]; exact h.cores g
    rest := by
      have h1 := congrArg (fun x : State => { x with
        fronts := s'.fronts, vecs := s'.vecs, cores := s'.cores, threads := s'.threads, arrived := s'.arrived, touches := s'.touches }) h.rest
      have h3 : { s with
          fronts := s'.fronts, vecs := s'.vecs, cores := s'.cores, threads := s'.threads, arrived := s'.arrived, touches := s'.touches } = s' := by
        rw [← hs]
      exact h1.trans h3
    vec := by rw [State.vec_setVec_self]; exact hvec
    streams := by
      rw [State.vec_setVec_self, hL, hstreams]
      exact h.streams }

end

end Sys2Proof.Machine
end
section
/-! PROOFS. The end of a move that writes a group and raises no flags (R183 to R186, R254, R257), and its trap. -/
namespace Sys2Proof.Machine

/-! ## The generations read (R280) -/

theorem State.newer_false {s : State} {g h : BitVec 2} : s.newer g h = false ↔ s.ageOf h ≤ s.ageOf g := by
  unfold State.newer
  rw [decide_eq_false_iff_not, not_lt]

theorem State.ageOf_newest (s : State) (g h : BitVec 2) : s.ageOf (s.newest g h) = min (s.ageOf g) (s.ageOf h) := by
  unfold State.newest State.newer
  by_cases hlt : s.ageOf h < s.ageOf g
  · rw [if_pos (decide_eq_true hlt)]
    omega
  · rw [if_neg (by simpa using hlt)]
    omega

theorem State.ageOf_adopt (s : State) (k : Nat) (g : BitVec 2) : s.ageOf ((s.adopt k g).front k).curgen ≤ s.ageOf g := by
  unfold State.adopt
  split
  · rw [State.front_setFront_self]
  · next h => exact State.newer_false.mp (by simpa using h)

/-- The newest of a generation and those of what probes have read. -/
def State.readGen (s : State) (z : Nat) (g : BitVec 2) (l : List Probe) : BitVec 2 :=
  l.foldl (fun g (p : Probe) => match p.found with
    | .at_ pa => s.newest g (s.genRange pa z)
    | .given .. => s.newest g s.live
    | _ => g) g

theorem State.adoptAll_eq (s : State) (k z : Nat) (e : Entry) (l : List Probe) :
    s.adoptAll k z e l = s.adoptVec k e (s.readGen z s.oldestGen l) := rfl

theorem State.readGen_cons (s : State) (z : Nat) (g : BitVec 2) (p : Probe) (l : List Probe) :
    s.readGen z g (p :: l) = s.readGen z (s.readGen z g [p]) l := rfl

/-- Reading more makes the generation no older. -/
theorem State.ageOf_readGen_le (s : State) (z : Nat) : ∀ (l : List Probe) (g : BitVec 2), s.ageOf (s.readGen z g l) ≤ s.ageOf g
  | [], _ => le_rfl
  | p :: l, g => by
    have hone : s.ageOf (s.readGen z g [p]) ≤ s.ageOf g := by
      unfold State.readGen
      rw [List.foldl_cons, List.foldl_nil]
      split
      · rw [State.ageOf_newest]
        exact min_le_left _ _
      · rw [State.ageOf_newest]
        exact min_le_left _ _
      · exact le_rfl
    exact (State.ageOf_readGen_le s z l _).trans hone

theorem State.ageOf_readGen_at {s : State} {z pa : Nat} {p : Probe} (hp : p.found = .at_ pa) : ∀ {l : List Probe} (g : BitVec 2), p ∈ l →
    s.ageOf (s.readGen z g l) ≤ s.ageOf (s.genRange pa z)
  | q :: l, g, hmem => by
    rcases List.mem_cons.mp hmem with rfl | hmem
    · have hone : s.readGen z g [p] = s.newest g (s.genRange pa z) := by
        unfold State.readGen
        rw [List.foldl_cons, List.foldl_nil, hp]
      rw [State.readGen_cons, hone]
      exact (State.ageOf_readGen_le s z l _).trans ((State.ageOf_newest s g _).trans_le (min_le_right _ _))
    · exact State.ageOf_readGen_at hp (s.readGen z g [q]) hmem

/-! ## A move that writes and raises no flags -/

/-- The vector side after a move that writes and raises no flags: its entry has completed, or stands at its new index. -/
def Vec.loadedTo (v : Vec) (write : Nat → Bool → Vec → Vec) (e : Entry) (ends : Bool) (hi : Nat) : Vec :=
  if ends then (write hi true (v.setEntry e)).complete e
  else write hi false (v.setEntry { e with pix := BitVec.ofNat 13 hi, started := true })

/-- What a load writes: registers, their tags and marks, and scale registers. -/
def LoadFrame (write : Nat → Bool → Vec → Vec) : Prop :=
  ∀ hi fin (x : Vec), { write hi fin x with v := x.v, tag := x.tag, bad := x.bad, told := x.told, e := x.e } = x

theorem LoadFrame.loadedTo {write : Nat → Bool → Vec → Vec} (hw : LoadFrame write) (v : Vec) (e : Entry) (ends : Bool) (hi : Nat) :
    { v.loadedTo write e ends hi with v := v.v, tag := v.tag, bad := v.bad, told := v.told, e := v.e } = v.after e ends hi e.flags := by
  have htwice : (v.setEntry e).complete e = v.complete e :=
    congrArg (fun x : Vec => { x with vstart := 0 }.settle) (Vec.setEntry_setEntry v (x := e) (y := { e with done := true, started := true }) rfl)
  cases ends with
  | true => exact (congrArg (fun x : Vec => x.complete e) (hw hi true (v.setEntry e))).trans htwice
  | false => exact hw hi false (v.setEntry { e with pix := BitVec.ofNat 13 hi, started := true })

theorem Vec.loadedTo_files (v : Vec) (write : Nat → Bool → Vec → Vec) (e : Entry) (ends : Bool) (hi : Nat) :
    ∃ a, (v.loadedTo write e ends hi).v = (write hi ends (v.setEntry a)).v ∧ (v.loadedTo write e ends hi).tag = (write hi ends (v.setEntry a)).tag ∧
      (v.loadedTo write e ends hi).e = (write hi ends (v.setEntry a)).e := by
  cases ends with
  | true => exact ⟨e, rfl, rfl, rfl⟩
  | false => exact ⟨{ e with pix := BitVec.ofNat 13 hi, started := true }, rfl, rfl, rfl⟩

section
variable {s : State} {k : Nat} {r : VRun} {m : MReg} {write : Nat → Bool → Vec → Vec} {prep : State → State} (hstart : r.start < r.vl)
  (hfpx : r.e.fpx = none)
include hstart hfpx

/-- A move without flags, to its end or to its new index. -/
theorem vecFinish_writes : vecFinish s k r m none none false write (fun _ => 0) prep =
    .next ((prep s).setVec k (((prep s).vec k).loadedTo write r.e r.ends r.hi)) := by
  have hentry : ({ r.e with flags := r.e.flags ||| 0, fpx := none } : Entry) = r.e := by
    rw [show r.e.flags ||| (0 : Flags) = r.e.flags from BitVec.or_zero, ← hfpx]
  have hnone : (r.actives m r.hi).find? (fun i => Flags.traps r.v.ftrap 0) = none := List.find?_eq_none.mpr fun i _ => by simp [Flags.traps]
  unfold vecFinish
  rw [if_neg (by omega)]
  simp only [Option.map_none, Option.getD_none, Option.isNone_none, Option.isSome_none, Bool.true_and, Bool.or_false, hfpx, allFlags_zero, hnone,
    VRun.moved, VRun.route_zero]
  unfold Vec.loadedTo
  by_cases hends : r.ends = true
  · rw [if_pos hends, if_pos hends, hends]
    exact congrArg (fun e => Host.Outcome.next ((prep s).setVec k ((write r.hi true (((prep s).vec k).setEntry e)).complete e))) hentry
  · rw [if_neg hends, if_neg hends, Bool.not_eq_true _ |>.mp hends]
    exact congrArg (fun e : Entry => Host.Outcome.next ((prep s).setVec k (write r.hi false (((prep s).vec k).setEntry
      { e with pix := BitVec.ofNat 13 r.hi, started := true })))) hentry

/-- A move without flags that stops where an access fails (R185). -/
theorem vecFinish_writes_stops {x : Stop} (hmay : s.mayTrap k r.e = true) (hmay' : (prep s).mayTrap k r.e = true) :
    vecFinish s k r m (some x) none false write (fun _ => 0) prep =
      .next (((x.look.elim (prep s) (prep s).note).setVec k (write x.i false (((prep s).vec k).setEntry r.e))).vectorTrap k r.e x.i x.trap) := by
  have hentry : ({ r.e with flags := r.e.flags ||| 0, fpx := none } : Entry) = r.e := by
    rw [show r.e.flags ||| (0 : Flags) = r.e.flags from BitVec.or_zero, ← hfpx]
  have hnone : (r.actives m x.i).find? (fun i => Flags.traps r.v.ftrap 0) = none := List.find?_eq_none.mpr fun i _ => by simp [Flags.traps]
  unfold vecFinish
  rw [if_neg (by omega)]
  simp only [Option.map_some, Option.getD_some, Option.isNone_some, Option.isSome_some, Bool.false_and, Bool.or_true, hfpx, allFlags_zero, hnone,
    VRun.moved, VRun.route_zero, if_true, hmay]
  change (if (!true) = true then _ else if (prep s).mayTrap k r.e = true then _ else _) = _
  rw [if_neg (by simp), if_pos hmay']
  exact congrArg (fun e => Host.Outcome.next (((x.look.elim (prep s) (prep s).note).setVec k
    (write x.i false (((prep s).vec k).setEntry e))).vectorTrap k e x.i x.trap)) hentry

end

/-! ## The trap of a load -/

/-- Where a pull-back unwinds nothing, the entries that had completed stay, and their flags are gone (R257). -/
theorem Vec.pullBack_infl {v : Vec} (hflags : ∀ y ∈ v.infl, y.flags &&& v.ftrap = 0) :
    v.pullBack.infl = (v.infl.takeWhile (·.done)).map fun y => { y with flags := 0 } := by
  have hfind : v.infl.find? (fun e => !e.done && (e.flags &&& v.ftrap) ≠ 0) = none := List.find?_eq_none.mpr fun y hy => by simp [hflags y hy]
  unfold Vec.pullBack
  rw [hfind]

section
variable {s w : State} {k j hi : Nat} {e : Entry} {y : Tally} {n : Nat} {x : Trap} (hmoves : s.Moves k j hi e)
  (hold : (s.vec k).oldest e = true) (hflags : ∀ y ∈ (s.vec k).infl, y.flags &&& (s.vec k).ftrap = 0)
  (hinfl : (w.vec k).infl = ((s.vec k).setEntry { e with tally := y }).infl) (hviq : (w.vec k).viq = (s.vec k).viq)
  (hftrap : (w.vec k).ftrap = (s.vec k).ftrap)
include hmoves hold hflags hinfl

/-- The entries in flight below the oldest open one, when that one has been halted. -/
theorem State.Moves.takeWhile_halted : let v := (w.vec k).putEntry (Entry.haltedAt { e with tally := y } n)
    v.infl.takeWhile (·.done) = (s.vec k).infl.takeWhile (·.done) ∧ ∀ z ∈ v.infl, z.flags &&& (s.vec k).ftrap = 0 := by
  intro v
  obtain ⟨pre, post, hsplit, hpre⟩ := hmoves.split hold
  obtain ⟨e2, he2⟩ : ∃ e2, e2 = Entry.haltedAt { e with tally := y } n := ⟨_, rfl⟩
  have hopen : e2.done = false := by rw [he2]; exact hmoves.isOpen
  have hpo : e2.po = e.po := by rw [he2]; rfl
  have hself : e2.flags &&& (s.vec k).ftrap = 0 := by rw [he2]; exact hflags e (by rw [hsplit]; simp)
  have hv : v.infl = ((s.vec k).setEntry e2).infl := by
    rw [← Vec.setEntry_setEntry (s.vec k) (x := { e with tally := y }) (y := e2) hpo.symm, he2]
    exact congrArg (List.map fun z => if z.po = e.po then Entry.haltedAt { e with tally := y } n else z) hinfl
  rw [hv, Vec.infl_setEntry hsplit (fun z hz => (hpre z hz).2) hpo]
  refine ⟨?_, fun z hz => ?_⟩
  · rw [hsplit, List.takeWhile_append_of_pos fun z hz => (hpre z hz).1, List.takeWhile_append_of_pos fun z hz => (hpre z hz).1,
      List.takeWhile_cons_of_neg (by simp [hopen]), List.takeWhile_cons_of_neg (by simp [hmoves.isOpen])]
  · rcases List.mem_append.mp hz with hz | hz
    · exact hflags z (by rw [hsplit]; exact List.mem_append_left _ hz)
    · rcases List.mem_cons.mp hz with rfl | hz
      · exact hself
      · obtain ⟨x, hx, rfl⟩ := List.mem_map.mp hz
        split
        · exact hself
        · exact hflags x (by rw [hsplit]; exact List.mem_append_right _ (List.mem_cons_of_mem e hx))

include hviq hftrap

/-- The trap of the oldest open entry of a context, which has written registers (R134, R135, R185, R254). -/
theorem vectorTrap_written (hok : w.HandlerOk k) (hreg : x.reg = none) :
    let u := w.vectorTrap k { e with tally := y } n x
    TrapTaken w u k true e.addr x ∧ (u.vec k).v = (w.vec k).v ∧ (u.vec k).vstart = BitVec.ofNat 13 n ∧
      (u.vec k).infl = ((s.vec k).infl.takeWhile (·.done)).map (fun y => { y with flags := 0 }) ∧
      ∃ y l, (u.vec k).viq = y :: l ∧ y.word = e.word ∧ y.pix = BitVec.ofNat 13 n := by
  intro u
  obtain ⟨s', hs'⟩ : ∃ s', s' = s.setVec k { w.vec k with infl := (s.vec k).infl } := ⟨_, rfl⟩
  have hvec : s'.vec k = { w.vec k with infl := (s.vec k).infl } := by rw [hs']; exact State.vec_setVec_self s k _
  have hmoves' : s'.Moves k j hi e := {
    actor := by rw [hs']; exact hmoves.actor
    entry := by rw [hvec]; exact hmoves.entry
    isOpen := hmoves.isOpen
    alone := by rw [hvec]; exact hmoves.alone }
  have hold' : (s'.vec k).oldest e = true := by
    rw [hvec, ← hold]
    unfold Vec.oldest Vec.open_
    rw [hviq]
  have hflags' : ∀ y ∈ (s'.vec k).infl, y.flags &&& (s'.vec k).ftrap = 0 := by
    rw [hvec]
    dsimp only
    rw [hftrap]
    exact hflags
  have hsame : { w.vec k with s := (s'.vec k).s } = (s'.vec k).setEntry { e with tally := y } := by
    rw [hvec]
    exact congrArg (fun l : List Entry => { w.vec k with infl := l }) hinfl
  obtain ⟨htrap, -, hv, -, -, -, hvstart, hhead⟩ := vectorTrap_taken (n := n) hmoves' hold' hflags' hsame hok hreg
  refine ⟨htrap, hv.trans (by rw [hvec]), hvstart, ?_, hhead⟩
  obtain ⟨hwhile, hfl⟩ := hmoves.takeWhile_halted (w := w) (n := n) hold hflags hinfl
  obtain ⟨t, ht⟩ : ∃ t, t = (w.setVec k ((w.vec k).putEntry (Entry.haltedAt { e with tally := y } n)).pullBack).forget (.vector k) := ⟨_, rfl⟩
  have hok' : t.HandlerOk k := by
    rw [ht]
    exact State.SeesAs.handlerOk (s := w) ⟨rfl, fun _ => rfl, fun _ => rfl⟩ rfl hok
  obtain ⟨fired, hfired, -⟩ := State.takeTrap_eq hok' true e.addr x
  have hu : u = { t.setFront k (trapFront t k true e.addr x) with fired := fired } := by
    rw [← hfired, ht]
    exact State.vectorTrap_eq w k { e with tally := y } n hreg
  have huvec : u.vec k = ((w.vec k).putEntry (Entry.haltedAt { e with tally := y } n)).pullBack := by
    rw [hu, ht]
    exact State.vec_setVec_self w k _
  rw [huvec, Vec.pullBack_infl fun z hz => ?_, hwhile]
  rw [show ((w.vec k).putEntry (Entry.haltedAt { e with tally := y } n)).ftrap = (s.vec k).ftrap from hftrap]
  exact hfl z hz

end

/-- The trap of a state whose front differs from another's in CURGEN alone (R134). -/
theorem TrapTaken.of_curgen {s w u : State} {a : Nat} {epc : W64} {x : Trap} (h : TrapTaken w u a true epc x) {g : BitVec 2}
    (hfront : { w.front a with curgen := g } = s.front a) (hvtype : (w.vec a).vtype = (s.vec a).vtype) (hvl : (w.vec a).vl = (s.vec a).vl) :
    TrapTaken s u a true epc x := by
  obtain ⟨h1, h2, h3, h4, h5, h6, h7, h8, h9, h10, h11, h12, h13, h14, h15, h16, h17, h18, h19⟩ := h
  refine ⟨h1, h2, h3, h4, h5, h6, h7, h8, ?_, h10, ?_, ?_, ?_, h14, ?_, h16, h17, ?_, ?_⟩
  · rw [← hfront]
    exact h9
  · rw [← hfront]
    exact h11
  · rw [← hfront]
    exact h12
  · rw [← hfront]
    exact h13
  · rw [← hfront]
    exact h15
  · rw [← hfront]
    exact h18
  · rw [← hvtype, ← hvl]
    exact h19

end Sys2Proof.Machine
end
section
/-! PROOFS. The elements that a vector load finds, and what it writes of its group (R121, R148, R183 to R185, R344). -/
namespace Sys2Proof.Machine

/-! ## Probes of a load (R184) -/

/-- The probe of an element of a load (R184). -/
def State.loadProbe (s : State) (k z : Nat) (f : Form) (n : Nat) : Probe :=
  match f.ea n with
  | none => ⟨n, 0, .zero⟩
  | some va => ⟨n, va, s.findElem k f.far .load va z⟩

theorem State.probes_load (s : State) (k z : Nat) (f : Form) (act : List Nat) : s.probes k .load z f act = act.map (s.loadProbe k z f) := rfl

section
variable {s : State} {k z : Nat} {f : Form} {n : Nat}

theorem State.loadProbe_index (s : State) (k z : Nat) (f : Form) (n : Nat) : (s.loadProbe k z f n).i = n := by
  unfold State.loadProbe
  split <;> rfl

theorem State.loadProbe_some {va : W64} (h : f.ea n = some va) : s.loadProbe k z f n = ⟨n, va, s.findElem k f.far .load va z⟩ := by
  unfold State.loadProbe
  rw [h]

theorem State.loadProbe_none (h : f.ea n = none) : s.loadProbe k z f n = ⟨n, 0, .zero⟩ := by
  unfold State.loadProbe
  rw [h]

/-- Bytes of another device that have arrived are given (R344). -/
theorem State.findBytes_given {o : Owner} {a : Nat} {far : Bool} {aspace : W64} {sup : Bool} {va : W64} {size n pa : Nat} {bs : List Byte}
    (hva : s.checkVa a far aspace sup .load va size = .ok (pa, false)) (hd : isDomain pa = true) (hdev : deviceOf pa ≠ s.flash.deviceId)
    (ha : s.arrivedFor o pa n = some (.data bs)) : s.findBytes o a far aspace sup .load va size n = .given pa bs := by
  simp [State.findBytes, State.checkFor, hva, hd, hdev, ha]

/-- An element that loads stands on this device, has arrived from another, or lies out of the walk's range. -/
theorem elemLoads_found {c : Nat} (h : ElemLoads s k f.far z (f.ea n) c) :
    ((s.loadProbe k z f n).found = .zero ∧ c = 0) ∨ (∃ pa, (s.loadProbe k z f n).found = .at_ pa ∧ c = s.readLE pa z) ∨
      ∃ pa bs, (s.loadProbe k z f n).found = .given pa bs ∧ c = ofBytesLE bs := by
  cases hea : f.ea n with
  | none =>
    rw [hea] at h
    exact .inl ⟨by rw [State.loadProbe_none hea], h⟩
  | some va =>
    rw [hea] at h
    obtain ⟨pa, h⟩ := h
    rw [State.loadProbe_some hea]
    by_cases hd : isDomain pa = true
    · rw [if_pos hd] at h
      obtain ⟨hdev, hva, bs, harrived, hc⟩ := h
      exact .inr (.inr ⟨pa, bs, State.findBytes_given hva hd hdev harrived, hc⟩)
    · rw [if_neg hd] at h
      obtain ⟨hcheck, hecc, hc⟩ := h
      exact .inr (.inl ⟨pa, State.findBytes_local hcheck (by simpa using hd) hecc, hc⟩)

theorem elemLoads_not_fault {c : Nat} (h : ElemLoads s k f.far z (f.ea n) c) (x : Nat) : (s.loadProbe k z f n).found ≠ .fault x := by
  obtain ⟨hp, -⟩ | ⟨pa, hp, -⟩ | ⟨pa, bs, hp, -⟩ := elemLoads_found h <;> rw [hp] <;> exact Found.noConfusion

theorem elemLoads_not_waits {c : Nat} (h : ElemLoads s k f.far z (f.ea n) c) : (s.loadProbe k z f n).waits = false := by
  unfold Probe.waits
  obtain ⟨hp, -⟩ | ⟨pa, hp, -⟩ | ⟨pa, bs, hp, -⟩ := elemLoads_found h <;> rw [hp]

theorem elemLoads_loaded {c : Nat} (h : ElemLoads s k f.far z (f.ea n) c) : s.loaded z (s.loadProbe k z f n) = c := by
  unfold State.loaded
  obtain ⟨hp, hc⟩ | ⟨pa, hp, hc⟩ | ⟨pa, bs, hp, hc⟩ := elemLoads_found h <;> rw [hp, hc]

variable {code : Nat → Nat}

theorem loads_not_wait {act : List Nat} (hloads : ∀ j ∈ act, ElemLoads s k f.far z (f.ea j) (code j)) :
    (act.map (s.loadProbe k z f)).any Probe.waits = false := by
  rw [List.any_map]
  exact List.any_eq_false.mpr fun j hj => by simp [elemLoads_not_waits (hloads j hj)]

/-- Where every element loads, none fails. -/
theorem firstFault_loads : ∀ (act : List Nat), (∀ j ∈ act, ElemLoads s k f.far z (f.ea j) (code j)) →
    firstFault (act.map (s.loadProbe k z f)) = none := fun act hloads => by
  unfold firstFault
  rw [List.findSome?_eq_none_iff]
  intro p hp
  obtain ⟨j, hj, rfl⟩ := List.mem_map.mp hp
  have hfault := elemLoads_not_fault (hloads j hj)
  split
  · next x hx => exact absurd hx (hfault x)
  · rfl

/-- The first element that fails, where those before it load (R185). -/
theorem firstFault_after {va : W64} {x : Nat} (hea : f.ea n = some va) (hx : s.findElem k f.far .load va z = .fault x) :
    ∀ (act : List Nat), act.Pairwise (· < ·) → n ∈ act → (∀ j ∈ act, j < n → ElemLoads s k f.far z (f.ea j) (code j)) →
    firstFault (act.map (s.loadProbe k z f)) = some (⟨n, va, .fault x⟩, x)
  | j :: act, hsorted, hn, hloads => by
    obtain ⟨hlt, hsorted⟩ := List.pairwise_cons.mp hsorted
    unfold firstFault
    rw [List.map_cons, List.findSome?_cons]
    by_cases hj : j = n
    · subst hj
      rw [State.loadProbe_some hea, hx]
    · have hmem : n ∈ act := (List.mem_cons.mp hn).resolve_left (Ne.symm hj)
      have ih := firstFault_after hea hx act hsorted hmem fun i hi => hloads i (List.mem_cons_of_mem j hi)
      unfold firstFault at ih
      obtain ⟨hp, -⟩ | ⟨pa, hp, -⟩ | ⟨pa, bs, hp, -⟩ := elemLoads_found (hloads j List.mem_cons_self (hlt n hmem)) <;> rw [hp] <;> exact ih

theorem filter_loadProbes (act : List Nat) (n : Nat) :
    (act.map (s.loadProbe k z f)).filter (fun q => decide (q.i < n)) = (act.filter fun j => decide (j < n)).map (s.loadProbe k z f) := by
  rw [List.filter_map]
  simp only [Function.comp_def, State.loadProbe_index]

/-- The probe of an element among those of a move. -/
theorem find_loadProbe : ∀ {act : List Nat}, n ∈ act →
    ((act.map (s.loadProbe k z f)).find? fun (p : Probe) => decide (p.i = n)) = some (s.loadProbe k z f n)
  | j :: act, hn => by
    rw [List.map_cons, List.find?_cons, State.loadProbe_index]
    by_cases hj : j = n
    · rw [decide_eq_true hj, hj]
    · rw [decide_eq_false hj]
      exact find_loadProbe ((List.mem_cons.mp hn).resolve_left (Ne.symm hj))

end

/-! ## The group of a load (R148, R183) -/

/-- Only the codes of active elements matter to a written group (R148). -/
theorem GroupWritten.congr {v u : Vec} {q : Kinds} {d : VReg} {w : Nat} {t : Tag} {res res' : Nat → Option Nat}
    (h : GroupWritten v u q d w t res) (hres : ∀ i, q.active i = true → res i = res' i) : GroupWritten v u q d w t res' := by
  refine ⟨⟨fun i hi => (h.elements i hi).trans ?_, h.outside⟩, h.tags⟩
  unfold Kinds.value
  by_cases hstart : i < q.start
  · rw [if_pos hstart, if_pos hstart]
  rw [if_neg hstart, if_neg hstart]
  by_cases hvl : q.vl ≤ i
  · rw [if_pos hvl, if_pos hvl]
  rw [if_neg hvl, if_neg hvl]
  by_cases hhi : q.hi ≤ i
  · rw [if_pos hhi, if_pos hhi]
  rw [if_neg hhi, if_neg hhi]
  by_cases hmask : q.mask i = true
  · rw [if_pos hmask, if_pos hmask, hres i (by
      simp only [Kinds.active, Bool.and_eq_true, decide_eq_true_eq]
      exact ⟨⟨not_lt.mp hstart, not_le.mp hhi⟩, hmask⟩)]
  · rw [if_neg hmask, if_neg hmask]

/-- A group written below an index where the instruction stops is as it was from there on (R185, R186). -/
theorem GroupData.upTo {v u : Vec} {q : Kinds} {n : Nat} {d : VReg} {w : Nat} {t : Tag} {code : Nat → Nat} (hstart : q.start < q.vl)
    (hn : n < q.vl) (hle : n ≤ q.hi) (h : GroupData v u { q with hi := n } d w t fun i => some (code i)) : GroupUpTo v u q n d w t code := by
  refine ⟨fun i hi => (h.elements i hi).trans ?_, h.outside⟩
  have hends : ({ q with hi := n } : Kinds).ends = false := by
    unfold Kinds.ends
    rw [decide_eq_false (by exact Nat.not_le.mpr hstart), decide_eq_false (by exact Nat.not_le.mpr hn), Bool.false_or]
  unfold Kinds.value
  rw [hends]
  dsimp only
  by_cases hin : i < n
  · rw [if_pos hin, if_neg (show ¬ q.vl ≤ i by omega), if_neg (show ¬ q.vl ≤ i by omega), if_neg (show ¬ n ≤ i by omega),
      if_neg (show ¬ q.hi ≤ i by omega)]
    rfl
  · rw [if_neg hin, if_pos (show n ≤ i by omega), Bool.false_and, if_neg Bool.false_ne_true, ite_self, ite_self]

section
variable {s : State} {k : Nat} {r : VRun} {m : MReg} {d : VReg} {t : Tag} {f : Form} {code : Nat → Nat} {act : List Nat} {hi : Nat} {x u : Vec}

theorem loadInto_frame (s : State) (r : VRun) (m : MReg) (d : VReg) (tag : Option Tag) (l : List Probe) : LoadFrame (s.loadInto r m d tag l) :=
  fun hi fin x => congrArg (fun u : Vec => { u with e := x.e }) (r.put_frame m hi fin _ x)

/-- The group of a load after a move up to `hi`: its active elements hold the codes that they load. -/
theorem groupWritten_loadInto (hlanes : r.lanes = r.v.lanes) (hmax : r.vlmax = vlmaxOf r.lanes r.vt) (hgroup : groupOk r.vt (d, .one) = true)
    (hact : ∀ i, (r.kinds m hi).active i = true → i ∈ act) (hloads : ∀ j ∈ act, ElemLoads s k f.far (r.vt.sew / 8) (f.ea j) (code j))
    (hxv : x.v = r.v.v) (hxt : x.tag = r.v.tag)
    (huv : u.v = (s.loadInto r m d (some t) (act.map (s.loadProbe k (r.vt.sew / 8) f)) hi (r.kinds m hi).ends x).v)
    (hut : u.tag = (s.loadInto r m d (some t) (act.map (s.loadProbe k (r.vt.sew / 8) f)) hi (r.kinds m hi).ends x).tag) :
    GroupWritten r.v u (r.kinds m hi) d r.vt.sew t fun i => some (code i) := by
  refine (groupWritten_put hlanes hmax (.inl ⟨rfl, hgroup⟩) hxv hxt huv hut).congr fun i hi => ?_
  have hmem := hact i hi
  rw [find_loadProbe hmem, Option.map_some, elemLoads_loaded (hloads i hmem)]

end

end Sys2Proof.Machine
end
section
/-! PROOFS. Moves of vector loads by elements: to their end or index, or to the element that fails (R183 to R186, R254, R280). -/
namespace Sys2Proof.Machine

/-! ## The reads of a move -/

theorem readMove_done (s : State) (k hi : Nat) (r : VRun) (f : Form) (h : BitVec 2) (l : List Probe) : LoadDone s (s.readMove k hi r f h l) k :=
  loadDone_of (e := r.e) (g := s.readGen (r.vt.sew / 8) s.oldestGen l) <| by
    rw [← State.adoptAll_eq]
    exact State.noteMove_accounted _ _ _ _ _ _ _ _

/-- The agent's generation is then no older than that of any element read (R280). -/
theorem readMove_curgen {s : State} {k hi : Nat} {r : VRun} {f : Form} {h : BitVec 2} {l : List Probe} {p : Probe} {pa : Nat} (hmem : p ∈ l)
    (hp : p.found = .at_ pa) : s.newer (s.genRange pa (r.vt.sew / 8)) ((s.readMove k hi r f h l).front k).curgen = false := by
  have hfront := front_of_accounted (e := r.e) (g := s.readGen (r.vt.sew / 8) s.oldestGen l)
    (by rw [← State.adoptAll_eq]; exact State.noteMove_accounted (s.adoptAll k (r.vt.sew / 8) r.e l) k hi r f false h l)
  have hread : (s.readMove k hi r f h l).front k = (s.adopt k (s.readGen (r.vt.sew / 8) s.oldestGen l)).front k := hfront
  rw [hread]
  exact State.newer_false.mpr ((State.ageOf_adopt s k _).trans (State.ageOf_readGen_at hp _ hmem))

theorem LoadDone.refl (s : State) (k : Nat) : LoadDone s s k := ⟨rfl, fun _ _ => rfl, rfl, rfl, fun _ _ => rfl, rfl, rfl, fun _ => rfl⟩

section
variable {s u : State} {k : Nat} {e : Entry} (h : LoadDone s u k)
include h

/-- What a move that has read memory leaves when it has written its registers (R257). -/
theorem LoadDone.moves {write : Nat → Bool → Vec → Vec} (hw : LoadFrame write) (y : Tally) (ends : Bool) (hi : Nat) :
    let t := u.setVec k ((u.vec k).loadedTo write { e with tally := y } ends hi)
    VecMemMoves s t k ends ∧ (s.vec k).Gathered (t.vec k) e ends hi := by
  intro t
  obtain ⟨L, hL⟩ : ∃ L, L = (u.vec k).loadedTo write { e with tally := y } ends hi := ⟨_, rfl⟩
  have hframe := hw.loadedTo (u.vec k) { e with tally := y } ends hi
  rw [← hL] at hframe
  have hafter : { (u.vec k).after { e with tally := y } ends hi e.flags with s := (s.vec k).s } =
      (s.vec k).after { e with tally := y } ends hi e.flags := by
    cases ends with
    | true => exact congrArg (fun x : Vec => x.complete { e with tally := y }) h.vec
    | false => exact congrArg (fun x : Vec => x.setEntry { e with tally := y, pix := BitVec.ofNat 13 hi, started := true }) h.vec
  have hkept (v : Vec) : ∃ a b, v.after { e with tally := y } ends hi e.flags =
      { v with infl := a, flags := b, vstart := if ends then 0 else v.vstart } := by
    cases ends with
    | true => exact ⟨_, _, rfl⟩
    | false => exact ⟨_, _, rfl⟩
  obtain ⟨a, b, hab⟩ := hkept (u.vec k)
  have hsame := h.vec
  refine ⟨?_, y, ?_, ?_⟩
  · refine (show t = u.setVec k L by rw [hL]) ▸ h.vecMemMoves rfl (fun _ _ => rfl) rfl ?_ ?_ ?_
    · exact (congrArg Vec.s hframe :).trans (congrArg Vec.s hab :)
    · refine (congrArg Vec.vstart hframe :).trans ((congrArg Vec.vstart hab :).trans ?_)
      have hvstart : (u.vec k).vstart = (s.vec k).vstart := (congrArg Vec.vstart hsame :)
      rw [hvstart]
    · have h1 := congrArg (fun x : Vec => { x with
        v := (s.vec k).v, tag := (s.vec k).tag, bad := (s.vec k).bad, told := (s.vec k).told, e := (s.vec k).e, s := (s.vec k).s
        flags := (s.vec k).flags, infl := (s.vec k).infl, vstart := (s.vec k).vstart }) (hframe.trans hab)
      have h2 := congrArg (fun x : Vec => { x with
        v := (s.vec k).v, tag := (s.vec k).tag, bad := (s.vec k).bad, told := (s.vec k).told, e := (s.vec k).e
        flags := (s.vec k).flags, infl := (s.vec k).infl, vstart := (s.vec k).vstart }) hsame
      exact h1.trans h2
  · rw [State.vec_setVec_self, ← hL]
    exact (congrArg Vec.infl hframe :).trans (congrArg Vec.infl hafter :)
  · rw [State.vec_setVec_self, ← hL]
    exact (congrArg Vec.flags hframe :).trans (congrArg Vec.flags hafter :)

end

/-- A move that has nothing to process only completes its entry. -/
theorem completes_moves (s : State) (k : Nat) (e : Entry) (y : Tally) (hi : Nat) :
    let t := s.setVec k ((s.vec k).complete { e with tally := y })
    VecMemMoves s t k true ∧ (s.vec k).Gathered (t.vec k) e true hi := by
  have h := (LoadDone.refl s k).moves (e := e) (write := fun _ _ v => v) (fun _ _ _ => rfl) y true hi
  have htwice : (s.vec k).loadedTo (fun _ _ v => v) { e with tally := y } true hi = (s.vec k).complete { e with tally := y } :=
    congrArg (fun x : Vec => { x with vstart := 0 }.settle)
      (Vec.setEntry_setEntry (s.vec k) (x := { e with tally := y }) (y := { e with tally := y, done := true, started := true }) rfl)
  rw [htwice] at h
  exact h

theorem loadInto_scales (s : State) (r : VRun) (m : MReg) (d : VReg) (tag : Option Tag) (l : List Probe) (hi : Nat) (fin : Bool) (x : Vec) :
    (s.loadInto r m d tag l hi fin x).e = x.e := (congrArg Vec.e (r.put_frame m hi fin _ x) :)

/-! ## A load all of whose elements load, or whose first failing element stops it -/

section
variable {s : State} {k : Nat} {r : VRun} {d : VReg} {c : Cls} {h : BitVec 2} {m : MReg} {f : Form} {tag : Option Tag} {code : Nat → Nat}
  (hheld : ∀ spots, s.vecHeld k r.e c spots = false)
include hheld

theorem vecLoad_plain (hloads : ∀ j ∈ r.actives m r.hi, ElemLoads s k f.far (r.vt.sew / 8) (f.ea j) (code j)) :
    let l := (r.actives m r.hi).map (s.loadProbe k (r.vt.sew / 8) f)
    vecLoad s k r m d c h tag none f = vecFinish s k (r.gather s k r.hi f l) m none none false (s.loadInto r m d tag l) (fun _ => 0)
      fun s => s.readMove k r.hi r f h l := by
  intro l
  have hact : (r.actives m r.hi).filter (fun _ => true) = r.actives m r.hi := List.filter_true _
  have hfault := firstFault_loads (r.actives m r.hi) hloads
  have hgood : belowFault l = l := by
    unfold belowFault
    rw [hfault]
  unfold vecLoad
  dsimp only
  rw [hact, State.probes_load, hfault, hgood, if_neg (by rw [hheld]; exact Bool.false_ne_true),
    if_neg (by rw [loads_not_wait hloads]; exact Bool.false_ne_true)]
  rfl

theorem vecLoad_fault {n x : Nat} {va : W64} (hsorted : (r.actives m r.hi).Pairwise (· < ·)) (hn : n ∈ r.actives m r.hi)
    (hea : f.ea n = some va) (hx : s.findElem k f.far .load va (r.vt.sew / 8) = .fault x)
    (hloads : ∀ j ∈ r.actives m r.hi, j < n → ElemLoads s k f.far (r.vt.sew / 8) (f.ea j) (code j)) :
    let l := ((r.actives m r.hi).filter fun j => decide (j < n)).map (s.loadProbe k (r.vt.sew / 8) f)
    vecLoad s k r m d c h tag none f = vecFinish s k (r.gather s k n f l) m
      (some (s.memTrap k r f.far false r.vt.sew d n va (r.vt.sew / 8) x)) none false (s.loadInto r m d tag l) (fun _ => 0)
      fun s => s.readMove k n r f h l := by
  intro l
  have hact : (r.actives m r.hi).filter (fun _ => true) = r.actives m r.hi := List.filter_true _
  have hfault := firstFault_after hea hx (r.actives m r.hi) hsorted hn hloads
  have hgood : belowFault ((r.actives m r.hi).map (s.loadProbe k (r.vt.sew / 8) f)) = l := by
    unfold belowFault
    rw [hfault]
    exact filter_loadProbes _ n
  have hbelow : ∀ j ∈ (r.actives m r.hi).filter fun j => decide (j < n), ElemLoads s k f.far (r.vt.sew / 8) (f.ea j) (code j) := fun j hj => by
    obtain ⟨hj1, hj2⟩ := List.mem_filter.mp hj
    exact hloads j hj1 (by simpa using hj2)
  unfold vecLoad
  dsimp only
  rw [hact, State.probes_load, hfault, hgood, if_neg (by rw [hheld]; exact Bool.false_ne_true),
    if_neg (by rw [loads_not_wait hbelow]; exact Bool.false_ne_true)]
  rfl

end

section
variable {s : State} {k p hi : Nat} {e : Entry} {d : VReg} {c : Cls} {h : BitVec 2} {m : MReg} {y : Tally} {f : Form} {i : Instr} {t : Tag}
  {code : Nat → Nat}

theorem mem_actives {v : Vec} {n : Nat} : n ∈ (Kinds.of v e false hi m).actives ↔ (Kinds.of v e false hi m).active n = true := by
  rw [← actives_eq]
  exact mem_actives_of v e false hi m n

/-- A load whose active elements all load (R148, R183, R257, R280). -/
theorem vecLoad_completes (hexec : exec i s = vecLoad s k ((VRun.of (s.vec k) e false hi).tallied y) m d c h (some t) none f) (hfpx : e.fpx = none)
    (hgroup : groupOk e.vtype (d, .one) = true) (hheld : ∀ spots, s.vecHeld k e c spots = false)
    (hloads : ∀ n, (Kinds.of (s.vec k) e false hi m).active n = true → ElemLoads s k f.far (e.vtype.sew / 8) (f.ea n) (code n)) :
    let q := Kinds.of (s.vec k) e false hi m
    ∃ u, exec i s = .next u ∧ VecMemMoves s u k q.ends ∧ (s.vec k).Gathered (u.vec k) e q.ends q.hi ∧ (u.vec k).e = (s.vec k).e ∧
      (∀ n va pa, q.active n = true → f.ea n = some va → s.findElem k f.far .load va (e.vtype.sew / 8) = .at_ pa →
        s.newer (s.genRange pa (e.vtype.sew / 8)) (u.front k).curgen = false) ∧
      if q.start < q.vl then GroupWritten (s.vec k) (u.vec k) q d e.vtype.sew t (fun n => some (code n))
      else (u.vec k).v = (s.vec k).v ∧ (u.vec k).tag = (s.vec k).tag := by
  intro q
  let r := (VRun.of (s.vec k) e false hi).tallied y
  have hact : r.actives m r.hi = q.actives := actives_eq (s.vec k) e false hi m
  have hloads' : ∀ j ∈ q.actives, ElemLoads s k f.far (r.vt.sew / 8) (f.ea j) (code j) := fun j hj => hloads j (mem_actives.mp hj)
  have hplain := hexec.trans (vecLoad_plain (r := r) (s := s) (k := k) (d := d) (c := c) (h := h) (m := m) (f := f) (code := code) hheld
    (by rw [hact]; exact hloads'))
  rw [hact] at hplain
  obtain ⟨l, hl⟩ : ∃ l, l = q.actives.map (s.loadProbe k (r.vt.sew / 8) f) := ⟨_, rfl⟩
  obtain ⟨y', hy'⟩ := VRun.gather_tallied (VRun.of (s.vec k) e false hi) y s k r.hi f l
  rw [← hl, hy'] at hplain
  by_cases hstart : q.start < q.vl
  · have hends : r.ends = q.ends := by
      unfold Kinds.ends
      rw [decide_eq_false (by omega), Bool.false_or]
      rfl
    obtain ⟨T, hT⟩ : ∃ T, T = s.readMove k r.hi r f h l := ⟨_, rfl⟩
    have hdone : LoadDone s T k := by rw [hT]; exact readMove_done s k r.hi r f h l
    have hnext := hplain.trans (vecFinish_writes (r := (VRun.of (s.vec k) e false hi).tallied y') hstart hfpx)
    obtain ⟨hmoves, hgathered⟩ := hdone.moves (e := e) (loadInto_frame s r m d (some t) l) y' r.ends r.hi
    obtain ⟨a, hav, hatag, hae⟩ := (T.vec k).loadedTo_files (s.loadInto r m d (some t) l) { e with tally := y' } r.ends r.hi
    have hTv : ((T.vec k).setEntry a).v = (s.vec k).v := (congrArg Vec.v hdone.vec :)
    have hTtag : ((T.vec k).setEntry a).tag = (s.vec k).tag := (congrArg Vec.tag hdone.vec :)
    have hTe : ((T.vec k).setEntry a).e = (s.vec k).e := (congrArg Vec.e hdone.vec :)
    rw [← hends]
    refine ⟨T.setVec k ((T.vec k).loadedTo (s.loadInto r m d (some t) l) { e with tally := y' } r.ends r.hi), by rw [hT]; exact hnext, hmoves,
      hgathered, ?_, fun n va pa hn hea hfound => ?_, ?_⟩
    · rw [State.vec_setVec_self]
      exact hae.trans ((loadInto_scales s r m d (some t) l r.hi r.ends _).trans hTe)
    · rw [State.setVec_front, hT]
      refine readMove_curgen (s := s) (k := k) (hi := r.hi) (r := r) (f := f) (h := h) (l := l) (p := ⟨n, va, .at_ pa⟩) ?_ rfl
      rw [hl]
      refine List.mem_map.mpr ⟨n, mem_actives.mpr hn, ?_⟩
      rw [State.loadProbe_some hea]
      exact congrArg (Probe.mk n va) hfound
    · rw [if_pos hstart, State.vec_setVec_self]
      rw [hl] at hav hatag
      rw [hends] at hav hatag
      rw [hl, hends]
      exact groupWritten_loadInto (r := r) rfl rfl hgroup (fun i hi => mem_actives.mpr hi) hloads' hTv hTtag hav hatag
  · have hends : q.ends = true := by
      unfold Kinds.ends
      rw [decide_eq_true (by omega), Bool.true_or]
    obtain ⟨hmoves, hgathered⟩ := completes_moves s k e y' q.hi
    rw [hends]
    refine ⟨_, hplain.trans (if_pos (Nat.le_of_not_lt hstart)), hmoves, hgathered, ?_, fun n va pa hn => absurd ?_ hstart, ?_⟩
    · rw [State.vec_setVec_self]
      rfl
    · obtain ⟨hr, ha⟩ := List.mem_filter.mp (mem_actives.mpr hn)
      have := List.mem_range.mp hr
      simp only [Kinds.active, Bool.and_eq_true, decide_eq_true_eq] at ha
      exact lt_of_le_of_lt ha.1.1 this
    · rw [if_neg hstart, State.vec_setVec_self]
      exact ⟨rfl, rfl⟩

end

end Sys2Proof.Machine
end
section
/-! PROOFS. The trap of a vector load, and what the forms of vector loads do (R180 to R186, R194, R254). -/
namespace Sys2Proof.Machine

/-! ## The trap of an element that fails (R185) -/

/-- A load traps at an element, after those below it have loaded (R185, R254). -/
def LoadTraps (s : State) (k : Nat) (e : Entry) (q : Kinds) (d : VReg) (t : Tag) (code : Nat → Nat) (i : Instr) (n x : Nat) (va : W64) : Prop :=
  ∃ u, exec i s = .next u ∧
    TrapTaken s u k true e.addr { code := x, elem := n, lane := faultLane (s.vec k) e.vtype.sew x n, tval := va } ∧
    (u.vec k).vstart = BitVec.ofNat 13 n ∧
    (u.vec k).infl = ((s.vec k).infl.takeWhile (fun y => y.done)).map (fun y => { y with flags := 0 }) ∧
    (∃ y l, (u.vec k).viq = y :: l ∧ y.word = e.word ∧ y.pix = BitVec.ofNat 13 n) ∧
    GroupUpTo (s.vec k) (u.vec k) q n d e.vtype.sew t code

section
variable {s : State} {k p hi : Nat} {e : Entry} {d : VReg} {c : Cls} {h : BitVec 2} {m : MReg} {f : Form} {i : Instr} {t : Tag}
  {code : Nat → Nat}

/-- An active element lies in the body of the instruction. -/
theorem active_bounds {n : Nat} (hn : (Kinds.of (s.vec k) e false hi m).active n = true) :
    let q := Kinds.of (s.vec k) e false hi m
    q.start ≤ n ∧ n < q.hi ∧ n < q.vl := by
  intro q
  obtain ⟨hr, ha⟩ := List.mem_filter.mp (mem_actives.mpr hn)
  simp only [Kinds.active, Bool.and_eq_true, decide_eq_true_eq] at ha
  exact ⟨ha.1.1, ha.1.2, List.mem_range.mp hr⟩

theorem groupUpTo_congr {v u u' : Vec} {q : Kinds} {n w : Nat} (hv : u'.v = u.v) (h : GroupUpTo v u q n d w t code) :
    GroupUpTo v u' q n d w t code := by
  refine ⟨fun j hj => Eq.trans ?_ (h.1 j hj), fun j hj => ?_⟩
  · rw [Vec.elem, hv]
    rfl
  · rw [hv]
    exact h.2 j hj

/-- A move of a load that stops where an element fails (R185). -/
theorem load_stops (hmoves : s.Moves k p hi e) (hfpx : e.fpx = none) (hgroup : groupOk e.vtype (d, .one) = true) {y y' : Tally} {n x : Nat} {va : W64}
    (hexec : exec i s = vecFinish s k ((VRun.of (s.vec k) e false hi).tallied y') m
      (some (s.memTrap k ((VRun.of (s.vec k) e false hi).tallied y) f.far false e.vtype.sew d n va (e.vtype.sew / 8) x)) none false
      (s.loadInto ((VRun.of (s.vec k) e false hi).tallied y) m d (some t)
        (((Kinds.of (s.vec k) e false hi m).actives.filter fun j => decide (j < n)).map (s.loadProbe k (e.vtype.sew / 8) f))) (fun _ => 0)
      fun s' => s'.readMove k n ((VRun.of (s.vec k) e false hi).tallied y) f h
        (((Kinds.of (s.vec k) e false hi m).actives.filter fun j => decide (j < n)).map (s.loadProbe k (e.vtype.sew / 8) f)))
    (hok : s.HandlerOk k) (hmay : s.mayTrap k e = true) (hflags : ∀ y ∈ (s.vec k).infl, y.flags &&& (s.vec k).ftrap = 0)
    (hn : (Kinds.of (s.vec k) e false hi m).active n = true)
    (hloads : ∀ j, j < n → (Kinds.of (s.vec k) e false hi m).active j = true → ElemLoads s k f.far (e.vtype.sew / 8) (f.ea j) (code j)) :
    LoadTraps s k e (Kinds.of (s.vec k) e false hi m) d t code i n x va := by
  obtain ⟨hlow, hhigh, hvl⟩ := active_bounds hn
  have hstart := lt_of_le_of_lt hlow hvl
  obtain ⟨act, hact⟩ : ∃ act, act = (Kinds.of (s.vec k) e false hi m).actives.filter fun j => decide (j < n) := ⟨_, rfl⟩
  obtain ⟨r, hr⟩ : ∃ r, r = (VRun.of (s.vec k) e false hi).tallied y := ⟨_, rfl⟩
  rw [← hact, ← hr] at hexec
  obtain ⟨l, hl⟩ : ∃ l, l = act.map (s.loadProbe k (e.vtype.sew / 8) f) := ⟨_, rfl⟩
  rw [← hl] at hexec
  obtain ⟨T, hT⟩ : ∃ T, T = s.readMove k n r f h l := ⟨_, rfl⟩
  have hdone : LoadDone s T k := by rw [hT]; exact readMove_done s k n r f h l
  have hdone' := hdone.note (s.failing k f.far (s.front k).aspace va (e.vtype.sew / 8) x)
  have hnext := hexec.trans (vecFinish_writes_stops (r := (VRun.of (s.vec k) e false hi).tallied y') hstart hfpx hmay
    (by rw [← hT]; exact (hdone.mayTrap e).trans hmay))
  rw [← hT] at hnext
  obtain ⟨x0, hx0⟩ : ∃ x0, x0 = (T.vec k).setEntry { e with tally := y' } := ⟨_, rfl⟩
  obtain ⟨L, hL⟩ : ∃ L, L = s.loadInto r m d (some t) l n false x0 := ⟨_, rfl⟩
  have hframe := loadInto_frame s r m d (some t) l n false x0
  rw [← hL] at hframe
  obtain ⟨w, hw⟩ : ∃ w, w = (T.note (s.failing k f.far (s.front k).aspace va (e.vtype.sew / 8) x)).setVec k L := ⟨_, rfl⟩
  have hwvec : w.vec k = L := by rw [hw]; exact State.vec_setVec_self _ k L
  have hfield {α : Type} (g : Vec → α) (h1 : ∀ a b c d e, g { L with v := a, tag := b, bad := c, told := d, e := e } = g L)
      (h2 : ∀ a, g { x0 with s := a } = g x0) : g (w.vec k) = g ((s.vec k).setEntry { e with tally := y' }) := by
    have hx0same : { x0 with s := (s.vec k).s } = (s.vec k).setEntry { e with tally := y' } := by
      rw [hx0]
      exact congrArg (fun z : Vec => z.setEntry { e with tally := y' }) hdone.vec
    rw [hwvec, ← h1 x0.v x0.tag x0.bad x0.told x0.e, hframe, ← h2 (s.vec k).s, hx0same]
  have hwfront : w.front k = T.front k := by rw [hw]; rfl
  have hwok : w.HandlerOk k := by rw [hw]; exact hdone'.handlerOk L hok
  have hold : (s.vec k).oldest e = true := (Bool.and_eq_true_iff.mp hmay).1
  obtain ⟨htrap, hv, hvstart, hinfl, hhead⟩ := vectorTrap_written (w := w) (y := y') (n := n)
    (x := { code := x, elem := n, lane := faultLane (s.vec k) e.vtype.sew x n, tval := va }) hmoves hold hflags
    (hfield Vec.infl (fun _ _ _ _ _ => rfl) fun _ => rfl) (hfield Vec.viq (fun _ _ _ _ _ => rfl) fun _ => rfl)
    (hfield Vec.ftrap (fun _ _ _ _ _ => rfl) fun _ => rfl) hwok rfl
  refine ⟨_, hnext.trans (by rw [hw, hL, hx0, hr]; rfl), htrap.of_curgen (g := (s.front k).curgen) (by rw [hwfront]; exact hdone.front)
    (hfield Vec.vtype (fun _ _ _ _ _ => rfl) fun _ => rfl) (hfield Vec.vl (fun _ _ _ _ _ => rfl) fun _ => rfl), hvstart, hinfl, hhead, ?_⟩
  have hx0v : x0.v = (s.vec k).v := by rw [hx0]; exact (congrArg Vec.v hdone.vec :)
  have hx0tag : x0.tag = (s.vec k).tag := by rw [hx0]; exact (congrArg Vec.tag hdone.vec :)
  have hends : (r.kinds m n).ends = false := by
    rw [hr]
    unfold Kinds.ends
    rw [decide_eq_false (by exact Nat.not_le.mpr hstart), decide_eq_false (by exact Nat.not_le.mpr hvl), Bool.false_or]
  have hin : ∀ j, (r.kinds m n).active j = true → j ∈ act := fun j hj => by
    rw [hr] at hj
    simp only [Kinds.active, Bool.and_eq_true, decide_eq_true_eq] at hj
    obtain ⟨⟨hj1, hj2⟩, hmask⟩ := hj
    rw [hact]
    refine List.mem_filter.mpr ⟨mem_actives.mpr ?_, decide_eq_true hj2⟩
    simp only [Kinds.active, Bool.and_eq_true, decide_eq_true_eq]
    exact ⟨⟨hj1, lt_trans hj2 hhigh⟩, hmask⟩
  have hbelow : ∀ j ∈ act, ElemLoads s k f.far (r.vt.sew / 8) (f.ea j) (code j) := fun j hj => by
    rw [hact] at hj
    obtain ⟨hj1, hj2⟩ := List.mem_filter.mp hj
    rw [hr]
    exact hloads j (by simpa using hj2) (mem_actives.mp hj1)
  have hwritten := groupWritten_loadInto (r := r) (m := m) (d := d) (t := t) (hi := n) (x := x0) (u := L) (by rw [hr]; rfl) (by rw [hr]; rfl)
    (by rw [hr]; exact hgroup) hin hbelow (by rw [hr]; exact hx0v) (by rw [hr]; exact hx0tag) (by rw [hends, hL, hl, hr]; rfl)
    (by rw [hends, hL, hl, hr]; rfl)
  rw [hr] at hwritten
  exact groupUpTo_congr (hv.trans (by rw [hwvec])) (hwritten.toGroupData.upTo hstart hvl hhigh.le)

end

end Sys2Proof.Machine
end
section
/-! PROOFS. The forms of vector loads by elements, and `vld.ff` (R180 to R186, R194, R247). -/
namespace Sys2Proof.Machine

/-! ## A form whose elements load, or whose first failing element traps -/

/-- The trap of a load with given addresses of its elements at element n, by the codes that `taken` allows. -/
def LoadFaults (s : State) (k : Nat) (e : Entry) (hi : Nat) (d : VReg) (m : MReg) (code : Nat → Nat) (i : Instr) (far : Bool)
    (ea : Nat → Option W64) (t : Tag) (n : Nat) (taken : Nat → Prop) : Prop :=
  ∀ (va : W64) (x : Nat), s.HandlerOk k → s.mayTrap k e = true → (∀ y ∈ (s.vec k).infl, y.flags &&& (s.vec k).ftrap = 0) →
    (Kinds.of (s.vec k) e false hi m).active n = true → ea n = some va → s.findElem k far .load va (e.vtype.sew / 8) = .fault x → taken x →
    (∀ j, j < n → (Kinds.of (s.vec k) e false hi m).active j = true → ElemLoads s k far (e.vtype.sew / 8) (ea j) (code j)) →
    LoadTraps s k e (Kinds.of (s.vec k) e false hi m) d t code i n x va

/-- What a load with given addresses of its elements does: it loads the active elements, or traps at the first that fails. -/
def LoadRuns (s : State) (k : Nat) (e : Entry) (hi : Nat) (d : VReg) (m : MReg) (code : Nat → Nat) (i : Instr) (far : Bool)
    (ea : Nat → Option W64) (t : Tag) : Prop :=
  let v := s.vec k
  let z := e.vtype.sew / 8
  let q := Kinds.of v e false hi m
  ((∀ n, q.active n = true → ElemLoads s k far z (ea n) (code n)) → ∃ u, exec i s = .next u ∧ VecMemMoves s u k q.ends ∧
    v.Gathered (u.vec k) e q.ends q.hi ∧ (u.vec k).e = v.e ∧
    (∀ n va pa, q.active n = true → ea n = some va → s.findElem k far .load va z = .at_ pa → s.newer (s.genRange pa z) (u.front k).curgen = false) ∧
    if q.start < q.vl then GroupWritten v (u.vec k) q d e.vtype.sew t (fun n => some (code n)) else (u.vec k).v = v.v ∧ (u.vec k).tag = v.tag) ∧
  ∀ n, LoadFaults s k e hi d m code i far ea t n fun _ => True

section
variable {s : State} {k p hi : Nat} {e : Entry} {d : VReg} {c : Cls} {h : BitVec 2} {m : MReg} {i : Instr}
  (hmoves : s.Moves k p hi e) (hfpx : e.fpx = none) (hbad : (s.vec k).bad = []) (hgroup : groupOk e.vtype (d, .one) = true)
  (hheld : ∀ spots, s.vecHeld k e c spots = false)

section
include hmoves hfpx hgroup hheld

theorem loadRuns_of {code : Nat → Nat} {t : Tag} (y : Tally) (f : Form)
    (hexec : exec i s = vecLoad s k ((VRun.of (s.vec k) e false hi).tallied y) m d c h (some t) none f) :
    LoadRuns s k e hi d m code i f.far f.ea t := by
  refine ⟨fun hloads => vecLoad_completes hexec hfpx hgroup hheld hloads, fun n va x hok hmay hflags hn hea hx _ hbelow => ?_⟩
  have hact : ((VRun.of (s.vec k) e false hi).tallied y).actives m ((VRun.of (s.vec k) e false hi).tallied y).hi =
    (Kinds.of (s.vec k) e false hi m).actives := actives_eq (s.vec k) e false hi m
  have hstops := hexec.trans (vecLoad_fault (r := (VRun.of (s.vec k) e false hi).tallied y) (n := n) (x := x) (va := va) (f := f) (code := code)
    (c := c) (m := m) hheld (by rw [hact]; exact actives_pairwise _) (by rw [hact]; exact mem_actives.mpr hn) hea hx
    fun j hj hjn => hbelow j hjn (mem_actives.mp (hact ▸ hj)))
  rw [hact] at hstops
  obtain ⟨y', hy'⟩ := VRun.gather_tallied (VRun.of (s.vec k) e false hi) y s k n f
    (((Kinds.of (s.vec k) e false hi m).actives.filter fun j => decide (j < n)).map (s.loadProbe k (e.vtype.sew / 8) f))
  refine load_stops (h := h) hmoves hfpx hgroup (y := y) (y' := y') (hstops.trans ?_) hok hmay hflags hn hbelow
  rw [← hy']
  rfl

variable (code : Nat → Nat)

theorem loadRuns_vldUnit (a : XReg) : LoadRuns s k e hi d m code (.vldUnit d a c h m) false
    (fun n => some (e.ops.getD 0 0 + BitVec.ofNat 64 (n * (e.vtype.sew / 8)))) ((s.vec k).tagOf d) :=
  loadRuns_of hmoves hfpx hgroup hheld (h := h) e.tally (elemForm (.vldUnit d a c h m) (VRun.of (s.vec k) e false hi)) <| by
    refine (hmoves.vectorInstr _ _ _ _).trans ?_
    dsimp only
    rw [hmoves.vrun]
    rfl

theorem loadRuns_vldStr (a b : XReg) : LoadRuns s k e hi d m code (.vldStr d a b c h m) false
    (fun n => some (e.ops.getD 0 0 + BitVec.ofNat 64 n * e.ops.getD 1 0)) ((s.vec k).tagOf d) :=
  loadRuns_of hmoves hfpx hgroup hheld (h := h) e.tally (elemForm (.vldStr d a b c h m) (VRun.of (s.vec k) e false hi)) <| by
    refine (hmoves.vectorInstr _ _ _ _).trans ?_
    dsimp only
    rw [hmoves.vrun]
    rfl

theorem loadRuns_vld2d (a b : XReg) : LoadRuns s k e hi d m code (.vld2d d a b c h m) false (fun n =>
    some (e.ops.getD 0 0 + BitVec.ofNat 64 (n / ((e.ops.getD 2 0).extractLsb' 0 32).toNat) * e.ops.getD 1 0 +
      BitVec.ofNat 64 (n % ((e.ops.getD 2 0).extractLsb' 0 32).toNat) * ((e.ops.getD 2 0).extractLsb' 32 32).signExtend 64)) ((s.vec k).tagOf d) :=
  loadRuns_of hmoves hfpx hgroup hheld (h := h) e.tally (elemForm (.vld2d d a b c h m) (VRun.of (s.vec k) e false hi)) <| by
    refine (hmoves.vectorInstr _ _ _ _).trans ?_
    dsimp only
    rw [hmoves.vrun]
    rfl

include hbad

theorem loadRuns_vldIdx (a : XReg) {g : VReg} (hg : offsetsOk (s.vec k) e.vtype g = true) : LoadRuns s k e hi d m code (.vldIdx d a g c h m) true
    (fun n => some (e.ops.getD 0 0 + (s.vec k).offsetAt e.vtype g n)) ((s.vec k).tagOf d) :=
  loadRuns_of hmoves hfpx hgroup hheld (h := h) e.tally ((VRun.of (s.vec k) e false hi).idxForm g) <| by
    refine (hmoves.vectorInstr _ _ _ _).trans ?_
    dsimp only
    rw [hmoves.vrun, if_neg (fun hnot => by change (!offsetsOk (s.vec k) e.vtype g) = true at hnot; simp [hg] at hnot), VRun.uecc_none _ _ hbad]
    rfl

end

section
include hmoves hbad

/-- A shape form whose record is valid and whose tag fits runs as its shape says (R193, R195). -/
theorem State.Moves.exec_vldShape (a : XReg) {g : VReg} {t : Shape} (hlanes : (s.vec k).lanes ≠ 0)
    (ht : readShape .load ((s.vec k).recordWord g) = .ok t) :
    exec (.vldShape d a g c h m) s =
      (let r := (VRun.of (s.vec k) e false hi).tallied { e.tally with stride := some (t.stride.getD 0 0) }
      if t.mxs then loadSegments s k r m d c h t
      else if t.tag.width ≠ e.vtype.sew then s.rejectVec k e 3
      else vecLoad s k r m d c h (some t.tag) none ((VRun.of (s.vec k) e false hi).shapeForm t)) := by
  have hrecord : (s.vec k).recordBad g = none := by simp [Vec.recordBad, Vec.elemBad, hbad]
  refine (hmoves.vectorInstr _ _ _ _).trans ?_
  dsimp only
  rw [hmoves.vrun, if_neg (by exact hlanes)]
  unfold withShape
  change (match (s.vec k).recordBad g with | some j => _ | none => _) = _
  rw [hrecord]
  dsimp only
  change (match readShape .load ((s.vec k).recordWord g) with | .error c => _ | .ok t => _) = _
  rw [ht]
  rfl

include hfpx hgroup hheld

theorem loadRuns_vldShape (code : Nat → Nat) (a : XReg) {g : VReg} {t : Shape} (hlanes : (s.vec k).lanes ≠ 0)
    (ht : readShape .load ((s.vec k).recordWord g) = .ok t) (hmxs : t.mxs = false) (hw : t.tag.width = e.vtype.sew) :
    LoadRuns s k e hi d m code (.vldShape d a g c h m) false (t.addr (e.ops.getD 0 0)) t.tag :=
  loadRuns_of hmoves hfpx hgroup hheld (h := h) { e.tally with stride := some (t.stride.getD 0 0) } ((VRun.of (s.vec k) e false hi).shapeForm t) <| by
    rw [hmoves.exec_vldShape hbad a hlanes ht]
    dsimp only
    rw [if_neg (by rw [hmxs]; exact Bool.false_ne_true), if_neg (not_not.mpr hw)]

end

include hmoves

/-- A shape form without lanes completes and does nothing (R195). -/
theorem State.Moves.exec_vldShape_laneless (hlanes : (s.vec k).lanes = 0) (a : XReg) (g : VReg) :
    exec (.vldShape d a g c h m) s =
      .next (s.setVec k ((s.vec k).complete { e with tally := { e.tally with time := s.time, spc := (s.front k).pc } })) := by
  refine (hmoves.vectorInstr _ _ _ _).trans ?_
  dsimp only
  rw [hmoves.vrun]
  exact if_pos hlanes

end

/-! ## `vld.ff` (R186, R247) -/

/-- VL as `vld.ff` settles it is what the statement says. -/
theorem Vec.trim_eq (v : Vec) (e : Entry) (n : Nat) : v.trim e n = vecSettled v e n := by
  have hother (x y : Entry) : (decide (y.po < x.po) && isFf y.word && !y.done) = (decide (y.po < x.po) && !y.done && isFf y.word) :=
    Bool.and_right_comm _ _ _
  have hcond (o : Option Entry) (x : Entry) : (decide (e.po < x.po) && x.ffv && (o.map (·.po)).all fun po => decide (x.po < po)) = true ↔
      e.po < x.po ∧ x.ffv = true ∧ ∀ y, o = some y → x.po < y.po := by
    cases o <;> simp [and_assoc]
  unfold Vec.trim
  simp only [hother, hcond, Option.isSome_map]
  rfl

section
variable {s T : State} {k : Nat} {e : Entry} {X : Vec} {n : Nat}

/-- What a `vld.ff` leaves that has read memory, written its group and settled VL on n (R186). -/
theorem LoadDone.ends_first (h : LoadDone s T k)
    (hX : { X with v := (T.vec k).v, tag := (T.vec k).tag, bad := (T.vec k).bad, told := (T.vec k).told, e := (T.vec k).e } = T.vec k) (y : Tally) :
    let u := T.setVec k ((X.trim e n).complete { e with tally := y, pix := BitVec.ofNat 13 n })
    VecMemMoves (s.setVec k (vecSettled (s.vec k) e n)) u k true ∧
      (u.vec k).infl = ((vecSettled (s.vec k) e n).complete { e with pix := BitVec.ofNat 13 n, tally := y }).infl ∧
      (u.vec k).v = X.v ∧ (u.vec k).tag = X.tag ∧ (u.vec k).e = X.e := by
  intro u
  obtain ⟨e', he'⟩ : ∃ e', e' = ({ e with tally := y, pix := BitVec.ofNat 13 n } : Entry) := ⟨_, rfl⟩
  have hsame : { X with
      v := (s.vec k).v, tag := (s.vec k).tag, bad := (s.vec k).bad, told := (s.vec k).told, e := (s.vec k).e, s := (s.vec k).s } = s.vec k := by
    have h1 := congrArg (fun x : Vec => { x with
      v := (s.vec k).v, tag := (s.vec k).tag, bad := (s.vec k).bad, told := (s.vec k).told, e := (s.vec k).e, s := (s.vec k).s }) hX
    have h2 := congrArg (fun x : Vec => { x with
      v := (s.vec k).v, tag := (s.vec k).tag, bad := (s.vec k).bad, told := (s.vec k).told, e := (s.vec k).e }) h.vec
    exact h1.trans h2
  have htrim := congrArg (fun x : Vec => (x.trim e n).complete e') hsame
  rw [Vec.trim_eq (s.vec k)] at htrim
  obtain ⟨V, hV⟩ : ∃ V, V = vecSettled (s.vec k) e n := ⟨_, rfl⟩
  have hVs : V.s = (s.vec k).s := by rw [hV]; rfl
  rw [← hV] at htrim ⊢
  have hu : u.vec k = (X.trim e n).complete e' := by rw [he']; exact State.vec_setVec_self T k _
  refine ⟨?_, ?_, ?_, ?_, ?_⟩
  · refine (show u = T.setVec k ((X.trim e n).complete e') by rw [he']) ▸ h.vecMemMoves (s' := s.setVec k V) rfl
      (fun j hj => by rw [State.vec_setVec, if_neg hj]) (by rw [State.vec_setVec_self, hVs]) ?_ rfl ?_
    · exact (congrArg Vec.s hX :)
    · rw [State.vec_setVec_self]
      have h1 := congrArg (fun x : Vec => { x with
        v := V.v, tag := V.tag, bad := V.bad, told := V.told, e := V.e, s := V.s, flags := V.flags, infl := V.infl, vstart := V.vstart }) htrim
      exact h1
  · rw [hu]
    exact (congrArg Vec.infl htrim :).trans (by rw [he'])
  · rw [hu]
    rfl
  · rw [hu]
    rfl
  · rw [hu]
    rfl

end

end Sys2Proof.Machine
end
section
/-! PROOFS. The moves of `vld.ff` (R186). -/
namespace Sys2Proof.Machine

/-! ## How a `vld.ff` ends -/

/-- A `vld.ff` that completes with VL settled on n. -/
def State.endsFirst (s : State) (k : Nat) (r : VRun) (m : MReg) (d : VReg) (h : BitVec 2) (f : Form) (l : List Probe) (n : Nat) (fin : Bool)
    (look : Option Touch) : State :=
  let t := look.elim (s.readMove k n r f h l) (s.readMove k n r f h l).note
  t.setVec k (((if r.vl ≤ r.start then t.vec k else s.loadInto r m d (r.ownTag d) l n fin (t.vec k)).trim r.e n).complete
    { (r.gather s k n f l).e with pix := BitVec.ofNat 13 n })

section
variable {s : State} {k : Nat} {r : VRun} {d : VReg} {c : Cls} {h : BitVec 2} {m : MReg} {f : Form} {code : Nat → Nat}
  (hwhole : { r with hi := r.vl } = r) (hheld : ∀ spots, s.vecHeld k r.e c spots = false)
include hwhole hheld

theorem vecLoadFirst_whole (hloads : ∀ j ∈ r.actives m r.vl, ElemLoads s k f.far (r.vt.sew / 8) (f.ea j) (code j)) :
    vecLoadFirst s k r m d c h f = .next (s.endsFirst k r m d h f ((r.actives m r.vl).map (s.loadProbe k (r.vt.sew / 8) f)) r.vl true none) := by
  have hfault := firstFault_loads (r.actives m r.vl) hloads
  have hgood : belowFault ((r.actives m r.vl).map (s.loadProbe k (r.vt.sew / 8) f)) = (r.actives m r.vl).map (s.loadProbe k (r.vt.sew / 8) f) := by
    unfold belowFault
    rw [hfault]
  unfold vecLoadFirst
  simp only [hwhole]
  rw [State.probes_load, hfault, hgood, if_neg (by rw [hheld]; exact Bool.false_ne_true),
    if_neg (by rw [loads_not_wait hloads]; exact Bool.false_ne_true)]
  rfl

section
variable {n x : Nat} {va : W64} (hsorted : (r.actives m r.vl).Pairwise (· < ·)) (hn : n ∈ r.actives m r.vl)
  (hea : f.ea n = some va) (hx : s.findElem k f.far .load va (r.vt.sew / 8) = .fault x)
  (hloads : ∀ j ∈ r.actives m r.vl, j < n → ElemLoads s k f.far (r.vt.sew / 8) (f.ea j) (code j))
include hsorted hn hea hx hloads

/-- A `vld.ff` that an element's failing access stops: it ends there by LDFAULT or BADADDR of a later element than the first, and
traps otherwise. -/
theorem vecLoadFirst_fault :
    let l := ((r.actives m r.vl).filter fun j => decide (j < n)).map (s.loadProbe k (r.vt.sew / 8) f)
    vecLoadFirst s k r m d c h f =
      if (r.actives m r.vl).head? ≠ some n && (x = 7 || x = 14) then
        .next (s.endsFirst k r m d h f l n false (some (s.failing k f.far (s.front k).aspace va (r.vt.sew / 8) x)))
      else vecFinish s k (r.gather s k n f l) m (some (s.memTrap k r f.far false r.vt.sew d n va (r.vt.sew / 8) x)) none false
        (s.loadInto r m d (r.ownTag d) l) (fun _ => 0) fun s => s.readMove k n r f h l := by
  intro l
  have hfault := firstFault_after hea hx (r.actives m r.vl) hsorted hn hloads
  have hgood : belowFault ((r.actives m r.vl).map (s.loadProbe k (r.vt.sew / 8) f)) = l := by
    unfold belowFault
    rw [hfault]
    exact filter_loadProbes _ n
  have hbelow : ∀ j ∈ (r.actives m r.vl).filter fun j => decide (j < n), ElemLoads s k f.far (r.vt.sew / 8) (f.ea j) (code j) := fun j hj => by
    obtain ⟨hj1, hj2⟩ := List.mem_filter.mp hj
    exact hloads j hj1 (by simpa using hj2)
  unfold vecLoadFirst
  simp only [hwhole]
  rw [State.probes_load, hfault, hgood, if_neg (by rw [hheld]; exact Bool.false_ne_true),
    if_neg (by rw [loads_not_wait hbelow]; exact Bool.false_ne_true)]
  rfl

end

end

section
variable {s : State} {k p hi : Nat} {e : Entry} {d : VReg} {c : Cls} {h : BitVec 2} {m : MReg} {f : Form} {i : Instr} {code : Nat → Nat}

/-- What a `vld.ff` leaves that has settled VL on `stop`: trimmed there, or whole (R186). -/
theorem endsFirst_leaves (hgroup : groupOk e.vtype (d, .one) = true) {l : List Probe} {stop : Nat} {look : Option Touch} {fin : Bool}
    (hl : l = ((Kinds.of (s.vec k) e false hi m).actives.filter fun j => decide (j < stop)).map (s.loadProbe k (e.vtype.sew / 8) f))
    (hstop : stop ≤ (Kinds.of (s.vec k) e false hi m).hi) (hvl : (Kinds.of (s.vec k) e false hi m).hi = (Kinds.of (s.vec k) e false hi m).vl)
    (hfin : fin = decide (stop = (Kinds.of (s.vec k) e false hi m).vl)) (hbelow : stop < (Kinds.of (s.vec k) e false hi m).vl →
      (Kinds.of (s.vec k) e false hi m).start < (Kinds.of (s.vec k) e false hi m).vl)
    (hloads : ∀ n, n < stop → (Kinds.of (s.vec k) e false hi m).active n = true → ElemLoads s k f.far (e.vtype.sew / 8) (f.ea n) (code n)) :
    let q := Kinds.of (s.vec k) e false hi m
    let u := s.endsFirst k (VRun.of (s.vec k) e false hi) m d h f l stop fin look
    ∃ y, VecMemMoves (s.setVec k (vecSettled (s.vec k) e stop)) u k true ∧
      (u.vec k).infl = ((vecSettled (s.vec k) e stop).complete { e with pix := BitVec.ofNat 13 stop, tally := y }).infl ∧
      (u.vec k).e = (s.vec k).e ∧
      if stop < q.vl then
        GroupUpTo (s.vec k) (u.vec k) q stop d e.vtype.sew ((s.vec k).tagOf d) code ∧
        ∀ n, n < 32 → (u.vec k).tag.getD n .int32 = if q.inGroup d e.vtype.sew n then (s.vec k).tagOf d else (s.vec k).tag.getD n .int32
      else if q.start < q.vl then GroupWritten (s.vec k) (u.vec k) q d e.vtype.sew ((s.vec k).tagOf d) (fun n => some (code n))
      else (u.vec k).v = (s.vec k).v ∧ (u.vec k).tag = (s.vec k).tag := by
  intro q u
  change stop ≤ q.hi at hstop
  change q.hi = q.vl at hvl
  change fin = decide (stop = q.vl) at hfin
  obtain ⟨r, hr⟩ : ∃ r, r = VRun.of (s.vec k) e false hi := ⟨_, rfl⟩
  obtain ⟨T, hT⟩ : ∃ T, T = look.elim (s.readMove k stop r f h l) (s.readMove k stop r f h l).note := ⟨_, rfl⟩
  have hdone : LoadDone s T k := by
    rw [hT]
    cases look with
    | none => exact readMove_done s k stop r f h l
    | some x => exact (readMove_done s k stop r f h l).note x
  obtain ⟨X, hX⟩ : ∃ X, X = if q.vl ≤ q.start then T.vec k else s.loadInto r m d (r.ownTag d) l stop fin (T.vec k) := ⟨_, rfl⟩
  have hframe : { X with v := (T.vec k).v, tag := (T.vec k).tag, bad := (T.vec k).bad, told := (T.vec k).told, e := (T.vec k).e } = T.vec k := by
    rw [hX]
    split
    · rfl
    · exact loadInto_frame s r m d (r.ownTag d) l stop fin (T.vec k)
  have hXe : X.e = (s.vec k).e := by
    have hTe : (T.vec k).e = (s.vec k).e := (congrArg Vec.e hdone.vec :)
    rw [hX]
    split
    · exact hTe
    · exact (loadInto_scales s r m d (r.ownTag d) l stop fin (T.vec k)).trans hTe
  obtain ⟨y, hy⟩ : ∃ y, (r.gather s k stop f l).e = { e with tally := y } := by rw [hr]; exact ⟨_, rfl⟩
  have hu : u = T.setVec k ((X.trim e stop).complete { e with tally := y, pix := BitVec.ofNat 13 stop }) := by
    have hgather : (VRun.of (s.vec k) e false hi).gather s k stop f l = r.gather s k stop f l := by rw [hr]
    unfold u State.endsFirst
    rw [hgather, hy, hX, hT, hr]
    rfl
  obtain ⟨hmoves, hinfl, hv, htag, he⟩ := hdone.ends_first (e := e) (n := stop) hframe y
  rw [← hu] at hmoves hinfl hv htag he
  refine ⟨y, hmoves, hinfl, he.trans hXe, ?_⟩
  have hTv : (T.vec k).v = (s.vec k).v := (congrArg Vec.v hdone.vec :)
  have hTtag : (T.vec k).tag = (s.vec k).tag := (congrArg Vec.tag hdone.vec :)
  by_cases hstart : q.start < q.vl
  · rw [if_neg (not_le.mpr hstart)] at hX
    have hends : fin = (r.kinds m stop).ends := by
      rw [hfin, hr]
      unfold Kinds.ends
      change decide (stop = q.vl) = (decide (q.vl ≤ q.start) || decide (q.vl ≤ stop))
      rw [decide_eq_false (not_le.mpr hstart), Bool.false_or, decide_eq_decide]
      omega
    have hin : ∀ j, (r.kinds m stop).active j = true → j ∈ q.actives.filter fun j => decide (j < stop) := fun j hj => by
      rw [hr] at hj
      simp only [Kinds.active, Bool.and_eq_true, decide_eq_true_eq] at hj
      obtain ⟨⟨hj1, hj2⟩, hmask⟩ := hj
      refine List.mem_filter.mpr ⟨mem_actives.mpr ?_, decide_eq_true hj2⟩
      simp only [Kinds.active, Bool.and_eq_true, decide_eq_true_eq]
      exact ⟨⟨hj1, lt_of_lt_of_le hj2 hstop⟩, hmask⟩
    have hwritten := groupWritten_loadInto (s := s) (k := k) (f := f) (code := code) (r := r) (m := m) (d := d)
      (t := (s.vec k).tagOf d) (hi := stop) (x := T.vec k) (u := u.vec k) (by rw [hr]; rfl) (by rw [hr]; rfl) (by rw [hr]; exact hgroup) hin (fun j hj => by
        obtain ⟨hj1, hj2⟩ := List.mem_filter.mp hj
        rw [hr]
        exact hloads j (by simpa using hj2) (mem_actives.mp hj1)) (by rw [hr]; exact hTv) (by rw [hr]; exact hTtag)
      (by rw [hv, hX, hends, hl, hr]; rfl) (by rw [htag, hX, hends, hl, hr]; rfl)
    rw [hr] at hwritten
    by_cases hlt : stop < q.vl
    · rw [if_pos hlt]
      exact ⟨hwritten.toGroupData.upTo hstart hlt hstop, hwritten.tags⟩
    · have heq : stop = q.hi := by omega
      rw [if_neg hlt, if_pos hstart]
      rw [heq] at hwritten
      exact hwritten
  · rw [if_neg fun hlt => hstart (hbelow hlt), if_neg hstart, hv, htag, hX, if_pos (not_lt.mp hstart)]
    exact ⟨hTv, hTtag⟩

section
variable (hmoves : s.Moves k p hi e) (hfpx : e.fpx = none) (hgroup : groupOk e.vtype (d, .one) = true) (hheld : ∀ spots, s.vecHeld k e c spots = false)
  (hvl : (Kinds.of (s.vec k) e false hi m).hi = (Kinds.of (s.vec k) e false hi m).vl)

/-- The first active element is the head of the active ones. -/
theorem head_actives {n : Nat} {l : List Nat} (hsorted : l.Pairwise (· < ·)) (hn : n ∈ l) (hfirst : ∀ j ∈ l, ¬ j < n) : l.head? = some n := by
  cases l with
  | nil => exact absurd hn List.not_mem_nil
  | cons j l =>
    rcases List.mem_cons.mp hn with rfl | hn
    · rfl
    · exact absurd ((List.pairwise_cons.mp hsorted).1 n hn) (hfirst j List.mem_cons_self)

/-- The addresses of a `vld.ff` are those of a unit-stride form (R180, R186). -/
def unitForm (e : Entry) : Form := ⟨false, true, fun n => some (e.ops.getD 0 0 + BitVec.ofNat 64 (n * (e.vtype.sew / 8)))⟩

include hmoves in
theorem State.Moves.exec_vldFf (a : XReg) :
    exec (.vldFf d a c h m) s = vecLoadFirst s k (VRun.of (s.vec k) e false hi) m d c h (unitForm e) := by
  refine (hmoves.vectorInstr _ _ _ _).trans ?_
  rw [hmoves.vrun]
  rfl

include hvl

theorem whole_frame : { VRun.of (s.vec k) e false hi with hi := (VRun.of (s.vec k) e false hi).vl } = VRun.of (s.vec k) e false hi :=
  congrArg (fun n => { VRun.of (s.vec k) e false hi with hi := n }) hvl.symm

theorem actives_whole_move : (VRun.of (s.vec k) e false hi).actives m (VRun.of (s.vec k) e false hi).vl = (Kinds.of (s.vec k) e false hi m).actives :=
  (congrArg ((VRun.of (s.vec k) e false hi).actives m) hvl.symm).trans (actives_eq (s.vec k) e false hi m)

include hmoves hfpx hgroup hheld

/-- A `vld.ff` traps at its first active element, or by another code than LDFAULT and BADADDR (R186). -/
theorem loadFaults_vldFf (a : XReg) (n : Nat) {taken : Nat → Prop} (htaken : ∀ x, taken x →
      (∀ j, j < n → (Kinds.of (s.vec k) e false hi m).active j = false) ∨ (x ≠ 7 ∧ x ≠ 14)) :
    LoadFaults s k e hi d m code (.vldFf d a c h m) false (fun n => some (e.ops.getD 0 0 + BitVec.ofNat 64 (n * (e.vtype.sew / 8))))
      ((s.vec k).tagOf d) n taken := by
  intro va x hok hmay hflags hn hea hx hx' hbelow
  have hact := actives_whole_move hvl
  have hfault := vecLoadFirst_fault (r := VRun.of (s.vec k) e false hi) (s := s) (k := k) (m := m) (d := d) (c := c) (h := h) (f := unitForm e) (n := n)
    (x := x) (va := va) (code := code) (whole_frame hvl) hheld (by rw [hact]; exact actives_pairwise _) (by rw [hact]; exact mem_actives.mpr hn) hea hx
    fun j hj hjn => hbelow j hjn (mem_actives.mp (hact ▸ hj))
  rw [hact] at hfault
  have hstops : ¬ (decide ((Kinds.of (s.vec k) e false hi m).actives.head? ≠ some n) && (decide (x = 7) || decide (x = 14))) = true := by
    simp only [Bool.and_eq_true, Bool.or_eq_true, decide_eq_true_eq]
    rintro ⟨hhead, hcode⟩
    rcases htaken x hx' with hfirst | ⟨h7, h14⟩
    · exact hhead (head_actives (actives_pairwise _) (mem_actives.mpr hn) fun j hj hjn => by
        rw [mem_actives, hfirst j hjn] at hj
        exact Bool.false_ne_true hj)
    · exact hcode.elim h7 h14
  have hexec := ((hmoves.exec_vldFf a).trans hfault).trans (if_neg hstops)
  obtain ⟨y', hy'⟩ := VRun.gather_tallied (VRun.of (s.vec k) e false hi) e.tally s k n (unitForm e)
    (((Kinds.of (s.vec k) e false hi m).actives.filter fun j => decide (j < n)).map (s.loadProbe k (e.vtype.sew / 8) (unitForm e)))
  refine load_stops (h := h) (f := unitForm e) hmoves hfpx hgroup (y := e.tally) (y' := y') (hexec.trans ?_) hok hmay hflags hn hbelow
  rw [← hy']
  rfl

omit hfpx in
/-- A `vld.ff` completes, at its end or at a later element that fails by LDFAULT or BADADDR (R186). -/
theorem vldFf_ends (a : XReg) (stop : Nat)
    (hloads : ∀ n, n < stop → (Kinds.of (s.vec k) e false hi m).active n = true →
      ElemLoads s k false (e.vtype.sew / 8) (some (e.ops.getD 0 0 + BitVec.ofNat 64 (n * (e.vtype.sew / 8)))) (code n))
    (hstop : stop = (Kinds.of (s.vec k) e false hi m).vl ∨ ((Kinds.of (s.vec k) e false hi m).active stop = true ∧
      (∃ n, n < stop ∧ (Kinds.of (s.vec k) e false hi m).active n = true) ∧
      ∃ va x, (unitForm e).ea stop = some va ∧ (x = 7 ∨ x = 14) ∧ s.findElem k false .load va (e.vtype.sew / 8) = .fault x)) :
    let q := Kinds.of (s.vec k) e false hi m
    ∃ u y, exec (.vldFf d a c h m) s = .next u ∧ VecMemMoves (s.setVec k (vecSettled (s.vec k) e stop)) u k true ∧
      (u.vec k).infl = ((vecSettled (s.vec k) e stop).complete { e with pix := BitVec.ofNat 13 stop, tally := y }).infl ∧
      (u.vec k).e = (s.vec k).e ∧
      if stop < q.vl then
        GroupUpTo (s.vec k) (u.vec k) q stop d e.vtype.sew ((s.vec k).tagOf d) code ∧
        ∀ n, n < 32 → (u.vec k).tag.getD n .int32 = if q.inGroup d e.vtype.sew n then (s.vec k).tagOf d else (s.vec k).tag.getD n .int32
      else if q.start < q.vl then GroupWritten (s.vec k) (u.vec k) q d e.vtype.sew ((s.vec k).tagOf d) (fun n => some (code n))
      else (u.vec k).v = (s.vec k).v ∧ (u.vec k).tag = (s.vec k).tag := by
  intro q
  have hact : (VRun.of (s.vec k) e false hi).actives m (VRun.of (s.vec k) e false hi).vl = q.actives := actives_whole_move hvl
  rcases hstop with hend | ⟨hactive, ⟨j, hj, hjactive⟩, va, x, hea, hcode, hx⟩
  · have hall : ∀ j ∈ q.actives, j < stop := fun j hj => by
      rw [hend]
      exact (active_bounds (mem_actives.mp hj)).2.2
    have hwhole := vecLoadFirst_whole (r := VRun.of (s.vec k) e false hi) (s := s) (k := k) (m := m) (d := d) (c := c) (h := h) (f := unitForm e)
      (code := code) (whole_frame hvl) hheld fun j hj => by
        rw [hact] at hj
        exact hloads j (hall j hj) (mem_actives.mp hj)
    rw [hact] at hwhole
    have hfilter : q.actives.filter (fun j => decide (j < stop)) = q.actives := List.filter_eq_self.mpr fun j hj => decide_eq_true (hall j hj)
    obtain ⟨y, hleaves⟩ := endsFirst_leaves (h := h) (f := unitForm e) (fin := true) (look := none) hgroup
      (l := q.actives.map (s.loadProbe k (e.vtype.sew / 8) (unitForm e))) (stop := stop) (by rw [hfilter]) (by rw [hvl, hend]) hvl
      (decide_eq_true hend).symm (fun hlt => absurd hend hlt.ne) hloads
    refine ⟨_, y, (hmoves.exec_vldFf a).trans (hwhole.trans ?_), hleaves⟩
    rw [hend]
    rfl
  · obtain ⟨hlow, hhigh, hlt⟩ := active_bounds hactive
    have hfault := vecLoadFirst_fault (r := VRun.of (s.vec k) e false hi) (s := s) (k := k) (m := m) (d := d) (c := c) (h := h) (f := unitForm e)
      (n := stop) (x := x) (va := va) (code := code) (whole_frame hvl) hheld (by rw [hact]; exact actives_pairwise _)
      (by rw [hact]; exact mem_actives.mpr hactive) hea hx fun j hj hjn => hloads j hjn (mem_actives.mp (hact ▸ hj))
    rw [hact] at hfault
    have hlater : (decide (q.actives.head? ≠ some stop) && (decide (x = 7) || decide (x = 14))) = true := by
      simp only [Bool.and_eq_true, Bool.or_eq_true, decide_eq_true_eq]
      refine ⟨fun hhead => ?_, hcode⟩
      obtain ⟨l, hl⟩ := List.head?_eq_some_iff.mp hhead
      have hsorted := actives_pairwise q
      have hmem := mem_actives.mpr hjactive
      change j ∈ q.actives at hmem
      rw [hl] at hsorted hmem
      rcases List.mem_cons.mp hmem with heq | hmem
      · exact hj.ne heq
      · exact absurd ((List.pairwise_cons.mp hsorted).1 j hmem) hj.not_gt
    obtain ⟨y, hleaves⟩ := endsFirst_leaves (h := h) (f := unitForm e) (fin := false) (stop := stop)
      (look := some (s.failing k false (s.front k).aspace va (e.vtype.sew / 8) x)) hgroup rfl hhigh.le hvl
      (decide_eq_false hlt.ne).symm (fun _ => lt_of_le_of_lt hlow hlt) hloads
    exact ⟨_, y, (hmoves.exec_vldFf a).trans (hfault.trans (if_pos hlater)), hleaves⟩

end

end

end Sys2Proof.Machine
end
section
/-! PROOFS. `vld.shape` over MX segments (R50, R195). -/
namespace Sys2Proof.Machine

/-! ## The segments of a move -/

section
variable (s : State) (k : Nat) (t : Shape) (x : W64)

/-- The address of a segment (R195). -/
def segmentVa (q : Nat) : W64 := t.base + x + BitVec.ofNat 64 q * t.stride.getD 0 0

/-- What a segment of a load gives. -/
def State.segFound (q : Nat) : SegFound := s.segLoad k (s.segCheck k .load (segmentVa t x q) (segSize t.tag))

/-- The segments that elements touch. -/
def touchedSegs (act : List Nat) : List Nat := (act.filterMap fun i => (walkPos t.ext t.start t.bounds i).map fun p => p / 1024).eraseDups

/-- The checks of the segments that elements touch. -/
def State.segChecks (act : List Nat) : List (Nat × Except Nat (List (Nat × Nat))) :=
  (touchedSegs t act).map fun q => (q, s.segCheck k .load (segmentVa t x q) (segSize t.tag))

/-- What a segment that elements touch has been found to give. -/
def State.segAt (act : List Nat) (q : Nat) : Option SegFound :=
  (((s.segChecks k t x act).map fun p => (p.1, s.segLoad k p.2)).find? fun p => p.1 = q).map (·.2)

/-- The place of an element in its segment, and that segment's bytes. -/
def State.segSource (act : List Nat) (i : Nat) : Option (Nat × List Byte) :=
  (walkPos t.ext t.start t.bounds i).bind fun p => match s.segAt k t x act (p / 1024) with
    | some (.bytes b) => some (p % 1024, b)
    | _ => none

end

section
variable {s : State} {k : Nat} {t : Shape} {x : W64} {act : List Nat}

theorem mem_touchedSegs {q : Nat} :
    q ∈ touchedSegs t act ↔ ∃ i p, i ∈ act ∧ walkPos t.ext t.start t.bounds i = some p ∧ p / 1024 = q := by
  unfold touchedSegs
  simp only [List.mem_eraseDups, List.mem_filterMap, Option.map_eq_some_iff]
  grind

theorem State.segAt_touched {q : Nat} (hq : q ∈ touchedSegs t act) : s.segAt k t x act q = some (s.segFound k t x q) := by
  unfold State.segAt State.segChecks
  rw [List.map_map, List.find?_map, Option.map_map]
  have hfind : ∀ {l : List Nat}, q ∈ l → l.find? (fun p => decide (p = q)) = some q := fun {l} => by
    induction l with
    | nil => exact fun h => absurd h List.not_mem_nil
    | cons p l ih =>
      intro h
      rw [List.find?_cons]
      by_cases hp : p = q
      · rw [decide_eq_true hp, hp]
      · rw [decide_eq_false hp]
        exact ih ((List.mem_cons.mp h).resolve_left (Ne.symm hp))
  exact congrArg (Option.map _) (hfind hq)

/-- Every segment that the elements touch gives its bytes. -/
def SegsLoad (s : State) (k : Nat) (t : Shape) (x : W64) (act : List Nat) (bytes : Nat → List Byte) : Prop :=
  ∀ n p, n ∈ act → walkPos t.ext t.start t.bounds n = some p → s.segFound k t x (p / 1024) = .bytes (bytes (p / 1024))

variable {bytes : Nat → List Byte} (hbytes : SegsLoad s k t x act bytes)
include hbytes

theorem SegsLoad.segAt {n p : Nat} (hn : n ∈ act) (hp : walkPos t.ext t.start t.bounds n = some p) :
    s.segAt k t x act (p / 1024) = some (.bytes (bytes (p / 1024))) := by
  rw [State.segAt_touched (mem_touchedSegs.mpr ⟨n, p, hn, hp, rfl⟩), hbytes n p hn hp]

theorem SegsLoad.segSource {n : Nat} (hn : n ∈ act) :
    s.segSource k t x act n = (walkPos t.ext t.start t.bounds n).map fun p => (p % 1024, bytes (p / 1024)) := by
  unfold State.segSource
  cases hp : walkPos t.ext t.start t.bounds n with
  | none => rfl
  | some p =>
    rw [Option.bind_some, hbytes.segAt hn hp]
    rfl

end

/-! ## What such a move writes -/

/-- The scales of the segments that elements touch reach the scale registers (R195). -/
def VRun.scaleAll (r : VRun) (source : Nat → Option (Nat × List Byte)) (l : List Nat) (v : Vec) : Vec :=
  l.foldl (fun v i => match source i with
    | some (_, b) => { v with e := v.e.setIfInBounds ((i / 2 ^ r.vt.bl + v.scalebase.toNat) % 256) (b.getD 0 0) }
    | none => v) v

/-- The destination of a load over MX segments: each active element holds its code, unpacked (R50, R195). -/
def segDst (d : VReg) (tag : Tag) (act : List Nat) (source : Nat → Option (Nat × List Byte)) : VDst :=
  ⟨d, 8, some tag, fun i => if act.contains i then some (match source i with | some (j, b) => segElem tag b j | none => 0) else none⟩

/-- What a load over MX segments writes: its group, and the scale registers. -/
def VRun.segWrite (r : VRun) (m : MReg) (d : VReg) (tag : Tag) (act : List Nat) (source : Nat → Option (Nat × List Byte)) (hi : Nat) (fin : Bool)
    (v : Vec) : Vec := r.scaleAll source act (r.put m hi fin (segDst d tag act source) v)

/-- The read of a move over MX segments beside its registers. -/
def State.readSegs (s : State) (k : Nat) (r : VRun) (h : BitVec 2) (segs : List Seg) (runs : List (Nat × Nat)) : State :=
  (segs.foldl (fun (s : State) g => s.noteRuns k r.e h g.va g.runs)
    ((r.segSlices segs).foldl State.countConflicts (s.adoptRuns k r.e runs))).dropArrived (.vector k)

theorem State.noteRuns_accounted (s : State) (k : Nat) (e : Entry) (h : BitVec 2) (va : W64) (runs : List (Nat × Nat)) :
    Accounted s (s.noteRuns k e h va runs) := by
  have hfold : ∀ (l : List (Nat × Nat)) (n : Nat) (u : State), Accounted u (l.foldl (fun (st : Nat × State) q =>
      (st.1 + q.2, st.2.note ⟨k, false, some (va + BitVec.ofNat 64 st.1, (s.front k).aspace),
        if isDomain q.1 then none else some q, false, h, some e.po⟩)) (n, u)).2 := by
    intro l
    induction l with
    | nil => exact fun _ u => .refl u
    | cons q l ih => exact fun n u => (u.note_accounted _).trans (ih _ _)
  exact hfold runs 0 s

theorem readSegs_done (s : State) (k : Nat) (r : VRun) (h : BitVec 2) (segs : List Seg) (runs : List (Nat × Nat)) :
    LoadDone s (s.readSegs k r h segs runs) k :=
  loadDone_of (e := r.e) ((accounted_foldl State.countConflicts_accounted _ _).trans (accounted_foldl (fun s _ => s.noteRuns_accounted _ _ _ _ _) _ _))

/-- A load over MX segments all of which give their bytes. -/
theorem loadSegments_plain {s : State} {k : Nat} {r : VRun} {m : MReg} {d : VReg} {c : Cls} {h : BitVec 2} {t : Shape} {bytes : Nat → List Byte}
    (hsew : r.vt.sew = 8) (hheld : ∀ spots, s.vecHeld k r.e c spots = false)
    (hbytes : SegsLoad s k t (r.e.ops.getD 0 0) (r.actives m r.hi) bytes) :
    ∃ segs runs, loadSegments s k r m d c h t =
      vecFinish s k (r.gatherSegs s k (segSize t.tag) r.hi segs) m none none false
        (r.segWrite m d t.tag (r.actives m r.hi) (s.segSource k t (r.e.ops.getD 0 0) (r.actives m r.hi))) (fun _ => 0)
        fun s => s.readSegs k r h segs runs := by
  unfold loadSegments
  rw [if_neg (not_not.mpr hsew)]
  extract_lets size pos segVa act segs checks found at_ bad good read gone runs asks bytesOf res scales top
  have hat : at_ = s.segAt k t (r.e.ops.getD 0 0) act := rfl
  have hbad : bad = none := List.findSome?_eq_none_iff.mpr fun i hi => by
    cases hp : pos i with
    | none => rfl
    | some p =>
      rw [Option.bind_some, hat, hbytes.segAt hi hp]
  have hgood : good = act := by
    unfold good
    rw [hbad]
  have hasks : asks = [] := List.flatMap_eq_nil_iff.mpr fun q hq => by
    unfold read at hq
    rw [hgood] at hq
    obtain ⟨i, p, hi, hp, rfl⟩ := mem_touchedSegs.mp hq
    rw [hat, hbytes.segAt hi hp]
  have hwrite : (fun hi fin v => scales (r.put m hi fin ⟨d, 8, some t.tag, res⟩ v)) =
      r.segWrite m d t.tag act (s.segSource k t (r.e.ops.getD 0 0) act) := by
    unfold scales res
    rw [hgood]
    rfl
  have htop : top = r.hi := by
    unfold top
    rw [hbad]
    rfl
  refine ⟨gone, runs, ?_⟩
  rw [if_neg (by rw [hheld]; exact Bool.false_ne_true), if_neg (by rw [hasks]; exact Bool.false_ne_true), hbad, hwrite, htop]
  rfl

end Sys2Proof.Machine
end
section
/-! PROOFS. What `vld.shape` over MX segments leaves (R50, R195), and the statement of vector loads. -/
namespace Sys2Proof.Machine

/-! ## The scale registers -/

/-- The scale registers with the scale of the segment of an element written. -/
def putScale (bl base : Nat) (pos : Nat → Option Nat) (bytes : Nat → List Byte) (y : Vector Byte 256) (n : Nat) : Vector Byte 256 :=
  match pos n with
  | some x => y.setIfInBounds ((n / 2 ^ bl + base) % 256) ((bytes (x / 1024)).getD 0 0)
  | none => y

theorem VRun.scaleAll_frame (r : VRun) (source : Nat → Option (Nat × List Byte)) (l : List Nat) (v : Vec) :
    { r.scaleAll source l v with e := v.e } = v :=
  foldl_keeps (fun x : Vec => { x with e := v.e }) (fun x i => by split <;> rfl) l v

theorem VRun.scaleAll_e (r : VRun) {source : Nat → Option (Nat × List Byte)} {pos : Nat → Option Nat} {bytes : Nat → List Byte} :
    ∀ (l : List Nat) (v : Vec), (∀ n ∈ l, source n = (pos n).map fun p => (p % 1024, bytes (p / 1024))) →
      (r.scaleAll source l v).e = l.foldl (putScale r.vt.bl v.scalebase.toNat pos bytes) v.e
  | [], _, _ => rfl
  | n :: l, v, h => by
    have ih := fun v' => VRun.scaleAll_e r l v' fun j hj => h j (List.mem_cons_of_mem n hj)
    unfold VRun.scaleAll at ih ⊢
    rw [List.foldl_cons, List.foldl_cons, ih, h n List.mem_cons_self, putScale]
    cases pos n <;> rfl

theorem segWrite_frame (r : VRun) (m : MReg) (d : VReg) (tag : Tag) (act : List Nat) (source : Nat → Option (Nat × List Byte)) :
    LoadFrame (r.segWrite m d tag act source) := fun hi fin x => by
  obtain ⟨w, hw⟩ : ∃ w, w = r.put m hi fin (segDst d tag act source) x := ⟨_, rfl⟩
  have hput := r.put_frame m hi fin (segDst d tag act source) x
  have hscale := congrArg (fun v : Vec => { v with v := x.v, tag := x.tag, bad := x.bad, told := x.told, e := x.e }) (r.scaleAll_frame source act w)
  rw [← hw] at hput
  unfold VRun.segWrite
  rw [← hw]
  exact hscale.trans (congrArg (fun v : Vec => { v with e := x.e }) hput)

section
variable {s : State} {k p hi : Nat} {e : Entry} {d : VReg} {c : Cls} {h : BitVec 2} {m : MReg}

/-- A `vld.shape` over MX segments all of which give their bytes (R50, R195). -/
theorem vldShape_segments (hmoves : s.Moves k p hi e) (hfpx : e.fpx = none) (hbad : (s.vec k).bad = [])
    (hgroup : groupOk e.vtype (d, .one) = true) (hheld : ∀ spots, s.vecHeld k e c spots = false) (a : XReg) {g : VReg} {t : Shape}
    (hlanes : (s.vec k).lanes ≠ 0) (ht : readShape .load ((s.vec k).recordWord g) = .ok t) (hmxs : t.mxs = true) (hsew : e.vtype.sew = 8)
    {bytes : Nat → List Byte} (hbytes : SegsLoad s k t (e.ops.getD 0 0) (Kinds.of (s.vec k) e false hi m).actives bytes) :
    let q := Kinds.of (s.vec k) e false hi m
    ∃ u, exec (.vldShape d a g c h m) s = .next u ∧ VecMemMoves s u k q.ends ∧ (s.vec k).Gathered (u.vec k) e q.ends q.hi ∧
      (q.start < q.vl →
        GroupWritten (s.vec k) (u.vec k) q d 8 t.tag (fun n => some (match walkPos t.ext t.start t.bounds n with
          | some x => segElem t.tag (bytes (x / 1024)) (x % 1024)
          | none => 0)) ∧
        (u.vec k).e = q.actives.foldl (putScale e.vtype.bl (s.vec k).scalebase.toNat (walkPos t.ext t.start t.bounds) bytes) (s.vec k).e) := by
  intro q
  obtain ⟨y, hy⟩ : ∃ y, y = { e.tally with stride := some (t.stride.getD 0 0) } := ⟨_, rfl⟩
  let r := (VRun.of (s.vec k) e false hi).tallied y
  have hact : r.actives m r.hi = q.actives := actives_eq (s.vec k) e false hi m
  obtain ⟨segs, runs, hplain⟩ := loadSegments_plain (s := s) (k := k) (r := r) (m := m) (d := d) (c := c) (h := h) (t := t) (bytes := bytes) hsew hheld
    (by rw [hact]; exact hbytes)
  rw [hact] at hplain
  obtain ⟨source, hsource⟩ : ∃ source, source = s.segSource k t (e.ops.getD 0 0) q.actives := ⟨_, rfl⟩
  have hsegs : ∀ n ∈ q.actives, source n = (walkPos t.ext t.start t.bounds n).map fun p => (p % 1024, bytes (p / 1024)) := fun n hn => by
    rw [hsource]
    exact hbytes.segSource hn
  have hexec : exec (.vldShape d a g c h m) s = loadSegments s k r m d c h t := by
    rw [hmoves.exec_vldShape hbad a hlanes ht]
    dsimp only
    rw [if_pos hmxs, ← hy]
  obtain ⟨y', hy'⟩ : ∃ y', r.gatherSegs s k (segSize t.tag) r.hi segs = (VRun.of (s.vec k) e false hi).tallied y' := ⟨_, rfl⟩
  have hplain := hexec.trans hplain
  rw [hy'] at hplain
  change _ = vecFinish s k _ m none none false (r.segWrite m d t.tag q.actives (s.segSource k t (e.ops.getD 0 0) q.actives)) _ _ at hplain
  rw [← hsource] at hplain
  by_cases hstart : q.start < q.vl
  · have hends : r.ends = q.ends := by
      unfold Kinds.ends
      rw [decide_eq_false (by omega), Bool.false_or]
      rfl
    obtain ⟨T, hT⟩ : ∃ T, T = s.readSegs k r h segs runs := ⟨_, rfl⟩
    have hdone : LoadDone s T k := by rw [hT]; exact readSegs_done s k r h segs runs
    have hnext := hplain.trans (vecFinish_writes (r := (VRun.of (s.vec k) e false hi).tallied y') hstart hfpx)
    obtain ⟨hmemory, hgathered⟩ := hdone.moves (e := e) (segWrite_frame r m d t.tag q.actives source) y' r.ends r.hi
    obtain ⟨b, hbv, hbtag, hbe⟩ := (T.vec k).loadedTo_files (r.segWrite m d t.tag q.actives source) { e with tally := y' } r.ends r.hi
    obtain ⟨x0, hx0⟩ : ∃ x0, x0 = (T.vec k).setEntry b := ⟨_, rfl⟩
    have hx0v : x0.v = (s.vec k).v := by rw [hx0]; exact (congrArg Vec.v hdone.vec :)
    have hx0tag : x0.tag = (s.vec k).tag := by rw [hx0]; exact (congrArg Vec.tag hdone.vec :)
    have hx0e : x0.e = (s.vec k).e := by rw [hx0]; exact (congrArg Vec.e hdone.vec :)
    have hx0base : x0.scalebase = (s.vec k).scalebase := by rw [hx0]; exact (congrArg Vec.scalebase hdone.vec :)
    rw [← hx0] at hbv hbtag hbe
    obtain ⟨w, hw⟩ : ∃ w, w = r.put m r.hi r.ends (segDst d t.tag q.actives source) x0 := ⟨_, rfl⟩
    have hframe := r.scaleAll_frame source q.actives w
    have hput := r.put_frame m r.hi r.ends (segDst d t.tag q.actives source) x0
    rw [← hw] at hput
    have hwrite : r.segWrite m d t.tag q.actives source r.hi r.ends x0 = r.scaleAll source q.actives w := by rw [hw]; rfl
    rw [hwrite] at hbv hbtag hbe
    have hwv : (r.scaleAll source q.actives w).v = w.v := (congrArg Vec.v hframe :)
    have hwtag : (r.scaleAll source q.actives w).tag = w.tag := (congrArg Vec.tag hframe :)
    have hwe : w.e = (s.vec k).e := (congrArg Vec.e hput :).trans hx0e
    have hwbase : w.scalebase = (s.vec k).scalebase := (congrArg Vec.scalebase hput :).trans hx0base
    rw [← hends]
    refine ⟨T.setVec k ((T.vec k).loadedTo (r.segWrite m d t.tag q.actives source) { e with tally := y' } r.ends r.hi), by rw [hT]; exact hnext,
      hmemory, hgathered, fun _ => ?_⟩
    rw [State.vec_setVec_self]
    refine ⟨?_, ?_⟩
    · refine (groupWritten_put (r := r) (m := m) (hi := r.hi) (d := d) (w := 8) (t := t.tag) (x := x0) rfl rfl (.inl ⟨hsew.symm, hgroup⟩) hx0v hx0tag
        (res := (segDst d t.tag q.actives source).res) ?_ ?_).congr fun n hn => ?_
      · rw [hbv, hwv, hw, hends]
        rfl
      · rw [hbtag, hwtag, hw, hends]
        rfl
      · have hmem : n ∈ q.actives := mem_actives.mpr hn
        unfold segDst
        dsimp only
        rw [if_pos (List.contains_iff_mem.mpr hmem), hsegs n hmem]
        cases walkPos t.ext t.start t.bounds n <;> rfl
    · rw [hbe, r.scaleAll_e q.actives w hsegs, hwe, hwbase]
      rfl
  · have hends : q.ends = true := by
      unfold Kinds.ends
      rw [decide_eq_true (by omega), Bool.true_or]
    obtain ⟨hmemory, hgathered⟩ := completes_moves s k e y' q.hi
    rw [hends]
    exact ⟨_, hplain.trans (if_pos (Nat.le_of_not_lt hstart)), hmemory, hgathered, fun hlt => absurd hlt hstart⟩

end

/-! ## The statement -/

/-- Settles O43: each form by elements is a load with given addresses (`loadRuns_of`), whose moves write what a read of memory finds and whose
first failing element traps; `vld.ff` settles VL where it ends, and MX segments are one read each. -/
theorem vectorLoads : Obligations.VectorLoads := by
  intro s k p hi e d a b g c h m code hmoves hfpx hbad hgroup hheld v vt w z q td op unit pair offset lane faults runs
  refine ⟨loadRuns_vldUnit hmoves hfpx hgroup hheld code a, loadRuns_vldStr hmoves hfpx hgroup hheld code a b,
    loadRuns_vld2d hmoves hfpx hgroup hheld code a b, fun hg => ?_, fun hvl => ⟨fun n hfirst => ?_, fun n => ?_, fun stop hloads hstop => ?_⟩,
    fun hlanes t ht => ⟨fun hmxs hw => loadRuns_vldShape hmoves hfpx hbad hgroup hheld code a hlanes ht hmxs hw, fun hmxs hsew bytes => ?_⟩,
    fun hlanes => hmoves.exec_vldShape_laneless hlanes a g⟩
  · have hidx := loadRuns_vldIdx hmoves hfpx hbad hgroup hheld (h := h) (m := m) code a hg
    simp only [Vec.offsetAt_eq] at hidx
    exact hidx
  · exact loadFaults_vldFf hmoves hfpx hgroup hheld hvl a n fun _ _ => .inl hfirst
  · exact loadFaults_vldFf hmoves hfpx hgroup hheld hvl a n fun _ hx => .inr hx
  · refine vldFf_ends hmoves hgroup hheld hvl a stop hloads (hstop.imp_right fun hfails => ?_)
    obtain ⟨hactive, hearlier, va, hea, hx⟩ := hfails
    exact ⟨hactive, hearlier, va, hx.elim (fun hx => ⟨7, hea, .inl rfl, hx⟩) fun hx => ⟨14, hea, .inr rfl, hx⟩⟩
  · intro pos segment hsegs
    exact vldShape_segments hmoves hfpx hbad hgroup hheld a hlanes ht hmxs hsew fun n x hn hx => hsegs n x (mem_actives.mp hn) hx

end Sys2Proof.Machine
end
